-- ==== Sys2Proof/Word.lean ====
section
/-! DEFINITION. The word types of the VZ-384 model and the plainest arithmetic on them. -/

namespace Sys2Proof

/-- A 64-bit scalar pattern (R74), a syllable or a program counter. -/
abbrev Word := BitVec 64

/-- One byte of any memory space. -/
abbrev Byte := BitVec 8

/-- A 1,024-bit vector register (R74). -/
abbrev Vec := BitVec 1024

/-- One 32-bit lane. -/
abbrev Lane := BitVec 32

end Sys2Proof
end

