-- ==== Sys2Proof/Syntax.lean ====
section
/-! DEFINITION. The instructions of the VZ-384: one constructor of `Instr` for each row of the opcode table.
An operation of a slot carries the common fields of its syllable (`Hdr`, R28) and the operand fields of its layout;
a bank-unit instruction carries its fields; an event row carries the index of the item it concerns, where it has one. -/

namespace Sys2Proof

/-- The slots of a bundle, in the order of R22. -/
inductive Slot where
  | S | V0 | V1 | M | C0 | C1 | B
  deriving DecidableEq, Repr

/-- The fields that every slot syllable carries (R28), with the slot it stands in. -/
structure Hdr where
  /-- the slot that the header assigns the syllable to -/
  slot : Slot
  /-- the leaf mask, bits 55:51 -/
  mask : BitVec 5
  /-- the guard predicate, bits 50:45 -/
  guard : BitVec 6
  /-- the guard sense, bit 44 -/
  sense : Bool
  /-- the duplicate-check bit D, bit 43 (R32) -/
  dup : Bool
  deriving DecidableEq, Repr

/-- Operand fields: no operand bits (layouts NX, BZ, MZ). -/
structure OpNone where
  deriving DecidableEq, Repr

/-- Operand fields: layout RR of R118. -/
structure OpRR where
  sd : BitVec 7
  sa : BitVec 7
  sb : BitVec 7
  deriving DecidableEq, Repr

/-- Operand fields: layout RI of R118. -/
structure OpRI where
  sd : BitVec 7
  sa : BitVec 7
  imm : BitVec 29
  deriving DecidableEq, Repr

/-- Operand fields: layout SH of R118. -/
structure OpSH where
  sd : BitVec 7
  sa : BitVec 7
  n : BitVec 6
  deriving DecidableEq, Repr

/-- Operand fields: layout LEA of R118. -/
structure OpLEA where
  sd : BitVec 7
  sa : BitVec 7
  sb : BitVec 7
  sh : BitVec 3
  deriving DecidableEq, Repr

/-- Operand fields: layout PR of R118. -/
structure OpPR where
  pd : BitVec 6
  sa : BitVec 7
  sb : BitVec 7
  deriving DecidableEq, Repr

/-- Operand fields: layout PI of R118. -/
structure OpPI where
  pd : BitVec 6
  sa : BitVec 7
  imm : BitVec 30
  deriving DecidableEq, Repr

/-- Operand fields: layout PL of R118. -/
structure OpPL where
  pd : BitVec 6
  pa : BitVec 6
  na : Bool
  pb : BitVec 6
  nb : Bool
  deriving DecidableEq, Repr

/-- Operand fields: layout PB of R118. -/
structure OpPB where
  pd : BitVec 6
  sa : BitVec 7
  n : BitVec 6
  deriving DecidableEq, Repr

/-- Operand fields: layout WI of R118. -/
structure OpWI where
  sd : BitVec 7
  imm : BitVec 32
  deriving DecidableEq, Repr

/-- Operand fields: layout CK of R118. -/
structure OpCK where
  sa : BitVec 7
  sb : BitVec 7
  deriving DecidableEq, Repr

/-- Operand fields: S.MOV of R90. -/
structure OpMOV where
  sd : BitVec 7
  sa : BitVec 7
  deriving DecidableEq, Repr

/-- Operand fields: S.RSW of R90. -/
structure OpRSW where
  sd : BitVec 7
  idx : BitVec 10
  deriving DecidableEq, Repr

/-- Operand fields: S.WSW of R90. -/
structure OpWSW where
  idx : BitVec 10
  sa : BitVec 7
  deriving DecidableEq, Repr

/-- Operand fields: S.RTAG of R90. -/
structure OpRTAG where
  sd : BitVec 7
  k : Bool
  reg : BitVec 10
  deriving DecidableEq, Repr

/-- Operand fields: S.WTAG of R90. -/
structure OpWTAG where
  k : Bool
  reg : BitVec 10
  tag : BitVec 4
  deriving DecidableEq, Repr

/-- Operand fields: S.MFROM of R90. -/
structure OpMFROM where
  sd : BitVec 7
  mn : BitVec 4
  deriving DecidableEq, Repr

/-- Operand fields: S.MTO of R90. -/
structure OpMTO where
  md : BitVec 4
  sa : BitVec 7
  deriving DecidableEq, Repr

/-- Operand fields: S.PGET of R90. -/
structure OpPGET where
  sd : BitVec 7
  deriving DecidableEq, Repr

/-- Operand fields: layout LF of R168, a load. -/
structure OpLFL where
  sd : BitVec 7
  sb : BitVec 7
  imm : BitVec 29
  deriving DecidableEq, Repr

/-- Operand fields: layout LF of R168, a store. -/
structure OpLFS where
  sa : BitVec 7
  sb : BitVec 7
  imm : BitVec 29
  deriving DecidableEq, Repr

/-- Operand fields: one scalar register: CX of R365, BA of R126, BA of R284, MR of R239. -/
structure OpSA where
  sa : BitVec 7
  deriving DecidableEq, Repr

/-- Operand fields: layout TI of R365. -/
structure OpTI where
  sa : BitVec 7
  sb : BitVec 7
  deriving DecidableEq, Repr

/-- Operand fields: layout CX of R365, S.CTXDONE. -/
structure OpCTXD where
  sa : BitVec 7
  deriving DecidableEq, Repr

/-- Operand fields: layout BD of R126. -/
structure OpBD where
  g : Bool
  disp : BitVec 32
  deriving DecidableEq, Repr

/-- Operand fields: layout BDL of R126. -/
structure OpBDL where
  g : Bool
  sd : BitVec 7
  disp : BitVec 32
  deriving DecidableEq, Repr

/-- Operand fields: layout BRG of R126. -/
structure OpBRG where
  g : Bool
  sa : BitVec 7
  deriving DecidableEq, Repr

/-- Operand fields: layout BRL of R126. -/
structure OpBRL where
  g : Bool
  sd : BitVec 7
  sa : BitVec 7
  deriving DecidableEq, Repr

/-- Operand fields: layout BRD of R126. -/
structure OpBRD where
  g : Bool
  sa : BitVec 7
  disp : BitVec 32
  deriving DecidableEq, Repr

/-- Operand fields: layout BWC of R126. -/
structure OpBWC where
  g : Bool
  pc : BitVec 6
  sense : Bool
  disp : BitVec 32
  deriving DecidableEq, Repr

/-- Operand fields: layout BT of R126. -/
structure OpBT where
  code : BitVec 16
  deriving DecidableEq, Repr

/-- Operand fields: layout BRG of R126 with G zero (B.TRAPR, R124). -/
structure OpBTR where
  sa : BitVec 7
  deriving DecidableEq, Repr

/-- Operand fields: layout BI of R126. -/
structure OpBI where
  imm : BitVec 32
  deriving DecidableEq, Repr

/-- Operand fields: layout BI of R126 with bits 31:8 zero (R131). -/
structure OpBI8 where
  imm : BitVec 8
  deriving DecidableEq, Repr

/-- Operand fields: layout BI of R126 with bits 31:1 zero (R131). -/
structure OpBI1 where
  imm : Bool
  deriving DecidableEq, Repr

/-- Operand fields: layout BM of R126. -/
structure OpBM where
  mask : BitVec 4
  deriving DecidableEq, Repr

/-- Operand fields: layout BL of R126. -/
structure OpBL where
  lc : BitVec 24
  stages : BitVec 8
  deriving DecidableEq, Repr

/-- Operand fields: layout VR of R137 with rnd zero; V.PERM, V.PERM8. -/
structure OpV3 where
  vd : BitVec 10
  va : BitVec 10
  vb : BitVec 10
  deriving DecidableEq, Repr

/-- Operand fields: layout VR of R137 with vb and rnd zero. -/
structure OpV2 where
  vd : BitVec 10
  va : BitVec 10
  deriving DecidableEq, Repr

/-- Operand fields: layout VR of R137. -/
structure OpV3R where
  vd : BitVec 10
  va : BitVec 10
  vb : BitVec 10
  rnd : BitVec 2
  deriving DecidableEq, Repr

/-- Operand fields: layout VC of R137 with vb and part zero. -/
structure OpV2R where
  vd : BitVec 10
  va : BitVec 10
  rnd : BitVec 2
  deriving DecidableEq, Repr

/-- Operand fields: layout VM of R137. -/
structure OpVM where
  md : BitVec 4
  va : BitVec 10
  vb : BitVec 10
  deriving DecidableEq, Repr

/-- Operand fields: layout VC of R137 with vb zero. -/
structure OpVCR where
  vd : BitVec 10
  va : BitVec 10
  rnd : BitVec 2
  part : BitVec 3
  deriving DecidableEq, Repr

/-- Operand fields: layout VC of R137 with vb and rnd zero. -/
structure OpVC where
  vd : BitVec 10
  va : BitVec 10
  part : BitVec 3
  deriving DecidableEq, Repr

/-- Operand fields: layout VQ of R137. -/
structure OpVQR where
  vd : BitVec 10
  va : BitVec 10
  rnd : BitVec 2
  mn : BitVec 4
  m : Bool
  deriving DecidableEq, Repr

/-- Operand fields: layout VQ of R137 with rnd zero. -/
structure OpVQ where
  vd : BitVec 10
  va : BitVec 10
  mn : BitVec 4
  m : Bool
  deriving DecidableEq, Repr

/-- Operand fields: layout VP of R137 with vb and mn zero. -/
structure OpVN where
  vd : BitVec 10
  va : BitVec 10
  n : BitVec 5
  deriving DecidableEq, Repr

/-- Operand fields: layout VP of R137 with mn zero. -/
structure OpVSL where
  vd : BitVec 10
  va : BitVec 10
  vb : BitVec 10
  n : BitVec 5
  deriving DecidableEq, Repr

/-- Operand fields: layout VP of R137 with n zero. -/
structure OpVSEL where
  vd : BitVec 10
  va : BitVec 10
  vb : BitVec 10
  mn : BitVec 4
  deriving DecidableEq, Repr

/-- Operand fields: layout VS of R137. -/
structure OpVS where
  vd : BitVec 10
  sa : BitVec 7
  tag : BitVec 4
  deriving DecidableEq, Repr

/-- Operand fields: layout VI of R137. -/
structure OpVI where
  vd : BitVec 10
  imm : BitVec 32
  deriving DecidableEq, Repr

/-- Operand fields: layout VL of R137, V0.SLD. -/
structure OpVLL where
  vd : BitVec 10
  tag : BitVec 4
  off : BitVec 13
  deriving DecidableEq, Repr

/-- Operand fields: layout VL of R137, V0.SLDX. -/
structure OpVLLX where
  vd : BitVec 10
  vb : BitVec 10
  tag : BitVec 4
  off : BitVec 13
  deriving DecidableEq, Repr

/-- Operand fields: layout VL of R137, V0.SST. -/
structure OpVLS where
  va : BitVec 10
  off : BitVec 13
  deriving DecidableEq, Repr

/-- Operand fields: layout VL of R137, V0.SSTX. -/
structure OpVLSX where
  va : BitVec 10
  vb : BitVec 10
  off : BitVec 13
  deriving DecidableEq, Repr

/-- Operand fields: layout VL of R137, V0.SSTM. -/
structure OpVLSM where
  va : BitVec 10
  mn : BitVec 4
  off : BitVec 13
  deriving DecidableEq, Repr

/-- Operand fields: layout VL of R137, V0.SSTXM. -/
structure OpVLSXM where
  va : BitVec 10
  vb : BitVec 10
  mn : BitVec 4
  off : BitVec 13
  deriving DecidableEq, Repr

/-- Operand fields: layout VD of R137, V1.LD and V1.LDB. -/
structure OpVDL where
  vd : BitVec 10
  tag : BitVec 4
  bn : BitVec 4
  off : BitVec 15
  deriving DecidableEq, Repr

/-- Operand fields: layout VD of R137, V1.ST. -/
structure OpVDS where
  va : BitVec 10
  bn : BitVec 4
  off : BitVec 15
  deriving DecidableEq, Repr

/-- Operand fields: layout VD of R137, V1.STM. -/
structure OpVDSM where
  va : BitVec 10
  mn : BitVec 4
  bn : BitVec 4
  off : BitVec 15
  deriving DecidableEq, Repr

/-- Operand fields: layout VD of R137, V1.GATH. -/
structure OpVDLX where
  vd : BitVec 10
  vb : BitVec 10
  tag : BitVec 4
  bn : BitVec 4
  off : BitVec 15
  deriving DecidableEq, Repr

/-- Operand fields: layout VD of R137, V1.SCAT. -/
structure OpVDSX where
  va : BitVec 10
  vb : BitVec 10
  bn : BitVec 4
  off : BitVec 15
  deriving DecidableEq, Repr

/-- Operand fields: layout VD of R137, V1.SCATM. -/
structure OpVDSXM where
  va : BitVec 10
  vb : BitVec 10
  mn : BitVec 4
  bn : BitVec 4
  off : BitVec 15
  deriving DecidableEq, Repr

/-- Operand fields: layout VG of R137, V1.GATHM. -/
structure OpVG where
  vd : BitVec 10
  vb : BitVec 10
  tag : BitVec 4
  bn : BitVec 4
  mn : BitVec 4
  off : BitVec 11
  deriving DecidableEq, Repr

/-- Operand fields: layout VE of R269, V.RFWD. -/
structure OpVEF where
  vd : BitVec 10
  va : BitVec 10
  part : BitVec 2
  set : BitVec 2
  deriving DecidableEq, Repr

/-- Operand fields: layout VE of R269, V.RREV. -/
structure OpVER where
  vd : BitVec 10
  va : BitVec 10
  rnd : BitVec 2
  part : BitVec 2
  set : BitVec 2
  dfmt : Bool
  oa : BitVec 3
  ob : BitVec 3
  deriving DecidableEq, Repr

/-- Operand fields: layout VE of R269, V.RCHK. -/
structure OpVEC where
  vd : BitVec 10
  va : BitVec 10
  md : BitVec 4
  set : BitVec 2
  oa : BitVec 3
  ob : BitVec 3
  deriving DecidableEq, Repr

/-- Operand fields: layout MP of R239, M.PUSH. -/
structure OpMP where
  ha : BitVec 3
  hb : BitVec 3
  deriving DecidableEq, Repr

/-- Operand fields: layout MP of R239, M.ACC and M.SHIFT. -/
structure OpMS where
  set : Bool
  deriving DecidableEq, Repr

/-- Operand fields: layout MP of R239, M.PA. -/
structure OpMPA where
  ha : BitVec 3
  hb : BitVec 3
  set : Bool
  deriving DecidableEq, Repr

/-- Operand fields: layout MD of R239. -/
structure OpMD where
  tn : BitVec 5
  row : BitVec 7
  line : BitVec 8
  deriving DecidableEq, Repr

/-- Operand fields: layout MH of R239. -/
structure OpMH where
  hn : BitVec 3
  row : BitVec 7
  deriving DecidableEq, Repr

/-- Operand fields: layout MP of R239, M.ZERO. -/
structure OpMZ where
  set : Bool
  n : Bool
  deriving DecidableEq, Repr

/-- Operand fields: layout MI of R239. -/
structure OpMI where
  afmt : BitVec 4
  bfmt : BitVec 4
  dfmt : BitVec 4
  wbase : BitVec 8
  deriving DecidableEq, Repr

/-- Operand fields: layout CM of R169, a scalar load. -/
structure OpCML where
  sd : BitVec 10
  sb : BitVec 7
  imm : BitVec 21
  deriving DecidableEq, Repr

/-- Operand fields: layout CM of R169, a scalar store. -/
structure OpCMS where
  sa : BitVec 10
  sb : BitVec 7
  g : Bool
  imm : BitVec 21
  deriving DecidableEq, Repr

/-- Operand fields: layout CM of R169, a vector load. -/
structure OpCMVL where
  vd : BitVec 10
  sb : BitVec 7
  tag : BitVec 4
  imm : BitVec 21
  deriving DecidableEq, Repr

/-- Operand fields: layout CM of R169, VST. -/
structure OpCMVS where
  va : BitVec 10
  sb : BitVec 7
  g : Bool
  imm : BitVec 21
  deriving DecidableEq, Repr

/-- Operand fields: layout CM of R169, VSTM. -/
structure OpCMVM where
  va : BitVec 10
  sb : BitVec 7
  mn : BitVec 4
  g : Bool
  imm : BitVec 21
  deriving DecidableEq, Repr

/-- Operand fields: C.SHLD and C.SHEV of R173. -/
structure OpSHL where
  ks : BitVec 5
  sb : BitVec 7
  imm : BitVec 21
  deriving DecidableEq, Repr

/-- Operand fields: layout CT of R174, TLD. -/
structure OpTLD where
  td : BitVec 5
  ks : BitVec 5
  sb : BitVec 7
  deriving DecidableEq, Repr

/-- Operand fields: layout CT of R174, TST. -/
structure OpTST where
  ta : BitVec 5
  ks : BitVec 5
  sb : BitVec 7
  w : Bool
  deriving DecidableEq, Repr

/-- Operand fields: layout CT of R174, TLDP. -/
structure OpTLDP where
  td : BitVec 5
  ks : BitVec 5
  sb : BitVec 7
  line : BitVec 8
  deriving DecidableEq, Repr

/-- Operand fields: layout CT of R174, TSTP. -/
structure OpTSTP where
  ta : BitVec 5
  ks : BitVec 5
  sb : BitVec 7
  w : Bool
  line : BitVec 8
  deriving DecidableEq, Repr

/-- Operand fields: layout CG of R177, gather. -/
structure OpCGL where
  td : BitVec 5
  tx : BitVec 5
  sb : BitVec 7
  w : Bool
  n1 : BitVec 12
  tag : BitVec 4
  deriving DecidableEq, Repr

/-- Operand fields: layout CG of R177, scatter. -/
structure OpCGS where
  ta : BitVec 5
  tx : BitVec 5
  sb : BitVec 7
  w : Bool
  n1 : BitVec 12
  tag : BitVec 4
  deriving DecidableEq, Repr

/-- Operand fields: layout CR of R180. -/
structure OpCR where
  hn : BitVec 3
  ks : BitVec 5
  sb : BitVec 7
  deriving DecidableEq, Repr

/-- Operand fields: layout CF of R181. -/
structure OpCF where
  vn : BitVec 10
  ks : BitVec 5
  sb : BitVec 7
  deriving DecidableEq, Repr

/-- Operand fields: layout CF of R185 with ks and sb zero. -/
structure OpCFV where
  vn : BitVec 10
  deriving DecidableEq, Repr

/-- Operand fields: C.FSTAT of R185. -/
structure OpCFS where
  sd : BitVec 7
  vn : BitVec 10
  deriving DecidableEq, Repr

/-- Operand fields: layout FN of R203. -/
structure OpFN where
  scope : BitVec 3
  deriving DecidableEq, Repr

/-- Operand fields: layout CA of R204, returning. -/
structure OpCAR where
  sd : BitVec 7
  sb : BitVec 7
  sa : BitVec 7
  imm : BitVec 15
  deriving DecidableEq, Repr

/-- Operand fields: layout CA of R204, not returning. -/
structure OpCAN where
  sb : BitVec 7
  sa : BitVec 7
  imm : BitVec 15
  deriving DecidableEq, Repr

/-- Operand fields: layout CA of R204, ACAS returning. -/
structure OpCACR where
  sd : BitVec 7
  sb : BitVec 7
  sa : BitVec 7
  sc : BitVec 7
  imm : BitVec 15
  deriving DecidableEq, Repr

/-- Operand fields: layout CA of R204, ACAS not returning. -/
structure OpCACN where
  sb : BitVec 7
  sa : BitVec 7
  sc : BitVec 7
  imm : BitVec 15
  deriving DecidableEq, Repr

/-- Operand fields: layout LQ of R220. -/
structure OpLQ where
  sd : BitVec 7
  sb : BitVec 7
  va : BitVec 10
  imm : BitVec 19
  deriving DecidableEq, Repr

/-- Operand fields: layout LB of R220, immediate. -/
structure OpLBI where
  sb : BitVec 7
  n : BitVec 16
  imm : BitVec 13
  deriving DecidableEq, Repr

/-- Operand fields: layout LB of R220, register. -/
structure OpLBR where
  sb : BitVec 7
  sa : BitVec 7
  imm : BitVec 13
  deriving DecidableEq, Repr

/-- Operand fields: layout LB of R220, BWAIT. -/
structure OpLBW where
  sd : BitVec 7
  sb : BitVec 7
  sa : BitVec 7
  imm : BitVec 13
  deriving DecidableEq, Repr

/-- Operand fields: layout BT of R284. -/
structure OpBeat where
  tag : BitVec 12
  deriving DecidableEq, Repr

/-- Operand fields: layout BT of R284, C1.BEAT off. -/
structure OpBOff where
  deriving DecidableEq, Repr

/-- Operand fields: layout BQ of R284. -/
structure OpBQ where
  sd : BitVec 7
  sb : BitVec 7
  deriving DecidableEq, Repr

/-- Operand fields: layout BW of R284. -/
structure OpBW where
  sb : BitVec 7
  tag : BitVec 12
  deriving DecidableEq, Repr

/-- Operand fields: layout BP of R284, PST. -/
structure OpPST where
  va : BitVec 10
  sb : BitVec 7
  w1 : BitVec 4
  i : Bool
  tag : BitVec 12
  deriving DecidableEq, Repr

/-- Operand fields: layout BP of R284, PSTM. -/
structure OpPSTM where
  va : BitVec 10
  sb : BitVec 7
  w1 : BitVec 4
  i : Bool
  tag : BitVec 12
  mn : BitVec 4
  deriving DecidableEq, Repr

/-- Operand fields: layout BP of R284, PLD. -/
structure OpPLD where
  vd : BitVec 10
  sb : BitVec 7
  fmt : BitVec 4
  w1 : BitVec 4
  i : Bool
  tag : BitVec 12
  deriving DecidableEq, Repr

/-- Operand fields: layout BK of R284. -/
structure OpBK where
  sa : BitVec 7
  sb : BitVec 7
  sc : BitVec 7
  i : Bool
  tag : BitVec 12
  deriving DecidableEq, Repr

/-- Operand fields: layout KL of R303. -/
structure OpKL where
  td : BitVec 5
  sa : BitVec 7
  sb : BitVec 7
  deriving DecidableEq, Repr

/-- Operand fields: layout KS of R303. -/
structure OpKS where
  ta : BitVec 5
  sa : BitVec 7
  sb : BitVec 7
  sc : BitVec 7
  w : Bool
  deriving DecidableEq, Repr

/-- Operand fields: layout KX of R303. -/
structure OpKX where
  sd : BitVec 7
  sa : BitVec 7
  sb : BitVec 7
  sc : BitVec 7
  deriving DecidableEq, Repr

/-- Operand fields: layout KX of R303 with sd and sc zero. -/
structure OpKF where
  sa : BitVec 7
  sb : BitVec 7
  deriving DecidableEq, Repr

/-- Operand fields: C1.CANCEL of R331. -/
structure OpCAN2 where
  level : BitVec 2
  sb : BitVec 7
  imm : BitVec 29
  deriving DecidableEq, Repr

/-- Operand fields: LNCH of R333. -/
structure OpLN where
  sd : BitVec 7
  sb : BitVec 7
  imm : BitVec 29
  deriving DecidableEq, Repr

/-- Fields of a bank-unit instruction below its opcode: the single-width forms of R290. -/
structure BkAr where
  t : BitVec 2
  w1 : BitVec 4
  pa : BitVec 7
  pb : BitVec 7
  s : Bool
  deriving DecidableEq, Repr

/-- Fields of a bank-unit instruction below its opcode: BK MUL and MAC of R290. -/
structure BkMul where
  t : BitVec 2
  wa1 : BitVec 4
  wb1 : BitVec 4
  pa : BitVec 7
  pb : BitVec 7
  s : Bool
  k : Bool
  deriving DecidableEq, Repr

/-- Fields of a bank-unit instruction below its opcode: BK CMP of R290. -/
structure BkCmp where
  t : BitVec 2
  w1 : BitVec 4
  l : BitVec 3
  pa : BitVec 7
  pb : BitVec 7
  s : Bool
  deriving DecidableEq, Repr

/-- Fields of a bank-unit instruction below its opcode: BK NEG of R290. -/
structure BkNeg where
  t : BitVec 2
  w1 : BitVec 4
  pa : BitVec 7
  s : Bool
  deriving DecidableEq, Repr

/-- Fields of a bank-unit instruction below its opcode: plane logic of R291. -/
structure BkP3 where
  t : BitVec 2
  ld : BitVec 3
  la : BitVec 3
  lb : BitVec 3
  deriving DecidableEq, Repr

/-- Fields of a bank-unit instruction below its opcode: BK PNOT and PMOV of R291. -/
structure BkP2 where
  t : BitVec 2
  ld : BitVec 3
  la : BitVec 3
  deriving DecidableEq, Repr

/-- Fields of a bank-unit instruction below its opcode: BK PFILL of R291. -/
structure BkFill where
  t : BitVec 2
  ld : BitVec 3
  v : Bool
  deriving DecidableEq, Repr

/-- Fields of a bank-unit instruction below its opcode: BK RRD and RWR of R291. -/
structure BkRow where
  t : BitVec 2
  l : BitVec 3
  p : BitVec 7
  deriving DecidableEq, Repr

/-- Fields of a bank-unit instruction below its opcode: BK RWRM of R291. -/
structure BkRowM where
  t : BitVec 2
  l : BitVec 3
  p : BitVec 7
  m : BitVec 3
  deriving DecidableEq, Repr

/-- Fields of a bank-unit instruction below its opcode: BK RRDS of R291. -/
structure BkRowS where
  t : BitVec 2
  l : BitVec 3
  p : BitVec 7
  n : BitVec 11
  deriving DecidableEq, Repr

/-- Fields of a bank-unit instruction below its opcode: BK LOOP of R292. -/
structure BkLoop where
  t : BitVec 2
  c : Bool
  sp : BitVec 7
  n1 : BitVec 16
  deriving DecidableEq, Repr

/-- Fields of a bank-unit instruction below its opcode: BK ENDL and ACLR of R292. -/
structure BkC where
  t : BitVec 2
  c : Bool
  deriving DecidableEq, Repr

/-- Fields of a bank-unit instruction below its opcode: BK WAIT of R292. -/
structure BkWait where
  t : BitVec 2
  n : BitVec 16
  deriving DecidableEq, Repr

/-- Fields of a bank-unit instruction below its opcode: BK HALT of R292. -/
structure BkNone where
  t : BitVec 2
  deriving DecidableEq, Repr

/-- Fields of a bank-unit instruction below its opcode: BK ARD of R292. -/
structure BkArd where
  t : BitVec 2
  k : Bool
  w1 : BitVec 4
  sh : BitVec 5
  p : BitVec 7
  deriving DecidableEq, Repr

/-- The T syllable (R38): shape, four tests with their senses and four leaf offsets. -/
structure TSyl where
  shape : BitVec 3
  pred0 : BitVec 6
  sense0 : Bool
  pred1 : BitVec 6
  sense1 : Bool
  pred2 : BitVec 6
  sense2 : Bool
  pred3 : BitVec 6
  sense3 : Bool
  leaf1 : BitVec 8
  leaf2 : BitVec 8
  leaf3 : BitVec 8
  leaf4 : BitVec 8
  deriving DecidableEq, Repr

/-- One constructor for each row of the opcode table. The condition trees and the bank-unit instructions stand first: a
constructor with fields can be built by compiled code only while its number is small. -/
inductive Instr where
  | tChain (t : TSyl)
  | tBal (t : TSyl)
  | bkAdd (f : BkAr)
  | bkSub (f : BkAr)
  | bkMul (f : BkMul)
  | bkMac (f : BkMul)
  | bkCmp (f : BkCmp)
  | bkMin (f : BkAr)
  | bkMax (f : BkAr)
  | bkNeg (f : BkNeg)
  | bkPand (f : BkP3)
  | bkPor (f : BkP3)
  | bkPxor (f : BkP3)
  | bkPnot (f : BkP2)
  | bkPmov (f : BkP2)
  | bkPfill (f : BkFill)
  | bkRrd (f : BkRow)
  | bkRwr (f : BkRow)
  | bkRwrm (f : BkRowM)
  | bkRrds (f : BkRowS)
  | bkLoop (f : BkLoop)
  | bkEndl (f : BkC)
  | bkWait (f : BkWait)
  | bkHalt (f : BkNone)
  | bkArd (f : BkArd)
  | bkAclr (f : BkC)
  | headerIssue
  | rendezvousPass
  | branchTransfer
  | resultLand
  | registerResultLand
  | tileTransferLand
  | slipIssue
  | fetchLine
  | storePerform
  | outboundPerform
  | l2LineLeave
  | flumeElementRead
  | flumeElementWrite
  | ringFillAppend
  | ringSpillWrite
  | dpairCompare
  | handlerEntry
  | preemptionRequest
  | preemptionEntry
  | resumeEntry
  | phaseOverrun
  | debugStep
  | unitStart
  | graphNodeStart
  | graphNodeComplete
  | landingSlotValid
  | pktNop
  | pktCopy
  | pktCopyReduce
  | pktLaunch
  | pktSignal
  | pktGraph
  | copyChunk
  | reduceChunk
  | slotStallTimeout
  | orchardChunk
  | accessBeatOpen
  | computeBeatOpen
  | computeBeatEnd
  | refreshGap
  | stretchLimit
  | workedAccessArrival
  | bankCommandArrival
  | eccUncorrectable
  | dirtyLineEviction
  | pageQuarantine
  | powerGood
  | dramLayerReady
  | temperatureBandChange
  | powerLoss
  | energyReconcile
  | mgmtConnection
  | msgWrite
  | msgRead
  | msgAtomicAdd
  | msgReduce
  | peerChunkReply
  | svcEnableQueue
  | svcDisableQueue
  | svcOrchardFill
  | svcAttestationReport
  | svcReadScaleTickets
  | svcRetireContext
  | svcRegisterContext
  | svcBindJob
  | svcReadServiceWord
  | svcSetPeer
  | lanemapWrite
  | baseRegisterWrite
  | statusWordWrite
  | sAdd (h : Hdr) (f : OpRR)
  | sSub (h : Hdr) (f : OpRR)
  | sMul (h : Hdr) (f : OpRR)
  | sMulh (h : Hdr) (f : OpRR)
  | sMulhu (h : Hdr) (f : OpRR)
  | sAnd (h : Hdr) (f : OpRR)
  | sOr (h : Hdr) (f : OpRR)
  | sXor (h : Hdr) (f : OpRR)
  | sShl (h : Hdr) (f : OpRR)
  | sShr (h : Hdr) (f : OpRR)
  | sSra (h : Hdr) (f : OpRR)
  | sMin (h : Hdr) (f : OpRR)
  | sMax (h : Hdr) (f : OpRR)
  | sMinu (h : Hdr) (f : OpRR)
  | sMaxu (h : Hdr) (f : OpRR)
  | sAdds (h : Hdr) (f : OpRR)
  | sAddi (h : Hdr) (f : OpRI)
  | sAndi (h : Hdr) (f : OpRI)
  | sOri (h : Hdr) (f : OpRI)
  | sXori (h : Hdr) (f : OpRI)
  | sShli (h : Hdr) (f : OpSH)
  | sShri (h : Hdr) (f : OpSH)
  | sSrai (h : Hdr) (f : OpSH)
  | sLea (h : Hdr) (f : OpLEA)
  | sCeq (h : Hdr) (f : OpPR)
  | sCne (h : Hdr) (f : OpPR)
  | sClt (h : Hdr) (f : OpPR)
  | sCle (h : Hdr) (f : OpPR)
  | sCltu (h : Hdr) (f : OpPR)
  | sCleu (h : Hdr) (f : OpPR)
  | sCeqi (h : Hdr) (f : OpPI)
  | sClti (h : Hdr) (f : OpPI)
  | sPand (h : Hdr) (f : OpPL)
  | sPor (h : Hdr) (f : OpPL)
  | sPxor (h : Hdr) (f : OpPL)
  | sPbit (h : Hdr) (f : OpPB)
  | sMov (h : Hdr) (f : OpMOV)
  | sRsw (h : Hdr) (f : OpRSW)
  | sWsw (h : Hdr) (f : OpWSW)
  | sRtag (h : Hdr) (f : OpRTAG)
  | sWtag (h : Hdr) (f : OpWTAG)
  | sMfrom (h : Hdr) (f : OpMFROM)
  | sMto (h : Hdr) (f : OpMTO)
  | sPget (h : Hdr) (f : OpPGET)
  | sLld (h : Hdr) (f : OpLFL)
  | sLlw (h : Hdr) (f : OpLFL)
  | sLst (h : Hdr) (f : OpLFS)
  | sLstw (h : Hdr) (f : OpLFS)
  | sLldAcq (h : Hdr) (f : OpLFL)
  | sLlwAcq (h : Hdr) (f : OpLFL)
  | sLstRel (h : Hdr) (f : OpLFS)
  | sLstwRel (h : Hdr) (f : OpLFS)
  | sCkt (h : Hdr) (f : OpCK)
  | sNxt (h : Hdr) (f : OpNone)
  | sCtxout (h : Hdr) (f : OpSA)
  | sCtxin (h : Hdr) (f : OpSA)
  | sCtxskip (h : Hdr) (f : OpNone)
  | sTlbinvAll (h : Hdr) (f : OpTI)
  | sTlbinvContext (h : Hdr) (f : OpTI)
  | sTlbinvPage (h : Hdr) (f : OpTI)
  | sTlbsync (h : Hdr) (f : OpNone)
  | sCtxdonePreempted (h : Hdr) (f : OpCTXD)
  | sCtxdoneFailed (h : Hdr) (f : OpCTXD)
  | sLil (h : Hdr) (f : OpWI)
  | sLih (h : Hdr) (f : OpWI)
  | sLis (h : Hdr) (f : OpWI)
  | sLpc (h : Hdr) (f : OpWI)
  | vAddI32 (h : Hdr) (f : OpV3)
  | vSubI32 (h : Hdr) (f : OpV3)
  | vMulI32 (h : Hdr) (f : OpV3)
  | vMulhI32 (h : Hdr) (f : OpV3)
  | vAddsI32 (h : Hdr) (f : OpV3)
  | vSubsI32 (h : Hdr) (f : OpV3)
  | vAddI16 (h : Hdr) (f : OpV3)
  | vAddsI16 (h : Hdr) (f : OpV3)
  | vAddI8 (h : Hdr) (f : OpV3)
  | vAddsI8 (h : Hdr) (f : OpV3)
  | vAddsZ8 (h : Hdr) (f : OpV3)
  | vMinI32 (h : Hdr) (f : OpV3)
  | vMaxI32 (h : Hdr) (f : OpV3)
  | vMinZ32 (h : Hdr) (f : OpV3)
  | vMaxZ32 (h : Hdr) (f : OpV3)
  | vAbsI32 (h : Hdr) (f : OpV2)
  | vAnd (h : Hdr) (f : OpV3)
  | vOr (h : Hdr) (f : OpV3)
  | vXor (h : Hdr) (f : OpV3)
  | vAndn (h : Hdr) (f : OpV3)
  | vShlI32 (h : Hdr) (f : OpV3)
  | vShrZ32 (h : Hdr) (f : OpV3)
  | vSraI32 (h : Hdr) (f : OpV3)
  | vDot4I8 (h : Hdr) (f : OpV3)
  | vAddF32 (h : Hdr) (f : OpV3R)
  | vSubF32 (h : Hdr) (f : OpV3R)
  | vMulF32 (h : Hdr) (f : OpV3R)
  | vFmaF32 (h : Hdr) (f : OpV3R)
  | vFmsF32 (h : Hdr) (f : OpV3R)
  | vFnmaF32 (h : Hdr) (f : OpV3R)
  | vMinF32 (h : Hdr) (f : OpV3)
  | vMaxF32 (h : Hdr) (f : OpV3)
  | vAddF16 (h : Hdr) (f : OpV3R)
  | vSubF16 (h : Hdr) (f : OpV3R)
  | vMulF16 (h : Hdr) (f : OpV3R)
  | vFmaF16 (h : Hdr) (f : OpV3R)
  | vMinF16 (h : Hdr) (f : OpV3)
  | vMaxF16 (h : Hdr) (f : OpV3)
  | vAddB16 (h : Hdr) (f : OpV3R)
  | vSubB16 (h : Hdr) (f : OpV3R)
  | vMulB16 (h : Hdr) (f : OpV3R)
  | vFmaB16 (h : Hdr) (f : OpV3R)
  | vMinB16 (h : Hdr) (f : OpV3)
  | vMaxB16 (h : Hdr) (f : OpV3)
  | vRcpF32 (h : Hdr) (f : OpV2)
  | vRsqF32 (h : Hdr) (f : OpV2)
  | vExp2F32 (h : Hdr) (f : OpV2)
  | vLog2F32 (h : Hdr) (f : OpV2)
  | vRcpF16 (h : Hdr) (f : OpV2)
  | vRsqF16 (h : Hdr) (f : OpV2)
  | vExp2F16 (h : Hdr) (f : OpV2)
  | vLog2F16 (h : Hdr) (f : OpV2)
  | vCeqI32 (h : Hdr) (f : OpVM)
  | vCltI32 (h : Hdr) (f : OpVM)
  | vCleI32 (h : Hdr) (f : OpVM)
  | vCltZ32 (h : Hdr) (f : OpVM)
  | vCeqF32 (h : Hdr) (f : OpVM)
  | vCltF32 (h : Hdr) (f : OpVM)
  | vCleF32 (h : Hdr) (f : OpVM)
  | vCunF32 (h : Hdr) (f : OpVM)
  | vCvtF32 (h : Hdr) (f : OpVCR)
  | vCvtF16 (h : Hdr) (f : OpVCR)
  | vCvtB16 (h : Hdr) (f : OpVCR)
  | vCvtE4 (h : Hdr) (f : OpVCR)
  | vCvtE5 (h : Hdr) (f : OpVCR)
  | vCvtI32 (h : Hdr) (f : OpVCR)
  | vCvtI16 (h : Hdr) (f : OpVCR)
  | vCvtI8 (h : Hdr) (f : OpVCR)
  | vCvtZ32 (h : Hdr) (f : OpVCR)
  | vCvtZ16 (h : Hdr) (f : OpVCR)
  | vCvtZ8 (h : Hdr) (f : OpVCR)
  | vCvtc (h : Hdr) (f : OpVC)
  | vRintF32 (h : Hdr) (f : OpV2R)
  | vScaleF32 (h : Hdr) (f : OpV3R)
  | vExpoF32 (h : Hdr) (f : OpV2)
  | vPackI4 (h : Hdr) (f : OpVC)
  | vUnpkI4 (h : Hdr) (f : OpVC)
  | vPackX4 (h : Hdr) (f : OpVCR)
  | vUnpkX4 (h : Hdr) (f : OpVC)
  | vRaddF32 (h : Hdr) (f : OpVQR)
  | vRaddF16 (h : Hdr) (f : OpVQR)
  | vRaddI32 (h : Hdr) (f : OpVQ)
  | vRmaxF32 (h : Hdr) (f : OpVQ)
  | vRminF32 (h : Hdr) (f : OpVQ)
  | vRmaxI32 (h : Hdr) (f : OpVQ)
  | vPerm (h : Hdr) (f : OpV3)
  | vPerm8 (h : Hdr) (f : OpV3)
  | vRot (h : Hdr) (f : OpVN)
  | vSlide (h : Hdr) (f : OpVSL)
  | vBcast (h : Hdr) (f : OpVN)
  | vBcs (h : Hdr) (f : OpVS)
  | vSel (h : Hdr) (f : OpVSEL)
  | vIota (h : Hdr) (f : OpVI)
  | v0Sld (h : Hdr) (f : OpVLL)
  | v0Sldx (h : Hdr) (f : OpVLLX)
  | v0Sst (h : Hdr) (f : OpVLS)
  | v0Sstx (h : Hdr) (f : OpVLSX)
  | v0Sstm (h : Hdr) (f : OpVLSM)
  | v0Sstxm (h : Hdr) (f : OpVLSXM)
  | v1Ld (h : Hdr) (f : OpVDL)
  | v1St (h : Hdr) (f : OpVDS)
  | v1Ldb (h : Hdr) (f : OpVDL)
  | v1Stm (h : Hdr) (f : OpVDSM)
  | v1Gath (h : Hdr) (f : OpVDLX)
  | v1Gathm (h : Hdr) (f : OpVG)
  | v1Scat (h : Hdr) (f : OpVDSX)
  | v1Scatm (h : Hdr) (f : OpVDSXM)
  | vRfwd (h : Hdr) (f : OpVEF)
  | vRrev (h : Hdr) (f : OpVER)
  | vRchk (h : Hdr) (f : OpVEC)
  | mPush (h : Hdr) (f : OpMP)
  | mAcc (h : Hdr) (f : OpMS)
  | mPa (h : Hdr) (f : OpMPA)
  | mShift (h : Hdr) (f : OpMS)
  | mDrainTile (h : Hdr) (f : OpMD)
  | mDrainRing (h : Hdr) (f : OpMH)
  | mZero (h : Hdr) (f : OpMZ)
  | mCfgImm (h : Hdr) (f : OpMI)
  | mCfgReg (h : Hdr) (f : OpSA)
  | mFence (h : Hdr) (f : OpNone)
  | cLdd (h : Hdr) (f : OpCML)
  | cLdw (h : Hdr) (f : OpCML)
  | cLdh (h : Hdr) (f : OpCML)
  | cLdb (h : Hdr) (f : OpCML)
  | cStd (h : Hdr) (f : OpCMS)
  | cStw (h : Hdr) (f : OpCMS)
  | cSth (h : Hdr) (f : OpCMS)
  | cStb (h : Hdr) (f : OpCMS)
  | cVld (h : Hdr) (f : OpCMVL)
  | cVst (h : Hdr) (f : OpCMVS)
  | cVstm (h : Hdr) (f : OpCMVM)
  | cVldb (h : Hdr) (f : OpCMVL)
  | cLddAcq (h : Hdr) (f : OpCML)
  | cLdwAcq (h : Hdr) (f : OpCML)
  | cStdRel (h : Hdr) (f : OpCMS)
  | cStwRel (h : Hdr) (f : OpCMS)
  | cTld (h : Hdr) (f : OpTLD)
  | cTst (h : Hdr) (f : OpTST)
  | cTldp (h : Hdr) (f : OpTLDP)
  | cTstp (h : Hdr) (f : OpTSTP)
  | c1TldAcq (h : Hdr) (f : OpTLD)
  | c1TstRel (h : Hdr) (f : OpTST)
  | cShld (h : Hdr) (f : OpSHL)
  | cShev (h : Hdr) (f : OpSHL)
  | cFarm (h : Hdr) (f : OpCF)
  | cFstop (h : Hdr) (f : OpCFV)
  | cFwait (h : Hdr) (f : OpCFV)
  | cFstat (h : Hdr) (f : OpCFS)
  | c1Rfill (h : Hdr) (f : OpCR)
  | c1Rspill (h : Hdr) (f : OpCR)
  | c1Gath (h : Hdr) (f : OpCGL)
  | c1Scat (h : Hdr) (f : OpCGS)
  | c1AaddI32 (h : Hdr) (f : OpCAR)
  | c1AaddI64 (h : Hdr) (f : OpCAR)
  | c1AaddI32Nr (h : Hdr) (f : OpCAN)
  | c1AaddI64Nr (h : Hdr) (f : OpCAN)
  | c1AminI32 (h : Hdr) (f : OpCAR)
  | c1AminI64 (h : Hdr) (f : OpCAR)
  | c1AminI32Nr (h : Hdr) (f : OpCAN)
  | c1AminI64Nr (h : Hdr) (f : OpCAN)
  | c1AmaxI32 (h : Hdr) (f : OpCAR)
  | c1AmaxI64 (h : Hdr) (f : OpCAR)
  | c1AmaxI32Nr (h : Hdr) (f : OpCAN)
  | c1AmaxI64Nr (h : Hdr) (f : OpCAN)
  | c1AandI32 (h : Hdr) (f : OpCAR)
  | c1AandI64 (h : Hdr) (f : OpCAR)
  | c1AandI32Nr (h : Hdr) (f : OpCAN)
  | c1AandI64Nr (h : Hdr) (f : OpCAN)
  | c1AorI32 (h : Hdr) (f : OpCAR)
  | c1AorI64 (h : Hdr) (f : OpCAR)
  | c1AorI32Nr (h : Hdr) (f : OpCAN)
  | c1AorI64Nr (h : Hdr) (f : OpCAN)
  | c1AxorI32 (h : Hdr) (f : OpCAR)
  | c1AxorI64 (h : Hdr) (f : OpCAR)
  | c1AxorI32Nr (h : Hdr) (f : OpCAN)
  | c1AxorI64Nr (h : Hdr) (f : OpCAN)
  | c1AswpI32 (h : Hdr) (f : OpCAR)
  | c1AswpI64 (h : Hdr) (f : OpCAR)
  | c1AswpI32Nr (h : Hdr) (f : OpCAN)
  | c1AswpI64Nr (h : Hdr) (f : OpCAN)
  | c1AcasI32 (h : Hdr) (f : OpCACR)
  | c1AcasI64 (h : Hdr) (f : OpCACR)
  | c1AcasI32Nr (h : Hdr) (f : OpCACN)
  | c1AcasI64Nr (h : Hdr) (f : OpCACN)
  | cFenceRel (h : Hdr) (f : OpFN)
  | cFenceAcq (h : Hdr) (f : OpFN)
  | cFenceFull (h : Hdr) (f : OpFN)
  | cFenceWRel (h : Hdr) (f : OpFN)
  | cFenceWAcq (h : Hdr) (f : OpFN)
  | cFenceWFull (h : Hdr) (f : OpFN)
  | c1Qapp (h : Hdr) (f : OpLQ)
  | cBarm (h : Hdr) (f : OpLBI)
  | cBarmr (h : Hdr) (f : OpLBR)
  | cBsig (h : Hdr) (f : OpLBI)
  | cBsigr (h : Hdr) (f : OpLBR)
  | cBwait (h : Hdr) (f : OpLBW)
  | c1Beat (h : Hdr) (f : OpBeat)
  | c1BeatOff (h : Hdr) (f : OpBOff)
  | c1Beatr (h : Hdr) (f : OpSA)
  | c1Beatrd (h : Hdr) (f : OpBQ)
  | c1Beatw (h : Hdr) (f : OpBW)
  | c1Pst (h : Hdr) (f : OpPST)
  | c1Pstm (h : Hdr) (f : OpPSTM)
  | c1Pld (h : Hdr) (f : OpPLD)
  | c1Bkrun (h : Hdr) (f : OpBK)
  | c1KvldF16 (h : Hdr) (f : OpKL)
  | c1KvldI8 (h : Hdr) (f : OpKL)
  | c1Kvst (h : Hdr) (f : OpKS)
  | c1Kvx (h : Hdr) (f : OpKX)
  | c1Kvho (h : Hdr) (f : OpKX)
  | c1Kvfree (h : Hdr) (f : OpKF)
  | c1Cancel (h : Hdr) (f : OpCAN2)
  | cLnch (h : Hdr) (f : OpLN)
  | bBr (h : Hdr) (f : OpBD)
  | bBri (h : Hdr) (f : OpBRG)
  | bCall (h : Hdr) (f : OpBDL)
  | bCalli (h : Hdr) (f : OpBRL)
  | bRet (h : Hdr) (f : OpBRG)
  | bBrx (h : Hdr) (f : OpBRD)
  | bDbnz (h : Hdr) (f : OpBRD)
  | bLoop (h : Hdr) (f : OpBD)
  | bPcnt (h : Hdr) (f : OpBD)
  | bPcntx (h : Hdr) (f : OpBD)
  | bPwhl (h : Hdr) (f : OpBWC)
  | bPwhlx (h : Hdr) (f : OpBWC)
  | bEnd (h : Hdr) (f : OpNone)
  | bTrap (h : Hdr) (f : OpBT)
  | bTrapr (h : Hdr) (f : OpBTR)
  | bRft (h : Hdr) (f : OpNone)
  | bSetlc (h : Hdr) (f : OpSA)
  | bSetlci (h : Hdr) (f : OpBI)
  | bSetdp (h : Hdr) (f : OpSA)
  | bSetdpi (h : Hdr) (f : OpBI8)
  | bRot (h : Hdr) (f : OpBM)
  | bRotclr (h : Hdr) (f : OpBM)
  | bStage (h : Hdr) (f : OpBI1)
  | bLoopset (h : Hdr) (f : OpBL)
  | noLoopBoundaryReached
  | holdEnd
  | malformedMessage
  deriving DecidableEq, Repr

end Sys2Proof
end

