-- ==== Sys2Proof/WellFormed.lean ====
section
/-! DEFINITION. Which instructions are encodings of the machine: the register-field ranges, the slot rules and the
unused-field rules whose breach raises the decode trap (R31, R43, R44 to R49, R74, R88, R90, R269). -/

namespace Sys2Proof

/-- A vector register field is in range (R31). -/
def vecOk (v : BitVec 10) : Bool := decide (v.toNat < 768)

/-- The status-word indices of R88 that are not reserved. -/
def statusIndexDefined (i : BitVec 10) : Bool :=
  let n := i.toNat
  decide (n ≤ 0x003) || (decide (0x008 ≤ n) && decide (n ≤ 0x00B)) ||
  (decide (0x010 ≤ n) && decide (n ≤ 0x014)) || (decide (0x020 ≤ n) && decide (n ≤ 0x024)) ||
  (decide (0x028 ≤ n) && decide (n ≤ 0x029)) || (decide (0x030 ≤ n) && decide (n ≤ 0x032)) ||
  decide (n = 0x038) || (decide (0x040 ≤ n) && decide (n ≤ 0x049)) ||
  (decide (0x060 ≤ n) && decide (n ≤ 0x06F))

/-- The register field of S.RTAG and S.WTAG is in range for its kind bit (R90). -/
def tagRegOk (k : Bool) (r : BitVec 10) : Bool :=
  if k then decide (r.toNat < 32) else decide (r.toNat < 768)

/-- An omit value of R269: 0 to 5, or 111b when none is named. -/
def omitOk (k : BitVec 3) : Bool := decide (k.toNat ≠ 6)

/-- The set, part and omit rules of R269 for V.RFWD. -/
def rfwdOk (f : OpVEF) : Bool :=
  decide (f.set.toNat < 3) && (f.set == 2#2 || decide (f.part.toNat < 2))

/-- The two omit values of R269 may both name a lane only for narrow words. -/
def omitPairOk (set : BitVec 2) (oa ob : BitVec 3) : Bool :=
  omitOk oa && omitOk ob && !(set == 2#2 && oa != 7#3 && ob != 7#3)

/-- The rules of R269 for V.RREV. -/
def rrevOk (f : OpVER) : Bool :=
  (f.set == 0#2 || f.set == 2#2) && (f.set == 2#2 || decide (f.part.toNat < 2)) &&
  (f.dfmt || f.rnd == 0#2) && omitPairOk f.set f.oa f.ob

/-- The rules of R269 for V.RCHK. -/
def rchkOk (f : OpVEC) : Bool :=
  (f.set == 0#2 || f.set == 2#2) && omitPairOk f.set f.oa f.ob

/-- A beat tag written `now` has its tag field zero (R284). -/
def beatTagOk (i : Bool) (tag : BitVec 12) : Bool := !i || tag == 0#12

/-- The common fields of a slot syllable: the leaf mask is not empty (R29), and D = 1 only in V1 on a
duplicable opcode (R32). -/
def Hdr.ok (h : Hdr) (duplicable : Bool) : Bool :=
  h.mask != 0#5 && (!h.dup || (duplicable && h.slot == .V1))

/-- The fields of unused tests and leaves are zero, and the shape is not reserved (R39). -/
def TSyl.restZero (t : TSyl) : Bool :=
  let n := t.shape.toNat
  let c2 := t.pred2 == 0#6 && !t.sense2
  let c3 := t.pred3 == 0#6 && !t.sense3
  if n = 0 then t.pred1 == 0#6 && !t.sense1 && c2 && c3 && t.leaf2 == 0#8 && t.leaf3 == 0#8 && t.leaf4 == 0#8
  else if n = 1 then c2 && c3 && t.leaf3 == 0#8 && t.leaf4 == 0#8
  else if n = 2 then c3 && t.leaf4 == 0#8
  else if n = 3 then true
  else if n = 4 then c3 && t.leaf4 == 0#8
  else decide (n = 5)

/-- Range rules of the fields of `OpRSW`. -/
def OpRSW.ok (f : OpRSW) : Bool :=
  statusIndexDefined f.idx

/-- Range rules of the fields of `OpWSW`. -/
def OpWSW.ok (f : OpWSW) : Bool :=
  statusIndexDefined f.idx

/-- Range rules of the fields of `OpRTAG`. -/
def OpRTAG.ok (f : OpRTAG) : Bool :=
  tagRegOk f.k f.reg

/-- Range rules of the fields of `OpWTAG`. -/
def OpWTAG.ok (f : OpWTAG) : Bool :=
  tagRegOk f.k f.reg

/-- Range rules of the fields of `OpV3`. -/
def OpV3.ok (f : OpV3) : Bool :=
  vecOk f.vd && vecOk f.va && vecOk f.vb

/-- Range rules of the fields of `OpV2`. -/
def OpV2.ok (f : OpV2) : Bool :=
  vecOk f.vd && vecOk f.va

/-- Range rules of the fields of `OpV3R`. -/
def OpV3R.ok (f : OpV3R) : Bool :=
  vecOk f.vd && vecOk f.va && vecOk f.vb

/-- Range rules of the fields of `OpV2R`. -/
def OpV2R.ok (f : OpV2R) : Bool :=
  vecOk f.vd && vecOk f.va

/-- Range rules of the fields of `OpVM`. -/
def OpVM.ok (f : OpVM) : Bool :=
  vecOk f.va && vecOk f.vb

/-- Range rules of the fields of `OpVCR`. -/
def OpVCR.ok (f : OpVCR) : Bool :=
  vecOk f.vd && vecOk f.va

/-- Range rules of the fields of `OpVC`. -/
def OpVC.ok (f : OpVC) : Bool :=
  vecOk f.vd && vecOk f.va

/-- Range rules of the fields of `OpVQR`. -/
def OpVQR.ok (f : OpVQR) : Bool :=
  vecOk f.vd && vecOk f.va && (f.m || f.mn == 0#4)

/-- Range rules of the fields of `OpVQ`. -/
def OpVQ.ok (f : OpVQ) : Bool :=
  vecOk f.vd && vecOk f.va && (f.m || f.mn == 0#4)

/-- Range rules of the fields of `OpVN`. -/
def OpVN.ok (f : OpVN) : Bool :=
  vecOk f.vd && vecOk f.va

/-- Range rules of the fields of `OpVSL`. -/
def OpVSL.ok (f : OpVSL) : Bool :=
  vecOk f.vd && vecOk f.va && vecOk f.vb

/-- Range rules of the fields of `OpVSEL`. -/
def OpVSEL.ok (f : OpVSEL) : Bool :=
  vecOk f.vd && vecOk f.va && vecOk f.vb

/-- Range rules of the fields of `OpVS`. -/
def OpVS.ok (f : OpVS) : Bool :=
  vecOk f.vd

/-- Range rules of the fields of `OpVI`. -/
def OpVI.ok (f : OpVI) : Bool :=
  vecOk f.vd

/-- Range rules of the fields of `OpVLL`. -/
def OpVLL.ok (f : OpVLL) : Bool :=
  vecOk f.vd

/-- Range rules of the fields of `OpVLLX`. -/
def OpVLLX.ok (f : OpVLLX) : Bool :=
  vecOk f.vd && vecOk f.vb

/-- Range rules of the fields of `OpVLS`. -/
def OpVLS.ok (f : OpVLS) : Bool :=
  vecOk f.va

/-- Range rules of the fields of `OpVLSX`. -/
def OpVLSX.ok (f : OpVLSX) : Bool :=
  vecOk f.va && vecOk f.vb

/-- Range rules of the fields of `OpVLSM`. -/
def OpVLSM.ok (f : OpVLSM) : Bool :=
  vecOk f.va

/-- Range rules of the fields of `OpVLSXM`. -/
def OpVLSXM.ok (f : OpVLSXM) : Bool :=
  vecOk f.va && vecOk f.vb

/-- Range rules of the fields of `OpVDL`. -/
def OpVDL.ok (f : OpVDL) : Bool :=
  vecOk f.vd

/-- Range rules of the fields of `OpVDS`. -/
def OpVDS.ok (f : OpVDS) : Bool :=
  vecOk f.va

/-- Range rules of the fields of `OpVDSM`. -/
def OpVDSM.ok (f : OpVDSM) : Bool :=
  vecOk f.va

/-- Range rules of the fields of `OpVDLX`. -/
def OpVDLX.ok (f : OpVDLX) : Bool :=
  vecOk f.vd && vecOk f.vb

/-- Range rules of the fields of `OpVDSX`. -/
def OpVDSX.ok (f : OpVDSX) : Bool :=
  vecOk f.va && vecOk f.vb

/-- Range rules of the fields of `OpVDSXM`. -/
def OpVDSXM.ok (f : OpVDSXM) : Bool :=
  vecOk f.va && vecOk f.vb

/-- Range rules of the fields of `OpVG`. -/
def OpVG.ok (f : OpVG) : Bool :=
  vecOk f.vd && vecOk f.vb

/-- Range rules of the fields of `OpVEF`. -/
def OpVEF.ok (f : OpVEF) : Bool :=
  vecOk f.vd && vecOk f.va && rfwdOk f

/-- Range rules of the fields of `OpVER`. -/
def OpVER.ok (f : OpVER) : Bool :=
  vecOk f.vd && vecOk f.va && rrevOk f

/-- Range rules of the fields of `OpVEC`. -/
def OpVEC.ok (f : OpVEC) : Bool :=
  vecOk f.vd && vecOk f.va && rchkOk f

/-- Range rules of the fields of `OpCML`. -/
def OpCML.ok (f : OpCML) : Bool :=
  decide (f.sd.toNat < 128)

/-- Range rules of the fields of `OpCMS`. -/
def OpCMS.ok (f : OpCMS) : Bool :=
  decide (f.sa.toNat < 128)

/-- Range rules of the fields of `OpCMVL`. -/
def OpCMVL.ok (f : OpCMVL) : Bool :=
  vecOk f.vd

/-- Range rules of the fields of `OpCMVS`. -/
def OpCMVS.ok (f : OpCMVS) : Bool :=
  vecOk f.va

/-- Range rules of the fields of `OpCMVM`. -/
def OpCMVM.ok (f : OpCMVM) : Bool :=
  vecOk f.va

/-- Range rules of the fields of `OpCF`. -/
def OpCF.ok (f : OpCF) : Bool :=
  vecOk f.vn

/-- Range rules of the fields of `OpCFV`. -/
def OpCFV.ok (f : OpCFV) : Bool :=
  vecOk f.vn

/-- Range rules of the fields of `OpCFS`. -/
def OpCFS.ok (f : OpCFS) : Bool :=
  vecOk f.vn

/-- Range rules of the fields of `OpFN`. -/
def OpFN.ok (f : OpFN) : Bool :=
  decide (f.scope.toNat ≤ 4)

/-- Range rules of the fields of `OpLQ`. -/
def OpLQ.ok (f : OpLQ) : Bool :=
  vecOk f.va

/-- Range rules of the fields of `OpPST`. -/
def OpPST.ok (f : OpPST) : Bool :=
  vecOk f.va && beatTagOk f.i f.tag

/-- Range rules of the fields of `OpPSTM`. -/
def OpPSTM.ok (f : OpPSTM) : Bool :=
  vecOk f.va && beatTagOk f.i f.tag

/-- Range rules of the fields of `OpPLD`. -/
def OpPLD.ok (f : OpPLD) : Bool :=
  vecOk f.vd && beatTagOk f.i f.tag

/-- Range rules of the fields of `OpBK`. -/
def OpBK.ok (f : OpBK) : Bool :=
  beatTagOk f.i f.tag

/-- An instruction is well formed when its encoding raises no decode trap by itself. -/
def Instr.wf (i : Instr) : Bool :=
  match i with
  | .tChain t => decide (t.shape.toNat < 4) && t.restZero
  | .tBal t => decide (3 < t.shape.toNat) && t.restZero
  | .bkAdd _ => true
  | .bkSub _ => true
  | .bkMul _ => true
  | .bkMac _ => true
  | .bkCmp _ => true
  | .bkMin _ => true
  | .bkMax _ => true
  | .bkNeg _ => true
  | .bkPand _ => true
  | .bkPor _ => true
  | .bkPxor _ => true
  | .bkPnot _ => true
  | .bkPmov _ => true
  | .bkPfill _ => true
  | .bkRrd _ => true
  | .bkRwr _ => true
  | .bkRwrm _ => true
  | .bkRrds _ => true
  | .bkLoop _ => true
  | .bkEndl _ => true
  | .bkWait _ => true
  | .bkHalt _ => true
  | .bkArd _ => true
  | .bkAclr _ => true
  | .headerIssue => true
  | .rendezvousPass => true
  | .branchTransfer => true
  | .resultLand => true
  | .registerResultLand => true
  | .tileTransferLand => true
  | .slipIssue => true
  | .fetchLine => true
  | .storePerform => true
  | .outboundPerform => true
  | .l2LineLeave => true
  | .flumeElementRead => true
  | .flumeElementWrite => true
  | .ringFillAppend => true
  | .ringSpillWrite => true
  | .dpairCompare => true
  | .handlerEntry => true
  | .preemptionRequest => true
  | .preemptionEntry => true
  | .resumeEntry => true
  | .phaseOverrun => true
  | .debugStep => true
  | .unitStart => true
  | .graphNodeStart => true
  | .graphNodeComplete => true
  | .landingSlotValid => true
  | .pktNop => true
  | .pktCopy => true
  | .pktCopyReduce => true
  | .pktLaunch => true
  | .pktSignal => true
  | .pktGraph => true
  | .copyChunk => true
  | .reduceChunk => true
  | .slotStallTimeout => true
  | .orchardChunk => true
  | .accessBeatOpen => true
  | .computeBeatOpen => true
  | .computeBeatEnd => true
  | .refreshGap => true
  | .stretchLimit => true
  | .workedAccessArrival => true
  | .bankCommandArrival => true
  | .eccUncorrectable => true
  | .dirtyLineEviction => true
  | .pageQuarantine => true
  | .powerGood => true
  | .dramLayerReady => true
  | .temperatureBandChange => true
  | .powerLoss => true
  | .energyReconcile => true
  | .mgmtConnection => true
  | .msgWrite => true
  | .msgRead => true
  | .msgAtomicAdd => true
  | .msgReduce => true
  | .peerChunkReply => true
  | .svcEnableQueue => true
  | .svcDisableQueue => true
  | .svcOrchardFill => true
  | .svcAttestationReport => true
  | .svcReadScaleTickets => true
  | .svcRetireContext => true
  | .svcRegisterContext => true
  | .svcBindJob => true
  | .svcReadServiceWord => true
  | .svcSetPeer => true
  | .lanemapWrite => true
  | .baseRegisterWrite => true
  | .statusWordWrite => true
  | .sAdd h _ => h.ok false && h.slot == .S
  | .sSub h _ => h.ok false && h.slot == .S
  | .sMul h _ => h.ok false && h.slot == .S
  | .sMulh h _ => h.ok false && h.slot == .S
  | .sMulhu h _ => h.ok false && h.slot == .S
  | .sAnd h _ => h.ok false && h.slot == .S
  | .sOr h _ => h.ok false && h.slot == .S
  | .sXor h _ => h.ok false && h.slot == .S
  | .sShl h _ => h.ok false && h.slot == .S
  | .sShr h _ => h.ok false && h.slot == .S
  | .sSra h _ => h.ok false && h.slot == .S
  | .sMin h _ => h.ok false && h.slot == .S
  | .sMax h _ => h.ok false && h.slot == .S
  | .sMinu h _ => h.ok false && h.slot == .S
  | .sMaxu h _ => h.ok false && h.slot == .S
  | .sAdds h _ => h.ok false && h.slot == .S
  | .sAddi h _ => h.ok false && h.slot == .S
  | .sAndi h _ => h.ok false && h.slot == .S
  | .sOri h _ => h.ok false && h.slot == .S
  | .sXori h _ => h.ok false && h.slot == .S
  | .sShli h _ => h.ok false && h.slot == .S
  | .sShri h _ => h.ok false && h.slot == .S
  | .sSrai h _ => h.ok false && h.slot == .S
  | .sLea h _ => h.ok false && h.slot == .S
  | .sCeq h _ => h.ok false && h.slot == .S
  | .sCne h _ => h.ok false && h.slot == .S
  | .sClt h _ => h.ok false && h.slot == .S
  | .sCle h _ => h.ok false && h.slot == .S
  | .sCltu h _ => h.ok false && h.slot == .S
  | .sCleu h _ => h.ok false && h.slot == .S
  | .sCeqi h _ => h.ok false && h.slot == .S
  | .sClti h _ => h.ok false && h.slot == .S
  | .sPand h _ => h.ok false && h.slot == .S
  | .sPor h _ => h.ok false && h.slot == .S
  | .sPxor h _ => h.ok false && h.slot == .S
  | .sPbit h _ => h.ok false && h.slot == .S
  | .sMov h _ => h.ok false && h.slot == .S
  | .sRsw h f => h.ok false && h.slot == .S && f.ok
  | .sWsw h f => h.ok false && h.slot == .S && f.ok
  | .sRtag h f => h.ok false && h.slot == .S && f.ok
  | .sWtag h f => h.ok false && h.slot == .S && f.ok
  | .sMfrom h _ => h.ok false && h.slot == .S
  | .sMto h _ => h.ok false && h.slot == .S
  | .sPget h _ => h.ok false && h.slot == .S
  | .sLld h _ => h.ok false && h.slot == .S
  | .sLlw h _ => h.ok false && h.slot == .S
  | .sLst h _ => h.ok false && h.slot == .S
  | .sLstw h _ => h.ok false && h.slot == .S
  | .sLldAcq h _ => h.ok false && h.slot == .S
  | .sLlwAcq h _ => h.ok false && h.slot == .S
  | .sLstRel h _ => h.ok false && h.slot == .S
  | .sLstwRel h _ => h.ok false && h.slot == .S
  | .sCkt h _ => h.ok false && h.slot == .S
  | .sNxt h _ => h.ok false && h.slot == .S
  | .sCtxout h _ => h.ok false && h.slot == .S
  | .sCtxin h _ => h.ok false && h.slot == .S
  | .sCtxskip h _ => h.ok false && h.slot == .S
  | .sTlbinvAll h _ => h.ok false && h.slot == .S
  | .sTlbinvContext h _ => h.ok false && h.slot == .S
  | .sTlbinvPage h _ => h.ok false && h.slot == .S
  | .sTlbsync h _ => h.ok false && h.slot == .S
  | .sCtxdonePreempted h _ => h.ok false && h.slot == .S
  | .sCtxdoneFailed h _ => h.ok false && h.slot == .S
  | .sLil h _ => h.ok false && h.slot == .S
  | .sLih h _ => h.ok false && h.slot == .S
  | .sLis h _ => h.ok false && h.slot == .S
  | .sLpc h _ => h.ok false && h.slot == .S
  | .vAddI32 h f => h.ok true && (h.slot == .V0 || h.slot == .V1) && f.ok
  | .vSubI32 h f => h.ok true && (h.slot == .V0 || h.slot == .V1) && f.ok
  | .vMulI32 h f => h.ok true && (h.slot == .V0 || h.slot == .V1) && f.ok
  | .vMulhI32 h f => h.ok true && (h.slot == .V0 || h.slot == .V1) && f.ok
  | .vAddsI32 h f => h.ok true && (h.slot == .V0 || h.slot == .V1) && f.ok
  | .vSubsI32 h f => h.ok true && (h.slot == .V0 || h.slot == .V1) && f.ok
  | .vAddI16 h f => h.ok true && (h.slot == .V0 || h.slot == .V1) && f.ok
  | .vAddsI16 h f => h.ok true && (h.slot == .V0 || h.slot == .V1) && f.ok
  | .vAddI8 h f => h.ok true && (h.slot == .V0 || h.slot == .V1) && f.ok
  | .vAddsI8 h f => h.ok true && (h.slot == .V0 || h.slot == .V1) && f.ok
  | .vAddsZ8 h f => h.ok true && (h.slot == .V0 || h.slot == .V1) && f.ok
  | .vMinI32 h f => h.ok true && (h.slot == .V0 || h.slot == .V1) && f.ok
  | .vMaxI32 h f => h.ok true && (h.slot == .V0 || h.slot == .V1) && f.ok
  | .vMinZ32 h f => h.ok true && (h.slot == .V0 || h.slot == .V1) && f.ok
  | .vMaxZ32 h f => h.ok true && (h.slot == .V0 || h.slot == .V1) && f.ok
  | .vAbsI32 h f => h.ok true && (h.slot == .V0 || h.slot == .V1) && f.ok
  | .vAnd h f => h.ok true && (h.slot == .V0 || h.slot == .V1) && f.ok
  | .vOr h f => h.ok true && (h.slot == .V0 || h.slot == .V1) && f.ok
  | .vXor h f => h.ok true && (h.slot == .V0 || h.slot == .V1) && f.ok
  | .vAndn h f => h.ok true && (h.slot == .V0 || h.slot == .V1) && f.ok
  | .vShlI32 h f => h.ok true && (h.slot == .V0 || h.slot == .V1) && f.ok
  | .vShrZ32 h f => h.ok true && (h.slot == .V0 || h.slot == .V1) && f.ok
  | .vSraI32 h f => h.ok true && (h.slot == .V0 || h.slot == .V1) && f.ok
  | .vDot4I8 h f => h.ok true && (h.slot == .V0 || h.slot == .V1) && f.ok
  | .vAddF32 h f => h.ok true && (h.slot == .V0 || h.slot == .V1) && f.ok
  | .vSubF32 h f => h.ok true && (h.slot == .V0 || h.slot == .V1) && f.ok
  | .vMulF32 h f => h.ok true && (h.slot == .V0 || h.slot == .V1) && f.ok
  | .vFmaF32 h f => h.ok true && (h.slot == .V0 || h.slot == .V1) && f.ok
  | .vFmsF32 h f => h.ok true && (h.slot == .V0 || h.slot == .V1) && f.ok
  | .vFnmaF32 h f => h.ok true && (h.slot == .V0 || h.slot == .V1) && f.ok
  | .vMinF32 h f => h.ok true && (h.slot == .V0 || h.slot == .V1) && f.ok
  | .vMaxF32 h f => h.ok true && (h.slot == .V0 || h.slot == .V1) && f.ok
  | .vAddF16 h f => h.ok true && (h.slot == .V0 || h.slot == .V1) && f.ok
  | .vSubF16 h f => h.ok true && (h.slot == .V0 || h.slot == .V1) && f.ok
  | .vMulF16 h f => h.ok true && (h.slot == .V0 || h.slot == .V1) && f.ok
  | .vFmaF16 h f => h.ok true && (h.slot == .V0 || h.slot == .V1) && f.ok
  | .vMinF16 h f => h.ok true && (h.slot == .V0 || h.slot == .V1) && f.ok
  | .vMaxF16 h f => h.ok true && (h.slot == .V0 || h.slot == .V1) && f.ok
  | .vAddB16 h f => h.ok true && (h.slot == .V0 || h.slot == .V1) && f.ok
  | .vSubB16 h f => h.ok true && (h.slot == .V0 || h.slot == .V1) && f.ok
  | .vMulB16 h f => h.ok true && (h.slot == .V0 || h.slot == .V1) && f.ok
  | .vFmaB16 h f => h.ok true && (h.slot == .V0 || h.slot == .V1) && f.ok
  | .vMinB16 h f => h.ok true && (h.slot == .V0 || h.slot == .V1) && f.ok
  | .vMaxB16 h f => h.ok true && (h.slot == .V0 || h.slot == .V1) && f.ok
  | .vRcpF32 h f => h.ok true && (h.slot == .V0 || h.slot == .V1) && f.ok
  | .vRsqF32 h f => h.ok true && (h.slot == .V0 || h.slot == .V1) && f.ok
  | .vExp2F32 h f => h.ok true && (h.slot == .V0 || h.slot == .V1) && f.ok
  | .vLog2F32 h f => h.ok true && (h.slot == .V0 || h.slot == .V1) && f.ok
  | .vRcpF16 h f => h.ok true && (h.slot == .V0 || h.slot == .V1) && f.ok
  | .vRsqF16 h f => h.ok true && (h.slot == .V0 || h.slot == .V1) && f.ok
  | .vExp2F16 h f => h.ok true && (h.slot == .V0 || h.slot == .V1) && f.ok
  | .vLog2F16 h f => h.ok true && (h.slot == .V0 || h.slot == .V1) && f.ok
  | .vCeqI32 h f => h.ok true && (h.slot == .V0 || h.slot == .V1) && f.ok
  | .vCltI32 h f => h.ok true && (h.slot == .V0 || h.slot == .V1) && f.ok
  | .vCleI32 h f => h.ok true && (h.slot == .V0 || h.slot == .V1) && f.ok
  | .vCltZ32 h f => h.ok true && (h.slot == .V0 || h.slot == .V1) && f.ok
  | .vCeqF32 h f => h.ok true && (h.slot == .V0 || h.slot == .V1) && f.ok
  | .vCltF32 h f => h.ok true && (h.slot == .V0 || h.slot == .V1) && f.ok
  | .vCleF32 h f => h.ok true && (h.slot == .V0 || h.slot == .V1) && f.ok
  | .vCunF32 h f => h.ok true && (h.slot == .V0 || h.slot == .V1) && f.ok
  | .vCvtF32 h f => h.ok true && (h.slot == .V0 || h.slot == .V1) && f.ok
  | .vCvtF16 h f => h.ok true && (h.slot == .V0 || h.slot == .V1) && f.ok
  | .vCvtB16 h f => h.ok true && (h.slot == .V0 || h.slot == .V1) && f.ok
  | .vCvtE4 h f => h.ok true && (h.slot == .V0 || h.slot == .V1) && f.ok
  | .vCvtE5 h f => h.ok true && (h.slot == .V0 || h.slot == .V1) && f.ok
  | .vCvtI32 h f => h.ok true && (h.slot == .V0 || h.slot == .V1) && f.ok
  | .vCvtI16 h f => h.ok true && (h.slot == .V0 || h.slot == .V1) && f.ok
  | .vCvtI8 h f => h.ok true && (h.slot == .V0 || h.slot == .V1) && f.ok
  | .vCvtZ32 h f => h.ok true && (h.slot == .V0 || h.slot == .V1) && f.ok
  | .vCvtZ16 h f => h.ok true && (h.slot == .V0 || h.slot == .V1) && f.ok
  | .vCvtZ8 h f => h.ok true && (h.slot == .V0 || h.slot == .V1) && f.ok
  | .vCvtc h f => h.ok true && (h.slot == .V0 || h.slot == .V1) && f.ok
  | .vRintF32 h f => h.ok true && (h.slot == .V0 || h.slot == .V1) && f.ok
  | .vScaleF32 h f => h.ok true && (h.slot == .V0 || h.slot == .V1) && f.ok
  | .vExpoF32 h f => h.ok true && (h.slot == .V0 || h.slot == .V1) && f.ok
  | .vPackI4 h f => h.ok true && (h.slot == .V0 || h.slot == .V1) && f.ok
  | .vUnpkI4 h f => h.ok true && (h.slot == .V0 || h.slot == .V1) && f.ok
  | .vPackX4 h f => h.ok true && (h.slot == .V0 || h.slot == .V1) && f.ok
  | .vUnpkX4 h f => h.ok true && (h.slot == .V0 || h.slot == .V1) && f.ok
  | .vRaddF32 h f => h.ok true && (h.slot == .V0 || h.slot == .V1) && f.ok
  | .vRaddF16 h f => h.ok true && (h.slot == .V0 || h.slot == .V1) && f.ok
  | .vRaddI32 h f => h.ok true && (h.slot == .V0 || h.slot == .V1) && f.ok
  | .vRmaxF32 h f => h.ok true && (h.slot == .V0 || h.slot == .V1) && f.ok
  | .vRminF32 h f => h.ok true && (h.slot == .V0 || h.slot == .V1) && f.ok
  | .vRmaxI32 h f => h.ok true && (h.slot == .V0 || h.slot == .V1) && f.ok
  | .vPerm h f => h.ok true && (h.slot == .V0 || h.slot == .V1) && f.ok
  | .vPerm8 h f => h.ok true && (h.slot == .V0 || h.slot == .V1) && f.ok
  | .vRot h f => h.ok true && (h.slot == .V0 || h.slot == .V1) && f.ok
  | .vSlide h f => h.ok true && (h.slot == .V0 || h.slot == .V1) && f.ok
  | .vBcast h f => h.ok true && (h.slot == .V0 || h.slot == .V1) && f.ok
  | .vBcs h f => h.ok true && (h.slot == .V0 || h.slot == .V1) && f.ok
  | .vSel h f => h.ok true && (h.slot == .V0 || h.slot == .V1) && f.ok
  | .vIota h f => h.ok true && (h.slot == .V0 || h.slot == .V1) && f.ok
  | .v0Sld h f => h.ok false && h.slot == .V0 && f.ok
  | .v0Sldx h f => h.ok false && h.slot == .V0 && f.ok
  | .v0Sst h f => h.ok false && h.slot == .V0 && f.ok
  | .v0Sstx h f => h.ok false && h.slot == .V0 && f.ok
  | .v0Sstm h f => h.ok false && h.slot == .V0 && f.ok
  | .v0Sstxm h f => h.ok false && h.slot == .V0 && f.ok
  | .v1Ld h f => h.ok false && h.slot == .V1 && f.ok
  | .v1St h f => h.ok false && h.slot == .V1 && f.ok
  | .v1Ldb h f => h.ok false && h.slot == .V1 && f.ok
  | .v1Stm h f => h.ok false && h.slot == .V1 && f.ok
  | .v1Gath h f => h.ok false && h.slot == .V1 && f.ok
  | .v1Gathm h f => h.ok false && h.slot == .V1 && f.ok
  | .v1Scat h f => h.ok false && h.slot == .V1 && f.ok
  | .v1Scatm h f => h.ok false && h.slot == .V1 && f.ok
  | .vRfwd h f => h.ok true && (h.slot == .V0 || h.slot == .V1) && f.ok
  | .vRrev h f => h.ok true && (h.slot == .V0 || h.slot == .V1) && f.ok
  | .vRchk h f => h.ok true && (h.slot == .V0 || h.slot == .V1) && f.ok
  | .mPush h _ => h.ok false && h.slot == .M
  | .mAcc h _ => h.ok false && h.slot == .M
  | .mPa h _ => h.ok false && h.slot == .M
  | .mShift h _ => h.ok false && h.slot == .M
  | .mDrainTile h _ => h.ok false && h.slot == .M
  | .mDrainRing h _ => h.ok false && h.slot == .M
  | .mZero h _ => h.ok false && h.slot == .M
  | .mCfgImm h _ => h.ok false && h.slot == .M
  | .mCfgReg h _ => h.ok false && h.slot == .M
  | .mFence h _ => h.ok false && h.slot == .M
  | .cLdd h f => h.ok false && (h.slot == .C0 || h.slot == .C1) && f.ok
  | .cLdw h f => h.ok false && (h.slot == .C0 || h.slot == .C1) && f.ok
  | .cLdh h f => h.ok false && (h.slot == .C0 || h.slot == .C1) && f.ok
  | .cLdb h f => h.ok false && (h.slot == .C0 || h.slot == .C1) && f.ok
  | .cStd h f => h.ok false && (h.slot == .C0 || h.slot == .C1) && f.ok
  | .cStw h f => h.ok false && (h.slot == .C0 || h.slot == .C1) && f.ok
  | .cSth h f => h.ok false && (h.slot == .C0 || h.slot == .C1) && f.ok
  | .cStb h f => h.ok false && (h.slot == .C0 || h.slot == .C1) && f.ok
  | .cVld h f => h.ok false && (h.slot == .C0 || h.slot == .C1) && f.ok
  | .cVst h f => h.ok false && (h.slot == .C0 || h.slot == .C1) && f.ok
  | .cVstm h f => h.ok false && (h.slot == .C0 || h.slot == .C1) && f.ok
  | .cVldb h f => h.ok false && (h.slot == .C0 || h.slot == .C1) && f.ok
  | .cLddAcq h f => h.ok false && (h.slot == .C0 || h.slot == .C1) && f.ok
  | .cLdwAcq h f => h.ok false && (h.slot == .C0 || h.slot == .C1) && f.ok
  | .cStdRel h f => h.ok false && (h.slot == .C0 || h.slot == .C1) && f.ok
  | .cStwRel h f => h.ok false && (h.slot == .C0 || h.slot == .C1) && f.ok
  | .cTld h _ => h.ok false && (h.slot == .C0 || h.slot == .C1)
  | .cTst h _ => h.ok false && (h.slot == .C0 || h.slot == .C1)
  | .cTldp h _ => h.ok false && (h.slot == .C0 || h.slot == .C1)
  | .cTstp h _ => h.ok false && (h.slot == .C0 || h.slot == .C1)
  | .c1TldAcq h _ => h.ok false && h.slot == .C1
  | .c1TstRel h _ => h.ok false && h.slot == .C1
  | .cShld h _ => h.ok false && h.slot == .C1
  | .cShev h _ => h.ok false && h.slot == .C1
  | .cFarm h f => h.ok false && (h.slot == .C0 || h.slot == .C1) && f.ok
  | .cFstop h f => h.ok false && h.slot == .C0 && f.ok
  | .cFwait h f => h.ok false && h.slot == .C0 && f.ok
  | .cFstat h f => h.ok false && h.slot == .C0 && f.ok
  | .c1Rfill h _ => h.ok false && h.slot == .C1
  | .c1Rspill h _ => h.ok false && h.slot == .C1
  | .c1Gath h _ => h.ok false && h.slot == .C1
  | .c1Scat h _ => h.ok false && h.slot == .C1
  | .c1AaddI32 h _ => h.ok false && h.slot == .C1
  | .c1AaddI64 h _ => h.ok false && h.slot == .C1
  | .c1AaddI32Nr h _ => h.ok false && h.slot == .C1
  | .c1AaddI64Nr h _ => h.ok false && h.slot == .C1
  | .c1AminI32 h _ => h.ok false && h.slot == .C1
  | .c1AminI64 h _ => h.ok false && h.slot == .C1
  | .c1AminI32Nr h _ => h.ok false && h.slot == .C1
  | .c1AminI64Nr h _ => h.ok false && h.slot == .C1
  | .c1AmaxI32 h _ => h.ok false && h.slot == .C1
  | .c1AmaxI64 h _ => h.ok false && h.slot == .C1
  | .c1AmaxI32Nr h _ => h.ok false && h.slot == .C1
  | .c1AmaxI64Nr h _ => h.ok false && h.slot == .C1
  | .c1AandI32 h _ => h.ok false && h.slot == .C1
  | .c1AandI64 h _ => h.ok false && h.slot == .C1
  | .c1AandI32Nr h _ => h.ok false && h.slot == .C1
  | .c1AandI64Nr h _ => h.ok false && h.slot == .C1
  | .c1AorI32 h _ => h.ok false && h.slot == .C1
  | .c1AorI64 h _ => h.ok false && h.slot == .C1
  | .c1AorI32Nr h _ => h.ok false && h.slot == .C1
  | .c1AorI64Nr h _ => h.ok false && h.slot == .C1
  | .c1AxorI32 h _ => h.ok false && h.slot == .C1
  | .c1AxorI64 h _ => h.ok false && h.slot == .C1
  | .c1AxorI32Nr h _ => h.ok false && h.slot == .C1
  | .c1AxorI64Nr h _ => h.ok false && h.slot == .C1
  | .c1AswpI32 h _ => h.ok false && h.slot == .C1
  | .c1AswpI64 h _ => h.ok false && h.slot == .C1
  | .c1AswpI32Nr h _ => h.ok false && h.slot == .C1
  | .c1AswpI64Nr h _ => h.ok false && h.slot == .C1
  | .c1AcasI32 h _ => h.ok false && h.slot == .C1
  | .c1AcasI64 h _ => h.ok false && h.slot == .C1
  | .c1AcasI32Nr h _ => h.ok false && h.slot == .C1
  | .c1AcasI64Nr h _ => h.ok false && h.slot == .C1
  | .cFenceRel h f => h.ok false && (h.slot == .C0 || h.slot == .C1) && f.ok
  | .cFenceAcq h f => h.ok false && (h.slot == .C0 || h.slot == .C1) && f.ok
  | .cFenceFull h f => h.ok false && (h.slot == .C0 || h.slot == .C1) && f.ok
  | .cFenceWRel h f => h.ok false && (h.slot == .C0 || h.slot == .C1) && f.ok
  | .cFenceWAcq h f => h.ok false && (h.slot == .C0 || h.slot == .C1) && f.ok
  | .cFenceWFull h f => h.ok false && (h.slot == .C0 || h.slot == .C1) && f.ok
  | .c1Qapp h f => h.ok false && h.slot == .C1 && f.ok
  | .cBarm h _ => h.ok false && h.slot == .C1
  | .cBarmr h _ => h.ok false && h.slot == .C1
  | .cBsig h f => h.ok false && h.slot == .C1 && f.n != 0#16
  | .cBsigr h _ => h.ok false && h.slot == .C1
  | .cBwait h _ => h.ok false && h.slot == .C1
  | .c1Beat h _ => h.ok false && h.slot == .C1
  | .c1BeatOff h _ => h.ok false && h.slot == .C1
  | .c1Beatr h _ => h.ok false && h.slot == .C1
  | .c1Beatrd h _ => h.ok false && h.slot == .C1
  | .c1Beatw h _ => h.ok false && h.slot == .C1
  | .c1Pst h f => h.ok false && h.slot == .C1 && f.ok
  | .c1Pstm h f => h.ok false && h.slot == .C1 && f.ok
  | .c1Pld h f => h.ok false && h.slot == .C1 && f.ok
  | .c1Bkrun h f => h.ok false && h.slot == .C1 && f.ok
  | .c1KvldF16 h _ => h.ok false && h.slot == .C1
  | .c1KvldI8 h _ => h.ok false && h.slot == .C1
  | .c1Kvst h _ => h.ok false && h.slot == .C1
  | .c1Kvx h _ => h.ok false && h.slot == .C1
  | .c1Kvho h _ => h.ok false && h.slot == .C1
  | .c1Kvfree h _ => h.ok false && h.slot == .C1
  | .c1Cancel h _ => h.ok false && h.slot == .C1
  | .cLnch h _ => h.ok false && (h.slot == .C0 || h.slot == .C1)
  | .bBr h _ => h.ok false && h.slot == .B
  | .bBri h _ => h.ok false && h.slot == .B
  | .bCall h _ => h.ok false && h.slot == .B
  | .bCalli h _ => h.ok false && h.slot == .B
  | .bRet h _ => h.ok false && h.slot == .B
  | .bBrx h _ => h.ok false && h.slot == .B
  | .bDbnz h _ => h.ok false && h.slot == .B
  | .bLoop h _ => h.ok false && h.slot == .B
  | .bPcnt h _ => h.ok false && h.slot == .B
  | .bPcntx h _ => h.ok false && h.slot == .B
  | .bPwhl h _ => h.ok false && h.slot == .B
  | .bPwhlx h _ => h.ok false && h.slot == .B
  | .bEnd h _ => h.ok false && h.slot == .B
  | .bTrap h _ => h.ok false && h.slot == .B
  | .bTrapr h _ => h.ok false && h.slot == .B
  | .bRft h _ => h.ok false && h.slot == .B
  | .bSetlc h _ => h.ok false && h.slot == .B
  | .bSetlci h _ => h.ok false && h.slot == .B
  | .bSetdp h _ => h.ok false && h.slot == .B
  | .bSetdpi h _ => h.ok false && h.slot == .B
  | .bRot h _ => h.ok false && h.slot == .B
  | .bRotclr h _ => h.ok false && h.slot == .B
  | .bStage h _ => h.ok false && h.slot == .B
  | .bLoopset h _ => h.ok false && h.slot == .B
  | .noLoopBoundaryReached => true
  | .holdEnd => true
  | .malformedMessage => true

end Sys2Proof
end

