-- ==== Sys2Proof/Decode.lean ====
section
/-! DEFINITION. The decoder, total on any bits, and after it the encoder, both from the encoding tables of the spec
(R23, R28, R38, R44 to R50, R118, R126, R137, R239, R269, R290 to R292 and the layouts of each chapter). -/

namespace Sys2Proof

/-- Bits `lo` up to `lo + n - 1` of `w`. -/
def bitsAt {k : Nat} (w : BitVec k) (lo n : Nat) : BitVec n := w.extractLsb' lo n

/-- Bit `i` of `w` as a truth value. -/
def bitAt {k : Nat} (w : BitVec k) (i : Nat) : Bool := w.getLsbD i

/-- A truth value as one bit. -/
def bitOf (b : Bool) : BitVec 1 := if b then 1#1 else 0#1

/-- The 43 bits of no operand bits (layouts NX, BZ, MZ). -/
def OpNone.enc (_f : OpNone) : BitVec 43 :=
  0#43
/-- The fields of no operand bits (layouts NX, BZ, MZ); none where an unused bit is set. -/
def OpNone.dec (w : BitVec 43) : Option OpNone :=
  if bitsAt w 0 43 == 0#43 then some {  } else none

/-- The 43 bits of layout RR of R118. -/
def OpRR.enc (f : OpRR) : BitVec 43 :=
  (f.sd ++ f.sa ++ f.sb ++ 0#22).setWidth 43
/-- The fields of layout RR of R118; none where an unused bit is set. -/
def OpRR.dec (w : BitVec 43) : Option OpRR :=
  if bitsAt w 0 22 == 0#22 then some { sd := bitsAt w 36 7, sa := bitsAt w 29 7, sb := bitsAt w 22 7 } else none

/-- The 43 bits of layout RI of R118. -/
def OpRI.enc (f : OpRI) : BitVec 43 :=
  (f.sd ++ f.sa ++ f.imm).setWidth 43
/-- The fields of layout RI of R118; none where an unused bit is set. -/
def OpRI.dec (w : BitVec 43) : Option OpRI :=
  if true then some { sd := bitsAt w 36 7, sa := bitsAt w 29 7, imm := bitsAt w 0 29 } else none

/-- The 43 bits of layout SH of R118. -/
def OpSH.enc (f : OpSH) : BitVec 43 :=
  (f.sd ++ f.sa ++ 0#23 ++ f.n).setWidth 43
/-- The fields of layout SH of R118; none where an unused bit is set. -/
def OpSH.dec (w : BitVec 43) : Option OpSH :=
  if bitsAt w 6 23 == 0#23 then some { sd := bitsAt w 36 7, sa := bitsAt w 29 7, n := bitsAt w 0 6 } else none

/-- The 43 bits of layout LEA of R118. -/
def OpLEA.enc (f : OpLEA) : BitVec 43 :=
  (f.sd ++ f.sa ++ f.sb ++ f.sh ++ 0#19).setWidth 43
/-- The fields of layout LEA of R118; none where an unused bit is set. -/
def OpLEA.dec (w : BitVec 43) : Option OpLEA :=
  if bitsAt w 0 19 == 0#19 then some { sd := bitsAt w 36 7, sa := bitsAt w 29 7, sb := bitsAt w 22 7, sh := bitsAt w 19 3 } else none

/-- The 43 bits of layout PR of R118. -/
def OpPR.enc (f : OpPR) : BitVec 43 :=
  (f.pd ++ f.sa ++ f.sb ++ 0#23).setWidth 43
/-- The fields of layout PR of R118; none where an unused bit is set. -/
def OpPR.dec (w : BitVec 43) : Option OpPR :=
  if bitsAt w 0 23 == 0#23 then some { pd := bitsAt w 37 6, sa := bitsAt w 30 7, sb := bitsAt w 23 7 } else none

/-- The 43 bits of layout PI of R118. -/
def OpPI.enc (f : OpPI) : BitVec 43 :=
  (f.pd ++ f.sa ++ f.imm).setWidth 43
/-- The fields of layout PI of R118; none where an unused bit is set. -/
def OpPI.dec (w : BitVec 43) : Option OpPI :=
  if true then some { pd := bitsAt w 37 6, sa := bitsAt w 30 7, imm := bitsAt w 0 30 } else none

/-- The 43 bits of layout PL of R118. -/
def OpPL.enc (f : OpPL) : BitVec 43 :=
  (f.pd ++ f.pa ++ bitOf f.na ++ f.pb ++ bitOf f.nb ++ 0#23).setWidth 43
/-- The fields of layout PL of R118; none where an unused bit is set. -/
def OpPL.dec (w : BitVec 43) : Option OpPL :=
  if bitsAt w 0 23 == 0#23 then some { pd := bitsAt w 37 6, pa := bitsAt w 31 6, na := bitAt w 30, pb := bitsAt w 24 6, nb := bitAt w 23 } else none

/-- The 43 bits of layout PB of R118. -/
def OpPB.enc (f : OpPB) : BitVec 43 :=
  (f.pd ++ f.sa ++ f.n ++ 0#24).setWidth 43
/-- The fields of layout PB of R118; none where an unused bit is set. -/
def OpPB.dec (w : BitVec 43) : Option OpPB :=
  if bitsAt w 0 24 == 0#24 then some { pd := bitsAt w 37 6, sa := bitsAt w 30 7, n := bitsAt w 24 6 } else none

/-- The 43 bits of layout WI of R118. -/
def OpWI.enc (f : OpWI) : BitVec 43 :=
  (f.sd ++ 0#4 ++ f.imm).setWidth 43
/-- The fields of layout WI of R118; none where an unused bit is set. -/
def OpWI.dec (w : BitVec 43) : Option OpWI :=
  if bitsAt w 32 4 == 0#4 then some { sd := bitsAt w 36 7, imm := bitsAt w 0 32 } else none

/-- The 43 bits of layout CK of R118. -/
def OpCK.enc (f : OpCK) : BitVec 43 :=
  (f.sa ++ f.sb ++ 0#29).setWidth 43
/-- The fields of layout CK of R118; none where an unused bit is set. -/
def OpCK.dec (w : BitVec 43) : Option OpCK :=
  if bitsAt w 0 29 == 0#29 then some { sa := bitsAt w 36 7, sb := bitsAt w 29 7 } else none

/-- The 43 bits of S.MOV of R90. -/
def OpMOV.enc (f : OpMOV) : BitVec 43 :=
  (f.sd ++ f.sa ++ 0#29).setWidth 43
/-- The fields of S.MOV of R90; none where an unused bit is set. -/
def OpMOV.dec (w : BitVec 43) : Option OpMOV :=
  if bitsAt w 0 29 == 0#29 then some { sd := bitsAt w 36 7, sa := bitsAt w 29 7 } else none

/-- The 43 bits of S.RSW of R90. -/
def OpRSW.enc (f : OpRSW) : BitVec 43 :=
  (f.sd ++ f.idx ++ 0#26).setWidth 43
/-- The fields of S.RSW of R90; none where an unused bit is set. -/
def OpRSW.dec (w : BitVec 43) : Option OpRSW :=
  if bitsAt w 0 26 == 0#26 then some { sd := bitsAt w 36 7, idx := bitsAt w 26 10 } else none

/-- The 43 bits of S.WSW of R90. -/
def OpWSW.enc (f : OpWSW) : BitVec 43 :=
  (f.idx ++ f.sa ++ 0#26).setWidth 43
/-- The fields of S.WSW of R90; none where an unused bit is set. -/
def OpWSW.dec (w : BitVec 43) : Option OpWSW :=
  if bitsAt w 0 26 == 0#26 then some { idx := bitsAt w 33 10, sa := bitsAt w 26 7 } else none

/-- The 43 bits of S.RTAG of R90. -/
def OpRTAG.enc (f : OpRTAG) : BitVec 43 :=
  (f.sd ++ bitOf f.k ++ f.reg ++ 0#25).setWidth 43
/-- The fields of S.RTAG of R90; none where an unused bit is set. -/
def OpRTAG.dec (w : BitVec 43) : Option OpRTAG :=
  if bitsAt w 0 25 == 0#25 then some { sd := bitsAt w 36 7, k := bitAt w 35, reg := bitsAt w 25 10 } else none

/-- The 43 bits of S.WTAG of R90. -/
def OpWTAG.enc (f : OpWTAG) : BitVec 43 :=
  (bitOf f.k ++ f.reg ++ f.tag ++ 0#28).setWidth 43
/-- The fields of S.WTAG of R90; none where an unused bit is set. -/
def OpWTAG.dec (w : BitVec 43) : Option OpWTAG :=
  if bitsAt w 0 28 == 0#28 then some { k := bitAt w 42, reg := bitsAt w 32 10, tag := bitsAt w 28 4 } else none

/-- The 43 bits of S.MFROM of R90. -/
def OpMFROM.enc (f : OpMFROM) : BitVec 43 :=
  (f.sd ++ f.mn ++ 0#32).setWidth 43
/-- The fields of S.MFROM of R90; none where an unused bit is set. -/
def OpMFROM.dec (w : BitVec 43) : Option OpMFROM :=
  if bitsAt w 0 32 == 0#32 then some { sd := bitsAt w 36 7, mn := bitsAt w 32 4 } else none

/-- The 43 bits of S.MTO of R90. -/
def OpMTO.enc (f : OpMTO) : BitVec 43 :=
  (f.md ++ f.sa ++ 0#32).setWidth 43
/-- The fields of S.MTO of R90; none where an unused bit is set. -/
def OpMTO.dec (w : BitVec 43) : Option OpMTO :=
  if bitsAt w 0 32 == 0#32 then some { md := bitsAt w 39 4, sa := bitsAt w 32 7 } else none

/-- The 43 bits of S.PGET of R90. -/
def OpPGET.enc (f : OpPGET) : BitVec 43 :=
  (f.sd ++ 0#36).setWidth 43
/-- The fields of S.PGET of R90; none where an unused bit is set. -/
def OpPGET.dec (w : BitVec 43) : Option OpPGET :=
  if bitsAt w 0 36 == 0#36 then some { sd := bitsAt w 36 7 } else none

/-- The 43 bits of layout LF of R168, a load. -/
def OpLFL.enc (f : OpLFL) : BitVec 43 :=
  (f.sd ++ f.sb ++ f.imm).setWidth 43
/-- The fields of layout LF of R168, a load; none where an unused bit is set. -/
def OpLFL.dec (w : BitVec 43) : Option OpLFL :=
  if true then some { sd := bitsAt w 36 7, sb := bitsAt w 29 7, imm := bitsAt w 0 29 } else none

/-- The 43 bits of layout LF of R168, a store. -/
def OpLFS.enc (f : OpLFS) : BitVec 43 :=
  (f.sa ++ f.sb ++ f.imm).setWidth 43
/-- The fields of layout LF of R168, a store; none where an unused bit is set. -/
def OpLFS.dec (w : BitVec 43) : Option OpLFS :=
  if true then some { sa := bitsAt w 36 7, sb := bitsAt w 29 7, imm := bitsAt w 0 29 } else none

/-- The 43 bits of one scalar register: CX of R365, BA of R126, BA of R284, MR of R239. -/
def OpSA.enc (f : OpSA) : BitVec 43 :=
  (f.sa ++ 0#36).setWidth 43
/-- The fields of one scalar register: CX of R365, BA of R126, BA of R284, MR of R239; none where an unused bit is set. -/
def OpSA.dec (w : BitVec 43) : Option OpSA :=
  if bitsAt w 0 36 == 0#36 then some { sa := bitsAt w 36 7 } else none

/-- The 43 bits of layout TI of R365, with the bits that name the row. -/
def OpTI.enc (k : BitVec 2) (f : OpTI) : BitVec 43 :=
  (f.sa ++ f.sb ++ k ++ 0#27).setWidth 43
/-- The fields of layout TI of R365; none where an unused bit is set. -/
def OpTI.dec (k : BitVec 2) (w : BitVec 43) : Option OpTI :=
  if bitsAt w 27 2 == k && bitsAt w 0 27 == 0#27 then some { sa := bitsAt w 36 7, sb := bitsAt w 29 7 } else none

/-- The 43 bits of layout CX of R365, S.CTXDONE, with the bits that name the row. -/
def OpCTXD.enc (k : BitVec 1) (f : OpCTXD) : BitVec 43 :=
  (f.sa ++ k ++ 0#35).setWidth 43
/-- The fields of layout CX of R365, S.CTXDONE; none where an unused bit is set. -/
def OpCTXD.dec (k : BitVec 1) (w : BitVec 43) : Option OpCTXD :=
  if bitsAt w 35 1 == k && bitsAt w 0 35 == 0#35 then some { sa := bitsAt w 36 7 } else none

/-- The 43 bits of layout BD of R126. -/
def OpBD.enc (f : OpBD) : BitVec 43 :=
  (bitOf f.g ++ 0#10 ++ f.disp).setWidth 43
/-- The fields of layout BD of R126; none where an unused bit is set. -/
def OpBD.dec (w : BitVec 43) : Option OpBD :=
  if bitsAt w 32 10 == 0#10 then some { g := bitAt w 42, disp := bitsAt w 0 32 } else none

/-- The 43 bits of layout BDL of R126. -/
def OpBDL.enc (f : OpBDL) : BitVec 43 :=
  (bitOf f.g ++ f.sd ++ 0#3 ++ f.disp).setWidth 43
/-- The fields of layout BDL of R126; none where an unused bit is set. -/
def OpBDL.dec (w : BitVec 43) : Option OpBDL :=
  if bitsAt w 32 3 == 0#3 then some { g := bitAt w 42, sd := bitsAt w 35 7, disp := bitsAt w 0 32 } else none

/-- The 43 bits of layout BRG of R126. -/
def OpBRG.enc (f : OpBRG) : BitVec 43 :=
  (bitOf f.g ++ f.sa ++ 0#35).setWidth 43
/-- The fields of layout BRG of R126; none where an unused bit is set. -/
def OpBRG.dec (w : BitVec 43) : Option OpBRG :=
  if bitsAt w 0 35 == 0#35 then some { g := bitAt w 42, sa := bitsAt w 35 7 } else none

/-- The 43 bits of layout BRL of R126. -/
def OpBRL.enc (f : OpBRL) : BitVec 43 :=
  (bitOf f.g ++ f.sd ++ f.sa ++ 0#28).setWidth 43
/-- The fields of layout BRL of R126; none where an unused bit is set. -/
def OpBRL.dec (w : BitVec 43) : Option OpBRL :=
  if bitsAt w 0 28 == 0#28 then some { g := bitAt w 42, sd := bitsAt w 35 7, sa := bitsAt w 28 7 } else none

/-- The 43 bits of layout BRD of R126. -/
def OpBRD.enc (f : OpBRD) : BitVec 43 :=
  (bitOf f.g ++ f.sa ++ 0#3 ++ f.disp).setWidth 43
/-- The fields of layout BRD of R126; none where an unused bit is set. -/
def OpBRD.dec (w : BitVec 43) : Option OpBRD :=
  if bitsAt w 32 3 == 0#3 then some { g := bitAt w 42, sa := bitsAt w 35 7, disp := bitsAt w 0 32 } else none

/-- The 43 bits of layout BWC of R126. -/
def OpBWC.enc (f : OpBWC) : BitVec 43 :=
  (bitOf f.g ++ f.pc ++ bitOf f.sense ++ 0#3 ++ f.disp).setWidth 43
/-- The fields of layout BWC of R126; none where an unused bit is set. -/
def OpBWC.dec (w : BitVec 43) : Option OpBWC :=
  if bitsAt w 32 3 == 0#3 then some { g := bitAt w 42, pc := bitsAt w 36 6, sense := bitAt w 35, disp := bitsAt w 0 32 } else none

/-- The 43 bits of layout BT of R126. -/
def OpBT.enc (f : OpBT) : BitVec 43 :=
  (0#27 ++ f.code).setWidth 43
/-- The fields of layout BT of R126; none where an unused bit is set. -/
def OpBT.dec (w : BitVec 43) : Option OpBT :=
  if bitsAt w 16 27 == 0#27 then some { code := bitsAt w 0 16 } else none

/-- The 43 bits of layout BRG of R126 with G zero (B.TRAPR, R124). -/
def OpBTR.enc (f : OpBTR) : BitVec 43 :=
  (0#1 ++ f.sa ++ 0#35).setWidth 43
/-- The fields of layout BRG of R126 with G zero (B.TRAPR, R124); none where an unused bit is set. -/
def OpBTR.dec (w : BitVec 43) : Option OpBTR :=
  if bitsAt w 42 1 == 0#1 && bitsAt w 0 35 == 0#35 then some { sa := bitsAt w 35 7 } else none

/-- The 43 bits of layout BI of R126. -/
def OpBI.enc (f : OpBI) : BitVec 43 :=
  (0#11 ++ f.imm).setWidth 43
/-- The fields of layout BI of R126; none where an unused bit is set. -/
def OpBI.dec (w : BitVec 43) : Option OpBI :=
  if bitsAt w 32 11 == 0#11 then some { imm := bitsAt w 0 32 } else none

/-- The 43 bits of layout BI of R126 with bits 31:8 zero (R131). -/
def OpBI8.enc (f : OpBI8) : BitVec 43 :=
  (0#35 ++ f.imm).setWidth 43
/-- The fields of layout BI of R126 with bits 31:8 zero (R131); none where an unused bit is set. -/
def OpBI8.dec (w : BitVec 43) : Option OpBI8 :=
  if bitsAt w 8 35 == 0#35 then some { imm := bitsAt w 0 8 } else none

/-- The 43 bits of layout BI of R126 with bits 31:1 zero (R131). -/
def OpBI1.enc (f : OpBI1) : BitVec 43 :=
  (0#42 ++ bitOf f.imm).setWidth 43
/-- The fields of layout BI of R126 with bits 31:1 zero (R131); none where an unused bit is set. -/
def OpBI1.dec (w : BitVec 43) : Option OpBI1 :=
  if bitsAt w 1 42 == 0#42 then some { imm := bitAt w 0 } else none

/-- The 43 bits of layout BM of R126. -/
def OpBM.enc (f : OpBM) : BitVec 43 :=
  (0#39 ++ f.mask).setWidth 43
/-- The fields of layout BM of R126; none where an unused bit is set. -/
def OpBM.dec (w : BitVec 43) : Option OpBM :=
  if bitsAt w 4 39 == 0#39 then some { mask := bitsAt w 0 4 } else none

/-- The 43 bits of layout BL of R126. -/
def OpBL.enc (f : OpBL) : BitVec 43 :=
  (0#11 ++ f.lc ++ f.stages).setWidth 43
/-- The fields of layout BL of R126; none where an unused bit is set. -/
def OpBL.dec (w : BitVec 43) : Option OpBL :=
  if bitsAt w 32 11 == 0#11 then some { lc := bitsAt w 8 24, stages := bitsAt w 0 8 } else none

/-- The 43 bits of layout VR of R137 with rnd zero; V.PERM, V.PERM8. -/
def OpV3.enc (f : OpV3) : BitVec 43 :=
  (f.vd ++ f.va ++ f.vb ++ 0#13).setWidth 43
/-- The fields of layout VR of R137 with rnd zero; V.PERM, V.PERM8; none where an unused bit is set. -/
def OpV3.dec (w : BitVec 43) : Option OpV3 :=
  if bitsAt w 0 13 == 0#13 then some { vd := bitsAt w 33 10, va := bitsAt w 23 10, vb := bitsAt w 13 10 } else none

/-- The 43 bits of layout VR of R137 with vb and rnd zero. -/
def OpV2.enc (f : OpV2) : BitVec 43 :=
  (f.vd ++ f.va ++ 0#23).setWidth 43
/-- The fields of layout VR of R137 with vb and rnd zero; none where an unused bit is set. -/
def OpV2.dec (w : BitVec 43) : Option OpV2 :=
  if bitsAt w 0 23 == 0#23 then some { vd := bitsAt w 33 10, va := bitsAt w 23 10 } else none

/-- The 43 bits of layout VR of R137. -/
def OpV3R.enc (f : OpV3R) : BitVec 43 :=
  (f.vd ++ f.va ++ f.vb ++ f.rnd ++ 0#11).setWidth 43
/-- The fields of layout VR of R137; none where an unused bit is set. -/
def OpV3R.dec (w : BitVec 43) : Option OpV3R :=
  if bitsAt w 0 11 == 0#11 then some { vd := bitsAt w 33 10, va := bitsAt w 23 10, vb := bitsAt w 13 10, rnd := bitsAt w 11 2 } else none

/-- The 43 bits of layout VC of R137 with vb and part zero. -/
def OpV2R.enc (f : OpV2R) : BitVec 43 :=
  (f.vd ++ f.va ++ 0#10 ++ f.rnd ++ 0#11).setWidth 43
/-- The fields of layout VC of R137 with vb and part zero; none where an unused bit is set. -/
def OpV2R.dec (w : BitVec 43) : Option OpV2R :=
  if bitsAt w 13 10 == 0#10 && bitsAt w 0 11 == 0#11 then some { vd := bitsAt w 33 10, va := bitsAt w 23 10, rnd := bitsAt w 11 2 } else none

/-- The 43 bits of layout VM of R137. -/
def OpVM.enc (f : OpVM) : BitVec 43 :=
  (f.md ++ 0#6 ++ f.va ++ f.vb ++ 0#13).setWidth 43
/-- The fields of layout VM of R137; none where an unused bit is set. -/
def OpVM.dec (w : BitVec 43) : Option OpVM :=
  if bitsAt w 33 6 == 0#6 && bitsAt w 0 13 == 0#13 then some { md := bitsAt w 39 4, va := bitsAt w 23 10, vb := bitsAt w 13 10 } else none

/-- The 43 bits of layout VC of R137 with vb zero. -/
def OpVCR.enc (f : OpVCR) : BitVec 43 :=
  (f.vd ++ f.va ++ 0#10 ++ f.rnd ++ f.part ++ 0#8).setWidth 43
/-- The fields of layout VC of R137 with vb zero; none where an unused bit is set. -/
def OpVCR.dec (w : BitVec 43) : Option OpVCR :=
  if bitsAt w 13 10 == 0#10 && bitsAt w 0 8 == 0#8 then some { vd := bitsAt w 33 10, va := bitsAt w 23 10, rnd := bitsAt w 11 2, part := bitsAt w 8 3 } else none

/-- The 43 bits of layout VC of R137 with vb and rnd zero. -/
def OpVC.enc (f : OpVC) : BitVec 43 :=
  (f.vd ++ f.va ++ 0#12 ++ f.part ++ 0#8).setWidth 43
/-- The fields of layout VC of R137 with vb and rnd zero; none where an unused bit is set. -/
def OpVC.dec (w : BitVec 43) : Option OpVC :=
  if bitsAt w 11 12 == 0#12 && bitsAt w 0 8 == 0#8 then some { vd := bitsAt w 33 10, va := bitsAt w 23 10, part := bitsAt w 8 3 } else none

/-- The 43 bits of layout VQ of R137. -/
def OpVQR.enc (f : OpVQR) : BitVec 43 :=
  (f.vd ++ f.va ++ 0#10 ++ f.rnd ++ f.mn ++ bitOf f.m ++ 0#6).setWidth 43
/-- The fields of layout VQ of R137; none where an unused bit is set. -/
def OpVQR.dec (w : BitVec 43) : Option OpVQR :=
  if bitsAt w 13 10 == 0#10 && bitsAt w 0 6 == 0#6 then some { vd := bitsAt w 33 10, va := bitsAt w 23 10, rnd := bitsAt w 11 2, mn := bitsAt w 7 4, m := bitAt w 6 } else none

/-- The 43 bits of layout VQ of R137 with rnd zero. -/
def OpVQ.enc (f : OpVQ) : BitVec 43 :=
  (f.vd ++ f.va ++ 0#12 ++ f.mn ++ bitOf f.m ++ 0#6).setWidth 43
/-- The fields of layout VQ of R137 with rnd zero; none where an unused bit is set. -/
def OpVQ.dec (w : BitVec 43) : Option OpVQ :=
  if bitsAt w 11 12 == 0#12 && bitsAt w 0 6 == 0#6 then some { vd := bitsAt w 33 10, va := bitsAt w 23 10, mn := bitsAt w 7 4, m := bitAt w 6 } else none

/-- The 43 bits of layout VP of R137 with vb and mn zero. -/
def OpVN.enc (f : OpVN) : BitVec 43 :=
  (f.vd ++ f.va ++ 0#10 ++ f.n ++ 0#8).setWidth 43
/-- The fields of layout VP of R137 with vb and mn zero; none where an unused bit is set. -/
def OpVN.dec (w : BitVec 43) : Option OpVN :=
  if bitsAt w 13 10 == 0#10 && bitsAt w 0 8 == 0#8 then some { vd := bitsAt w 33 10, va := bitsAt w 23 10, n := bitsAt w 8 5 } else none

/-- The 43 bits of layout VP of R137 with mn zero. -/
def OpVSL.enc (f : OpVSL) : BitVec 43 :=
  (f.vd ++ f.va ++ f.vb ++ f.n ++ 0#8).setWidth 43
/-- The fields of layout VP of R137 with mn zero; none where an unused bit is set. -/
def OpVSL.dec (w : BitVec 43) : Option OpVSL :=
  if bitsAt w 0 8 == 0#8 then some { vd := bitsAt w 33 10, va := bitsAt w 23 10, vb := bitsAt w 13 10, n := bitsAt w 8 5 } else none

/-- The 43 bits of layout VP of R137 with n zero. -/
def OpVSEL.enc (f : OpVSEL) : BitVec 43 :=
  (f.vd ++ f.va ++ f.vb ++ 0#5 ++ f.mn ++ 0#4).setWidth 43
/-- The fields of layout VP of R137 with n zero; none where an unused bit is set. -/
def OpVSEL.dec (w : BitVec 43) : Option OpVSEL :=
  if bitsAt w 8 5 == 0#5 && bitsAt w 0 4 == 0#4 then some { vd := bitsAt w 33 10, va := bitsAt w 23 10, vb := bitsAt w 13 10, mn := bitsAt w 4 4 } else none

/-- The 43 bits of layout VS of R137. -/
def OpVS.enc (f : OpVS) : BitVec 43 :=
  (f.vd ++ f.sa ++ f.tag ++ 0#22).setWidth 43
/-- The fields of layout VS of R137; none where an unused bit is set. -/
def OpVS.dec (w : BitVec 43) : Option OpVS :=
  if bitsAt w 0 22 == 0#22 then some { vd := bitsAt w 33 10, sa := bitsAt w 26 7, tag := bitsAt w 22 4 } else none

/-- The 43 bits of layout VI of R137. -/
def OpVI.enc (f : OpVI) : BitVec 43 :=
  (f.vd ++ 0#1 ++ f.imm).setWidth 43
/-- The fields of layout VI of R137; none where an unused bit is set. -/
def OpVI.dec (w : BitVec 43) : Option OpVI :=
  if bitsAt w 32 1 == 0#1 then some { vd := bitsAt w 33 10, imm := bitsAt w 0 32 } else none

/-- The 43 bits of layout VL of R137, V0.SLD. -/
def OpVLL.enc (f : OpVLL) : BitVec 43 :=
  (f.vd ++ 0#10 ++ f.tag ++ f.off ++ 0#6).setWidth 43
/-- The fields of layout VL of R137, V0.SLD; none where an unused bit is set. -/
def OpVLL.dec (w : BitVec 43) : Option OpVLL :=
  if bitsAt w 23 10 == 0#10 && bitsAt w 0 6 == 0#6 then some { vd := bitsAt w 33 10, tag := bitsAt w 19 4, off := bitsAt w 6 13 } else none

/-- The 43 bits of layout VL of R137, V0.SLDX. -/
def OpVLLX.enc (f : OpVLLX) : BitVec 43 :=
  (f.vd ++ f.vb ++ f.tag ++ f.off ++ 0#6).setWidth 43
/-- The fields of layout VL of R137, V0.SLDX; none where an unused bit is set. -/
def OpVLLX.dec (w : BitVec 43) : Option OpVLLX :=
  if bitsAt w 0 6 == 0#6 then some { vd := bitsAt w 33 10, vb := bitsAt w 23 10, tag := bitsAt w 19 4, off := bitsAt w 6 13 } else none

/-- The 43 bits of layout VL of R137, V0.SST. -/
def OpVLS.enc (f : OpVLS) : BitVec 43 :=
  (f.va ++ 0#14 ++ f.off ++ 0#6).setWidth 43
/-- The fields of layout VL of R137, V0.SST; none where an unused bit is set. -/
def OpVLS.dec (w : BitVec 43) : Option OpVLS :=
  if bitsAt w 19 14 == 0#14 && bitsAt w 0 6 == 0#6 then some { va := bitsAt w 33 10, off := bitsAt w 6 13 } else none

/-- The 43 bits of layout VL of R137, V0.SSTX. -/
def OpVLSX.enc (f : OpVLSX) : BitVec 43 :=
  (f.va ++ f.vb ++ 0#4 ++ f.off ++ 0#6).setWidth 43
/-- The fields of layout VL of R137, V0.SSTX; none where an unused bit is set. -/
def OpVLSX.dec (w : BitVec 43) : Option OpVLSX :=
  if bitsAt w 19 4 == 0#4 && bitsAt w 0 6 == 0#6 then some { va := bitsAt w 33 10, vb := bitsAt w 23 10, off := bitsAt w 6 13 } else none

/-- The 43 bits of layout VL of R137, V0.SSTM. -/
def OpVLSM.enc (f : OpVLSM) : BitVec 43 :=
  (f.va ++ 0#10 ++ f.mn ++ f.off ++ 0#6).setWidth 43
/-- The fields of layout VL of R137, V0.SSTM; none where an unused bit is set. -/
def OpVLSM.dec (w : BitVec 43) : Option OpVLSM :=
  if bitsAt w 23 10 == 0#10 && bitsAt w 0 6 == 0#6 then some { va := bitsAt w 33 10, mn := bitsAt w 19 4, off := bitsAt w 6 13 } else none

/-- The 43 bits of layout VL of R137, V0.SSTXM. -/
def OpVLSXM.enc (f : OpVLSXM) : BitVec 43 :=
  (f.va ++ f.vb ++ f.mn ++ f.off ++ 0#6).setWidth 43
/-- The fields of layout VL of R137, V0.SSTXM; none where an unused bit is set. -/
def OpVLSXM.dec (w : BitVec 43) : Option OpVLSXM :=
  if bitsAt w 0 6 == 0#6 then some { va := bitsAt w 33 10, vb := bitsAt w 23 10, mn := bitsAt w 19 4, off := bitsAt w 6 13 } else none

/-- The 43 bits of layout VD of R137, V1.LD and V1.LDB. -/
def OpVDL.enc (f : OpVDL) : BitVec 43 :=
  (f.vd ++ 0#10 ++ f.tag ++ f.bn ++ f.off).setWidth 43
/-- The fields of layout VD of R137, V1.LD and V1.LDB; none where an unused bit is set. -/
def OpVDL.dec (w : BitVec 43) : Option OpVDL :=
  if bitsAt w 23 10 == 0#10 then some { vd := bitsAt w 33 10, tag := bitsAt w 19 4, bn := bitsAt w 15 4, off := bitsAt w 0 15 } else none

/-- The 43 bits of layout VD of R137, V1.ST. -/
def OpVDS.enc (f : OpVDS) : BitVec 43 :=
  (f.va ++ 0#14 ++ f.bn ++ f.off).setWidth 43
/-- The fields of layout VD of R137, V1.ST; none where an unused bit is set. -/
def OpVDS.dec (w : BitVec 43) : Option OpVDS :=
  if bitsAt w 19 14 == 0#14 then some { va := bitsAt w 33 10, bn := bitsAt w 15 4, off := bitsAt w 0 15 } else none

/-- The 43 bits of layout VD of R137, V1.STM. -/
def OpVDSM.enc (f : OpVDSM) : BitVec 43 :=
  (f.va ++ 0#10 ++ f.mn ++ f.bn ++ f.off).setWidth 43
/-- The fields of layout VD of R137, V1.STM; none where an unused bit is set. -/
def OpVDSM.dec (w : BitVec 43) : Option OpVDSM :=
  if bitsAt w 23 10 == 0#10 then some { va := bitsAt w 33 10, mn := bitsAt w 19 4, bn := bitsAt w 15 4, off := bitsAt w 0 15 } else none

/-- The 43 bits of layout VD of R137, V1.GATH. -/
def OpVDLX.enc (f : OpVDLX) : BitVec 43 :=
  (f.vd ++ f.vb ++ f.tag ++ f.bn ++ f.off).setWidth 43
/-- The fields of layout VD of R137, V1.GATH; none where an unused bit is set. -/
def OpVDLX.dec (w : BitVec 43) : Option OpVDLX :=
  if true then some { vd := bitsAt w 33 10, vb := bitsAt w 23 10, tag := bitsAt w 19 4, bn := bitsAt w 15 4, off := bitsAt w 0 15 } else none

/-- The 43 bits of layout VD of R137, V1.SCAT. -/
def OpVDSX.enc (f : OpVDSX) : BitVec 43 :=
  (f.va ++ f.vb ++ 0#4 ++ f.bn ++ f.off).setWidth 43
/-- The fields of layout VD of R137, V1.SCAT; none where an unused bit is set. -/
def OpVDSX.dec (w : BitVec 43) : Option OpVDSX :=
  if bitsAt w 19 4 == 0#4 then some { va := bitsAt w 33 10, vb := bitsAt w 23 10, bn := bitsAt w 15 4, off := bitsAt w 0 15 } else none

/-- The 43 bits of layout VD of R137, V1.SCATM. -/
def OpVDSXM.enc (f : OpVDSXM) : BitVec 43 :=
  (f.va ++ f.vb ++ f.mn ++ f.bn ++ f.off).setWidth 43
/-- The fields of layout VD of R137, V1.SCATM; none where an unused bit is set. -/
def OpVDSXM.dec (w : BitVec 43) : Option OpVDSXM :=
  if true then some { va := bitsAt w 33 10, vb := bitsAt w 23 10, mn := bitsAt w 19 4, bn := bitsAt w 15 4, off := bitsAt w 0 15 } else none

/-- The 43 bits of layout VG of R137, V1.GATHM. -/
def OpVG.enc (f : OpVG) : BitVec 43 :=
  (f.vd ++ f.vb ++ f.tag ++ f.bn ++ f.mn ++ f.off).setWidth 43
/-- The fields of layout VG of R137, V1.GATHM; none where an unused bit is set. -/
def OpVG.dec (w : BitVec 43) : Option OpVG :=
  if true then some { vd := bitsAt w 33 10, vb := bitsAt w 23 10, tag := bitsAt w 19 4, bn := bitsAt w 15 4, mn := bitsAt w 11 4, off := bitsAt w 0 11 } else none

/-- The 43 bits of layout VE of R269, V.RFWD. -/
def OpVEF.enc (f : OpVEF) : BitVec 43 :=
  (f.vd ++ f.va ++ 0#12 ++ f.part ++ f.set ++ 0#7).setWidth 43
/-- The fields of layout VE of R269, V.RFWD; none where an unused bit is set. -/
def OpVEF.dec (w : BitVec 43) : Option OpVEF :=
  if bitsAt w 11 12 == 0#12 && bitsAt w 0 7 == 0#7 then some { vd := bitsAt w 33 10, va := bitsAt w 23 10, part := bitsAt w 9 2, set := bitsAt w 7 2 } else none

/-- The 43 bits of layout VE of R269, V.RREV. -/
def OpVER.enc (f : OpVER) : BitVec 43 :=
  (f.vd ++ f.va ++ 0#10 ++ f.rnd ++ f.part ++ f.set ++ bitOf f.dfmt ++ f.oa ++ f.ob).setWidth 43
/-- The fields of layout VE of R269, V.RREV; none where an unused bit is set. -/
def OpVER.dec (w : BitVec 43) : Option OpVER :=
  if bitsAt w 13 10 == 0#10 then some { vd := bitsAt w 33 10, va := bitsAt w 23 10, rnd := bitsAt w 11 2, part := bitsAt w 9 2, set := bitsAt w 7 2, dfmt := bitAt w 6, oa := bitsAt w 3 3, ob := bitsAt w 0 3 } else none

/-- The 43 bits of layout VE of R269, V.RCHK. -/
def OpVEC.enc (f : OpVEC) : BitVec 43 :=
  (f.vd ++ f.va ++ f.md ++ 0#10 ++ f.set ++ 0#1 ++ f.oa ++ f.ob).setWidth 43
/-- The fields of layout VE of R269, V.RCHK; none where an unused bit is set. -/
def OpVEC.dec (w : BitVec 43) : Option OpVEC :=
  if bitsAt w 9 10 == 0#10 && bitsAt w 6 1 == 0#1 then some { vd := bitsAt w 33 10, va := bitsAt w 23 10, md := bitsAt w 19 4, set := bitsAt w 7 2, oa := bitsAt w 3 3, ob := bitsAt w 0 3 } else none

/-- The 43 bits of layout MP of R239, M.PUSH. -/
def OpMP.enc (f : OpMP) : BitVec 43 :=
  (f.ha ++ f.hb ++ 0#37).setWidth 43
/-- The fields of layout MP of R239, M.PUSH; none where an unused bit is set. -/
def OpMP.dec (w : BitVec 43) : Option OpMP :=
  if bitsAt w 0 37 == 0#37 then some { ha := bitsAt w 40 3, hb := bitsAt w 37 3 } else none

/-- The 43 bits of layout MP of R239, M.ACC and M.SHIFT. -/
def OpMS.enc (f : OpMS) : BitVec 43 :=
  (0#6 ++ bitOf f.set ++ 0#36).setWidth 43
/-- The fields of layout MP of R239, M.ACC and M.SHIFT; none where an unused bit is set. -/
def OpMS.dec (w : BitVec 43) : Option OpMS :=
  if bitsAt w 37 6 == 0#6 && bitsAt w 0 36 == 0#36 then some { set := bitAt w 36 } else none

/-- The 43 bits of layout MP of R239, M.PA. -/
def OpMPA.enc (f : OpMPA) : BitVec 43 :=
  (f.ha ++ f.hb ++ bitOf f.set ++ 0#36).setWidth 43
/-- The fields of layout MP of R239, M.PA; none where an unused bit is set. -/
def OpMPA.dec (w : BitVec 43) : Option OpMPA :=
  if bitsAt w 0 36 == 0#36 then some { ha := bitsAt w 40 3, hb := bitsAt w 37 3, set := bitAt w 36 } else none

/-- The 43 bits of layout MD of R239. -/
def OpMD.enc (f : OpMD) : BitVec 43 :=
  (f.tn ++ f.row ++ f.line ++ 0#23).setWidth 43
/-- The fields of layout MD of R239; none where an unused bit is set. -/
def OpMD.dec (w : BitVec 43) : Option OpMD :=
  if bitsAt w 0 23 == 0#23 then some { tn := bitsAt w 38 5, row := bitsAt w 31 7, line := bitsAt w 23 8 } else none

/-- The 43 bits of layout MH of R239. -/
def OpMH.enc (f : OpMH) : BitVec 43 :=
  (f.hn ++ f.row ++ 0#33).setWidth 43
/-- The fields of layout MH of R239; none where an unused bit is set. -/
def OpMH.dec (w : BitVec 43) : Option OpMH :=
  if bitsAt w 0 33 == 0#33 then some { hn := bitsAt w 40 3, row := bitsAt w 33 7 } else none

/-- The 43 bits of layout MP of R239, M.ZERO. -/
def OpMZ.enc (f : OpMZ) : BitVec 43 :=
  (0#6 ++ bitOf f.set ++ bitOf f.n ++ 0#35).setWidth 43
/-- The fields of layout MP of R239, M.ZERO; none where an unused bit is set. -/
def OpMZ.dec (w : BitVec 43) : Option OpMZ :=
  if bitsAt w 37 6 == 0#6 && bitsAt w 0 35 == 0#35 then some { set := bitAt w 36, n := bitAt w 35 } else none

/-- The 43 bits of layout MI of R239. -/
def OpMI.enc (f : OpMI) : BitVec 43 :=
  (f.afmt ++ f.bfmt ++ f.dfmt ++ f.wbase ++ 0#23).setWidth 43
/-- The fields of layout MI of R239; none where an unused bit is set. -/
def OpMI.dec (w : BitVec 43) : Option OpMI :=
  if bitsAt w 0 23 == 0#23 then some { afmt := bitsAt w 39 4, bfmt := bitsAt w 35 4, dfmt := bitsAt w 31 4, wbase := bitsAt w 23 8 } else none

/-- The 43 bits of layout CM of R169, a scalar load. -/
def OpCML.enc (f : OpCML) : BitVec 43 :=
  (f.sd ++ f.sb ++ 0#5 ++ f.imm).setWidth 43
/-- The fields of layout CM of R169, a scalar load; none where an unused bit is set. -/
def OpCML.dec (w : BitVec 43) : Option OpCML :=
  if bitsAt w 21 5 == 0#5 then some { sd := bitsAt w 33 10, sb := bitsAt w 26 7, imm := bitsAt w 0 21 } else none

/-- The 43 bits of layout CM of R169, a scalar store. -/
def OpCMS.enc (f : OpCMS) : BitVec 43 :=
  (f.sa ++ f.sb ++ 0#4 ++ bitOf f.g ++ f.imm).setWidth 43
/-- The fields of layout CM of R169, a scalar store; none where an unused bit is set. -/
def OpCMS.dec (w : BitVec 43) : Option OpCMS :=
  if bitsAt w 22 4 == 0#4 then some { sa := bitsAt w 33 10, sb := bitsAt w 26 7, g := bitAt w 21, imm := bitsAt w 0 21 } else none

/-- The 43 bits of layout CM of R169, a vector load. -/
def OpCMVL.enc (f : OpCMVL) : BitVec 43 :=
  (f.vd ++ f.sb ++ f.tag ++ 0#1 ++ f.imm).setWidth 43
/-- The fields of layout CM of R169, a vector load; none where an unused bit is set. -/
def OpCMVL.dec (w : BitVec 43) : Option OpCMVL :=
  if bitsAt w 21 1 == 0#1 then some { vd := bitsAt w 33 10, sb := bitsAt w 26 7, tag := bitsAt w 22 4, imm := bitsAt w 0 21 } else none

/-- The 43 bits of layout CM of R169, VST. -/
def OpCMVS.enc (f : OpCMVS) : BitVec 43 :=
  (f.va ++ f.sb ++ 0#4 ++ bitOf f.g ++ f.imm).setWidth 43
/-- The fields of layout CM of R169, VST; none where an unused bit is set. -/
def OpCMVS.dec (w : BitVec 43) : Option OpCMVS :=
  if bitsAt w 22 4 == 0#4 then some { va := bitsAt w 33 10, sb := bitsAt w 26 7, g := bitAt w 21, imm := bitsAt w 0 21 } else none

/-- The 43 bits of layout CM of R169, VSTM. -/
def OpCMVM.enc (f : OpCMVM) : BitVec 43 :=
  (f.va ++ f.sb ++ f.mn ++ bitOf f.g ++ f.imm).setWidth 43
/-- The fields of layout CM of R169, VSTM; none where an unused bit is set. -/
def OpCMVM.dec (w : BitVec 43) : Option OpCMVM :=
  if true then some { va := bitsAt w 33 10, sb := bitsAt w 26 7, mn := bitsAt w 22 4, g := bitAt w 21, imm := bitsAt w 0 21 } else none

/-- The 43 bits of C.SHLD and C.SHEV of R173. -/
def OpSHL.enc (f : OpSHL) : BitVec 43 :=
  (f.ks ++ 0#5 ++ f.sb ++ 0#5 ++ f.imm).setWidth 43
/-- The fields of C.SHLD and C.SHEV of R173; none where an unused bit is set. -/
def OpSHL.dec (w : BitVec 43) : Option OpSHL :=
  if bitsAt w 33 5 == 0#5 && bitsAt w 21 5 == 0#5 then some { ks := bitsAt w 38 5, sb := bitsAt w 26 7, imm := bitsAt w 0 21 } else none

/-- The 43 bits of layout CT of R174, TLD. -/
def OpTLD.enc (f : OpTLD) : BitVec 43 :=
  (f.td ++ f.ks ++ f.sb ++ 0#26).setWidth 43
/-- The fields of layout CT of R174, TLD; none where an unused bit is set. -/
def OpTLD.dec (w : BitVec 43) : Option OpTLD :=
  if bitsAt w 0 26 == 0#26 then some { td := bitsAt w 38 5, ks := bitsAt w 33 5, sb := bitsAt w 26 7 } else none

/-- The 43 bits of layout CT of R174, TST. -/
def OpTST.enc (f : OpTST) : BitVec 43 :=
  (f.ta ++ f.ks ++ f.sb ++ bitOf f.w ++ 0#25).setWidth 43
/-- The fields of layout CT of R174, TST; none where an unused bit is set. -/
def OpTST.dec (w : BitVec 43) : Option OpTST :=
  if bitsAt w 0 25 == 0#25 then some { ta := bitsAt w 38 5, ks := bitsAt w 33 5, sb := bitsAt w 26 7, w := bitAt w 25 } else none

/-- The 43 bits of layout CT of R174, TLDP. -/
def OpTLDP.enc (f : OpTLDP) : BitVec 43 :=
  (f.td ++ f.ks ++ f.sb ++ 0#1 ++ f.line ++ 0#17).setWidth 43
/-- The fields of layout CT of R174, TLDP; none where an unused bit is set. -/
def OpTLDP.dec (w : BitVec 43) : Option OpTLDP :=
  if bitsAt w 25 1 == 0#1 && bitsAt w 0 17 == 0#17 then some { td := bitsAt w 38 5, ks := bitsAt w 33 5, sb := bitsAt w 26 7, line := bitsAt w 17 8 } else none

/-- The 43 bits of layout CT of R174, TSTP. -/
def OpTSTP.enc (f : OpTSTP) : BitVec 43 :=
  (f.ta ++ f.ks ++ f.sb ++ bitOf f.w ++ f.line ++ 0#17).setWidth 43
/-- The fields of layout CT of R174, TSTP; none where an unused bit is set. -/
def OpTSTP.dec (w : BitVec 43) : Option OpTSTP :=
  if bitsAt w 0 17 == 0#17 then some { ta := bitsAt w 38 5, ks := bitsAt w 33 5, sb := bitsAt w 26 7, w := bitAt w 25, line := bitsAt w 17 8 } else none

/-- The 43 bits of layout CG of R177, gather. -/
def OpCGL.enc (f : OpCGL) : BitVec 43 :=
  (f.td ++ f.tx ++ f.sb ++ bitOf f.w ++ f.n1 ++ f.tag ++ 0#9).setWidth 43
/-- The fields of layout CG of R177, gather; none where an unused bit is set. -/
def OpCGL.dec (w : BitVec 43) : Option OpCGL :=
  if bitsAt w 0 9 == 0#9 then some { td := bitsAt w 38 5, tx := bitsAt w 33 5, sb := bitsAt w 26 7, w := bitAt w 25, n1 := bitsAt w 13 12, tag := bitsAt w 9 4 } else none

/-- The 43 bits of layout CG of R177, scatter. -/
def OpCGS.enc (f : OpCGS) : BitVec 43 :=
  (f.ta ++ f.tx ++ f.sb ++ bitOf f.w ++ f.n1 ++ f.tag ++ 0#9).setWidth 43
/-- The fields of layout CG of R177, scatter; none where an unused bit is set. -/
def OpCGS.dec (w : BitVec 43) : Option OpCGS :=
  if bitsAt w 0 9 == 0#9 then some { ta := bitsAt w 38 5, tx := bitsAt w 33 5, sb := bitsAt w 26 7, w := bitAt w 25, n1 := bitsAt w 13 12, tag := bitsAt w 9 4 } else none

/-- The 43 bits of layout CR of R180. -/
def OpCR.enc (f : OpCR) : BitVec 43 :=
  (f.hn ++ f.ks ++ f.sb ++ 0#28).setWidth 43
/-- The fields of layout CR of R180; none where an unused bit is set. -/
def OpCR.dec (w : BitVec 43) : Option OpCR :=
  if bitsAt w 0 28 == 0#28 then some { hn := bitsAt w 40 3, ks := bitsAt w 35 5, sb := bitsAt w 28 7 } else none

/-- The 43 bits of layout CF of R181. -/
def OpCF.enc (f : OpCF) : BitVec 43 :=
  (f.vn ++ f.ks ++ f.sb ++ 0#21).setWidth 43
/-- The fields of layout CF of R181; none where an unused bit is set. -/
def OpCF.dec (w : BitVec 43) : Option OpCF :=
  if bitsAt w 0 21 == 0#21 then some { vn := bitsAt w 33 10, ks := bitsAt w 28 5, sb := bitsAt w 21 7 } else none

/-- The 43 bits of layout CF of R185 with ks and sb zero. -/
def OpCFV.enc (f : OpCFV) : BitVec 43 :=
  (f.vn ++ 0#33).setWidth 43
/-- The fields of layout CF of R185 with ks and sb zero; none where an unused bit is set. -/
def OpCFV.dec (w : BitVec 43) : Option OpCFV :=
  if bitsAt w 0 33 == 0#33 then some { vn := bitsAt w 33 10 } else none

/-- The 43 bits of C.FSTAT of R185. -/
def OpCFS.enc (f : OpCFS) : BitVec 43 :=
  (f.sd ++ f.vn ++ 0#26).setWidth 43
/-- The fields of C.FSTAT of R185; none where an unused bit is set. -/
def OpCFS.dec (w : BitVec 43) : Option OpCFS :=
  if bitsAt w 0 26 == 0#26 then some { sd := bitsAt w 36 7, vn := bitsAt w 26 10 } else none

/-- The 43 bits of layout FN of R203, with the bits that name the row. -/
def OpFN.enc (k : BitVec 2) (f : OpFN) : BitVec 43 :=
  (f.scope ++ k ++ 0#38).setWidth 43
/-- The fields of layout FN of R203; none where an unused bit is set. -/
def OpFN.dec (k : BitVec 2) (w : BitVec 43) : Option OpFN :=
  if bitsAt w 38 2 == k && bitsAt w 0 38 == 0#38 then some { scope := bitsAt w 40 3 } else none

/-- The 43 bits of layout CA of R204, returning. -/
def OpCAR.enc (f : OpCAR) : BitVec 43 :=
  (f.sd ++ f.sb ++ f.sa ++ 0#7 ++ f.imm).setWidth 43
/-- The fields of layout CA of R204, returning; none where an unused bit is set. -/
def OpCAR.dec (w : BitVec 43) : Option OpCAR :=
  if bitsAt w 15 7 == 0#7 then some { sd := bitsAt w 36 7, sb := bitsAt w 29 7, sa := bitsAt w 22 7, imm := bitsAt w 0 15 } else none

/-- The 43 bits of layout CA of R204, not returning. -/
def OpCAN.enc (f : OpCAN) : BitVec 43 :=
  (0#7 ++ f.sb ++ f.sa ++ 0#7 ++ f.imm).setWidth 43
/-- The fields of layout CA of R204, not returning; none where an unused bit is set. -/
def OpCAN.dec (w : BitVec 43) : Option OpCAN :=
  if bitsAt w 36 7 == 0#7 && bitsAt w 15 7 == 0#7 then some { sb := bitsAt w 29 7, sa := bitsAt w 22 7, imm := bitsAt w 0 15 } else none

/-- The 43 bits of layout CA of R204, ACAS returning. -/
def OpCACR.enc (f : OpCACR) : BitVec 43 :=
  (f.sd ++ f.sb ++ f.sa ++ f.sc ++ f.imm).setWidth 43
/-- The fields of layout CA of R204, ACAS returning; none where an unused bit is set. -/
def OpCACR.dec (w : BitVec 43) : Option OpCACR :=
  if true then some { sd := bitsAt w 36 7, sb := bitsAt w 29 7, sa := bitsAt w 22 7, sc := bitsAt w 15 7, imm := bitsAt w 0 15 } else none

/-- The 43 bits of layout CA of R204, ACAS not returning. -/
def OpCACN.enc (f : OpCACN) : BitVec 43 :=
  (0#7 ++ f.sb ++ f.sa ++ f.sc ++ f.imm).setWidth 43
/-- The fields of layout CA of R204, ACAS not returning; none where an unused bit is set. -/
def OpCACN.dec (w : BitVec 43) : Option OpCACN :=
  if bitsAt w 36 7 == 0#7 then some { sb := bitsAt w 29 7, sa := bitsAt w 22 7, sc := bitsAt w 15 7, imm := bitsAt w 0 15 } else none

/-- The 43 bits of layout LQ of R220. -/
def OpLQ.enc (f : OpLQ) : BitVec 43 :=
  (f.sd ++ f.sb ++ f.va ++ f.imm).setWidth 43
/-- The fields of layout LQ of R220; none where an unused bit is set. -/
def OpLQ.dec (w : BitVec 43) : Option OpLQ :=
  if true then some { sd := bitsAt w 36 7, sb := bitsAt w 29 7, va := bitsAt w 19 10, imm := bitsAt w 0 19 } else none

/-- The 43 bits of layout LB of R220, immediate. -/
def OpLBI.enc (f : OpLBI) : BitVec 43 :=
  (0#7 ++ f.sb ++ f.n ++ f.imm).setWidth 43
/-- The fields of layout LB of R220, immediate; none where an unused bit is set. -/
def OpLBI.dec (w : BitVec 43) : Option OpLBI :=
  if bitsAt w 36 7 == 0#7 then some { sb := bitsAt w 29 7, n := bitsAt w 13 16, imm := bitsAt w 0 13 } else none

/-- The 43 bits of layout LB of R220, register. -/
def OpLBR.enc (f : OpLBR) : BitVec 43 :=
  (0#7 ++ f.sb ++ f.sa ++ 0#9 ++ f.imm).setWidth 43
/-- The fields of layout LB of R220, register; none where an unused bit is set. -/
def OpLBR.dec (w : BitVec 43) : Option OpLBR :=
  if bitsAt w 36 7 == 0#7 && bitsAt w 13 9 == 0#9 then some { sb := bitsAt w 29 7, sa := bitsAt w 22 7, imm := bitsAt w 0 13 } else none

/-- The 43 bits of layout LB of R220, BWAIT. -/
def OpLBW.enc (f : OpLBW) : BitVec 43 :=
  (f.sd ++ f.sb ++ f.sa ++ 0#9 ++ f.imm).setWidth 43
/-- The fields of layout LB of R220, BWAIT; none where an unused bit is set. -/
def OpLBW.dec (w : BitVec 43) : Option OpLBW :=
  if bitsAt w 13 9 == 0#9 then some { sd := bitsAt w 36 7, sb := bitsAt w 29 7, sa := bitsAt w 22 7, imm := bitsAt w 0 13 } else none

/-- The 43 bits of layout BT of R284, with the bits that name the row. -/
def OpBeat.enc (k : BitVec 1) (f : OpBeat) : BitVec 43 :=
  (k ++ 0#30 ++ f.tag).setWidth 43
/-- The fields of layout BT of R284; none where an unused bit is set. -/
def OpBeat.dec (k : BitVec 1) (w : BitVec 43) : Option OpBeat :=
  if bitsAt w 42 1 == k && bitsAt w 12 30 == 0#30 then some { tag := bitsAt w 0 12 } else none

/-- The 43 bits of layout BT of R284, C1.BEAT off, with the bits that name the row. -/
def OpBOff.enc (k : BitVec 1) (_f : OpBOff) : BitVec 43 :=
  (k ++ 0#42).setWidth 43
/-- The fields of layout BT of R284, C1.BEAT off; none where an unused bit is set. -/
def OpBOff.dec (k : BitVec 1) (w : BitVec 43) : Option OpBOff :=
  if bitsAt w 42 1 == k && bitsAt w 0 42 == 0#42 then some {  } else none

/-- The 43 bits of layout BQ of R284. -/
def OpBQ.enc (f : OpBQ) : BitVec 43 :=
  (f.sd ++ f.sb ++ 0#29).setWidth 43
/-- The fields of layout BQ of R284; none where an unused bit is set. -/
def OpBQ.dec (w : BitVec 43) : Option OpBQ :=
  if bitsAt w 0 29 == 0#29 then some { sd := bitsAt w 36 7, sb := bitsAt w 29 7 } else none

/-- The 43 bits of layout BW of R284. -/
def OpBW.enc (f : OpBW) : BitVec 43 :=
  (f.sb ++ 0#24 ++ f.tag).setWidth 43
/-- The fields of layout BW of R284; none where an unused bit is set. -/
def OpBW.dec (w : BitVec 43) : Option OpBW :=
  if bitsAt w 12 24 == 0#24 then some { sb := bitsAt w 36 7, tag := bitsAt w 0 12 } else none

/-- The 43 bits of layout BP of R284, PST. -/
def OpPST.enc (f : OpPST) : BitVec 43 :=
  (f.va ++ f.sb ++ 0#4 ++ f.w1 ++ bitOf f.i ++ f.tag ++ 0#5).setWidth 43
/-- The fields of layout BP of R284, PST; none where an unused bit is set. -/
def OpPST.dec (w : BitVec 43) : Option OpPST :=
  if bitsAt w 22 4 == 0#4 && bitsAt w 0 5 == 0#5 then some { va := bitsAt w 33 10, sb := bitsAt w 26 7, w1 := bitsAt w 18 4, i := bitAt w 17, tag := bitsAt w 5 12 } else none

/-- The 43 bits of layout BP of R284, PSTM. -/
def OpPSTM.enc (f : OpPSTM) : BitVec 43 :=
  (f.va ++ f.sb ++ 0#4 ++ f.w1 ++ bitOf f.i ++ f.tag ++ f.mn ++ 0#1).setWidth 43
/-- The fields of layout BP of R284, PSTM; none where an unused bit is set. -/
def OpPSTM.dec (w : BitVec 43) : Option OpPSTM :=
  if bitsAt w 22 4 == 0#4 && bitsAt w 0 1 == 0#1 then some { va := bitsAt w 33 10, sb := bitsAt w 26 7, w1 := bitsAt w 18 4, i := bitAt w 17, tag := bitsAt w 5 12, mn := bitsAt w 1 4 } else none

/-- The 43 bits of layout BP of R284, PLD. -/
def OpPLD.enc (f : OpPLD) : BitVec 43 :=
  (f.vd ++ f.sb ++ f.fmt ++ f.w1 ++ bitOf f.i ++ f.tag ++ 0#5).setWidth 43
/-- The fields of layout BP of R284, PLD; none where an unused bit is set. -/
def OpPLD.dec (w : BitVec 43) : Option OpPLD :=
  if bitsAt w 0 5 == 0#5 then some { vd := bitsAt w 33 10, sb := bitsAt w 26 7, fmt := bitsAt w 22 4, w1 := bitsAt w 18 4, i := bitAt w 17, tag := bitsAt w 5 12 } else none

/-- The 43 bits of layout BK of R284. -/
def OpBK.enc (f : OpBK) : BitVec 43 :=
  (f.sa ++ f.sb ++ f.sc ++ 0#4 ++ bitOf f.i ++ f.tag ++ 0#5).setWidth 43
/-- The fields of layout BK of R284; none where an unused bit is set. -/
def OpBK.dec (w : BitVec 43) : Option OpBK :=
  if bitsAt w 18 4 == 0#4 && bitsAt w 0 5 == 0#5 then some { sa := bitsAt w 36 7, sb := bitsAt w 29 7, sc := bitsAt w 22 7, i := bitAt w 17, tag := bitsAt w 5 12 } else none

/-- The 43 bits of layout KL of R303. -/
def OpKL.enc (f : OpKL) : BitVec 43 :=
  (f.td ++ f.sa ++ f.sb ++ 0#24).setWidth 43
/-- The fields of layout KL of R303; none where an unused bit is set. -/
def OpKL.dec (w : BitVec 43) : Option OpKL :=
  if bitsAt w 0 24 == 0#24 then some { td := bitsAt w 38 5, sa := bitsAt w 31 7, sb := bitsAt w 24 7 } else none

/-- The 43 bits of layout KS of R303. -/
def OpKS.enc (f : OpKS) : BitVec 43 :=
  (f.ta ++ f.sa ++ f.sb ++ f.sc ++ bitOf f.w ++ 0#16).setWidth 43
/-- The fields of layout KS of R303; none where an unused bit is set. -/
def OpKS.dec (w : BitVec 43) : Option OpKS :=
  if bitsAt w 0 16 == 0#16 then some { ta := bitsAt w 38 5, sa := bitsAt w 31 7, sb := bitsAt w 24 7, sc := bitsAt w 17 7, w := bitAt w 16 } else none

/-- The 43 bits of layout KX of R303. -/
def OpKX.enc (f : OpKX) : BitVec 43 :=
  (f.sd ++ f.sa ++ f.sb ++ f.sc ++ 0#15).setWidth 43
/-- The fields of layout KX of R303; none where an unused bit is set. -/
def OpKX.dec (w : BitVec 43) : Option OpKX :=
  if bitsAt w 0 15 == 0#15 then some { sd := bitsAt w 36 7, sa := bitsAt w 29 7, sb := bitsAt w 22 7, sc := bitsAt w 15 7 } else none

/-- The 43 bits of layout KX of R303 with sd and sc zero. -/
def OpKF.enc (f : OpKF) : BitVec 43 :=
  (0#7 ++ f.sa ++ f.sb ++ 0#22).setWidth 43
/-- The fields of layout KX of R303 with sd and sc zero; none where an unused bit is set. -/
def OpKF.dec (w : BitVec 43) : Option OpKF :=
  if bitsAt w 36 7 == 0#7 && bitsAt w 0 22 == 0#22 then some { sa := bitsAt w 29 7, sb := bitsAt w 22 7 } else none

/-- The 43 bits of C1.CANCEL of R331. -/
def OpCAN2.enc (f : OpCAN2) : BitVec 43 :=
  (f.level ++ 0#5 ++ f.sb ++ f.imm).setWidth 43
/-- The fields of C1.CANCEL of R331; none where an unused bit is set. -/
def OpCAN2.dec (w : BitVec 43) : Option OpCAN2 :=
  if bitsAt w 36 5 == 0#5 then some { level := bitsAt w 41 2, sb := bitsAt w 29 7, imm := bitsAt w 0 29 } else none

/-- The 43 bits of LNCH of R333. -/
def OpLN.enc (f : OpLN) : BitVec 43 :=
  (f.sd ++ f.sb ++ f.imm).setWidth 43
/-- The fields of LNCH of R333; none where an unused bit is set. -/
def OpLN.dec (w : BitVec 43) : Option OpLN :=
  if true then some { sd := bitsAt w 36 7, sb := bitsAt w 29 7, imm := bitsAt w 0 29 } else none

/-- The 26 bits of the single-width forms of R290. -/
def BkAr.enc (f : BkAr) : BitVec 26 :=
  (f.t ++ f.w1 ++ 0#4 ++ f.pa ++ f.pb ++ bitOf f.s ++ 0#1).setWidth 26
/-- The fields of the single-width forms of R290; none where an unused bit is set. -/
def BkAr.dec (w : BitVec 26) : Option BkAr :=
  if bitsAt w 16 4 == 0#4 && bitsAt w 0 1 == 0#1 then some { t := bitsAt w 24 2, w1 := bitsAt w 20 4, pa := bitsAt w 9 7, pb := bitsAt w 2 7, s := bitAt w 1 } else none

/-- The 26 bits of BK MUL and MAC of R290. -/
def BkMul.enc (f : BkMul) : BitVec 26 :=
  (f.t ++ f.wa1 ++ f.wb1 ++ f.pa ++ f.pb ++ bitOf f.s ++ bitOf f.k).setWidth 26
/-- The fields of BK MUL and MAC of R290; none where an unused bit is set. -/
def BkMul.dec (w : BitVec 26) : Option BkMul :=
  if true then some { t := bitsAt w 24 2, wa1 := bitsAt w 20 4, wb1 := bitsAt w 16 4, pa := bitsAt w 9 7, pb := bitsAt w 2 7, s := bitAt w 1, k := bitAt w 0 } else none

/-- The 26 bits of BK CMP of R290. -/
def BkCmp.enc (f : BkCmp) : BitVec 26 :=
  (f.t ++ f.w1 ++ 0#1 ++ f.l ++ f.pa ++ f.pb ++ bitOf f.s ++ 0#1).setWidth 26
/-- The fields of BK CMP of R290; none where an unused bit is set. -/
def BkCmp.dec (w : BitVec 26) : Option BkCmp :=
  if bitsAt w 19 1 == 0#1 && bitsAt w 0 1 == 0#1 then some { t := bitsAt w 24 2, w1 := bitsAt w 20 4, l := bitsAt w 16 3, pa := bitsAt w 9 7, pb := bitsAt w 2 7, s := bitAt w 1 } else none

/-- The 26 bits of BK NEG of R290. -/
def BkNeg.enc (f : BkNeg) : BitVec 26 :=
  (f.t ++ f.w1 ++ 0#4 ++ f.pa ++ 0#7 ++ bitOf f.s ++ 0#1).setWidth 26
/-- The fields of BK NEG of R290; none where an unused bit is set. -/
def BkNeg.dec (w : BitVec 26) : Option BkNeg :=
  if bitsAt w 16 4 == 0#4 && bitsAt w 2 7 == 0#7 && bitsAt w 0 1 == 0#1 then some { t := bitsAt w 24 2, w1 := bitsAt w 20 4, pa := bitsAt w 9 7, s := bitAt w 1 } else none

/-- The 26 bits of plane logic of R291. -/
def BkP3.enc (f : BkP3) : BitVec 26 :=
  (f.t ++ f.ld ++ f.la ++ f.lb ++ 0#15).setWidth 26
/-- The fields of plane logic of R291; none where an unused bit is set. -/
def BkP3.dec (w : BitVec 26) : Option BkP3 :=
  if bitsAt w 0 15 == 0#15 then some { t := bitsAt w 24 2, ld := bitsAt w 21 3, la := bitsAt w 18 3, lb := bitsAt w 15 3 } else none

/-- The 26 bits of BK PNOT and PMOV of R291. -/
def BkP2.enc (f : BkP2) : BitVec 26 :=
  (f.t ++ f.ld ++ f.la ++ 0#18).setWidth 26
/-- The fields of BK PNOT and PMOV of R291; none where an unused bit is set. -/
def BkP2.dec (w : BitVec 26) : Option BkP2 :=
  if bitsAt w 0 18 == 0#18 then some { t := bitsAt w 24 2, ld := bitsAt w 21 3, la := bitsAt w 18 3 } else none

/-- The 26 bits of BK PFILL of R291. -/
def BkFill.enc (f : BkFill) : BitVec 26 :=
  (f.t ++ f.ld ++ 0#6 ++ bitOf f.v ++ 0#14).setWidth 26
/-- The fields of BK PFILL of R291; none where an unused bit is set. -/
def BkFill.dec (w : BitVec 26) : Option BkFill :=
  if bitsAt w 15 6 == 0#6 && bitsAt w 0 14 == 0#14 then some { t := bitsAt w 24 2, ld := bitsAt w 21 3, v := bitAt w 14 } else none

/-- The 26 bits of BK RRD and RWR of R291. -/
def BkRow.enc (f : BkRow) : BitVec 26 :=
  (f.t ++ f.l ++ f.p ++ 0#14).setWidth 26
/-- The fields of BK RRD and RWR of R291; none where an unused bit is set. -/
def BkRow.dec (w : BitVec 26) : Option BkRow :=
  if bitsAt w 0 14 == 0#14 then some { t := bitsAt w 24 2, l := bitsAt w 21 3, p := bitsAt w 14 7 } else none

/-- The 26 bits of BK RWRM of R291. -/
def BkRowM.enc (f : BkRowM) : BitVec 26 :=
  (f.t ++ f.l ++ f.p ++ f.m ++ 0#11).setWidth 26
/-- The fields of BK RWRM of R291; none where an unused bit is set. -/
def BkRowM.dec (w : BitVec 26) : Option BkRowM :=
  if bitsAt w 0 11 == 0#11 then some { t := bitsAt w 24 2, l := bitsAt w 21 3, p := bitsAt w 14 7, m := bitsAt w 11 3 } else none

/-- The 26 bits of BK RRDS of R291. -/
def BkRowS.enc (f : BkRowS) : BitVec 26 :=
  (f.t ++ f.l ++ f.p ++ f.n ++ 0#3).setWidth 26
/-- The fields of BK RRDS of R291; none where an unused bit is set. -/
def BkRowS.dec (w : BitVec 26) : Option BkRowS :=
  if bitsAt w 0 3 == 0#3 then some { t := bitsAt w 24 2, l := bitsAt w 21 3, p := bitsAt w 14 7, n := bitsAt w 3 11 } else none

/-- The 26 bits of BK LOOP of R292. -/
def BkLoop.enc (f : BkLoop) : BitVec 26 :=
  (f.t ++ bitOf f.c ++ f.sp ++ f.n1).setWidth 26
/-- The fields of BK LOOP of R292; none where an unused bit is set. -/
def BkLoop.dec (w : BitVec 26) : Option BkLoop :=
  if true then some { t := bitsAt w 24 2, c := bitAt w 23, sp := bitsAt w 16 7, n1 := bitsAt w 0 16 } else none

/-- The 26 bits of BK ENDL and ACLR of R292. -/
def BkC.enc (f : BkC) : BitVec 26 :=
  (f.t ++ bitOf f.c ++ 0#23).setWidth 26
/-- The fields of BK ENDL and ACLR of R292; none where an unused bit is set. -/
def BkC.dec (w : BitVec 26) : Option BkC :=
  if bitsAt w 0 23 == 0#23 then some { t := bitsAt w 24 2, c := bitAt w 23 } else none

/-- The 26 bits of BK WAIT of R292. -/
def BkWait.enc (f : BkWait) : BitVec 26 :=
  (f.t ++ 0#8 ++ f.n).setWidth 26
/-- The fields of BK WAIT of R292; none where an unused bit is set. -/
def BkWait.dec (w : BitVec 26) : Option BkWait :=
  if bitsAt w 16 8 == 0#8 then some { t := bitsAt w 24 2, n := bitsAt w 0 16 } else none

/-- The 26 bits of BK HALT of R292. -/
def BkNone.enc (f : BkNone) : BitVec 26 :=
  (f.t ++ 0#24).setWidth 26
/-- The fields of BK HALT of R292; none where an unused bit is set. -/
def BkNone.dec (w : BitVec 26) : Option BkNone :=
  if bitsAt w 0 24 == 0#24 then some { t := bitsAt w 24 2 } else none

/-- The 26 bits of BK ARD of R292. -/
def BkArd.enc (f : BkArd) : BitVec 26 :=
  (f.t ++ bitOf f.k ++ f.w1 ++ f.sh ++ f.p ++ 0#7).setWidth 26
/-- The fields of BK ARD of R292; none where an unused bit is set. -/
def BkArd.dec (w : BitVec 26) : Option BkArd :=
  if bitsAt w 0 7 == 0#7 then some { t := bitsAt w 24 2, k := bitAt w 23, w1 := bitsAt w 19 4, sh := bitsAt w 14 5, p := bitsAt w 7 7 } else none

/-- The bits of a T syllable below its stop bit (R38). -/
def TSyl.enc (t : TSyl) : BitVec 63 :=
  (t.shape ++ t.pred0 ++ bitOf t.sense0 ++ t.pred1 ++ bitOf t.sense1 ++ t.pred2 ++ bitOf t.sense2 ++
    t.pred3 ++ bitOf t.sense3 ++ t.leaf1 ++ t.leaf2 ++ t.leaf3 ++ t.leaf4).setWidth 63

/-- The fields of a T syllable (R38). -/
def TSyl.dec (w : BitVec 63) : TSyl :=
  { shape := bitsAt w 60 3, pred0 := bitsAt w 54 6, sense0 := bitAt w 53, pred1 := bitsAt w 47 6, sense1 := bitAt w 46,
    pred2 := bitsAt w 40 6, sense2 := bitAt w 39, pred3 := bitsAt w 33 6, sense3 := bitAt w 32,
    leaf1 := bitsAt w 24 8, leaf2 := bitsAt w 16 8, leaf3 := bitsAt w 8 8, leaf4 := bitsAt w 0 8 }

/-- The S-class map (R45): the operation of an opcode, its operand bits `w` read by its layout. -/
noncomputable def decodeS (op : Nat) (h : Hdr) (w : BitVec 43) : Option Instr :=
  match op with
  | 0 => (OpRR.dec w).map (.sAdd h)
  | 1 => (OpRR.dec w).map (.sSub h)
  | 2 => (OpRR.dec w).map (.sMul h)
  | 3 => (OpRR.dec w).map (.sMulh h)
  | 4 => (OpRR.dec w).map (.sMulhu h)
  | 5 => (OpRR.dec w).map (.sAnd h)
  | 6 => (OpRR.dec w).map (.sOr h)
  | 7 => (OpRR.dec w).map (.sXor h)
  | 8 => (OpRR.dec w).map (.sShl h)
  | 9 => (OpRR.dec w).map (.sShr h)
  | 10 => (OpRR.dec w).map (.sSra h)
  | 11 => (OpRR.dec w).map (.sMin h)
  | 12 => (OpRR.dec w).map (.sMax h)
  | 13 => (OpRR.dec w).map (.sMinu h)
  | 14 => (OpRR.dec w).map (.sMaxu h)
  | 15 => (OpRR.dec w).map (.sAdds h)
  | 16 => (OpRI.dec w).map (.sAddi h)
  | 17 => (OpRI.dec w).map (.sAndi h)
  | 18 => (OpRI.dec w).map (.sOri h)
  | 19 => (OpRI.dec w).map (.sXori h)
  | 20 => (OpSH.dec w).map (.sShli h)
  | 21 => (OpSH.dec w).map (.sShri h)
  | 22 => (OpSH.dec w).map (.sSrai h)
  | 23 => (OpLEA.dec w).map (.sLea h)
  | 24 => (OpPR.dec w).map (.sCeq h)
  | 25 => (OpPR.dec w).map (.sCne h)
  | 26 => (OpPR.dec w).map (.sClt h)
  | 27 => (OpPR.dec w).map (.sCle h)
  | 28 => (OpPR.dec w).map (.sCltu h)
  | 29 => (OpPR.dec w).map (.sCleu h)
  | 30 => (OpPI.dec w).map (.sCeqi h)
  | 31 => (OpPI.dec w).map (.sClti h)
  | 32 => (OpPL.dec w).map (.sPand h)
  | 33 => (OpPL.dec w).map (.sPor h)
  | 34 => (OpPL.dec w).map (.sPxor h)
  | 35 => (OpPB.dec w).map (.sPbit h)
  | 36 => (OpMOV.dec w).map (.sMov h)
  | 37 => (OpRSW.dec w).map (.sRsw h)
  | 38 => (OpWSW.dec w).map (.sWsw h)
  | 39 => (OpRTAG.dec w).map (.sRtag h)
  | 40 => (OpWTAG.dec w).map (.sWtag h)
  | 41 => (OpMFROM.dec w).map (.sMfrom h)
  | 42 => (OpMTO.dec w).map (.sMto h)
  | 43 => (OpPGET.dec w).map (.sPget h)
  | 44 => (OpLFL.dec w).map (.sLld h)
  | 45 => (OpLFL.dec w).map (.sLlw h)
  | 46 => (OpLFS.dec w).map (.sLst h)
  | 47 => (OpLFS.dec w).map (.sLstw h)
  | 48 => (OpLFL.dec w).map (.sLldAcq h)
  | 49 => (OpLFL.dec w).map (.sLlwAcq h)
  | 50 => (OpLFS.dec w).map (.sLstRel h)
  | 51 => (OpLFS.dec w).map (.sLstwRel h)
  | 52 => (OpCK.dec w).map (.sCkt h)
  | 53 => (OpNone.dec w).map (.sNxt h)
  | 54 => (OpSA.dec w).map (.sCtxout h)
  | 55 => (OpSA.dec w).map (.sCtxin h)
  | 56 => (OpNone.dec w).map (.sCtxskip h)
  | 57 => if bitsAt w 27 2 == 0#2 then (OpTI.dec 0#2 w).map (.sTlbinvAll h) else if bitsAt w 27 2 == 1#2 then (OpTI.dec 1#2 w).map (.sTlbinvContext h) else if bitsAt w 27 2 == 2#2 then (OpTI.dec 2#2 w).map (.sTlbinvPage h) else none
  | 58 => (OpNone.dec w).map (.sTlbsync h)
  | 59 => if bitsAt w 35 1 == 0#1 then (OpCTXD.dec 0#1 w).map (.sCtxdonePreempted h) else if bitsAt w 35 1 == 1#1 then (OpCTXD.dec 1#1 w).map (.sCtxdoneFailed h) else none
  | 60 => (OpWI.dec w).map (.sLil h)
  | 61 => (OpWI.dec w).map (.sLih h)
  | 62 => (OpWI.dec w).map (.sLis h)
  | 63 => (OpWI.dec w).map (.sLpc h)
  | _ => none

/-- The V-class map (R46): the operation of an opcode, its operand bits `w` read by its layout. -/
noncomputable def decodeV (op : Nat) (h : Hdr) (w : BitVec 43) : Option Instr :=
  match op with
  | 0 => (OpV3.dec w).map (.vAddI32 h)
  | 1 => (OpV3.dec w).map (.vSubI32 h)
  | 2 => (OpV3.dec w).map (.vMulI32 h)
  | 3 => (OpV3.dec w).map (.vMulhI32 h)
  | 4 => (OpV3.dec w).map (.vAddsI32 h)
  | 5 => (OpV3.dec w).map (.vSubsI32 h)
  | 6 => (OpV3.dec w).map (.vAddI16 h)
  | 7 => (OpV3.dec w).map (.vAddsI16 h)
  | 8 => (OpV3.dec w).map (.vAddI8 h)
  | 9 => (OpV3.dec w).map (.vAddsI8 h)
  | 10 => (OpV3.dec w).map (.vAddsZ8 h)
  | 11 => (OpV3.dec w).map (.vMinI32 h)
  | 12 => (OpV3.dec w).map (.vMaxI32 h)
  | 13 => (OpV3.dec w).map (.vMinZ32 h)
  | 14 => (OpV3.dec w).map (.vMaxZ32 h)
  | 15 => (OpV2.dec w).map (.vAbsI32 h)
  | 16 => (OpV3.dec w).map (.vAnd h)
  | 17 => (OpV3.dec w).map (.vOr h)
  | 18 => (OpV3.dec w).map (.vXor h)
  | 19 => (OpV3.dec w).map (.vAndn h)
  | 20 => (OpV3.dec w).map (.vShlI32 h)
  | 21 => (OpV3.dec w).map (.vShrZ32 h)
  | 22 => (OpV3.dec w).map (.vSraI32 h)
  | 23 => (OpV3.dec w).map (.vDot4I8 h)
  | 24 => (OpV3R.dec w).map (.vAddF32 h)
  | 25 => (OpV3R.dec w).map (.vSubF32 h)
  | 26 => (OpV3R.dec w).map (.vMulF32 h)
  | 27 => (OpV3R.dec w).map (.vFmaF32 h)
  | 28 => (OpV3R.dec w).map (.vFmsF32 h)
  | 29 => (OpV3R.dec w).map (.vFnmaF32 h)
  | 30 => (OpV3.dec w).map (.vMinF32 h)
  | 31 => (OpV3.dec w).map (.vMaxF32 h)
  | 32 => (OpV3R.dec w).map (.vAddF16 h)
  | 33 => (OpV3R.dec w).map (.vSubF16 h)
  | 34 => (OpV3R.dec w).map (.vMulF16 h)
  | 35 => (OpV3R.dec w).map (.vFmaF16 h)
  | 36 => (OpV3.dec w).map (.vMinF16 h)
  | 37 => (OpV3.dec w).map (.vMaxF16 h)
  | 38 => (OpV3R.dec w).map (.vAddB16 h)
  | 39 => (OpV3R.dec w).map (.vSubB16 h)
  | 40 => (OpV3R.dec w).map (.vMulB16 h)
  | 41 => (OpV3R.dec w).map (.vFmaB16 h)
  | 42 => (OpV3.dec w).map (.vMinB16 h)
  | 43 => (OpV3.dec w).map (.vMaxB16 h)
  | 44 => (OpV2.dec w).map (.vRcpF32 h)
  | 45 => (OpV2.dec w).map (.vRsqF32 h)
  | 46 => (OpV2.dec w).map (.vExp2F32 h)
  | 47 => (OpV2.dec w).map (.vLog2F32 h)
  | 48 => (OpV2.dec w).map (.vRcpF16 h)
  | 49 => (OpV2.dec w).map (.vRsqF16 h)
  | 50 => (OpV2.dec w).map (.vExp2F16 h)
  | 51 => (OpV2.dec w).map (.vLog2F16 h)
  | 52 => (OpVM.dec w).map (.vCeqI32 h)
  | 53 => (OpVM.dec w).map (.vCltI32 h)
  | 54 => (OpVM.dec w).map (.vCleI32 h)
  | 55 => (OpVM.dec w).map (.vCltZ32 h)
  | 56 => (OpVM.dec w).map (.vCeqF32 h)
  | 57 => (OpVM.dec w).map (.vCltF32 h)
  | 58 => (OpVM.dec w).map (.vCleF32 h)
  | 59 => (OpVM.dec w).map (.vCunF32 h)
  | 60 => (OpVCR.dec w).map (.vCvtF32 h)
  | 61 => (OpVCR.dec w).map (.vCvtF16 h)
  | 62 => (OpVCR.dec w).map (.vCvtB16 h)
  | 63 => (OpVCR.dec w).map (.vCvtE4 h)
  | 64 => (OpVCR.dec w).map (.vCvtE5 h)
  | 65 => (OpVCR.dec w).map (.vCvtI32 h)
  | 66 => (OpVCR.dec w).map (.vCvtI16 h)
  | 67 => (OpVCR.dec w).map (.vCvtI8 h)
  | 68 => (OpVCR.dec w).map (.vCvtZ32 h)
  | 69 => (OpVCR.dec w).map (.vCvtZ16 h)
  | 70 => (OpVCR.dec w).map (.vCvtZ8 h)
  | 71 => (OpVC.dec w).map (.vCvtc h)
  | 72 => (OpV2R.dec w).map (.vRintF32 h)
  | 73 => (OpV3R.dec w).map (.vScaleF32 h)
  | 74 => (OpV2.dec w).map (.vExpoF32 h)
  | 75 => (OpVC.dec w).map (.vPackI4 h)
  | 76 => (OpVC.dec w).map (.vUnpkI4 h)
  | 77 => (OpVCR.dec w).map (.vPackX4 h)
  | 78 => (OpVC.dec w).map (.vUnpkX4 h)
  | 79 => (OpVQR.dec w).map (.vRaddF32 h)
  | 80 => (OpVQR.dec w).map (.vRaddF16 h)
  | 81 => (OpVQ.dec w).map (.vRaddI32 h)
  | 82 => (OpVQ.dec w).map (.vRmaxF32 h)
  | 83 => (OpVQ.dec w).map (.vRminF32 h)
  | 84 => (OpVQ.dec w).map (.vRmaxI32 h)
  | 85 => (OpV3.dec w).map (.vPerm h)
  | 86 => (OpV3.dec w).map (.vPerm8 h)
  | 87 => (OpVN.dec w).map (.vRot h)
  | 88 => (OpVSL.dec w).map (.vSlide h)
  | 89 => (OpVN.dec w).map (.vBcast h)
  | 90 => (OpVS.dec w).map (.vBcs h)
  | 91 => (OpVSEL.dec w).map (.vSel h)
  | 92 => (OpVI.dec w).map (.vIota h)
  | 93 => (OpVLL.dec w).map (.v0Sld h)
  | 94 => (OpVLLX.dec w).map (.v0Sldx h)
  | 95 => (OpVLS.dec w).map (.v0Sst h)
  | 96 => (OpVLSX.dec w).map (.v0Sstx h)
  | 97 => (OpVLSM.dec w).map (.v0Sstm h)
  | 98 => (OpVLSXM.dec w).map (.v0Sstxm h)
  | 99 => (OpVDL.dec w).map (.v1Ld h)
  | 100 => (OpVDS.dec w).map (.v1St h)
  | 101 => (OpVDL.dec w).map (.v1Ldb h)
  | 102 => (OpVDSM.dec w).map (.v1Stm h)
  | 103 => (OpVDLX.dec w).map (.v1Gath h)
  | 104 => (OpVG.dec w).map (.v1Gathm h)
  | 105 => (OpVDSX.dec w).map (.v1Scat h)
  | 106 => (OpVDSXM.dec w).map (.v1Scatm h)
  | 107 => (OpVEF.dec w).map (.vRfwd h)
  | 108 => (OpVER.dec w).map (.vRrev h)
  | 109 => (OpVEC.dec w).map (.vRchk h)
  | _ => none

/-- The M-class map (R47): the operation of an opcode, its operand bits `w` read by its layout. -/
noncomputable def decodeM (op : Nat) (h : Hdr) (w : BitVec 43) : Option Instr :=
  match op with
  | 0 => (OpMP.dec w).map (.mPush h)
  | 1 => (OpMS.dec w).map (.mAcc h)
  | 2 => (OpMPA.dec w).map (.mPa h)
  | 3 => (OpMS.dec w).map (.mShift h)
  | 4 => (OpMD.dec w).map (.mDrainTile h)
  | 5 => (OpMH.dec w).map (.mDrainRing h)
  | 6 => (OpMZ.dec w).map (.mZero h)
  | 7 => (OpMI.dec w).map (.mCfgImm h)
  | 8 => (OpSA.dec w).map (.mCfgReg h)
  | 9 => (OpNone.dec w).map (.mFence h)
  | _ => none

/-- The C-class map (R48): the operation of an opcode, its operand bits `w` read by its layout. -/
noncomputable def decodeC (op : Nat) (h : Hdr) (w : BitVec 43) : Option Instr :=
  match op with
  | 0 => (OpCML.dec w).map (.cLdd h)
  | 1 => (OpCML.dec w).map (.cLdw h)
  | 2 => (OpCML.dec w).map (.cLdh h)
  | 3 => (OpCML.dec w).map (.cLdb h)
  | 4 => (OpCMS.dec w).map (.cStd h)
  | 5 => (OpCMS.dec w).map (.cStw h)
  | 6 => (OpCMS.dec w).map (.cSth h)
  | 7 => (OpCMS.dec w).map (.cStb h)
  | 8 => (OpCMVL.dec w).map (.cVld h)
  | 9 => (OpCMVS.dec w).map (.cVst h)
  | 10 => (OpCMVM.dec w).map (.cVstm h)
  | 11 => (OpCMVL.dec w).map (.cVldb h)
  | 12 => (OpCML.dec w).map (.cLddAcq h)
  | 13 => (OpCML.dec w).map (.cLdwAcq h)
  | 14 => (OpCMS.dec w).map (.cStdRel h)
  | 15 => (OpCMS.dec w).map (.cStwRel h)
  | 16 => (OpTLD.dec w).map (.cTld h)
  | 17 => (OpTST.dec w).map (.cTst h)
  | 18 => (OpTLDP.dec w).map (.cTldp h)
  | 19 => (OpTSTP.dec w).map (.cTstp h)
  | 20 => (OpTLD.dec w).map (.c1TldAcq h)
  | 21 => (OpTST.dec w).map (.c1TstRel h)
  | 22 => (OpSHL.dec w).map (.cShld h)
  | 23 => (OpSHL.dec w).map (.cShev h)
  | 24 => (OpCF.dec w).map (.cFarm h)
  | 25 => (OpCFV.dec w).map (.cFstop h)
  | 26 => (OpCFV.dec w).map (.cFwait h)
  | 27 => (OpCFS.dec w).map (.cFstat h)
  | 28 => (OpCR.dec w).map (.c1Rfill h)
  | 29 => (OpCR.dec w).map (.c1Rspill h)
  | 30 => (OpCGL.dec w).map (.c1Gath h)
  | 31 => (OpCGS.dec w).map (.c1Scat h)
  | 32 => (OpCAR.dec w).map (.c1AaddI32 h)
  | 33 => (OpCAR.dec w).map (.c1AaddI64 h)
  | 34 => (OpCAN.dec w).map (.c1AaddI32Nr h)
  | 35 => (OpCAN.dec w).map (.c1AaddI64Nr h)
  | 36 => (OpCAR.dec w).map (.c1AminI32 h)
  | 37 => (OpCAR.dec w).map (.c1AminI64 h)
  | 38 => (OpCAN.dec w).map (.c1AminI32Nr h)
  | 39 => (OpCAN.dec w).map (.c1AminI64Nr h)
  | 40 => (OpCAR.dec w).map (.c1AmaxI32 h)
  | 41 => (OpCAR.dec w).map (.c1AmaxI64 h)
  | 42 => (OpCAN.dec w).map (.c1AmaxI32Nr h)
  | 43 => (OpCAN.dec w).map (.c1AmaxI64Nr h)
  | 44 => (OpCAR.dec w).map (.c1AandI32 h)
  | 45 => (OpCAR.dec w).map (.c1AandI64 h)
  | 46 => (OpCAN.dec w).map (.c1AandI32Nr h)
  | 47 => (OpCAN.dec w).map (.c1AandI64Nr h)
  | 48 => (OpCAR.dec w).map (.c1AorI32 h)
  | 49 => (OpCAR.dec w).map (.c1AorI64 h)
  | 50 => (OpCAN.dec w).map (.c1AorI32Nr h)
  | 51 => (OpCAN.dec w).map (.c1AorI64Nr h)
  | 52 => (OpCAR.dec w).map (.c1AxorI32 h)
  | 53 => (OpCAR.dec w).map (.c1AxorI64 h)
  | 54 => (OpCAN.dec w).map (.c1AxorI32Nr h)
  | 55 => (OpCAN.dec w).map (.c1AxorI64Nr h)
  | 56 => (OpCAR.dec w).map (.c1AswpI32 h)
  | 57 => (OpCAR.dec w).map (.c1AswpI64 h)
  | 58 => (OpCAN.dec w).map (.c1AswpI32Nr h)
  | 59 => (OpCAN.dec w).map (.c1AswpI64Nr h)
  | 60 => (OpCACR.dec w).map (.c1AcasI32 h)
  | 61 => (OpCACR.dec w).map (.c1AcasI64 h)
  | 62 => (OpCACN.dec w).map (.c1AcasI32Nr h)
  | 63 => (OpCACN.dec w).map (.c1AcasI64Nr h)
  | 64 => if bitsAt w 38 2 == 1#2 then (OpFN.dec 1#2 w).map (.cFenceRel h) else if bitsAt w 38 2 == 2#2 then (OpFN.dec 2#2 w).map (.cFenceAcq h) else if bitsAt w 38 2 == 3#2 then (OpFN.dec 3#2 w).map (.cFenceFull h) else none
  | 65 => if bitsAt w 38 2 == 1#2 then (OpFN.dec 1#2 w).map (.cFenceWRel h) else if bitsAt w 38 2 == 2#2 then (OpFN.dec 2#2 w).map (.cFenceWAcq h) else if bitsAt w 38 2 == 3#2 then (OpFN.dec 3#2 w).map (.cFenceWFull h) else none
  | 66 => (OpLQ.dec w).map (.c1Qapp h)
  | 67 => (OpLBI.dec w).map (.cBarm h)
  | 68 => (OpLBR.dec w).map (.cBarmr h)
  | 69 => (OpLBI.dec w).map (.cBsig h)
  | 70 => (OpLBR.dec w).map (.cBsigr h)
  | 71 => (OpLBW.dec w).map (.cBwait h)
  | 72 => if bitsAt w 42 1 == 0#1 then (OpBeat.dec 0#1 w).map (.c1Beat h) else if bitsAt w 42 1 == 1#1 then (OpBOff.dec 1#1 w).map (.c1BeatOff h) else none
  | 73 => (OpSA.dec w).map (.c1Beatr h)
  | 74 => (OpBQ.dec w).map (.c1Beatrd h)
  | 75 => (OpBW.dec w).map (.c1Beatw h)
  | 76 => (OpPST.dec w).map (.c1Pst h)
  | 77 => (OpPSTM.dec w).map (.c1Pstm h)
  | 78 => (OpPLD.dec w).map (.c1Pld h)
  | 79 => (OpBK.dec w).map (.c1Bkrun h)
  | 80 => (OpKL.dec w).map (.c1KvldF16 h)
  | 81 => (OpKL.dec w).map (.c1KvldI8 h)
  | 82 => (OpKS.dec w).map (.c1Kvst h)
  | 83 => (OpKX.dec w).map (.c1Kvx h)
  | 84 => (OpKX.dec w).map (.c1Kvho h)
  | 85 => (OpKF.dec w).map (.c1Kvfree h)
  | 86 => (OpCAN2.dec w).map (.c1Cancel h)
  | 87 => (OpLN.dec w).map (.cLnch h)
  | _ => none

/-- The B-class map (R49): the operation of an opcode, its operand bits `w` read by its layout. -/
noncomputable def decodeB (op : Nat) (h : Hdr) (w : BitVec 43) : Option Instr :=
  match op with
  | 0 => (OpBD.dec w).map (.bBr h)
  | 1 => (OpBRG.dec w).map (.bBri h)
  | 2 => (OpBDL.dec w).map (.bCall h)
  | 3 => (OpBRL.dec w).map (.bCalli h)
  | 4 => (OpBRG.dec w).map (.bRet h)
  | 5 => (OpBRD.dec w).map (.bBrx h)
  | 6 => (OpBRD.dec w).map (.bDbnz h)
  | 7 => (OpBD.dec w).map (.bLoop h)
  | 8 => (OpBD.dec w).map (.bPcnt h)
  | 9 => (OpBD.dec w).map (.bPcntx h)
  | 10 => (OpBWC.dec w).map (.bPwhl h)
  | 11 => (OpBWC.dec w).map (.bPwhlx h)
  | 12 => (OpNone.dec w).map (.bEnd h)
  | 13 => (OpBT.dec w).map (.bTrap h)
  | 14 => (OpBTR.dec w).map (.bTrapr h)
  | 15 => (OpNone.dec w).map (.bRft h)
  | 16 => (OpSA.dec w).map (.bSetlc h)
  | 17 => (OpBI.dec w).map (.bSetlci h)
  | 18 => (OpSA.dec w).map (.bSetdp h)
  | 19 => (OpBI8.dec w).map (.bSetdpi h)
  | 20 => (OpBM.dec w).map (.bRot h)
  | 21 => (OpBM.dec w).map (.bRotclr h)
  | 22 => (OpBI1.dec w).map (.bStage h)
  | 23 => (OpBL.dec w).map (.bLoopset h)
  | _ => none

/-- The instruction of a slot syllable without its stop bit (R28), read in the opcode space of its slot. -/
noncomputable def decodeFields (slot : Slot) (w : BitVec 63) : Option Instr :=
  let h : Hdr := { slot := slot, mask := bitsAt w 51 5, guard := bitsAt w 45 6, sense := bitAt w 44, dup := bitAt w 43 }
  let op := (bitsAt w 56 7).toNat
  let o := bitsAt w 0 43
  match slot with
  | .S => decodeS op h o
  | .V0 => decodeV op h o
  | .V1 => decodeV op h o
  | .M => decodeM op h o
  | .C0 => decodeC op h o
  | .C1 => decodeC op h o
  | .B => decodeB op h o

/-- The well-formed instruction of a slot syllable; none where R43 raises the decode trap for it. -/
noncomputable def decodeSyl (slot : Slot) (w : BitVec 63) : Option Instr :=
  match decodeFields slot w with
  | some i => if i.wf then some i else none
  | none => none

/-- The condition tree of a T syllable; none where R43 raises the decode trap for it. -/
def decodeT (w : BitVec 63) : Option Instr :=
  let t := TSyl.dec w
  let i : Instr := if t.shape.toNat < 4 then .tChain t else .tBal t
  if i.wf then some i else none

/-- The bank-unit map (R50): the instruction of a 32-bit word; none where R51 makes the command fail. -/
def decodeBk (w : BitVec 32) : Option Instr :=
  let o := bitsAt w 0 26
  match (bitsAt w 26 6).toNat with
  | 0 => (BkAr.dec o).map .bkAdd
  | 1 => (BkAr.dec o).map .bkSub
  | 2 => (BkMul.dec o).map .bkMul
  | 3 => (BkMul.dec o).map .bkMac
  | 4 => (BkCmp.dec o).map .bkCmp
  | 5 => (BkAr.dec o).map .bkMin
  | 6 => (BkAr.dec o).map .bkMax
  | 7 => (BkNeg.dec o).map .bkNeg
  | 8 => (BkP3.dec o).map .bkPand
  | 9 => (BkP3.dec o).map .bkPor
  | 10 => (BkP3.dec o).map .bkPxor
  | 11 => (BkP2.dec o).map .bkPnot
  | 12 => (BkP2.dec o).map .bkPmov
  | 13 => (BkFill.dec o).map .bkPfill
  | 14 => (BkRow.dec o).map .bkRrd
  | 15 => (BkRow.dec o).map .bkRwr
  | 16 => (BkRowM.dec o).map .bkRwrm
  | 17 => (BkRowS.dec o).map .bkRrds
  | 18 => (BkLoop.dec o).map .bkLoop
  | 19 => (BkC.dec o).map .bkEndl
  | 20 => (BkWait.dec o).map .bkWait
  | 21 => (BkNone.dec o).map .bkHalt
  | 22 => (BkArd.dec o).map .bkArd
  | 23 => (BkC.dec o).map .bkAclr
  | _ => none

/-- The bits of a slot syllable below its stop bit. -/
def slotWord (op : BitVec 7) (h : Hdr) (o : BitVec 43) : BitVec 63 :=
  (op ++ h.mask ++ h.guard ++ bitOf h.sense ++ bitOf h.dup ++ o).setWidth 63

/-- The syllable of a slot operation or a condition tree, without its stop bit; none for another row. -/
def encodeSyl (i : Instr) : Option (BitVec 63) :=
  match i with
  | .tChain t => some t.enc
  | .tBal t => some t.enc
  | .bkAdd _ => none
  | .bkSub _ => none
  | .bkMul _ => none
  | .bkMac _ => none
  | .bkCmp _ => none
  | .bkMin _ => none
  | .bkMax _ => none
  | .bkNeg _ => none
  | .bkPand _ => none
  | .bkPor _ => none
  | .bkPxor _ => none
  | .bkPnot _ => none
  | .bkPmov _ => none
  | .bkPfill _ => none
  | .bkRrd _ => none
  | .bkRwr _ => none
  | .bkRwrm _ => none
  | .bkRrds _ => none
  | .bkLoop _ => none
  | .bkEndl _ => none
  | .bkWait _ => none
  | .bkHalt _ => none
  | .bkArd _ => none
  | .bkAclr _ => none
  | .headerIssue => none
  | .rendezvousPass => none
  | .branchTransfer => none
  | .resultLand => none
  | .registerResultLand => none
  | .tileTransferLand => none
  | .slipIssue => none
  | .fetchLine => none
  | .storePerform => none
  | .outboundPerform => none
  | .l2LineLeave => none
  | .flumeElementRead => none
  | .flumeElementWrite => none
  | .ringFillAppend => none
  | .ringSpillWrite => none
  | .dpairCompare => none
  | .handlerEntry => none
  | .preemptionRequest => none
  | .preemptionEntry => none
  | .resumeEntry => none
  | .phaseOverrun => none
  | .debugStep => none
  | .unitStart => none
  | .graphNodeStart => none
  | .graphNodeComplete => none
  | .landingSlotValid => none
  | .pktNop => none
  | .pktCopy => none
  | .pktCopyReduce => none
  | .pktLaunch => none
  | .pktSignal => none
  | .pktGraph => none
  | .copyChunk => none
  | .reduceChunk => none
  | .slotStallTimeout => none
  | .orchardChunk => none
  | .accessBeatOpen => none
  | .computeBeatOpen => none
  | .computeBeatEnd => none
  | .refreshGap => none
  | .stretchLimit => none
  | .workedAccessArrival => none
  | .bankCommandArrival => none
  | .eccUncorrectable => none
  | .dirtyLineEviction => none
  | .pageQuarantine => none
  | .powerGood => none
  | .dramLayerReady => none
  | .temperatureBandChange => none
  | .powerLoss => none
  | .energyReconcile => none
  | .mgmtConnection => none
  | .msgWrite => none
  | .msgRead => none
  | .msgAtomicAdd => none
  | .msgReduce => none
  | .peerChunkReply => none
  | .svcEnableQueue => none
  | .svcDisableQueue => none
  | .svcOrchardFill => none
  | .svcAttestationReport => none
  | .svcReadScaleTickets => none
  | .svcRetireContext => none
  | .svcRegisterContext => none
  | .svcBindJob => none
  | .svcReadServiceWord => none
  | .svcSetPeer => none
  | .lanemapWrite => none
  | .baseRegisterWrite => none
  | .statusWordWrite => none
  | .sAdd h f => some (slotWord 0#7 h f.enc)
  | .sSub h f => some (slotWord 1#7 h f.enc)
  | .sMul h f => some (slotWord 2#7 h f.enc)
  | .sMulh h f => some (slotWord 3#7 h f.enc)
  | .sMulhu h f => some (slotWord 4#7 h f.enc)
  | .sAnd h f => some (slotWord 5#7 h f.enc)
  | .sOr h f => some (slotWord 6#7 h f.enc)
  | .sXor h f => some (slotWord 7#7 h f.enc)
  | .sShl h f => some (slotWord 8#7 h f.enc)
  | .sShr h f => some (slotWord 9#7 h f.enc)
  | .sSra h f => some (slotWord 10#7 h f.enc)
  | .sMin h f => some (slotWord 11#7 h f.enc)
  | .sMax h f => some (slotWord 12#7 h f.enc)
  | .sMinu h f => some (slotWord 13#7 h f.enc)
  | .sMaxu h f => some (slotWord 14#7 h f.enc)
  | .sAdds h f => some (slotWord 15#7 h f.enc)
  | .sAddi h f => some (slotWord 16#7 h f.enc)
  | .sAndi h f => some (slotWord 17#7 h f.enc)
  | .sOri h f => some (slotWord 18#7 h f.enc)
  | .sXori h f => some (slotWord 19#7 h f.enc)
  | .sShli h f => some (slotWord 20#7 h f.enc)
  | .sShri h f => some (slotWord 21#7 h f.enc)
  | .sSrai h f => some (slotWord 22#7 h f.enc)
  | .sLea h f => some (slotWord 23#7 h f.enc)
  | .sCeq h f => some (slotWord 24#7 h f.enc)
  | .sCne h f => some (slotWord 25#7 h f.enc)
  | .sClt h f => some (slotWord 26#7 h f.enc)
  | .sCle h f => some (slotWord 27#7 h f.enc)
  | .sCltu h f => some (slotWord 28#7 h f.enc)
  | .sCleu h f => some (slotWord 29#7 h f.enc)
  | .sCeqi h f => some (slotWord 30#7 h f.enc)
  | .sClti h f => some (slotWord 31#7 h f.enc)
  | .sPand h f => some (slotWord 32#7 h f.enc)
  | .sPor h f => some (slotWord 33#7 h f.enc)
  | .sPxor h f => some (slotWord 34#7 h f.enc)
  | .sPbit h f => some (slotWord 35#7 h f.enc)
  | .sMov h f => some (slotWord 36#7 h f.enc)
  | .sRsw h f => some (slotWord 37#7 h f.enc)
  | .sWsw h f => some (slotWord 38#7 h f.enc)
  | .sRtag h f => some (slotWord 39#7 h f.enc)
  | .sWtag h f => some (slotWord 40#7 h f.enc)
  | .sMfrom h f => some (slotWord 41#7 h f.enc)
  | .sMto h f => some (slotWord 42#7 h f.enc)
  | .sPget h f => some (slotWord 43#7 h f.enc)
  | .sLld h f => some (slotWord 44#7 h f.enc)
  | .sLlw h f => some (slotWord 45#7 h f.enc)
  | .sLst h f => some (slotWord 46#7 h f.enc)
  | .sLstw h f => some (slotWord 47#7 h f.enc)
  | .sLldAcq h f => some (slotWord 48#7 h f.enc)
  | .sLlwAcq h f => some (slotWord 49#7 h f.enc)
  | .sLstRel h f => some (slotWord 50#7 h f.enc)
  | .sLstwRel h f => some (slotWord 51#7 h f.enc)
  | .sCkt h f => some (slotWord 52#7 h f.enc)
  | .sNxt h f => some (slotWord 53#7 h f.enc)
  | .sCtxout h f => some (slotWord 54#7 h f.enc)
  | .sCtxin h f => some (slotWord 55#7 h f.enc)
  | .sCtxskip h f => some (slotWord 56#7 h f.enc)
  | .sTlbinvAll h f => some (slotWord 57#7 h (OpTI.enc 0#2 f))
  | .sTlbinvContext h f => some (slotWord 57#7 h (OpTI.enc 1#2 f))
  | .sTlbinvPage h f => some (slotWord 57#7 h (OpTI.enc 2#2 f))
  | .sTlbsync h f => some (slotWord 58#7 h f.enc)
  | .sCtxdonePreempted h f => some (slotWord 59#7 h (OpCTXD.enc 0#1 f))
  | .sCtxdoneFailed h f => some (slotWord 59#7 h (OpCTXD.enc 1#1 f))
  | .sLil h f => some (slotWord 60#7 h f.enc)
  | .sLih h f => some (slotWord 61#7 h f.enc)
  | .sLis h f => some (slotWord 62#7 h f.enc)
  | .sLpc h f => some (slotWord 63#7 h f.enc)
  | .vAddI32 h f => some (slotWord 0#7 h f.enc)
  | .vSubI32 h f => some (slotWord 1#7 h f.enc)
  | .vMulI32 h f => some (slotWord 2#7 h f.enc)
  | .vMulhI32 h f => some (slotWord 3#7 h f.enc)
  | .vAddsI32 h f => some (slotWord 4#7 h f.enc)
  | .vSubsI32 h f => some (slotWord 5#7 h f.enc)
  | .vAddI16 h f => some (slotWord 6#7 h f.enc)
  | .vAddsI16 h f => some (slotWord 7#7 h f.enc)
  | .vAddI8 h f => some (slotWord 8#7 h f.enc)
  | .vAddsI8 h f => some (slotWord 9#7 h f.enc)
  | .vAddsZ8 h f => some (slotWord 10#7 h f.enc)
  | .vMinI32 h f => some (slotWord 11#7 h f.enc)
  | .vMaxI32 h f => some (slotWord 12#7 h f.enc)
  | .vMinZ32 h f => some (slotWord 13#7 h f.enc)
  | .vMaxZ32 h f => some (slotWord 14#7 h f.enc)
  | .vAbsI32 h f => some (slotWord 15#7 h f.enc)
  | .vAnd h f => some (slotWord 16#7 h f.enc)
  | .vOr h f => some (slotWord 17#7 h f.enc)
  | .vXor h f => some (slotWord 18#7 h f.enc)
  | .vAndn h f => some (slotWord 19#7 h f.enc)
  | .vShlI32 h f => some (slotWord 20#7 h f.enc)
  | .vShrZ32 h f => some (slotWord 21#7 h f.enc)
  | .vSraI32 h f => some (slotWord 22#7 h f.enc)
  | .vDot4I8 h f => some (slotWord 23#7 h f.enc)
  | .vAddF32 h f => some (slotWord 24#7 h f.enc)
  | .vSubF32 h f => some (slotWord 25#7 h f.enc)
  | .vMulF32 h f => some (slotWord 26#7 h f.enc)
  | .vFmaF32 h f => some (slotWord 27#7 h f.enc)
  | .vFmsF32 h f => some (slotWord 28#7 h f.enc)
  | .vFnmaF32 h f => some (slotWord 29#7 h f.enc)
  | .vMinF32 h f => some (slotWord 30#7 h f.enc)
  | .vMaxF32 h f => some (slotWord 31#7 h f.enc)
  | .vAddF16 h f => some (slotWord 32#7 h f.enc)
  | .vSubF16 h f => some (slotWord 33#7 h f.enc)
  | .vMulF16 h f => some (slotWord 34#7 h f.enc)
  | .vFmaF16 h f => some (slotWord 35#7 h f.enc)
  | .vMinF16 h f => some (slotWord 36#7 h f.enc)
  | .vMaxF16 h f => some (slotWord 37#7 h f.enc)
  | .vAddB16 h f => some (slotWord 38#7 h f.enc)
  | .vSubB16 h f => some (slotWord 39#7 h f.enc)
  | .vMulB16 h f => some (slotWord 40#7 h f.enc)
  | .vFmaB16 h f => some (slotWord 41#7 h f.enc)
  | .vMinB16 h f => some (slotWord 42#7 h f.enc)
  | .vMaxB16 h f => some (slotWord 43#7 h f.enc)
  | .vRcpF32 h f => some (slotWord 44#7 h f.enc)
  | .vRsqF32 h f => some (slotWord 45#7 h f.enc)
  | .vExp2F32 h f => some (slotWord 46#7 h f.enc)
  | .vLog2F32 h f => some (slotWord 47#7 h f.enc)
  | .vRcpF16 h f => some (slotWord 48#7 h f.enc)
  | .vRsqF16 h f => some (slotWord 49#7 h f.enc)
  | .vExp2F16 h f => some (slotWord 50#7 h f.enc)
  | .vLog2F16 h f => some (slotWord 51#7 h f.enc)
  | .vCeqI32 h f => some (slotWord 52#7 h f.enc)
  | .vCltI32 h f => some (slotWord 53#7 h f.enc)
  | .vCleI32 h f => some (slotWord 54#7 h f.enc)
  | .vCltZ32 h f => some (slotWord 55#7 h f.enc)
  | .vCeqF32 h f => some (slotWord 56#7 h f.enc)
  | .vCltF32 h f => some (slotWord 57#7 h f.enc)
  | .vCleF32 h f => some (slotWord 58#7 h f.enc)
  | .vCunF32 h f => some (slotWord 59#7 h f.enc)
  | .vCvtF32 h f => some (slotWord 60#7 h f.enc)
  | .vCvtF16 h f => some (slotWord 61#7 h f.enc)
  | .vCvtB16 h f => some (slotWord 62#7 h f.enc)
  | .vCvtE4 h f => some (slotWord 63#7 h f.enc)
  | .vCvtE5 h f => some (slotWord 64#7 h f.enc)
  | .vCvtI32 h f => some (slotWord 65#7 h f.enc)
  | .vCvtI16 h f => some (slotWord 66#7 h f.enc)
  | .vCvtI8 h f => some (slotWord 67#7 h f.enc)
  | .vCvtZ32 h f => some (slotWord 68#7 h f.enc)
  | .vCvtZ16 h f => some (slotWord 69#7 h f.enc)
  | .vCvtZ8 h f => some (slotWord 70#7 h f.enc)
  | .vCvtc h f => some (slotWord 71#7 h f.enc)
  | .vRintF32 h f => some (slotWord 72#7 h f.enc)
  | .vScaleF32 h f => some (slotWord 73#7 h f.enc)
  | .vExpoF32 h f => some (slotWord 74#7 h f.enc)
  | .vPackI4 h f => some (slotWord 75#7 h f.enc)
  | .vUnpkI4 h f => some (slotWord 76#7 h f.enc)
  | .vPackX4 h f => some (slotWord 77#7 h f.enc)
  | .vUnpkX4 h f => some (slotWord 78#7 h f.enc)
  | .vRaddF32 h f => some (slotWord 79#7 h f.enc)
  | .vRaddF16 h f => some (slotWord 80#7 h f.enc)
  | .vRaddI32 h f => some (slotWord 81#7 h f.enc)
  | .vRmaxF32 h f => some (slotWord 82#7 h f.enc)
  | .vRminF32 h f => some (slotWord 83#7 h f.enc)
  | .vRmaxI32 h f => some (slotWord 84#7 h f.enc)
  | .vPerm h f => some (slotWord 85#7 h f.enc)
  | .vPerm8 h f => some (slotWord 86#7 h f.enc)
  | .vRot h f => some (slotWord 87#7 h f.enc)
  | .vSlide h f => some (slotWord 88#7 h f.enc)
  | .vBcast h f => some (slotWord 89#7 h f.enc)
  | .vBcs h f => some (slotWord 90#7 h f.enc)
  | .vSel h f => some (slotWord 91#7 h f.enc)
  | .vIota h f => some (slotWord 92#7 h f.enc)
  | .v0Sld h f => some (slotWord 93#7 h f.enc)
  | .v0Sldx h f => some (slotWord 94#7 h f.enc)
  | .v0Sst h f => some (slotWord 95#7 h f.enc)
  | .v0Sstx h f => some (slotWord 96#7 h f.enc)
  | .v0Sstm h f => some (slotWord 97#7 h f.enc)
  | .v0Sstxm h f => some (slotWord 98#7 h f.enc)
  | .v1Ld h f => some (slotWord 99#7 h f.enc)
  | .v1St h f => some (slotWord 100#7 h f.enc)
  | .v1Ldb h f => some (slotWord 101#7 h f.enc)
  | .v1Stm h f => some (slotWord 102#7 h f.enc)
  | .v1Gath h f => some (slotWord 103#7 h f.enc)
  | .v1Gathm h f => some (slotWord 104#7 h f.enc)
  | .v1Scat h f => some (slotWord 105#7 h f.enc)
  | .v1Scatm h f => some (slotWord 106#7 h f.enc)
  | .vRfwd h f => some (slotWord 107#7 h f.enc)
  | .vRrev h f => some (slotWord 108#7 h f.enc)
  | .vRchk h f => some (slotWord 109#7 h f.enc)
  | .mPush h f => some (slotWord 0#7 h f.enc)
  | .mAcc h f => some (slotWord 1#7 h f.enc)
  | .mPa h f => some (slotWord 2#7 h f.enc)
  | .mShift h f => some (slotWord 3#7 h f.enc)
  | .mDrainTile h f => some (slotWord 4#7 h f.enc)
  | .mDrainRing h f => some (slotWord 5#7 h f.enc)
  | .mZero h f => some (slotWord 6#7 h f.enc)
  | .mCfgImm h f => some (slotWord 7#7 h f.enc)
  | .mCfgReg h f => some (slotWord 8#7 h f.enc)
  | .mFence h f => some (slotWord 9#7 h f.enc)
  | .cLdd h f => some (slotWord 0#7 h f.enc)
  | .cLdw h f => some (slotWord 1#7 h f.enc)
  | .cLdh h f => some (slotWord 2#7 h f.enc)
  | .cLdb h f => some (slotWord 3#7 h f.enc)
  | .cStd h f => some (slotWord 4#7 h f.enc)
  | .cStw h f => some (slotWord 5#7 h f.enc)
  | .cSth h f => some (slotWord 6#7 h f.enc)
  | .cStb h f => some (slotWord 7#7 h f.enc)
  | .cVld h f => some (slotWord 8#7 h f.enc)
  | .cVst h f => some (slotWord 9#7 h f.enc)
  | .cVstm h f => some (slotWord 10#7 h f.enc)
  | .cVldb h f => some (slotWord 11#7 h f.enc)
  | .cLddAcq h f => some (slotWord 12#7 h f.enc)
  | .cLdwAcq h f => some (slotWord 13#7 h f.enc)
  | .cStdRel h f => some (slotWord 14#7 h f.enc)
  | .cStwRel h f => some (slotWord 15#7 h f.enc)
  | .cTld h f => some (slotWord 16#7 h f.enc)
  | .cTst h f => some (slotWord 17#7 h f.enc)
  | .cTldp h f => some (slotWord 18#7 h f.enc)
  | .cTstp h f => some (slotWord 19#7 h f.enc)
  | .c1TldAcq h f => some (slotWord 20#7 h f.enc)
  | .c1TstRel h f => some (slotWord 21#7 h f.enc)
  | .cShld h f => some (slotWord 22#7 h f.enc)
  | .cShev h f => some (slotWord 23#7 h f.enc)
  | .cFarm h f => some (slotWord 24#7 h f.enc)
  | .cFstop h f => some (slotWord 25#7 h f.enc)
  | .cFwait h f => some (slotWord 26#7 h f.enc)
  | .cFstat h f => some (slotWord 27#7 h f.enc)
  | .c1Rfill h f => some (slotWord 28#7 h f.enc)
  | .c1Rspill h f => some (slotWord 29#7 h f.enc)
  | .c1Gath h f => some (slotWord 30#7 h f.enc)
  | .c1Scat h f => some (slotWord 31#7 h f.enc)
  | .c1AaddI32 h f => some (slotWord 32#7 h f.enc)
  | .c1AaddI64 h f => some (slotWord 33#7 h f.enc)
  | .c1AaddI32Nr h f => some (slotWord 34#7 h f.enc)
  | .c1AaddI64Nr h f => some (slotWord 35#7 h f.enc)
  | .c1AminI32 h f => some (slotWord 36#7 h f.enc)
  | .c1AminI64 h f => some (slotWord 37#7 h f.enc)
  | .c1AminI32Nr h f => some (slotWord 38#7 h f.enc)
  | .c1AminI64Nr h f => some (slotWord 39#7 h f.enc)
  | .c1AmaxI32 h f => some (slotWord 40#7 h f.enc)
  | .c1AmaxI64 h f => some (slotWord 41#7 h f.enc)
  | .c1AmaxI32Nr h f => some (slotWord 42#7 h f.enc)
  | .c1AmaxI64Nr h f => some (slotWord 43#7 h f.enc)
  | .c1AandI32 h f => some (slotWord 44#7 h f.enc)
  | .c1AandI64 h f => some (slotWord 45#7 h f.enc)
  | .c1AandI32Nr h f => some (slotWord 46#7 h f.enc)
  | .c1AandI64Nr h f => some (slotWord 47#7 h f.enc)
  | .c1AorI32 h f => some (slotWord 48#7 h f.enc)
  | .c1AorI64 h f => some (slotWord 49#7 h f.enc)
  | .c1AorI32Nr h f => some (slotWord 50#7 h f.enc)
  | .c1AorI64Nr h f => some (slotWord 51#7 h f.enc)
  | .c1AxorI32 h f => some (slotWord 52#7 h f.enc)
  | .c1AxorI64 h f => some (slotWord 53#7 h f.enc)
  | .c1AxorI32Nr h f => some (slotWord 54#7 h f.enc)
  | .c1AxorI64Nr h f => some (slotWord 55#7 h f.enc)
  | .c1AswpI32 h f => some (slotWord 56#7 h f.enc)
  | .c1AswpI64 h f => some (slotWord 57#7 h f.enc)
  | .c1AswpI32Nr h f => some (slotWord 58#7 h f.enc)
  | .c1AswpI64Nr h f => some (slotWord 59#7 h f.enc)
  | .c1AcasI32 h f => some (slotWord 60#7 h f.enc)
  | .c1AcasI64 h f => some (slotWord 61#7 h f.enc)
  | .c1AcasI32Nr h f => some (slotWord 62#7 h f.enc)
  | .c1AcasI64Nr h f => some (slotWord 63#7 h f.enc)
  | .cFenceRel h f => some (slotWord 64#7 h (OpFN.enc 1#2 f))
  | .cFenceAcq h f => some (slotWord 64#7 h (OpFN.enc 2#2 f))
  | .cFenceFull h f => some (slotWord 64#7 h (OpFN.enc 3#2 f))
  | .cFenceWRel h f => some (slotWord 65#7 h (OpFN.enc 1#2 f))
  | .cFenceWAcq h f => some (slotWord 65#7 h (OpFN.enc 2#2 f))
  | .cFenceWFull h f => some (slotWord 65#7 h (OpFN.enc 3#2 f))
  | .c1Qapp h f => some (slotWord 66#7 h f.enc)
  | .cBarm h f => some (slotWord 67#7 h f.enc)
  | .cBarmr h f => some (slotWord 68#7 h f.enc)
  | .cBsig h f => some (slotWord 69#7 h f.enc)
  | .cBsigr h f => some (slotWord 70#7 h f.enc)
  | .cBwait h f => some (slotWord 71#7 h f.enc)
  | .c1Beat h f => some (slotWord 72#7 h (OpBeat.enc 0#1 f))
  | .c1BeatOff h f => some (slotWord 72#7 h (OpBOff.enc 1#1 f))
  | .c1Beatr h f => some (slotWord 73#7 h f.enc)
  | .c1Beatrd h f => some (slotWord 74#7 h f.enc)
  | .c1Beatw h f => some (slotWord 75#7 h f.enc)
  | .c1Pst h f => some (slotWord 76#7 h f.enc)
  | .c1Pstm h f => some (slotWord 77#7 h f.enc)
  | .c1Pld h f => some (slotWord 78#7 h f.enc)
  | .c1Bkrun h f => some (slotWord 79#7 h f.enc)
  | .c1KvldF16 h f => some (slotWord 80#7 h f.enc)
  | .c1KvldI8 h f => some (slotWord 81#7 h f.enc)
  | .c1Kvst h f => some (slotWord 82#7 h f.enc)
  | .c1Kvx h f => some (slotWord 83#7 h f.enc)
  | .c1Kvho h f => some (slotWord 84#7 h f.enc)
  | .c1Kvfree h f => some (slotWord 85#7 h f.enc)
  | .c1Cancel h f => some (slotWord 86#7 h f.enc)
  | .cLnch h f => some (slotWord 87#7 h f.enc)
  | .bBr h f => some (slotWord 0#7 h f.enc)
  | .bBri h f => some (slotWord 1#7 h f.enc)
  | .bCall h f => some (slotWord 2#7 h f.enc)
  | .bCalli h f => some (slotWord 3#7 h f.enc)
  | .bRet h f => some (slotWord 4#7 h f.enc)
  | .bBrx h f => some (slotWord 5#7 h f.enc)
  | .bDbnz h f => some (slotWord 6#7 h f.enc)
  | .bLoop h f => some (slotWord 7#7 h f.enc)
  | .bPcnt h f => some (slotWord 8#7 h f.enc)
  | .bPcntx h f => some (slotWord 9#7 h f.enc)
  | .bPwhl h f => some (slotWord 10#7 h f.enc)
  | .bPwhlx h f => some (slotWord 11#7 h f.enc)
  | .bEnd h f => some (slotWord 12#7 h f.enc)
  | .bTrap h f => some (slotWord 13#7 h f.enc)
  | .bTrapr h f => some (slotWord 14#7 h f.enc)
  | .bRft h f => some (slotWord 15#7 h f.enc)
  | .bSetlc h f => some (slotWord 16#7 h f.enc)
  | .bSetlci h f => some (slotWord 17#7 h f.enc)
  | .bSetdp h f => some (slotWord 18#7 h f.enc)
  | .bSetdpi h f => some (slotWord 19#7 h f.enc)
  | .bRot h f => some (slotWord 20#7 h f.enc)
  | .bRotclr h f => some (slotWord 21#7 h f.enc)
  | .bStage h f => some (slotWord 22#7 h f.enc)
  | .bLoopset h f => some (slotWord 23#7 h f.enc)
  | .noLoopBoundaryReached => none
  | .holdEnd => none
  | .malformedMessage => none

/-- The 32-bit word of a bank-unit instruction; none for another row. -/
def encodeBk (i : Instr) : Option (BitVec 32) :=
  match i with
  | .bkAdd f => some ((0#6 ++ f.enc).setWidth 32)
  | .bkSub f => some ((1#6 ++ f.enc).setWidth 32)
  | .bkMul f => some ((2#6 ++ f.enc).setWidth 32)
  | .bkMac f => some ((3#6 ++ f.enc).setWidth 32)
  | .bkCmp f => some ((4#6 ++ f.enc).setWidth 32)
  | .bkMin f => some ((5#6 ++ f.enc).setWidth 32)
  | .bkMax f => some ((6#6 ++ f.enc).setWidth 32)
  | .bkNeg f => some ((7#6 ++ f.enc).setWidth 32)
  | .bkPand f => some ((8#6 ++ f.enc).setWidth 32)
  | .bkPor f => some ((9#6 ++ f.enc).setWidth 32)
  | .bkPxor f => some ((10#6 ++ f.enc).setWidth 32)
  | .bkPnot f => some ((11#6 ++ f.enc).setWidth 32)
  | .bkPmov f => some ((12#6 ++ f.enc).setWidth 32)
  | .bkPfill f => some ((13#6 ++ f.enc).setWidth 32)
  | .bkRrd f => some ((14#6 ++ f.enc).setWidth 32)
  | .bkRwr f => some ((15#6 ++ f.enc).setWidth 32)
  | .bkRwrm f => some ((16#6 ++ f.enc).setWidth 32)
  | .bkRrds f => some ((17#6 ++ f.enc).setWidth 32)
  | .bkLoop f => some ((18#6 ++ f.enc).setWidth 32)
  | .bkEndl f => some ((19#6 ++ f.enc).setWidth 32)
  | .bkWait f => some ((20#6 ++ f.enc).setWidth 32)
  | .bkHalt f => some ((21#6 ++ f.enc).setWidth 32)
  | .bkArd f => some ((22#6 ++ f.enc).setWidth 32)
  | .bkAclr f => some ((23#6 ++ f.enc).setWidth 32)
  | _ => none

/-- The words of a well-formed instruction, lowest address first: a syllable with its stop bit set, or a bank-unit word; no
word for an event. -/
def encode (i : Instr) : List Byte :=
  match encodeBk i with
  | some w => (List.range 4).map (fun k => w.extractLsb' (8 * k) 8)
  | none =>
    match encodeSyl i with
    | some w => (List.range 8).map (fun k => (1#1 ++ w).extractLsb' (8 * k) 8)
    | none => []

/-- The instruction that the decoder reads from `nbits` bits, numbered as the opcode table numbers them. The table gives bits
to the 32-bit bank-unit instructions alone (R50); a syllable of 64 bits is read in the first of the opcode spaces S, V, M, C,
B and T that has a well-formed operation for it. -/
noncomputable def decodeTableWord (nbits w : Nat) : Option Instr :=
  if nbits ≤ 32 then decodeBk (BitVec.ofNat 32 w)
  else
    let x := BitVec.ofNat 63 w
    [decodeSyl .S x, decodeSyl .V0 x, decodeSyl .V1 x, decodeSyl .M x, decodeSyl .C0 x, decodeSyl .C1 x, decodeSyl .B x,
      decodeT x].findSome? id

end Sys2Proof
end

