-- ==== Sys2Proof/Machine/State.lean ====
section
/-! DEFINITION. The state of the whole package as plain data: cores, clusters, dies, hub and the queue of inputs.
Every finite map is a list of (key, value) pairs, keys strictly rising, with no entry equal to what an unlisted key
reads as; the reading and writing operations are in Machine/Ops.lean. -/

namespace Sys2Proof.Machine

/-- Why the machine stops. The spec describes an outcome for every step of the machine, so one reason is left. -/
inductive Fault where
  /-- The reason for a stop at an address that R15 gives no storage. No step raises it: every access is translated, and where a
  translation fails or leads to such an address the spec names a trap, a failed packet or a refused message. Safe: a stop
  proves nothing of what follows. -/
  | noStorage (addr : Nat)
  deriving DecidableEq, Repr

/-- Why the model refuses an instruction. -/
inductive Refusal where
  /-- Raised only by an arm of `exec` for a row that has no meaning yet. Safe: nothing can be proved of that row. -/
  | notModelled (mnemonic : String)
  deriving DecidableEq, Repr

/-- A finite map by number: keys strictly rising, no entry equal to the default of its map. -/
abbrev SMap (α : Type) := List (Nat × α)

/-- A byte store with one poison bit for each aligned 4-byte word (R374). An unlisted byte reads as 0 and an unlisted
word as not poisoned (DESIGN CHOICE for main memory, loft and cluster memory, log 3; R159 for slices and scratchpad). -/
structure Mem where
  /-- bytes by address -/
  bytes : SMap Byte
  /-- poison by word number (address / 4) -/
  poison : SMap Bool
  deriving DecidableEq, Repr

/-- The address spaces, with the codes of FAULT_INFO SPACE (R362). -/
inductive Space where
  | main | loft | cluster | scratch | slices | code
  deriving DecidableEq, Repr

/-- A scalar register (R74, R82, R83). -/
structure SReg where
  val : Word
  poison : Bool
  pend : Bool
  deriving DecidableEq, Repr

/-- A predicate register (R74, R83). -/
structure PReg where
  val : Bool
  poison : Bool
  deriving DecidableEq, Repr

/-- A lane-mask register (R74, R83). -/
structure MReg where
  val : BitVec 32
  poison : Bool
  deriving DecidableEq, Repr

/-- A vector register (R74, R79, R82, R83). -/
structure VReg where
  val : Vec
  tag : BitVec 4
  poison : BitVec 32
  pend : Bool
  deriving DecidableEq, Repr

/-- A tile register: 16 KiB as one number, byte n at bits 8n (R74, R79, R81, R83). -/
structure TReg where
  val : BitVec 131072
  tag : BitVec 4
  ready : Bool
  poison : BitVec 256
  deriving DecidableEq, Repr

/-- A shape record (R171). -/
structure Shape where
  rank : Nat
  format : BitVec 4
  write : Bool
  base : Word
  counts : List Nat
  strides : List Int
  deriving DecidableEq, Repr

/-- An operand ring: its descriptor, head, count, the tag of each entry, and the entry that a failed fill left
faulted (R231, R232, R250). -/
structure Ring where
  valid : Bool
  base : Nat
  entries : Nat
  entryBytes : Nat
  head : Nat
  count : Nat
  tags : SMap (BitVec 4)
  deriving DecidableEq, Repr

/-- A sticky latch: the syllable without its stop bit, and the latched displacement (R34, R139, R167). -/
structure Latch where
  word : BitVec 63
  disp : BitVec 32
  full : Bool
  deriving DecidableEq, Repr

/-- The status words of R88 that a core stores; CORE_ID is computed from the core's number and engine map. -/
structure StatusWords where
  gangPos : Word
  ctxId : Word
  priv : Word
  rot : Word
  lc : Word
  depth : Word
  repc : Word
  stepS : Word
  stepV0 : Word
  stepV1 : Word
  stepC0 : Word
  stepC1 : Word
  mcfg : Word
  kcount0 : Word
  kcount1 : Word
  respol : Word
  lanemap : Word
  vcfg0 : Word
  vcfg1 : Word
  beatBase : Word
  beatNow : Word
  checkctl : Word
  trapCause : Word
  trapPc : Word
  faultAddr : Word
  faultInfo : Word
  trapVec : Word
  quantum : Word
  phaseCnt : Word
  segState : Word
  errLog : Word
  determ : Word
  deriving DecidableEq, Repr

/-- Where a result lands (R356): registers by physical number. -/
inductive Dest where
  | scalar (n : Nat) | pred (n : Nat) | mask (n : Nat) | vec (n : Nat)
  /-- the format tag alone of a vector register or a tile (S.WTAG, R94) -/
  | vtag (n : Nat) | ttag (n : Nat)
  /-- a program's write of the RW fields of a status word, or a hardware result of one -/
  | status (idx : Nat) | base (n : Nat)
  /-- a warning count of VCFG0 or VCFG1 (R141) -/
  | warn (slot : Nat)
  /-- row bytes of a drain into a tile at a line, or into a ring entry (R244) -/
  | tileRow (t line : Nat) | ringRow (h entry : Nat)
  /-- a push to a write flume (R183) -/
  | flume (v : Nat)
  /-- nothing but the reports of the result -/
  | none
  deriving DecidableEq, Repr

/-- An error record (R392). -/
structure ErrRec where
  kind : Nat
  outcome : Nat
  ctx : Nat
  die : Nat
  slot : Nat
  core : Nat
  addr : Nat
  pc : Word
  detail : List (Nat × Nat × Nat)
  /-- the beat count of the die at writing -/
  beat : Nat
  deriving DecidableEq, Repr

/-- A trap or an entry cause with the fields of its record (R352, R362). -/
structure Trap where
  code : Nat
  sub : Nat
  slot : Nat
  async : Bool
  pc : Word
  addr : Word
  data : Nat
  space : Nat
  kind : Nat
  level : Nat
  size : Nat
  /-- an event that an issue of the open segment made, so that a rewind drops it (R385) -/
  seg : Bool
  deriving DecidableEq, Repr

/-- One residue event that a drain or V.RREV reports when it lands (R246, R260, R271). -/
structure ResEvent where
  multi : Bool
  /-- the residue-mismatch trap follows: MULTI, or CORRECTED under MODE 1 as read at issue (R259) -/
  trap : Bool
  entry : Nat
  record : ErrRec
  deriving DecidableEq, Repr

/-- A fixed-latency result in flight (R343, R356). For a D-pair, `twin` holds the V1 result to compare (R378). -/
structure Flight where
  dest : Dest
  val : BitVec 8192
  tag : BitVec 4
  poison : BitVec 256
  land : Nat
  slot : Nat
  mismatch : Bool
  twin : Option (Vec × BitVec 4 × BitVec 32)
  pc : Word
  opcode : Nat
  seg : Bool
  size : Nat
  events : List ResEvent
  /-- issue time of its operation -/
  issued : Nat
  /-- the place in program order at which its operation issued -/
  seq : Nat
  /-- the result of an acquire of the loft or of cluster memory, whose landing completes it in a deterministic launch (R395) -/
  acq : Bool
  deriving DecidableEq, Repr

/-- What an on-chip access does when its time comes (R157, R164): a store is performed; a load reads and its result
then flies; a chunk of a C0 tile load is read and then written into its tile; a chunk of a C0 tile store is taken from
the tile and then performed; a chunk of a C1 tile store or scatter of a deterministic launch is taken from the tile for the
engine operation `seq` (R395). Bytes are (address, byte), words (word number, poison, whole), items (tile byte, address). A tile load has
its tag, the byte from which the rest of its tile becomes 0 (beyond 16,384 where other bytes keep their contents, R174), and whether the
chunk is its first. -/
inductive TAct where
  | store (sp : Space) (bytes : List (Nat × Byte)) (words : List (Nat × Bool × Bool))
  | load (sp : Space) (addr size : Nat) (spread : Bool) (f : Flight)
  | chunkRead (t : Nat) (items : List (Nat × Nat)) (land : Nat) (tag : BitVec 4) (rest : Nat) (first : Bool)
  | chunkWrite (t : Nat) (bytes : List (Nat × Byte)) (groups : List (Nat × Bool)) (tag : BitVec 4) (rest : Nat) (first : Bool)
  | chunkTake (t : Nat) (items : List (Nat × Nat)) (due : Nat)
  | engineTake (t : Nat) (items : List Nat) (seq : Nat)
  deriving DecidableEq, Repr

/-- An on-chip access issued and not yet performed: the issue time at which it is, its place in program order, and the
scope of a release (R198) or of an acquire (R199) that it makes, 0 for none. -/
structure Timed where
  due : Nat
  seq : Nat
  rel : Nat
  acq : Nat
  /-- the issue time of the D-pair whose comparison a guarded store waits for (R124, R170) -/
  gd : Option Nat
  act : TAct
  deriving DecidableEq, Repr

/-- What a pending transfer does at its transfer cycle (R127 to R130). -/
inductive XferKind where
  | go | unitEnd | trap (code : Nat) | rft
  deriving DecidableEq, Repr

/-- A branch that has issued and not yet transferred (R128, R135). `guardLand` is the landing time of the D-pair
that a guarded branch waits for (R124). -/
structure Xfer where
  kind : XferKind
  target : Option Word
  left : Nat
  atTime : Nat
  lc : Option Word
  depth : Option Word
  rot : Option Word
  p32 : Option Bool
  /-- the physical scalar of a link that the second delay bundle has still to give (R127, R135; log 12) -/
  link : Option Nat
  pc : Word
  guarded : Bool
  /-- the comparison that a guarded branch waits for has failed -/
  failed : Bool
  /-- issue time of the branch -/
  issued : Nat
  deriving DecidableEq, Repr

/-- One captured operand of a slot (R427): register kind, physical number, tag, poison and value. -/
structure CapVal where
  kind : Nat
  num : Nat
  tag : BitVec 4
  poison : BitVec 32
  val : Vec
  deriving DecidableEq, Repr

/-- The captured operands of one slot (R427). -/
structure CapSlot where
  slot : Nat
  guard : Bool
  guardPoison : Bool
  disp : BitVec 32
  base : BitVec 20
  vals : List CapVal
  deriving DecidableEq, Repr

/-- The captured tree of a trapped bundle (R367 offset 104). -/
structure CapTree where
  tests : BitVec 4
  poisons : BitVec 4
  leaf : Nat
  hasTree : Bool
  deriving DecidableEq, Repr

/-- The operation that the attention slip holds, how many bundles have issued after its own (R176), and the ROT under which
its register names were mapped (R77). -/
structure SlipOp where
  slot : Slot
  word : BitVec 63
  pc : Word
  scope : Nat
  cap : CapSlot
  issued : Nat
  rot : Word
  /-- the shape slots as they stood before its bundle (R33, R173) -/
  k : SMap Shape
  deriving DecidableEq, Repr

/-- The bundle in progress: its operations still to act, each with its slot. -/
structure Issue where
  pc : Word
  scope : Nat
  leaf : Nat
  ops : List (Slot × BitVec 63)
  tree : Option (BitVec 63)
  /-- address of the next bundle in order -/
  after : Word
  /-- repetitions still to issue after this one -/
  repsLeft : Nat
  branch : Bool
  /-- read flumes that give an element to the bundle (R182) -/
  pops : List Nat
  /-- bits of the free-value counter at issue, for the choices of this issue -/
  free : Nat
  /-- REPC, SEG_STATE and PHASE_CNT as the operations of the bundle read them (R33) -/
  repc : Word
  segState : Word
  phaseCnt : Word
  deriving DecidableEq, Repr

/-- A line of the fetch buffer (R334, R336). -/
structure FetchLine where
  addr : Nat
  data : BitVec 512
  faulted : Bool
  deriving DecidableEq, Repr

/-- The hold of a core (R165): none, waiting for its condition, or served and about to issue. -/
inductive Hold where
  | none | waiting | served
  deriving DecidableEq, Repr

/-- One journal entry of a segment (R381): what a register, status word or latch held before. -/
inductive JEntry where
  | scalar (n : Nat) (r : SReg) | pred (n : Nat) (r : PReg) | mask (n : Nat) (r : MReg) | vec (n : Nat) (r : VReg)
  | status (idx : Nat) (w : Word) | latch (n : Nat) (l : Latch)
  deriving DecidableEq, Repr

/-- A held line of the segment store buffer (R382): its space, its aligned address and its bytes and word poison. -/
structure SegLine where
  space : Space
  addr : Nat
  bytes : SMap Byte
  words : List (Nat × Bool × Bool)
  deriving DecidableEq, Repr

/-- The trapped context that the handler's bank replaces (R355, R359), with what the freeze took. -/
structure Held where
  s : SMap SReg
  p : SMap PReg
  rot : Word
  lc : Word
  depth : Word
  repc : Word
  beatNow : Word
  latches : SMap Latch
  pc : Word
  time : Nat
  next : Nat
  flights : List Flight
  xfer : Option Xfer
  slip : Option SlipOp
  cap : List CapSlot
  capTree : Option CapTree
  atIssue : Bool
  skip : Bool
  c0free : Nat
  charged : Bool
  /-- the bundle at `pc` has passed its rendezvous -/
  rvDone : Bool
  /-- the page-check cycles of the bundle at `pc` have been charged; the bundle has overflowed and opens no segment -/
  padDone : Bool
  noOpen : Bool
  /-- the trap words' own trap, for a double fault's record (R361) -/
  first : Trap
  /-- SHIFTED of the accumulator set in the drain stage (R229), as the array held it when the record was written -/
  drainCount : Nat
  /-- the phase that the phase timer counts (R364) -/
  phaseIndex : Nat
  deriving DecidableEq, Repr

/-- A latched slab value (R236, R366): the integer entered, or the 16 bits pushed under a window pair, with its marks. -/
structure LVal where
  val : Int
  nan : Bool
  pinf : Bool
  minf : Bool
  neg : Bool
  poison : Bool
  deriving DecidableEq, Repr

/-- An accumulator position (R229): six residue bytes, lane k in byte k, the flags and the poison bit. -/
structure Pos where
  res : BitVec 48
  nan : Bool
  pinf : Bool
  minf : Bool
  zneg : Bool
  poison : Bool
  deriving DecidableEq, Repr

/-- An accumulator set or the drain stage: the ZNEG flag of every position that is not listed, and the listed
positions by 128·i + j. -/
structure ASet where
  zneg : Bool
  cells : SMap Pos
  deriving DecidableEq, Repr

/-- The matrix array (R229). -/
structure MArray where
  latchA : SMap LVal
  latchB : SMap LVal
  set0 : ASet
  set1 : ASet
  drain : ASet
  drainCount : Nat
  drained : BitVec 128
  deriving DecidableEq, Repr

/-- An operand pop pending at issue + 1 (R233): ring and entries. -/
structure Pop where
  ring : Nat
  n : Nat
  due : Nat
  deriving DecidableEq, Repr

/-- What an entry of a core's store buffer does at its point of performance (R197, R198, R205, R221, R222, R306 to R309,
R331). -/
inductive SbKind where
  | store
  /-- an atomic: operation k of R204, 64-bit, operand, compare value -/
  | atomic (k : Nat) (wide : Bool) (x c : Word)
  /-- a barrier arm or signal with its count (R222) -/
  | barm (n : Nat) | bsig (n : Nat)
  /-- the publication of a packet: the queue's base, the claimed index, the slots and bytes 0 to 62, from user or supervisor
  mode (R221, R371) -/
  | publish (base i n : Nat) (data : List Byte) (user : Bool)
  /-- the cancel of a record (R331) -/
  | cancel
  /-- the submission of a launch block, as a number, from user or supervisor mode (R333) -/
  | submit (block : Nat) (user : Bool)
  deriving DecidableEq, Repr

/-- An entry of the store buffer: its place in program order, its physical bytes and its word poison; `virt` is the
virtual address for the records that name it, `issue` the header address of its bundle. -/
structure SbEntry where
  seq : Nat
  space : Space
  kind : SbKind
  addr : Nat
  bytes : List (Nat × Byte)
  words : List (Nat × Bool × Bool)
  /-- the scope of a release, 0 for none -/
  rel : Nat
  /-- the scalar that a returning form writes -/
  dest : Option Nat
  virt : Word
  pc : Word
  seg : Bool
  /-- the beat tag of a release store to a worked page (R278) -/
  beat : Option Nat
  /-- the issue time of the D-pair whose comparison a guarded store waits for (R124, R170) -/
  gd : Option Nat
  /-- the issue time by which a release or an atomic of a deterministic launch is performed, 0 for none (R395) -/
  due : Nat
  /-- the bytes of an element that are performed together; 0 where the whole store is one element (R163) -/
  unit : Nat
  deriving DecidableEq, Repr

/-- An entry of a die's outbound queue (R188, R201): the core that stored it and its place in that core's program
order; `seen` says that a load of another core has been given its bytes, so that no load may be given older ones (R191); `virt`
is the virtual address of its first byte, and `pc` the header address of the bundle that stored it, for the records that name them. -/
structure OutEntry where
  core : Nat
  seq : Nat
  ctx : Nat
  bytes : List (Nat × Byte)
  words : List (Nat × Bool × Bool)
  seen : Bool
  virt : Word
  pc : Word
  deriving DecidableEq, Repr

/-- Where a returning C1, controller or dispatcher result goes (R82). -/
inductive LoadDest where
  | scalar (n : Nat) | vec (n : Nat) (tag : BitVec 4)
  deriving DecidableEq, Repr

/-- What a pending result returns (R82): bytes of memory; one word in every lane; a value already decided, such as a
dispatcher's answer or the old value of an atomic; the beat number of a die (R285); the planes of a plane load (R286);
or a failure, which clears the pending bit, sets poison and raises a trap at a boundary (R206, R281). -/
inductive LoadKind where
  | bytes | spread | value (v : Word) (poison : Bool) | beat (die : Nat)
  | planes (w width : Nat) (signed : Bool)
  | fail (t : Trap)
  deriving DecidableEq, Repr

/-- A register result that has issued and not landed (R82). -/
structure PendLoad where
  seq : Nat
  dest : LoadDest
  kind : LoadKind
  /-- physical address of each byte in order -/
  addrs : List Nat
  /-- the scope of an acquire, 0 for none -/
  acq : Nat
  /-- the issue time at which a deterministic launch lets it land (R395), 0 outside one -/
  due : Nat
  slot : Nat
  pc : Word
  virt : Word
  seg : Bool
  /-- it has still to be answered by a controller, a dispatcher or a landing unit, or performed at its home -/
  away : Bool
  /-- the bytes that the elements performed so far have read, with their poison, by address (R163) -/
  got : List (Nat × Byte × Bool)
  arrived : Option (BitVec 1024 × BitVec 32)
  deriving DecidableEq, Repr

/-- A fence not yet complete (R203): its kind (1 release, 2 acquire, 3 full), its scope, whether issue waits for it. -/
structure Fence where
  seq : Nat
  kind : Nat
  scope : Nat
  wait : Bool
  /-- the issue time at which it completes in a deterministic launch, 0 outside one (R395) -/
  due : Nat
  /-- its waits have ended while issue time stood, before `due`: it orders nothing further, and stalls as before (R424) -/
  done : Bool
  deriving DecidableEq, Repr

/-- A register that an operation reads or writes, by physical number; a status word by its index. -/
inductive RegRef where
  | s (n : Nat) | p (n : Nat) | m (n : Nat) | v (n : Nat) | t (n : Nat) | w (n : Nat)
  /-- the whole predicate file, read by S.PGET -/
  | pAll
  deriving DecidableEq, Repr

/-- A release of the loft or cluster memory whose padded time has still to come in a deterministic launch, also where a freeze has
performed it: the bytes whose later accesses stall until then (R395, R424). -/
structure PadStore where
  space : Space
  addrs : List Nat
  due : Nat
  deriving DecidableEq, Repr

/-- The C1 engine operations (R179, R303). -/
inductive EngKind where
  | tileLoad (t : Nat) | tileStore (t : Nat) | gather (t : Nat) | scatter (t : Nat)
  | fill (h : Nat) | spill (h : Nat)
  | kvload (t : Nat) (i8 : Bool) | kvstore (t : Nat) | kvfree
  /-- C1.KVX for physical scalar `d`, its result due at issue time `land` -/
  | kvx (d land : Nat)
  | kvho
  deriving DecidableEq, Repr

/-- A pool descriptor (R299). -/
structure KvPool where
  va : Nat
  base : Nat
  table : Nat
  n : Nat
  logF : Nat
  flag : Nat
  deriving DecidableEq, Repr

/-- A LOOKUP in progress (R301), and the layer that C1.KVHO works through (R308): the pool once its descriptor has been
read, the key, the reads made, the entry to read next, the chain of the home entry, whether a read returned poison; and
the place in the layer, its heads and blocks, the entry found and still to flip, and the counts. -/
structure KvWalk where
  pool : Option KvPool
  seq : Nat
  layer : Nat
  head : Nat
  lb : Nat
  reads : Nat
  entry : Nat
  chain : Nat
  pois : Bool
  pos : Nat
  heads : Nat
  blocks : Nat
  found : Option Nat
  flips : Nat
  other : Nat
  deriving DecidableEq, Repr

/-- An engine operation in progress (R175, R178 to R180, R303): the pieces not yet performed, each a place in the tile, the
walk or the ring with the physical address of each byte; for a fill or spill the virtual addresses of each entry. -/
structure Engine where
  seq : Nat
  kind : EngKind
  tag : BitVec 4
  work : List (Nat × List Nat)
  /-- the virtual addresses of the entries that a fill or spill has still to move (R180) -/
  virt : List (List Word)
  /-- the virtual address at which each piece of `work` begins, those performed among them (R295, R352) -/
  vas : List Word
  /-- pieces performed -/
  done : Nat
  /-- the byte from which a load clears the rest of its tile; 16,384 where it keeps it -/
  rest : Nat
  acq : Nat
  rel : Nat
  /-- the issue time of its first piece, or of its completion, in a deterministic launch (R395); 0 outside one -/
  due : Nat
  /-- the bytes of a gather or scatter of a deterministic launch, and the issue time before which a later access that
  overlaps them stalls (R178, R395) -/
  span : List Nat
  padEnd : Nat
  /-- the padded times of the entries that a spill has popped and not written (R395) -/
  padEnds : List Nat
  slot : Nat
  pc : Word
  ew : Nat
  fault : Option Trap
  /-- the descriptor or block address, the parameter word and the bytes that a key-value operation has read or will write,
  each with its poison -/
  virtAt : Word
  par : Word
  buf : List (Byte × Bool)
  kv : KvWalk
  /-- issued before the freeze in progress, so that a fixed-latency result goes to the snapshot buffer (R304) -/
  frozen : Bool
  /-- issued in supervisor mode: the rights and the events of its pages are those of the handler (R361, R371) -/
  sup : Bool
  deriving DecidableEq, Repr

/-- A bound flume (R181 to R186): its register, the slot that armed it, the record, the displacement, its elements, the
next one that the program pops or pushes, those that the transfer unit has moved, the buffer, each element with the place in
program order of its push, and the pushes in flight. -/
structure Flume where
  reg : Nat
  main : Bool
  seq : Nat
  shape : Shape
  disp : Word
  size : Nat
  next : Nat
  moved : Nat
  buf : List (Vec × BitVec 32 × Nat)
  inflight : Nat
  fault : Option Trap
  /-- issue time of the arming, and of the last pops of a read flume or the landings of the last pushes to a write flume,
  latest first (R395) -/
  armed : Nat
  pops : List Nat
  pc : Word
  /-- armed in supervisor mode (R361, R371) -/
  sup : Bool
  deriving DecidableEq, Repr

/-- A TLB entry (R372): context, page base, page size as a power of two, physical base and the leaf's attribute bits 7:0. -/
structure TlbEntry where
  ctx : Nat
  page : Nat
  log2 : Nat
  base : Nat
  attr : BitVec 8
  deriving DecidableEq, Repr

/-- The segment of a core beside SEG_STATE (R379 to R388). -/
structure Segment where
  journal : List JEntry
  lines : List SegLine
  /-- held stores in program order; once the segment has committed, its C1 stores that wait for a place in the store
  buffer (R342, R380) -/
  held : List SbEntry
  /-- issue time of its opening -/
  opened : Nat
  deriving DecidableEq, Repr

/-- The phase timer of a core (R364). -/
structure Phase where
  running : Bool
  stopped : Bool
  expected : Nat
  table : Word
  index : Nat
  deriving DecidableEq, Repr

/-- The unit placed on a core, or pre-empted (R314 to R327). -/
structure UnitInfo where
  launch : Nat
  crew : Nat
  pos : Nat
  /-- gang size, 1 with no gang -/
  gang : Nat
  /-- indices of the tiles it holds -/
  tiles : List Nat
  /-- the cluster window of the launch on this cluster: base and size in bytes (R160) -/
  window : Nat × Nat
  /-- what the lead of a member's gang has decided (R327): header address, what its branch-class operation or tree did, and the
  target; and how many of them the member has reached. The opening of a segment stands among them as 16 + RETRY (R388) -/
  decisions : List (Word × Nat × Option Word)
  reached : Nat
  /-- in a gang, the issues of the unit so far, by which its members find their common boundary, and their number at the opening of the
  segment (R327, R388) -/
  issues : Nat
  entry : Nat
  /-- the words that the lead's S.NXT requests received, and the requests made by this member -/
  nexts : List Nat
  requests : Nat
  /-- the dispatcher has cancelled it at an SE bundle (R332) -/
  cancelled : Bool
  /-- its first place in the program order of its core -/
  first : Nat
  deriving DecidableEq, Repr

/-- One programmable core with everything that belongs to it. -/
structure Core where
  /-- the core's number, 0 to 383 (R12) -/
  id : Nat
  /-- the slot-to-engine map; the retired lanes that the fuses name (R261); withdrawn from service (R347) -/
  engmap : BitVec 8
  lanefuse : BitVec 6
  withdrawn : Bool
  s : SMap SReg
  p : SMap PReg
  m : SMap MReg
  v : SMap VReg
  t : SMap TReg
  ring : SMap Ring
  b : SMap (BitVec 20)
  k : SMap Shape
  sw : StatusWords
  flumes : List Flume
  latch : SMap Latch
  arr : MArray
  pops : List Pop
  /-- the program counter, a multiple of 8 (R21) -/
  pc : Word
  /-- issue time (R338), and the earliest issue time of the next bundle (R25) -/
  time : Nat
  next : Nat
  /-- a unit, or its handler, is on the core and not stopped -/
  running : Bool
  issue : Option Issue
  /-- the first attempt at the bundle at `pc` has been made: the stall field has been charged -/
  charged : Bool
  /-- the rendezvous of the bundle at `pc` has been passed (R27) -/
  rvDone : Bool
  /-- the bundle at `pc` is the issue that S.CTXSKIP skips (R425) -/
  skipNext : Bool
  /-- the page-check cycles of the bundle at `pc` have been charged (R395) -/
  padDone : Bool
  /-- the bundle at `pc` has taken the segment-overflow trap, and issues outside any segment (R384) -/
  noOpen : Bool
  /-- the open segment is one that the handler has opened (R27) -/
  supSeg : Bool
  /-- the bundle at `pc` is a re-issued SE bundle after a rewind (R385) -/
  rewound : Bool
  /-- a trap being entered, waiting for the pending bits of s0 to s15 (R359) -/
  entering : Option (Trap × Bool)
  /-- the place in program order from which operations are the handler's (R360, R361) -/
  supFrom : Nat
  /-- in a deterministic launch: the registers that its handler has waited for; it has waited for all that the frozen code awaits; the
  releases whose padded times have still to come (R355, R367, R395, R424) -/
  wants : List RegRef
  drains : Bool
  padStores : List PadStore
  xfer : Option Xfer
  flights : List Flight
  timed : List Timed
  c0free : Nat
  slip : Option SlipOp
  cap : List CapSlot
  capTree : Option CapTree
  fetch : List FetchLine
  hold : Hold
  async : List Trap
  /-- events of the handler's own operations, each a supervisor fault at its boundary (R361) -/
  supAsync : List Trap
  held : Option Held
  seg : Segment
  phase : Phase
  l1 : SMap (BitVec 32 × Bool)
  sb : List SbEntry
  loads : List PendLoad
  fences : List Fence
  /-- a claim of C1.QAPP that waits for its slot: physical descriptor, index and slots (R221) -/
  claim : Option (Nat × Nat × Nat)
  engines : List Engine
  /-- the next place in program order -/
  seq : Nat
  tlb : List TlbEntry
  /-- TLB entries of the package that an S.TLBINV of this core names and its S.TLBSYNC has yet to remove -/
  inval : List (Nat × Nat × Nat)
  scratch : Mem
  slices : Mem
  unit : Option UnitInfo
  /-- the launch, crew and crew position that the core serves (R321, R322) -/
  job : Option (Nat × Nat × Nat)
  /-- the unit has failed with this cause and its report is due (R315, R361) -/
  failed : Option Nat
  /-- a debug stop holds the core, and a step has been requested (R368) -/
  debugStop : Bool
  debugStep : Bool
  /-- the launch whose slices and scratchpad contents stand (R159) -/
  lastLaunch : Option Nat
  /-- the rendezvous that the core waits at (R326) -/
  waiting : Option Nat
  deriving DecidableEq, Repr

/-- The agents that take steps. -/
inductive Agent where
  | core (n : Nat) | outbound (die : Nat) | l2 (die : Nat) | beat (die : Nat) | bank (die bank : Nat)
  | landing (die : Nat) | orchard (die : Nat) | dispatcher (cluster : Nat) | walker (cluster : Nat) | hub
  deriving DecidableEq, Repr

/-- Which agent takes the next step, and a number for the choices that agent has (log 1). -/
structure Turn where
  agent : Agent
  pick : Nat
  deriving DecidableEq, Repr

/-- One access to a worked page on its way to, or held at, its home die's controller (R281, R286). A store carries, for
each byte, the value and the mask of the bits it writes, and the poison of each word it writes. -/
structure WAccess where
  core : Nat
  slot : Nat
  seq : Nat
  pc : Word
  virt : Word
  ctx : Nat
  tag : Nat
  bytes : List (Nat × Byte × Byte)
  words : List (Nat × Bool × Bool)
  /-- physical byte addresses of a load -/
  addrs : List Nat
  load : Bool
  held : Bool
  deriving DecidableEq, Repr

/-- One bank command (R287): on its way, accepted, or suspended. `tag` is its beat T, `due` the beat it runs in next, and
`region` the physical base of its first bank row. -/
structure BankCmd where
  id : Nat
  core : Nat
  pc : Word
  virt : Word
  ctx : Nat
  tag : Nat
  due : Nat
  region : Nat
  first : Nat
  count : Nat
  program : List (BitVec 32)
  seq : Nat
  arrived : Bool
  suspended : Bool
  deriving DecidableEq, Repr

/-- One loop of a bank unit (R292): active, iterations that remain, the index of its first body instruction, its step
and its present plane offset. -/
structure BankLoop where
  active : Bool
  left : Nat
  start : Nat
  step : Nat
  offset : Nat
  deriving DecidableEq, Repr

/-- An instruction of a bank unit still in progress (R289): the bank cycle at which it ends, whether it is arithmetic or
ARD, and the planes, latches and accumulators it reads or writes. -/
structure BankBusy where
  ends : Nat
  arith : Bool
  planes : List Nat
  latches : List Nat
  accs : List Nat
  deriving DecidableEq, Repr

/-- The state of one bank unit while a command runs (R288), or of a suspended one in its cellar row (R294). -/
structure BankUnit where
  cmd : Nat
  /-- physical base address of the bank row -/
  row : Nat
  latch : SMap (BitVec 2048)
  acc0 : SMap (BitVec 2048)
  acc1 : SMap (BitVec 2048)
  loop0 : BankLoop
  loop1 : BankLoop
  program : List (BitVec 32)
  index : Nat
  /-- the bank cycle of the next issue -/
  cycle : Nat
  busy : List BankBusy
  halted : Bool
  /-- the stretch limit has come to the unit, and it has yet to reach a loop boundary (R294) -/
  limited : Bool
  stopping : Bool
  noSpill : Bool
  suspensions : Nat
  deriving DecidableEq, Repr

/-- The state of a die beside its loft and the homes of its memory. -/
structure Die where
  /-- the beat count, and whether that beat is in progress (R273) -/
  beat : Nat
  opened : Bool
  /-- beat pairs since the last refresh gap (R275) -/
  pairs : Nat
  /-- BEATPLAN (R276) -/
  plan : Word
  /-- layers initialised (R413) and the DRAM temperature band, 0 normal (R420) -/
  layers : BitVec 4
  band : Nat
  /-- the correction counter (R373) -/
  corrections : Nat
  accesses : List WAccess
  cmds : List BankCmd
  units : SMap BankUnit
  cellar : SMap BankUnit
  deriving DecidableEq, Repr

/-- A registered context (R406, R411, R369): the root of its page table on each die, handler, loft windows as base and
size in bytes by die, the error-ring area, and its ticket counters. -/
structure CtxInfo where
  root : Nat
  handler : Word
  loft : List (Nat × Nat)
  errRing : Word
  /-- where Strelino has put the rings: the physical base of their 6 MiB (R391, R411; log 55) -/
  rings : Option Nat
  deriving DecidableEq, Repr

/-- A launch parameter block (R316). -/
structure LaunchBlk where
  gx : Nat
  gy : Nat
  order : Nat
  swizzle : Nat
  crew : Nat
  gang : Nat
  determ : Bool
  prio : Nat
  cls : Nat
  profile : Nat
  ctx : Nat
  crews : Nat
  code : Nat
  args : Nat
  mask : Nat
  winBase : Nat
  winSize : Nat
  policy : Nat
  rings : Nat
  ringCount : Nat
  beatA : Nat
  beatC : Nat
  images : Nat
  imageCount : Nat
  record : Nat
  deriving DecidableEq, Repr

/-- An image entry (R316). -/
structure ImageEntry where
  space : Nat
  src : Nat
  dst : Nat
  size : Nat
  deriving DecidableEq, Repr

/-- A member of a crew (R321, R326): its core, or none while it is pre-empted; whether it has left the launch; and its
passes of each rendezvous. -/
structure Member where
  core : Option Nat
  left : Bool
  passes : SMap Nat
  deriving DecidableEq, Repr

/-- A crew of a launch on one cluster (R321). -/
structure Crew where
  index : Nat
  cluster : Nat
  members : List Member
  deriving DecidableEq, Repr

/-- A pre-empted unit that waits to be resumed: its context record (R325, R363). -/
structure Preempted where
  record : Word
  unit : UnitInfo
  cluster : Nat
  deriving DecidableEq, Repr

/-- What hears of a launch's or a graph's end: nothing, a packet's barrier (its context and physical address), or a node
of a graph (R215, R329). -/
inductive Origin where
  | none
  | barrier (ctx pa : Nat)
  | node (graph node : Nat)
  deriving DecidableEq, Repr

/-- An accepted launch (R317 to R325). -/
structure Launch where
  id : Nat
  blk : LaunchBlk
  /-- the block's address, for s125 -/
  addr : Word
  origin : Origin
  ringRegs : List Ring
  images : List ImageEntry
  /-- the next-tile counter, and tiles handed to each executor of a deterministic launch (R320) -/
  next : Nat
  exec : SMap Nat
  crews : List Crew
  /-- clusters whose window has been granted, dies whose loft images are written, cores whose slices and scratchpad have
  been prepared (R159, R160, R321) -/
  granted : List Nat
  dies : List Nat
  prepared : List Nat
  waiting : List Preempted
  started : Nat
  completed : Nat
  cancelled : Nat
  failed : Nat
  /-- the tiles never handed out have been counted cancelled (R332) -/
  swept : Bool
  /-- cores with the place in their program order before which every store must be performed (R315) -/
  pend : List (Nat × Nat)
  deriving DecidableEq, Repr

/-- A kernel registered by the loader (R346, R364): its phase table with virtual start addresses, as (start, expected,
margin), and whether its code has been rewritten for the native profile. -/
structure Kernel where
  ctx : Nat
  code : Word
  table : Word
  phases : List (Word × Nat × Nat)
  rewritten : Bool
  deriving DecidableEq, Repr

/-- A node of a graph (R329). -/
structure GNode where
  kind : Nat
  preds : Nat
  succs : List Nat
  a : Nat
  b : Nat
  c : Nat
  deriving DecidableEq, Repr

/-- What a node of a running graph does: it waits for its count, it may start, it runs, or it has ended. A while node
counts its runs. -/
inductive NodeState where
  | waiting (left : Nat)
  | running (runs : Nat)
  /-- its work has ended, well or with a failure, after `runs` bodies of a while node, and GRAPH_NODE_COMPLETE is due -/
  | ended (fails cancelled : Bool) (runs : Nat)
  | done
  deriving DecidableEq, Repr

/-- A graph held by a walker (R328 to R330). -/
structure GraphRun where
  id : Nat
  cluster : Nat
  ctx : Nat
  /-- priority and mode are those of its blocks; `depth` counts nested graphs from 1 -/
  depth : Nat
  origin : Origin
  record : Nat
  nodes : List GNode
  states : List NodeState
  deriving DecidableEq, Repr

/-- A landing queue that its engine serves (R212 to R214): the descriptor's virtual and physical address, the fields read
at enabling, the engine's own read index, and the packet read from the slot at it. -/
structure Queue where
  va : Nat
  pa : Nat
  ctx : Nat
  base : Nat
  slots : Nat
  read : Nat
  stalled : Bool
  faulted : Bool
  packet : Option (List Byte)
  deriving DecidableEq, Repr

/-- An accepted COPY or COPY_REDUCE (R217, R225, R409): its queue's descriptor and index, or the graph node it carries out,
its chunks not performed, and the chunks that await a peer's reply under a tag. -/
structure Packet where
  die : Nat
  queue : Option (Nat × Nat)
  node : Origin
  ctx : Nat
  reduce : Option Nat
  src : Nat
  dst : Nat
  len : Nat
  /-- virtual and physical address of its barrier; 0 for none -/
  barrier : Nat × Nat
  peer : Option Nat
  left : List Nat
  sent : List (Nat × Nat)
  failed : Bool
  deriving DecidableEq, Repr

/-- A queued orchard fill (R402 to R404). -/
structure Fill where
  die : Nat
  key : Word
  counter : Word
  buffer : Nat
  length : Nat
  format : Nat
  ctx : Nat
  threshold : Nat
  /-- virtual and physical address of its barrier; 0 for none -/
  barrier : Nat × Nat
  left : List Nat
  deriving DecidableEq, Repr

/-- A device message on its way in (R407): its port, 16 for the management port; the UET job identifier, or the connection
of the management port; the identity that a retransmission repeats; whether its service is ROD; its bytes. -/
structure Msg where
  port : Nat
  job : Nat
  uet : Nat
  rod : Bool
  bytes : List Byte
  deriving DecidableEq, Repr

/-- What the ROM finds at power good: its own digest; Strelino's image with the public key and the signature that come with it (R415);
and the fuses, which it reads where they have not been read before: the digest of the public key, and of each core that differs from the
rest the slot-to-engine map, RETA and RETB (R261, R347, R421; log 5). -/
structure PowerOn where
  rom : BitVec 256
  image : List Byte
  key : List Byte
  signature : List Byte
  keyHash : BitVec 256
  fuses : List (Nat × BitVec 8 × BitVec 6)
  deriving DecidableEq, Repr

/-- What reaches the package from outside, in the order of arrival (log 4). -/
inductive Input where
  /-- power good (R413, R415) -/
  | powerGood (p : PowerOn)
  | powerLoss
  /-- a DRAM layer of a die finishes training (R413) -/
  | layer (die layer : Nat)
  /-- Strelino loads a firmware configuration, with its digest and the beat plans of dies that it holds (R276, R415), or withdraws a core
  whose two engines of one kind have failed (R347) -/
  | configure (digest : BitVec 256) (plans : List (Nat × Word))
  | withdraw (core : Nat)
  /-- the DRAM temperature of a die enters a band: 0 normal, 1 high, 2 throttle, 3 trip (R420) -/
  | band (die band : Nat)
  | message (m : Msg)
  /-- a TCP connection on the management port, and whether it authenticates; its end (R412) -/
  | connect (id : Nat) (ok : Bool)
  | close (id : Nat)
  /-- an uncorrectable error in a structure of R392, numbered as there; `at_` is the core, cluster or die, and `addr` the
  address of the unit in its space, or for a register 2^24 · kind + 2^12 · number + unit, with kinds 0 scalar, 1 predicate,
  2 lane mask, 3 vector, 4 tile; beside the structures of R392, 8 is the snapshot buffer, 9 the journal and 10 the segment store buffer,
  with `addr` 2^12 · entry + unit (log 56) -/
  | ecc (structure_ at_ addr : Nat)
  | corrected (die : Nat)
  /-- a transient fault of the engines of a core: in the V1 result of a D-pair in flight (R378), or in the residues of position
  `cell` of accumulator set 0 or 1 or of the drain stage (R257): the bits of `flips` are wrong there (log 59) -/
  | twinFault (core flight : Nat) (flips : Vec)
  | residueFault (core set_ cell : Nat) (flips : BitVec 48)
  /-- an uncorrectable dirty L2 line at its eviction (R389) -/
  | dirtyLine (addr : Nat)
  /-- the debugger stops a core, steps it, runs it on, hands its stop on to the handler (R359), or places it in debug mode or
  takes it out (R349, R368) -/
  | debugStop (core : Nat) | debugStep (core : Nat) | debugRun (core : Nat) | debugHand (core : Nat)
  | debugMode (core : Nat) (on : Bool)
  /-- the 10 ms reconciliation, with the hub time, the energy measured on the rails in microjoules and the estimate of idle time (R418,
  R419) -/
  | reconcile (time rails idle : Nat)
  /-- the loader registers a kernel of an executable with that digest (R364), and system software extends the measurement words M4 to M7
  (R415) -/
  | kernel (k : Kernel) (digest : BitVec 256)
  | extend (j : Nat) (digest : BitVec 256)
  deriving DecidableEq, Repr

/-- The scale tickets of a context (R417): the counters, and what the last reconciliation made readable. -/
structure Tickets where
  live : SMap Nat
  shown : SMap Nat
  deriving DecidableEq, Repr

/-- A peer-table entry (R409). -/
structure Peer where
  fabric : Nat
  job : Nat
  ctx : Nat
  deriving DecidableEq, Repr

/-- A message or reply sent: its port; the fabric address of the peer device that it goes to, none for a reply, which goes back to its
requester; its job or connection; its bytes (R407, R409). -/
structure Sent where
  port : Nat
  peer : Option Nat
  job : Nat
  bytes : List Byte
  deriving DecidableEq, Repr

/-- Strelino and the hub (R405 to R421). -/
structure Hub where
  /-- the bring-up stage reached, 0 without power (R413), and a failed verification -/
  stage : Nat
  halted : Bool
  /-- the fuses have been read, and the digest of the public key that they hold (R415, R421) -/
  fused : Bool
  keyHash : BitVec 256
  /-- the measurement words (R415) and the attestation state counter (R416) -/
  measures : List (BitVec 256)
  counter : Nat
  /-- UET job identifiers bound to contexts (R406), the peer tables by 256 · context + index (R409) -/
  jobs : SMap Nat
  peers : SMap Peer
  /-- open management connections (R412) -/
  conns : List Nat
  /-- replies recorded for retransmissions of atomic adds, by job and message (R408) -/
  recorded : List ((Nat × Nat) × List Byte)
  /-- messages and replies sent, latest last (R407, R409) -/
  sent : List Sent
  /-- the next tag of a chunk message -/
  tag : Nat
  kernels : List Kernel
  tickets : SMap Tickets
  time : Nat
  /-- pages to quarantine (R389) -/
  bad : List Nat
  /-- queues reported stalled or faulted to Strelino (R214) -/
  reports : List Nat
  deriving DecidableEq, Repr

/-- The whole package. -/
structure State where
  /-- whose turn it is, how many steps have been taken, and the counter of free values (log 1) -/
  turn : Turn
  tick : Nat
  free : Nat
  cores : SMap Core
  /-- main memory as its home L2s and DRAM hold it: 44-bit physical space (R15) -/
  home : Mem
  /-- the owning core plus one of each word held with an owner at its home L2 (R200) -/
  owner : SMap Nat
  /-- dirty lines of the L2s, with the context of the last writer and its core, where a core wrote it (R389) -/
  dirty : SMap (Nat × Option Nat)
  /-- loft bytes of die d at 2^26 · d, cluster-memory bytes of cluster c at 2^23 · c (R158) -/
  loft : Mem
  cmem : Mem
  /-- the outbound queue of each die (R188) -/
  outq : List (Nat × OutEntry)
  dies : SMap Die
  contexts : SMap CtxInfo
  /-- the error records Strelino has received (R391) -/
  records : List ErrRec
  clusterTlb : SMap (List TlbEntry)
  /-- what has reached the package from outside and not been taken (log 4) -/
  inbox : List Input
  hub : Hub
  /-- accepted launches in the order of acceptance, graphs held by walkers, and the next number of either -/
  launches : List Launch
  graphs : List GraphRun
  nextId : Nat
  /-- landing queues, packets in flight, orchard fills -/
  queues : List Queue
  packets : List Packet
  fills : List Fill
  /-- clusters whose clock runs at 940 MHz (R414, R420) -/
  fast : List Nat
  /-- for each cluster and effective priority, one more than the number of the launch that took a free core last: the turn among equals
  (R325) -/
  served : SMap Nat
  /-- for each context record written, by context and address: the held state it came from, for what the record's layout has
  no place for (log 17) -/
  saved : List (Nat × Word × Held)
  deriving DecidableEq, Repr

/-- The status words at unit start and at reset (R85, R362, R141, R234, R349, R394). LANEMAP holds no retired lane
(PRESUMED, log 5). -/
def StatusWords.reset : StatusWords :=
  { gangPos := 0, ctxId := 0, priv := 0, rot := 0, lc := 0, depth := 0, repc := 0, stepS := 0, stepV0 := 0, stepV1 := 0,
    stepC0 := 0, stepC1 := 0, mcfg := 1#64, kcount0 := 0, kcount1 := 0, respol := 0, lanemap := 0x3F#64,
    vcfg0 := 0xD9000000#64, vcfg1 := 0xD9000000#64, beatBase := 0, beatNow := 0, checkctl := 0x4000#64,
    trapCause := 0xF00000000#64, trapPc := 0, faultAddr := 0, faultInfo := 0, trapVec := 0, quantum := 0x100000#64,
    phaseCnt := 0, segState := 0, errLog := 0, determ := 0x60040300000#64 }

/-- An accumulator set with every position zero. -/
def ASet.zero : ASet := { zneg := false, cells := [] }

/-- The matrix array at unit start: everything zero, every row of the drain stage drained (R85). -/
def MArray.reset : MArray :=
  { latchA := [], latchB := [], set0 := ASet.zero, set1 := ASet.zero, drain := ASet.zero, drainCount := 0,
    drained := BitVec.allOnes 128 }

/-- A LOOKUP that has not begun. -/
def KvWalk.zero : KvWalk :=
  { pool := none, seq := 0, layer := 0, head := 0, lb := 0, reads := 0, entry := 0, chain := 0, pois := false, pos := 0,
    heads := 0, blocks := 0, found := none, flips := 0, other := 0 }

/-- An empty byte store. -/
def Mem.empty : Mem := { bytes := [], poison := [] }

/-- Core `n` right after reset: every register at its unit-start value (R85; DESIGN CHOICE at power-on, log 2), no unit
placed, not split (DESIGN CHOICE, log 5). -/
def Core.reset (n : Nat) : Core :=
  { id := n, engmap := 0x44#8, lanefuse := 0x3F#6, withdrawn := false, s := [], p := [], m := [], v := [], t := [], ring := [], b := [], k := [],
    sw := StatusWords.reset, flumes := [], latch := [], arr := MArray.reset, pops := [], pc := 0, time := 0, next := 0,
    running := false, issue := none, charged := false, rvDone := false, skipNext := false, padDone := false, noOpen := false, supSeg := false, rewound := false,
    entering := none, supFrom := 0, wants := [], drains := false, padStores := [], xfer := none, flights := [], timed := [], c0free := 0, slip := none, cap := [], capTree := none,
    fetch := [], hold := .none, async := [], supAsync := [], held := none, seg := { journal := [], lines := [], held := [], opened := 0 },
    phase := { running := false, stopped := false, expected := 0, table := 0, index := 0 }, l1 := [], sb := [],
    loads := [], fences := [], claim := none, engines := [], seq := 0, tlb := [], inval := [], scratch := Mem.empty,
    slices := Mem.empty, unit := none, debugStop := false, debugStep := false, lastLaunch := none, job := none,
    failed := none, waiting := none }

/-- A die right after reset (R273, R276): beat 0, not yet running; the temperature band normal and the correction
counter 0 (DESIGN CHOICE, log 2). -/
def Die.reset : Die :=
  { beat := 0, opened := false, pairs := 0, plan := 0x1000200004000200#64, layers := 0, band := 0, corrections := 0,
    accesses := [], cmds := [], units := [], cellar := [] }

/-- The hub without power: every measurement word zero (R415); the attestation counter 0 (DESIGN CHOICE, log 6). -/
def Hub.reset : Hub :=
  { stage := 0, halted := false, fused := false, keyHash := 0, measures := List.replicate 8 0#256, counter := 0, jobs := [], peers := [], conns := [],
    recorded := [], sent := [], tag := 0, kernels := [], tickets := [], time := 0, bad := [], reports := [] }

/-- The machine right after reset, before power is good: nothing is placed, no memory is listed. -/
def State.reset : State :=
  { turn := { agent := .hub, pick := 0 }, tick := 0, free := 0, cores := [], home := Mem.empty, owner := [], dirty := [],
    loft := Mem.empty, cmem := Mem.empty, outq := [], dies := [],
    contexts := [], records := [], clusterTlb := [], inbox := [], hub := Hub.reset, launches := [], graphs := [],
    nextId := 0, queues := [], packets := [], fills := [], fast := [], served := [], saved := [] }

end Sys2Proof.Machine
end

