-- ==== Sys2Proof/Machine/Maps.lean ====
section
/-! DEFINITION. Reading and writing finite maps and byte stores. -/

namespace Sys2Proof.Machine

/-- The entry of key `k`, or `d` where none is listed. -/
def SMap.get {α : Type} (m : SMap α) (k : Nat) (d : α) : α :=
  match m with
  | [] => d
  | (k', v) :: r => if k' = k then v else SMap.get r k d

/-- `m` with `v` at key `k`, in its place by key. -/
def SMap.put {α : Type} (m : SMap α) (k : Nat) (v : α) : SMap α :=
  match m with
  | [] => [(k, v)]
  | (k', v') :: r =>
    if k' < k then (k', v') :: SMap.put r k v
    else if k' = k then (k, v) :: r
    else (k, v) :: (k', v') :: r

/-- `m` without the key `k`. -/
def SMap.del {α : Type} (m : SMap α) (k : Nat) : SMap α := m.filter (fun e => e.1 != k)

/-- `m` with `v` at key `k`; an entry equal to the default `d` is not listed. -/
def SMap.set {α : Type} [DecidableEq α] (m : SMap α) (k : Nat) (v d : α) : SMap α :=
  if v = d then SMap.del m k else SMap.put m k v

/-- The canonical form: keys strictly rising and no entry equal to the default. -/
def SMap.wf {α : Type} [DecidableEq α] (m : SMap α) (d : α) : Bool :=
  decide (m.Pairwise (fun a b => a.1 < b.1)) && m.all (fun e => decide (e.2 ≠ d))

/-- The byte at address `a`. -/
def Mem.byte (m : Mem) (a : Nat) : Byte := SMap.get m.bytes a 0#8

/-- The poison bit of word `w` (addresses 4w to 4w + 3). -/
def Mem.pois (m : Mem) (w : Nat) : Bool := SMap.get m.poison w false

/-- `m` with byte `b` at address `a`. -/
def Mem.setByte (m : Mem) (a : Nat) (b : Byte) : Mem := { m with bytes := SMap.set m.bytes a b 0#8 }

/-- `m` with poison `p` on word `w`. -/
def Mem.setPois (m : Mem) (w : Nat) (p : Bool) : Mem := { m with poison := SMap.set m.poison w p false }

/-- Canonical form of both maps. -/
def Mem.wf (m : Mem) : Bool := SMap.wf m.bytes 0#8 && SMap.wf m.poison false

/-- Every byte of the list written in order. -/
def Mem.setBytes (m : Mem) (bs : List (Nat × Byte)) : Mem := bs.foldl (fun m e => m.setByte e.1 e.2) m

/-- The word poison a store leaves (R374): that of the data where the whole word is written, joined with what stood
there where part of it is. -/
def Mem.setWords (m : Mem) (ws : List (Nat × Bool × Bool)) : Mem :=
  ws.foldl (fun m e => m.setPois e.1 (if e.2.2 then e.2.1 else e.2.1 || m.pois e.1)) m

/-- A store: its bytes and the poison of the words it touches. -/
def Mem.store (m : Mem) (bs : List (Nat × Byte)) (ws : List (Nat × Bool × Bool)) : Mem := (m.setBytes bs).setWords ws

/-- The number held little-endian in the `n` bytes from `a` (R3). -/
def Mem.num (m : Mem) (a n : Nat) : Nat :=
  match n with
  | 0 => 0
  | n + 1 => (m.byte a).toNat + 256 * m.num (a + 1) n

/-- Some word that the `n` bytes from `a` touch carries poison. -/
def Mem.anyPois (m : Mem) (a n : Nat) : Bool :=
  (List.range ((a + n + 3) / 4 - a / 4)).any (fun i => m.pois (a / 4 + i))

/-- The `n` bytes of the number `v`, little-endian, from address `a`. -/
def bytesOf (v a n : Nat) : List (Nat × Byte) :=
  match n with
  | 0 => []
  | n + 1 => (a, BitVec.ofNat 8 v) :: bytesOf (v / 256) (a + 1) n

/-- The words that a store of bytes touches, given each byte's address and poison: the poison of each word's data and
whether the whole word is written. -/
def wordsOfBytes (l : List (Nat × Bool)) : List (Nat × Bool × Bool) :=
  ((l.map (fun e => e.1 / 4)).eraseDups).map (fun w =>
    (w, l.any (fun e => e.1 / 4 == w && e.2), decide (4 ≤ (l.filter (fun e => e.1 / 4 == w)).length)))

/-- The words that a store of the `n` bytes from `a` with data poison `p` touches. -/
def wordsOf (a n : Nat) (p : Bool) : List (Nat × Bool × Bool) := wordsOfBytes ((List.range n).map (fun i => (a + i, p)))

/-- The first element of a list that passes, with the rest in order. -/
def takeFirst {α : Type} (p : α → Bool) (l : List α) : Option (α × List α) :=
  match l with
  | [] => none
  | x :: r => if p x then some (x, r) else (takeFirst p r).map (fun e => (e.1, x :: e.2))

end Sys2Proof.Machine
end

