-- ==== Sys2Proof/Machine/Flags.lean ====
section
/-! DEFINITION. Bit fields of words, the status words of R88 by index, and which of their bits a program may write. -/

namespace Sys2Proof.Machine

/-- The `n` bits of `w` from bit `lo`, as a number. -/
def fieldGet {k : Nat} (w : BitVec k) (lo n : Nat) : Nat := w.toNat / 2 ^ lo % 2 ^ n

/-- `w` with its `n` bits from bit `lo` replaced by `v`. -/
def fieldPut {k : Nat} (w : BitVec k) (lo n v : Nat) : BitVec k :=
  (w &&& ~~~ (BitVec.ofNat k ((2 ^ n - 1) * 2 ^ lo))) ||| BitVec.ofNat k (v % 2 ^ n * 2 ^ lo)

/-- The signed value of the low `n` bits of `v` (SX, R5). -/
def sx (v n : Nat) : Int := let u := v % 2 ^ n; if u < 2 ^ (n - 1) then (u : Int) else (u : Int) - 2 ^ n

/-- WRAP to `n` bits (R5): the residue of an integer. -/
def wrap (x : Int) (n : Nat) : Nat := (x % (2 ^ n : Int)).toNat

/-- SAT (R5): `x` limited to `lo` up to `hi`. -/
def satI (x lo hi : Int) : Int := if x < lo then lo else if hi < x then hi else x

/-- A 16-bit count in a field that saturates at 0xFFFF, raised by `n` (R141, R259). -/
def satAdd16 (w : Word) (lo n : Nat) : Word := fieldPut w lo 16 (min 0xFFFF (fieldGet w lo 16 + n))

/-- The rotation bases of ROT (R78). -/
def rotS (rot : Word) : Nat := fieldGet rot 0 5
/-- PRB of R78. -/
def rotP (rot : Word) : Nat := fieldGet rot 5 5
/-- VRB of R78. -/
def rotV (rot : Word) : Nat := fieldGet rot 10 8
/-- BRB of R78. -/
def rotB (rot : Word) : Nat := fieldGet rot 18 4

/-- ROTATE(mask) of R129: each selected base one lower, modulo its part's size. -/
def rotate (rot : Word) (mask : BitVec 4) : Word :=
  let r := if mask.getLsbD 0 then fieldPut rot 0 5 (rotS rot + 31) else rot
  let r := if mask.getLsbD 1 then fieldPut r 5 5 (rotP rot + 31) else r
  let r := if mask.getLsbD 2 then fieldPut r 10 8 (rotV rot + 255) else r
  if mask.getLsbD 3 then fieldPut r 18 4 (rotB rot + 15) else r

/-- Each selected base cleared (B.ROTCLR, R131). -/
def rotClear (rot : Word) (mask : BitVec 4) : Word :=
  let r := if mask.getLsbD 0 then fieldPut rot 0 5 0 else rot
  let r := if mask.getLsbD 1 then fieldPut r 5 5 0 else r
  let r := if mask.getLsbD 2 then fieldPut r 10 8 0 else r
  if mask.getLsbD 3 then fieldPut r 18 4 0 else r

/-- Physical register of a logical one in a rotating part (R76). -/
def physOf (n first size base : Nat) : Nat :=
  if first ≤ n ∧ n < first + size then first + (n - first + base) % size else n

/-- The stored status words by index (R88); a base register or an index without a stored word reads as 0 here. -/
def StatusWords.get (w : StatusWords) (i : Nat) : Word :=
  match i with
  | 0x001 => w.gangPos | 0x002 => w.ctxId | 0x003 => w.priv
  | 0x008 => w.rot | 0x009 => w.lc | 0x00A => w.depth | 0x00B => w.repc
  | 0x010 => w.stepS | 0x011 => w.stepV0 | 0x012 => w.stepV1 | 0x013 => w.stepC0 | 0x014 => w.stepC1
  | 0x020 => w.mcfg | 0x021 => w.kcount0 | 0x022 => w.kcount1 | 0x023 => w.respol | 0x024 => w.lanemap
  | 0x028 => w.vcfg0 | 0x029 => w.vcfg1 | 0x030 => w.beatBase | 0x031 => w.beatNow
  | 0x038 => w.checkctl | 0x040 => w.trapCause | 0x041 => w.trapPc | 0x042 => w.faultAddr | 0x043 => w.faultInfo
  | 0x044 => w.trapVec | 0x045 => w.quantum | 0x046 => w.phaseCnt | 0x047 => w.segState | 0x048 => w.errLog
  | 0x049 => w.determ
  | _ => 0

/-- The stored status words with one of them replaced. -/
def StatusWords.put (w : StatusWords) (i : Nat) (v : Word) : StatusWords :=
  match i with
  | 0x001 => { w with gangPos := v } | 0x002 => { w with ctxId := v } | 0x003 => { w with priv := v }
  | 0x008 => { w with rot := v } | 0x009 => { w with lc := v } | 0x00A => { w with depth := v }
  | 0x00B => { w with repc := v } | 0x010 => { w with stepS := v } | 0x011 => { w with stepV0 := v }
  | 0x012 => { w with stepV1 := v } | 0x013 => { w with stepC0 := v } | 0x014 => { w with stepC1 := v }
  | 0x020 => { w with mcfg := v } | 0x021 => { w with kcount0 := v } | 0x022 => { w with kcount1 := v }
  | 0x023 => { w with respol := v } | 0x024 => { w with lanemap := v } | 0x028 => { w with vcfg0 := v }
  | 0x029 => { w with vcfg1 := v } | 0x030 => { w with beatBase := v } | 0x031 => { w with beatNow := v }
  | 0x038 => { w with checkctl := v } | 0x040 => { w with trapCause := v } | 0x041 => { w with trapPc := v }
  | 0x042 => { w with faultAddr := v } | 0x043 => { w with faultInfo := v } | 0x044 => { w with trapVec := v }
  | 0x045 => { w with quantum := v } | 0x046 => { w with phaseCnt := v } | 0x047 => { w with segState := v }
  | 0x048 => { w with errLog := v } | 0x049 => { w with determ := v }
  | _ => w

/-- The bits of a status word that S.WSW writes: its RW fields (R91; R132, R78, R166, R259, R261, R141, R280, R349, R362,
R323). HZ of CHECKCTL is writable only while DBG is 1 (R349). -/
def rwMask (i : Nat) (checkctl : Word) : Word :=
  match i with
  | 0x008 => 0x3FFFFF#64
  | 0x009 => BitVec.allOnes 64
  | 0x00A => 0xFFFF#64
  | 0x010 => 0xFFFFFFFF#64 | 0x011 => 0xFFFFFFFF#64 | 0x012 => 0xFFFFFFFF#64
  | 0x013 => 0xF8FFFFFFFF#64 | 0x014 => 0xF8FFFFFFFF#64
  | 0x023 => 0xFFFFFFFF0001#64
  | 0x024 => 0x3F#64
  | 0x028 => 0xFFFFFFC0FF01#64 | 0x029 => 0xFFFFFFC0FF01#64
  | 0x030 => 0xFFFFFFFFFFFF#64
  | 0x038 => if checkctl.getLsbD 8 then 0x7#64 else 0x3#64
  | 0x044 => 0xFFFFFFFFFFC0#64
  | 0x045 => 0xFFFFFFFF#64
  | _ => 0#64

/-- A program write of `v` to status word `i` whose value was `old` (R91). -/
def rwWrite (i : Nat) (checkctl old v : Word) : Word :=
  (old &&& ~~~ (rwMask i checkctl)) ||| (v &&& rwMask i checkctl)

/-- The status words and fields marked /S in R88, which user mode may not name (R4, R91). -/
def supervisorOnly (i : Nat) : Bool :=
  match i with
  | 0x024 => true | 0x038 => true | 0x040 => true | 0x041 => true | 0x042 => true | 0x043 => true | 0x044 => true
  | 0x045 => true | 0x048 => true
  | _ => false

/-- The status words marked "context" in R88. -/
def contextWord (i : Nat) : Bool :=
  match i with
  | 0x000 => false | 0x024 => false | 0x032 => false | 0x044 => false | 0x045 => false | 0x048 => false
  | _ => true

/-- The bits of a context status word that its table names; the others are reserved and read as zero (R4). -/
def fieldMask (i : Nat) : Word :=
  match i with
  | 0x001 => 0xFFFF00#64 | 0x002 => 0x7FFFF#64 | 0x003 => 0xFFFF0007#64 | 0x008 => 0x3FFFFF#64 | 0x00A => 0xFFFF#64
  | 0x00B => 0xFF#64 | 0x010 => 0xFFFFFFFF#64 | 0x011 => 0xFFFFFFFF#64 | 0x012 => 0xFFFFFFFF#64
  | 0x013 => 0xF8FFFFFFFF#64 | 0x014 => 0xF8FFFFFFFF#64 | 0x020 => 0xFF3FFFFFFFF1FF01#64 | 0x023 => 0xFFFFFFFF0001#64
  | 0x028 => 0xFFFFFFC0FF01#64 | 0x029 => 0xFFFFFFC0FF01#64 | 0x030 => 0xFFFFFFFFFFFF#64 | 0x031 => 0x8000FFFFFFFFFFFF#64
  | 0x038 => 0xF107#64 | 0x040 => 0xFF0F8000FFFF#64 | 0x041 => 0xFFFFFFFFFFFF#64 | 0x046 => 0xF000FFFFFFFFFFFF#64
  | 0x049 => 0xFFFFFFFF0003#64
  | _ => BitVec.allOnes 64

/-- LC decremented (R127, R129). -/
def lcDec (lc : Word) : Word := lc - 1#64

/-- STAGES of DEPTH (R132). -/
def stagesOf (d : Word) : Nat := fieldGet d 0 8
/-- TAIL of DEPTH (R132). -/
def tailOf (d : Word) : Nat := fieldGet d 8 8
/-- DEPTH with the given TAIL and STAGES. -/
def depthOf (tail stages : Nat) : Word := BitVec.ofNat 64 (tail % 256 * 256 + stages % 256)

/-- An R79 code's element width in bits; 0 for BITS, RS and KV, whose registers have other element rules. -/
def tagWidth (t : Nat) : Nat :=
  match t with
  | 1 => 4 | 2 => 4 | 3 => 8 | 4 => 16 | 5 => 32 | 6 => 8 | 7 => 16 | 8 => 32 | 9 => 8 | 10 => 8 | 11 => 16 | 12 => 16
  | 13 => 32 | 14 => 64
  | _ => 0

end Sys2Proof.Machine
end

