-- ==== Sys2Proof/Machine/Numbers.lean ====
section
/-! DEFINITION. Number formats, rounding, conversion and the exact arithmetic behind the vector operations
(R95 to R110, R115, R145). -/

namespace Sys2Proof.Machine

/-! ## Tags (R79) -/

/-- Code of the format tag BITS. -/
abbrev tBITS : Nat := 0
/-- Code of I4. -/
abbrev tI4 : Nat := 1
/-- Code of X4. -/
abbrev tX4 : Nat := 2
/-- Code of I8. -/
abbrev tI8 : Nat := 3
/-- Code of I16. -/
abbrev tI16 : Nat := 4
/-- Code of I32. -/
abbrev tI32 : Nat := 5
/-- Code of Z8. -/
abbrev tZ8 : Nat := 6
/-- Code of Z16. -/
abbrev tZ16 : Nat := 7
/-- Code of Z32. -/
abbrev tZ32 : Nat := 8
/-- Code of E4 (FP8A). -/
abbrev tE4 : Nat := 9
/-- Code of E5 (FP8B). -/
abbrev tE5 : Nat := 10
/-- Code of F16. -/
abbrev tF16 : Nat := 11
/-- Code of B16. -/
abbrev tB16 : Nat := 12
/-- Code of F32. -/
abbrev tF32 : Nat := 13
/-- Code of RS. -/
abbrev tRS : Nat := 14
/-- Code of KV. -/
abbrev tKV : Nat := 15

/-! ## Elements (R95) -/

/-- Element `j` of width `w` of a register. -/
def elem {k : Nat} (v : BitVec k) (w j : Nat) : Nat := v.toNat / 2 ^ (w * j) % 2 ^ w

/-- The number whose elements of width `w` are those of the list, element 0 first. -/
def ofElems (w : Nat) (l : List Nat) : Nat := l.foldr (fun x acc => x % 2 ^ w + 2 ^ w * acc) 0

/-- All elements of width `w` of a vector register. -/
def elems (v : Vec) (w : Nat) : List Nat := (List.range (1024 / w)).map (elem v w)

/-- A vector register from its elements of width `w`. -/
def vecOf (w : Nat) (l : List Nat) : Vec := BitVec.ofNat 1024 (ofElems w l)

/-- Poison bits by lane from a test. -/
def lanesOf (p : Nat → Bool) : BitVec 32 :=
  BitVec.ofNat 32 (ofElems 1 ((List.range 32).map (fun j => if p j then 1 else 0)))

/-! ## Floating-point values -/

/-- A value under VAL (R100): `fin neg m e` is m · 2^e with its sign, zero included. -/
inductive FNum where
  | nan | inf (neg : Bool) | fin (neg : Bool) (m : Nat) (e : Int)
  deriving DecidableEq, Repr

/-- Widths of the exponent and fraction fields of a floating-point format (R100). -/
structure Fmt where
  e : Nat
  f : Nat
  /-- FP8A has no infinity and one NaN code, and saturates -/
  a8 : Bool
  deriving DecidableEq, Repr

/-- FP8A of R100. -/
def fpE4 : Fmt := { e := 4, f := 3, a8 := true }
/-- FP8B of R100. -/
def fpE5 : Fmt := { e := 5, f := 2, a8 := false }
/-- FP16 of R100. -/
def fpF16 : Fmt := { e := 5, f := 10, a8 := false }
/-- BF16 of R100. -/
def fpB16 : Fmt := { e := 8, f := 7, a8 := false }
/-- FP32 of R100. -/
def fpF32 : Fmt := { e := 8, f := 23, a8 := false }

/-- The exponent bias of a format. -/
def Fmt.bias (t : Fmt) : Nat := 2 ^ (t.e - 1) - 1
/-- EMIN of a format. -/
def Fmt.emin (t : Fmt) : Int := 1 - (t.bias : Int)
/-- P, the precision of a format. -/
def Fmt.prec (t : Fmt) : Nat := t.f + 1
/-- The encoding of MAX, without its sign. -/
def Fmt.maxCode (t : Fmt) : Nat := if t.a8 then 0x7E else (2 ^ t.e - 1) * 2 ^ t.f - 1
/-- The encoding of +Inf; FP8A has none and gives MAX. -/
def Fmt.infCode (t : Fmt) : Nat := if t.a8 then 0x7E else (2 ^ t.e - 1) * 2 ^ t.f
/-- CANON (R101, R102). -/
def Fmt.canon (t : Fmt) : Nat := if t.a8 then 0x7F else t.infCode + 2 ^ (t.f - 1)
/-- The sign bit's weight. -/
def Fmt.signBit (t : Fmt) : Nat := 2 ^ (t.e + t.f)

/-- VAL (R100). -/
def fval (t : Fmt) (b : Nat) : FNum :=
  let s := decide (b / t.signBit % 2 = 1)
  let ex := b / 2 ^ t.f % 2 ^ t.e
  let fr := b % 2 ^ t.f
  if t.a8 ∧ ex = 2 ^ t.e - 1 ∧ fr = 2 ^ t.f - 1 then .nan
  else if ¬ t.a8 ∧ ex = 2 ^ t.e - 1 then (if fr = 0 then .inf s else .nan)
  else if ex = 0 then .fin s fr (t.emin - t.f)
  else .fin s (2 ^ t.f + fr) ((ex : Int) - t.bias - t.f)

/-- The number of bits of `n`. -/
def bitLen (n : Nat) : Nat := if n = 0 then 0 else Nat.log2 n + 1

/-- The integer of `m / 2^k` under a rounding mode (R105): `sticky` says that the exact value lies above `m / 2^k` by
less than one unit of `m`. -/
def roundShift (m k : Nat) (sticky neg : Bool) (mode : Nat) : Nat :=
  let q := m / 2 ^ k
  let r := m % 2 ^ k
  let inexact := decide (r ≠ 0) || sticky
  let up : Bool :=
    match mode with
    | 0 => if k = 0 then false
      else decide (2 ^ (k - 1) < r) || (decide (r = 2 ^ (k - 1)) && (sticky || decide (q % 2 = 1)))
    | 1 => false
    | 2 => inexact && neg
    | _ => inexact && !neg
  if up then q + 1 else q

/-- OVF (R107), with its sign. -/
def ovf (t : Fmt) (neg : Bool) (mode : Nat) : Nat :=
  let big : Nat :=
    match mode with
    | 0 => t.infCode
    | 1 => t.maxCode
    | 2 => if neg then t.infCode else t.maxCode
    | _ => if neg then t.maxCode else t.infCode
  (if neg then t.signBit else 0) + big

/-- ROUND (R106) of ±m · 2^e: the encoding. `sticky` marks an exact value just above m · 2^e in size; then `m` has more
bits than the format keeps. -/
def fround (t : Fmt) (mode : Nat) (neg : Bool) (m : Nat) (e : Int) (sticky : Bool) : Nat :=
  let s := if neg then t.signBit else 0
  if m = 0 then s
  else
    let ex := max ((bitLen m : Int) - 1 + e) t.emin
    let qe := ex - t.prec + 1
    let n := if qe ≤ e then m * 2 ^ (e - qe).toNat else roundShift m (qe - e).toNat sticky neg mode
    let code := ((ex - t.emin).toNat) * 2 ^ t.f + n
    if t.maxCode < code then ovf t neg mode else s + code

/-- ROUND of a value: the special values of R107 and R110. -/
def froundNum (t : Fmt) (mode : Nat) (x : FNum) : Nat :=
  match x with
  | .nan => t.canon
  | .inf s => (if s then t.signBit else 0) + t.infCode
  | .fin s m e => fround t mode s m e false

/-- The sign flipped, zero included (R144). -/
def FNum.neg (x : FNum) : FNum :=
  match x with
  | .nan => .nan
  | .inf s => .inf (!s)
  | .fin s m e => .fin (!s) m e

/-- The signed integer m · 2^(e - lo) of a finite value. -/
def scaled (neg : Bool) (m : Nat) (e lo : Int) : Int :=
  let k : Int := (m * 2 ^ (e - lo).toNat : Nat)
  if neg then -k else k

/-- The exact sum of two finite values with the sign of a zero sum (R109). -/
def exactAdd (mode : Nat) (s1 : Bool) (m1 : Nat) (e1 : Int) (s2 : Bool) (m2 : Nat) (e2 : Int) : FNum :=
  let lo := min e1 e2
  let x := scaled s1 m1 e1 lo + scaled s2 m2 e2 lo
  if x = 0 then
    .fin (if m1 = 0 ∧ m2 = 0 ∧ s1 = s2 then s1 else decide (mode = 2)) 0 lo
  else .fin (decide (x < 0)) x.natAbs lo

/-- The exact sum of two values (R108). -/
def FNum.add (mode : Nat) (a b : FNum) : FNum :=
  match a, b with
  | .nan, _ => .nan
  | _, .nan => .nan
  | .inf s, .inf r => if s = r then .inf s else .nan
  | .inf s, .fin _ _ _ => .inf s
  | .fin _ _ _, .inf s => .inf s
  | .fin s1 m1 e1, .fin s2 m2 e2 => exactAdd mode s1 m1 e1 s2 m2 e2

/-- The exact product of two values (R108, R109). -/
def FNum.mul (a b : FNum) : FNum :=
  match a, b with
  | .nan, _ => .nan
  | _, .nan => .nan
  | .inf s, .inf r => .inf (s != r)
  | .inf s, .fin r m _ => if m = 0 then .nan else .inf (s != r)
  | .fin r m _, .inf s => if m = 0 then .nan else .inf (s != r)
  | .fin s1 m1 e1, .fin s2 m2 e2 => .fin (s1 != s2) (m1 * m2) (e1 + e2)

/-- FADD (R108). -/
def fadd (t : Fmt) (mode : Nat) (a b : FNum) : Nat := froundNum t mode (a.add mode b)
/-- FMUL (R108). -/
def fmul (t : Fmt) (mode : Nat) (a b : FNum) : Nat := froundNum t mode (a.mul b)
/-- FFMA (R108). -/
def ffma (t : Fmt) (mode : Nat) (a b c : FNum) : Nat :=
  match c with
  | .nan => t.canon
  | _ => froundNum t mode ((a.mul b).add mode c)

/-- a < b for two values that are not NaN; +0 equals -0. -/
def FNum.lt (a b : FNum) : Bool :=
  match a, b with
  | .nan, _ => false
  | _, .nan => false
  | .inf s, .inf r => s && !r
  | .inf s, .fin _ _ _ => s
  | .fin _ _ _, .inf s => !s
  | .fin s1 m1 e1, .fin s2 m2 e2 =>
    let lo := min e1 e2
    decide (scaled s1 m1 e1 lo < scaled s2 m2 e2 lo)

/-- a = b for two values that are not NaN; +0 equals -0. -/
def FNum.eqv (a b : FNum) : Bool :=
  match a, b with
  | .nan, _ => false
  | _, .nan => false
  | .inf s, .inf r => s == r
  | .inf _, .fin _ _ _ => false
  | .fin _ _ _, .inf _ => false
  | .fin s1 m1 e1, .fin s2 m2 e2 =>
    let lo := min e1 e2
    decide (scaled s1 m1 e1 lo = scaled s2 m2 e2 lo)

/-- The sign of a value. -/
def FNum.isNeg (a : FNum) : Bool :=
  match a with
  | .nan => false
  | .inf s => s
  | .fin s _ _ => s

/-- FMIN of R144 on encodings: NaN gives CANON; -0 is smaller than +0. -/
def fmin (t : Fmt) (x y : Nat) : Nat :=
  let a := fval t x
  let b := fval t y
  if a = .nan ∨ b = .nan then t.canon
  else if a.lt b then x else if b.lt a then y else if a.isNeg then x else y

/-- FMAX of R144 on encodings. -/
def fmax (t : Fmt) (x y : Nat) : Nat :=
  let a := fval t x
  let b := fval t y
  if a = .nan ∨ b = .nan then t.canon
  else if a.lt b then y else if b.lt a then x else if a.isNeg then y else x

/-- RNDINT (R107) of a finite value. -/
def rndInt (mode : Nat) (neg : Bool) (m : Nat) (e : Int) : Int :=
  let n : Nat := if 0 ≤ e then m * 2 ^ e.toNat else roundShift m (-e).toNat false neg mode
  if neg then -(n : Int) else (n : Int)

/-! ## Conversions (R110) -/

/-- The floating-point format of a tag; FP32 for a tag that names none. -/
def fmtOf (tag : Nat) : Fmt :=
  match tag with
  | 9 => fpE4 | 10 => fpE5 | 11 => fpF16 | 12 => fpB16
  | _ => fpF32

/-- A tag that names a floating-point format. -/
def isFp (tag : Nat) : Bool := decide (9 ≤ tag ∧ tag ≤ 13)

/-- A tag of a signed integer format. -/
def isSigned (tag : Nat) : Bool := tag == tI4 || tag == tI8 || tag == tI16 || tag == tI32

/-- The value of an integer as an exact value; zero is +0 (R110). -/
def intNum (x : Int) : FNum := .fin (decide (x < 0)) x.natAbs 0

/-- The exact value of an element with a tag other than X4, RS, KV and BITS. -/
def elemNum (tag b : Nat) : FNum :=
  if isFp tag then fval (fmtOf tag) b
  else if isSigned tag then intNum (sx b (tagWidth tag))
  else intNum (b : Int)

/-- The value multiplied by 2^k (R148). -/
def FNum.scale (x : FNum) (k : Int) : FNum :=
  match x with
  | .fin s m e => .fin s m (e + k)
  | y => y

/-- The limits of an integer tag. -/
def intRange (tag : Nat) : Int × Int :=
  let w := tagWidth tag
  if isSigned tag then (-(2 ^ (w - 1) : Int), 2 ^ (w - 1) - 1) else (0, 2 ^ w - 1)

/-- CVT of an exact value to the format of a tag (R110); `satf` replaces OVF by MAX of the value's sign (R148). -/
def cvtNum (x : FNum) (tag mode : Nat) (satf : Bool) : Nat :=
  if isFp tag then
    let t := fmtOf tag
    match x with
    | .fin s m e =>
      let r := fround t mode s m e false
      let ov : Bool := decide (r % t.signBit = t.infCode ∧ ¬ t.a8)
      if satf && ov then (if s then t.signBit else 0) + t.maxCode else r
    | y => froundNum t mode y
  else
    let (lo, hi) := intRange tag
    match x with
    | .nan => 0
    | .inf s => wrap (if s then lo else hi) (tagWidth tag)
    | .fin s m e => wrap (satI (rndInt mode s m e) lo hi) (tagWidth tag)

/-! ## I4X quads (R99) -/

/-- The slots of a quad that hold 1000b, in order. -/
def markers (q : Nat) : List Nat := (List.range 4).filter (fun i => decide (q / 2 ^ (4 * i) % 16 = 8))

/-- DECODE_X4: element `i` of a quad as an exact value. -/
def decodeX4 (q i : Nat) : FNum :=
  let c := q / 2 ^ (4 * i) % 16
  match (markers q).head? with
  | none => intNum (sx c 4)
  | some o =>
    if i = o then fval fpE4 (if o < 2 then q / 256 % 256 else q % 256)
    else if decide (i < 2) = decide (o < 2) ∧ c ≠ 8 then intNum (sx c 4)
    else .fin false 0 0

/-- The warnings of DECODE_X4. -/
def warnX4 (q : Nat) : Nat := (markers q).length - 1

/-- RNDINT of a source value of PACK_X4: NaN and infinities lie beyond either bound (R150). To which side a NaN lies is not said:
a NaN gives +7 (DESIGN CHOICE, log 80). -/
def packInt (mode : Nat) (x : FNum) : Int :=
  match x with
  | .nan => 2 ^ 200
  | .inf s => if s then -(2 ^ 200) else 2 ^ 200
  | .fin s m e => rndInt mode s m e

/-- The size order of PACK_X4: |a| < |b|, NaN largest. -/
def absLt (a b : FNum) : Bool :=
  match a, b with
  | .nan, _ => false
  | _, .nan => true
  | .inf _, _ => false
  | .fin _ _ _, .inf _ => true
  | .fin _ m1 e1, .fin _ m2 e2 =>
    let lo := min e1 e2
    decide (m1 * 2 ^ (e1 - lo).toNat < m2 * 2 ^ (e2 - lo).toNat)

/-- PACK_X4 (R150): the quad and its warnings, from four FP16 encodings. -/
def packX4 (mode : Nat) (e : Nat → Nat) : Nat × Nat :=
  let x (i : Nat) : FNum := fval fpF16 (e i)
  let n (i : Nat) : Int := packInt mode (x i)
  let out := (List.range 4).filter (fun i => decide (n i < -7 ∨ 7 < n i))
  match out with
  | [] => (ofElems 4 ((List.range 4).map (fun i => wrap (n i) 4)), 0)
  | i0 :: r =>
    let o := r.foldl (fun b i => if absLt (x b) (x i) then i else b) i0
    let h := if o % 2 = 0 then o + 1 else o - 1
    let byte := cvtNum (x o) tE4 mode false
    let own := 8 * 2 ^ (4 * (o % 2)) + wrap (satI (n h) (-7) 7) 4 * 2 ^ (4 * (h % 2))
    let g := if o < 2 then 2 else 0
    let w := (if out.contains h then 1 else 0) + (if n g = 0 then 0 else 1) + (if n (g + 1) = 0 then 0 else 1)
    (if o < 2 then own + 256 * byte else byte + 256 * own, w)

/-! ## Approximations (R145): the exact result rounded once by RNE -/

/-- The largest r with r² ≤ n, by one bit of the result at a time. -/
def isqrtAux (n k r : Nat) : Nat :=
  match k with
  | 0 => r
  | k + 1 => if (r + 2 ^ k) * (r + 2 ^ k) ≤ n then isqrtAux n k (r + 2 ^ k) else isqrtAux n k r

/-- The integer square root. -/
def isqrt (n : Nat) : Nat := isqrtAux n (bitLen n / 2 + 1) 0

/-- 2^200 · atanh(num / den), truncated: the series Σ z^(2k+1) / (2k+1). The true value lies within 2^-180 of it. -/
def atanhFix (z : Nat) (k j acc term : Nat) : Nat :=
  match k with
  | 0 => acc
  | k + 1 => atanhFix z k (j + 2) (acc + term / j) (term * (z * z / 2 ^ 200) / 2 ^ 200)

/-- 2^200 · atanh(z / 2^200). -/
def atanh200 (z : Nat) : Nat := atanhFix z 80 1 0 z

/-- 2^200 · ln 2 = 2 · atanh(1/3). -/
def ln2Fix : Nat := 2 * atanh200 (2 ^ 200 / 3)

/-- 2^200 · exp(y / 2^200) by its series. -/
def expFix (y : Nat) (k j acc term : Nat) : Nat :=
  match k with
  | 0 => acc
  | k + 1 => expFix y k (j + 1) (acc + term) (term * y / 2 ^ 200 / j)

/-- 1 / a (R145). -/
def rcpOf (t : Fmt) (a : FNum) : Nat :=
  match a with
  | .nan => t.canon
  | .inf s => if s then t.signBit else 0
  | .fin s m e =>
    if m = 0 then (if s then t.signBit else 0) + t.infCode
    else
      let k := bitLen m + 40
      fround t 0 s (2 ^ k / m) (-(k : Int) - e) (decide (2 ^ k % m ≠ 0))

/-- 1 / √a (R145). -/
def rsqOf (t : Fmt) (a : FNum) : Nat :=
  match a with
  | .nan => t.canon
  | .inf s => if s then t.canon else 0
  | .fin s m e =>
    if m = 0 then (if s then t.signBit else 0) + t.infCode
    else if s then t.canon
    else
      let m2 := if e % 2 = 0 then m else 2 * m
      let e2 := if e % 2 = 0 then e else e - 1
      let k := bitLen m2 + 40
      let r := isqrt (2 ^ (2 * k) / m2)
      fround t 0 false r (-(k : Int) - e2 / 2) (decide (r * r * m2 ≠ 2 ^ (2 * k)))

/-- 2^a (R145): an integer power of two times 2^F with F in [0, 1), to 200 bits (log 13). -/
def exp2Of (t : Fmt) (a : FNum) : Nat :=
  match a with
  | .nan => t.canon
  | .inf s => if s then 0 else t.infCode
  | .fin s m e =>
    if m = 0 then fround t 0 false 1 0 false
    else if 12 < (bitLen m : Int) + e then (if s then 0 else t.infCode)
    else
      let x : Int := (if s then -(m : Int) else m) * (if 0 ≤ e then 2 ^ e.toNat else 1)
      let d : Nat := (-e).toNat
      let p : Int := 2 ^ d
      let i := x / p
      let f : Nat := (x % p).toNat * 2 ^ (200 - d)
      if f = 0 then fround t 0 false 1 i false
      else fround t 0 false (expFix (f * ln2Fix / 2 ^ 200) 60 1 0 (2 ^ 200)) (i - 200) true

/-- log2 a (R145): the exponent plus the logarithm of a significand in [1, 2), to 200 bits (log 13). -/
def log2Of (t : Fmt) (a : FNum) : Nat :=
  match a with
  | .nan => t.canon
  | .inf s => if s then t.canon else t.infCode
  | .fin s m e =>
    if m = 0 then t.signBit + t.infCode
    else if s then t.canon
    else
      let k := bitLen m - 1
      let ex : Int := e + k
      if m = 2 ^ k then (if ex = 0 then 0 else fround t 0 (decide (ex < 0)) ex.natAbs 0 false)
      else
        let z : Nat := (m - 2 ^ k) * 2 ^ 200 / (m + 2 ^ k)
        let l : Nat := atanh200 z * 2 ^ 200 / atanh200 (2 ^ 200 / 3)
        let x : Int := ex * 2 ^ 200 + l
        if x < 0 then fround t 0 true (-x - 1).toNat (-200) true else fround t 0 false x.toNat (-200) true

/-! ## Sums (R115) -/

/-- One level of TREE. -/
def treeLevel (g : Nat → Nat → Nat) (l : List Nat) : List Nat :=
  match l with
  | a :: b :: r => g a b :: treeLevel g r
  | r => r

/-- TREE: `k` levels over a list. -/
def tree (g : Nat → Nat → Nat) (k : Nat) (l : List Nat) : Nat :=
  match k with
  | 0 => l.headD 0
  | k + 1 => tree g k (treeLevel g l)

end Sys2Proof.Machine
end

