-- ==== Sys2Proof/Config.lean ====
section
/-! DEFINITION. What the spec leaves open, as constants with no body (log 1, 7 to 10, 20, 81): nothing can be proved of a value
of theirs, so a claim holds whatever they are. Each is applied to a plain counter of State. -/

namespace Sys2Proof

/-- Which agent steps next and with what choice, by tick (log 1): the code of an agent and a pick. -/
opaque Config.nextTurn : Nat → Nat × Nat

/-- Which of the admissible translations an access uses before a S.TLBSYNC (R372, log 7). -/
opaque Config.tlbChoice : Nat → Nat

/-- Whether a plain load is served from a copy that the L1 still holds (R195, log 10). -/
opaque Config.l1Hit : Nat → Bool

/-- Which word or line leaves an L1 or an L2 that is full (R18, log 10). -/
opaque Config.cacheVictim : Nat → Nat

/-- Which elements of a vector access are performed next, one bit each (R163, log 81). -/
opaque Config.elements : Nat → Nat

/-- The quanta that the ready units of a launch have waited, by tick and launch, which is timing (R325, log 1). -/
opaque Config.waited : Nat → Nat → Nat

/-- A byte of a value that the spec leaves open, by counter (log 9). -/
opaque Config.freeNat : Nat → Nat

/-- The weight of an event in the energy estimate, by the counter of R417 that counts it (R418, log 8). -/
opaque Config.eventWeight : Nat → Nat

/-- The stepping of the part (R89, R340; log 20): true for B0, which profile 2 suits. -/
opaque Config.steppingB0 : Bool

end Sys2Proof
end

