-- ==== Sys2Proof/Machine/Translate.lean ====
section
/-! DEFINITION. Translation of C1 addresses, code addresses and engine addresses (R15, R16, R162, R369 to R372). -/

namespace Sys2Proof.Machine

/-- The outcome of a translation: a physical address with the leaf's attribute bits and the page's size as a power of
two, or the code, sub-cause and level of the trap (R362, R369). -/
inductive XRes where
  | ok (pa : Nat) (attr : BitVec 8) (log2 : Nat)
  | fail (code sub level : Nat)
  deriving DecidableEq, Repr

/-- A physical address that R15 populates. -/
def populated (pa : Nat) : Bool :=
  decide (pa / 2 ^ 36 < 6) && decide (pa % 2 ^ 34 < 0x2CAC10000)

/-- The die that homes a physical address (R14, R15). -/
def homeDie (pa : Nat) : Nat := pa / 2 ^ 36

/-- The eight bytes of a page-table entry as its home holds it, with its poison (R369). A table outside
populated memory, or in the window of die 6, reads as zeros, so that the walk ends at a clear valid bit (DESIGN CHOICE, log 68). -/
def pteAt (s : State) (a : Nat) : Nat × Bool := (s.home.num a 8, s.home.anyPois a 8)

/-- Bits of an entry. -/
def pteBit (e i : Nat) : Bool := decide (e / 2 ^ i % 2 = 1)

/-- The ADDR field of an entry as an address (R370). -/
def pteAddr (e : Nat) : Nat := e % 2 ^ 44 / 2 ^ 8 * 2 ^ 8

/-- A malformed entry at a level (R370). -/
def pteMalformed (e level : Nat) : Bool :=
  decide (e / 2 ^ 44 ≠ 0) ||
  (if pteBit e 1 then decide (pteAddr e % (if level = 0 then 2 ^ 30 else if level = 1 then 2 ^ 21 else 2 ^ 16) ≠ 0)
   else decide (level = 2) || decide (e / 4 % 64 ≠ 0) || (decide (level = 0) && decide (pteAddr e % 4096 ≠ 0)))

/-- The leaf that a checked entry gives at its level. -/
def pteLeaf (e va level : Nat) : XRes :=
  let l := if level = 0 then 30 else if level = 1 then 21 else 16
  .ok (pteAddr e + va % 2 ^ l) (BitVec.ofNat 8 e) l

/-- WALK (R369) from a context's root. -/
def tableWalk (s : State) (ctx va : Nat) : XRes :=
  match (s.contexts.find? (fun e => e.1 == ctx)) with
  | none => .fail 0x0A 1 0
  | some (_, ci) =>
    let (e0, p0) := pteAt s (ci.root + 8 * (va / 2 ^ 30 % 2 ^ 18))
    if p0 then .fail 0x0A 3 0
    else if !pteBit e0 0 then .fail 0x0A 1 0
    else if pteMalformed e0 0 then .fail 0x0A 2 0
    else if pteBit e0 1 then pteLeaf e0 va 0
    else
      let (e1, p1) := pteAt s (pteAddr e0 + 8 * (va / 2 ^ 21 % 2 ^ 9))
      if p1 then .fail 0x0A 3 1
      else if !pteBit e1 0 then .fail 0x0A 1 1
      else if pteMalformed e1 1 then .fail 0x0A 2 1
      else if pteBit e1 1 then pteLeaf e1 va 1
      else
        let (e2, p2) := pteAt s (pteAddr e1 + 8 * (va / 2 ^ 16 % 2 ^ 5))
        if p2 then .fail 0x0A 3 2
        else if !pteBit e2 0 then .fail 0x0A 1 2
        else if pteMalformed e2 2 then .fail 0x0A 2 2
        else pteLeaf e2 va 2

/-- The page of the error rings that Strelino maps for a context at registration, read-only and supervisor-only: it stands where the
context's own table maps none (R391, R411; DESIGN CHOICE, log 55). -/
def ringLeaf (s : State) (ctx va : Nat) : Option XRes :=
  match s.contexts.find? (fun e => e.1 == ctx) with
  | none => none
  | some (_, ci) =>
    match ci.rings with
    | none => none
    | some base =>
      if ci.errRing.toNat ≤ va ∧ va < ci.errRing.toNat + 6 * 2 ^ 20 then some (.ok (base + (va - ci.errRing.toNat)) 0x07#8 16) else none

/-- The translation that the tables of a context give. -/
def walk (s : State) (ctx va : Nat) : XRes :=
  match tableWalk s ctx va with
  | .fail 0x0A 1 level => (ringLeaf s ctx va).getD (.fail 0x0A 1 level)
  | r => r

/-- The address of the entry that a walk reads at a level; none where it does not get there. -/
def pteOf (s : State) (ctx va level : Nat) : Option Nat :=
  (s.contexts.find? (fun e => e.1 == ctx)).map (fun e =>
    let a0 := e.2.root + 8 * (va / 2 ^ 30 % 2 ^ 18)
    let a1 := pteAddr (pteAt s a0).1 + 8 * (va / 2 ^ 21 % 2 ^ 9)
    if level = 0 then a0 else if level = 1 then a1
    else pteAddr (pteAt s a1).1 + 8 * (va / 2 ^ 16 % 2 ^ 5))

/-- The entries of a page table that are not zero, with their addresses. -/
def State.entriesAt (s : State) (base n : Nat) : List (Nat × Nat) :=
  let table : Mem := { bytes := s.home.bytes.filter (fun e => decide (base ≤ e.1) && decide (e.1 < base + 8 * n)), poison := [] }
  (table.bytes.map (fun e => e.1 / 8 * 8)).eraseDups.map (fun a => (a, table.num a 8))

/-- A leaf at a level maps the page of a physical address as worked. -/
def worksOn (e level pa : Nat) : Bool :=
  let l := if level = 0 then 30 else if level = 1 then 21 else 16
  pteBit e 1 && pteBit e 6 && decide (pteAddr e ≤ pa) && decide (pa < pteAddr e + 2 ^ l)

/-- A page table maps the page of a physical address as worked (R278). No leaf does so where no byte of memory holds the low bits of a
worked leaf, which is looked at first. -/
def State.workedFrame (s : State) (pa : Nat) : Bool :=
  let good (e level : Nat) : Bool := pteBit e 0 && !pteMalformed e level
  s.home.bytes.any (fun e => e.2 &&& 0x43#8 == 0x43#8) &&
    s.contexts.any (fun x => (s.entriesAt x.2.root (2 ^ 18)).any (fun e0 => good e0.2 0 && (worksOn e0.2 0 pa || (!pteBit e0.2 1 &&
      (s.entriesAt (pteAddr e0.2) 512).any (fun e1 => good e1.2 1 && (worksOn e1.2 1 pa || (!pteBit e1.2 1 &&
        (s.entriesAt (pteAddr e1.2) 32).any (fun e2 => good e2.2 2 && worksOn e2.2 2 pa))))))))

/-- The addresses of the entries that a walk reads, in their order. -/
def walkReads (s : State) (ctx va : Nat) : List Nat :=
  match s.contexts.find? (fun e => e.1 == ctx) with
  | none => []
  | some (_, ci) =>
    let goes (a level : Nat) : Option Nat :=
      let (e, p) := pteAt s a
      if p || !pteBit e 0 || pteMalformed e level || pteBit e 1 then none else some (pteAddr e)
    let a0 := ci.root + 8 * (va / 2 ^ 30 % 2 ^ 18)
    match goes a0 0 with
    | none => [a0]
    | some b =>
      let a1 := b + 8 * (va / 2 ^ 21 % 2 ^ 9)
      match goes a1 1 with
      | none => [a0, a1]
      | some d => [a0, a1, d + 8 * (va / 2 ^ 16 % 2 ^ 5)]

/-- The first entry of a walk that lies on a worked page, with its level: the walker's access to it is refused (R278). -/
def State.tableWorked (s : State) (ctx va : Nat) : Option (Nat × Nat) :=
  let l := walkReads s ctx va
  ((List.range l.length).zip l).findSome? (fun e => if s.workedFrame e.2 then some (e.2, e.1) else none)

/-- The walk of a page walker, which is refused where an entry lies on a worked page: the translation then ends in the beat-kind trap
(R278; DESIGN CHOICE, log 65). -/
def walkOpen (s : State) (ctx va : Nat) : XRes :=
  match s.tableWorked ctx va with
  | some (_, level) => .fail 0x07 0 level
  | none => walk s ctx va

/-- Under reduced service only layer 0 of each die may be mapped (R414). -/
def State.layerOk (s : State) (pa : Nat) : Bool := decide (7 ≤ s.hub.stage) || decide (pa / 2 ^ 34 % 4 = 0)

/-- A TLB entry that holds an address of a context. -/
def TlbEntry.covers (e : TlbEntry) (ctx va : Nat) : Bool :=
  e.ctx == ctx && e.page == va / 2 ^ e.log2

/-- The translations a TLB still holds for an address (R372). -/
def tlbHits (l : List TlbEntry) (ctx va : Nat) : List XRes :=
  (l.filter (fun e => e.covers ctx va)).map (fun e => .ok (e.base + va % 2 ^ e.log2) e.attr e.log2)

/-- The translation of an address before its rights: the walk, or one that a TLB of the core or of its cluster still
holds, by the free choice `n` (R372, log 7). -/
def translate (s : State) (c : Core) (ctx va n : Nat) : XRes :=
  match tlbHits c.tlb ctx va ++ tlbHits (SMap.get s.clusterTlb (c.id / 16) []) ctx va with
  | [] => walkOpen s ctx va
  | hs =>
    let k := Config.tlbChoice n % (hs.length + 1)
    match hs[k]? with
    | some r => r
    | none => walkOpen s ctx va

/-- The rights an access needs (R371). -/
structure Rights where
  rd : Bool
  wr : Bool
  ex : Bool
  user : Bool
  deriving DecidableEq, Repr

/-- The rights, quarantine and extent checks of a translated page (R16, R370, R371): the trap's code and sub-cause. -/
def checkLeaf (r : Rights) (pa : Nat) (attr : BitVec 8) : Option (Nat × Nat) :=
  if (r.rd && !attr.getLsbD 2) || (r.wr && !attr.getLsbD 3) || (r.ex && !attr.getLsbD 4) || (r.user && !attr.getLsbD 5)
  then some (0x09, 3)
  else if attr.getLsbD 7 then some (0x06, 0)
  else if !populated pa then some (0x09, 2)
  else none

/-- Translation with its rights (R369 to R371). A page of a layer that may not be mapped yet is no populated one (R16, R414; DEDUCED, log 55). -/
def access (s : State) (c : Core) (ctx va n : Nat) (r : Rights) : XRes :=
  match translate s c ctx va n with
  | .fail a b l => .fail a b l
  | .ok pa attr lg =>
    match checkLeaf r pa attr with
    | some (code, sub) => .fail code sub 0
    | none => if s.layerOk pa then .ok pa attr lg else .fail 0x09 2 0

/-- A translation by a party with no core mode, which walks and needs US (R371). -/
def accessWalk (s : State) (ctx va : Nat) (rd wr : Bool) : XRes :=
  if va / 2 ^ 48 ≠ 0 then .fail 0x09 2 0 else
  match walk s ctx va with
  | .fail a b l => .fail a b l
  | .ok pa attr lg =>
    match checkLeaf { rd := rd, wr := wr, ex := false, user := true } pa attr with
    | some (code, sub) => .fail code sub 0
    | none => if s.layerOk pa then .ok pa attr lg else .fail 0x09 2 0

/-- The worked attribute of a leaf (R278, R370). -/
def isWorked (attr : BitVec 8) : Bool := attr.getLsbD 6

/-- The translations of an access of `n` bytes: of its first byte, and of its last where that lies on another page. Its
pages must agree in bits 7:2 (R163). -/
def accessRange (s : State) (c : Core) (ctx va n f : Nat) (r : Rights) : XRes × XRes :=
  let a := access s c ctx va f r
  let b := if va / 2 ^ 16 = (va + n - 1) / 2 ^ 16 then
      (match a with | .ok pa at1 lg => .ok (pa + (n - 1)) at1 lg | .fail x y z => .fail x y z)
    else access s c ctx (va + n - 1) f r
  match a, b with
  | .ok _ at1 _, .ok _ at2 _ =>
    if at1.extractLsb' 2 6 = at2.extractLsb' 2 6 then (a, b) else (.fail 0x09 4 0, b)
  | _, _ => (a, b)

/-- Physical addresses of the `n` bytes from `va`, given the translations of the first and the last byte. -/
def physList (va n : Nat) (a b : XRes) : List Nat :=
  match a, b with
  | .ok pa _ _, .ok pb _ _ =>
    let cut := (va / 2 ^ 16 + 1) * 2 ^ 16 - va
    (List.range n).map (fun i => if va / 2 ^ 16 = (va + n - 1) / 2 ^ 16 ∨ i < cut then pa + i else pb + i - (n - 1))
  | _, _ => []

end Sys2Proof.Machine
end

