-- ==== Sys2Proof/Machine/Ops.lean ====
section
/-! DEFINITION. The named operations over registers, memory and results in flight, and the two shared operations of
exceptions: taking one (`takeTrap`, R355 to R361) and returning from one (`returnFromTrap`, R357, R360). -/

namespace Sys2Proof.Machine

/-! ## The core whose turn it is -/

/-- The core that the turn names; core 0 where another agent has the turn. -/
def State.coreNo (s : State) : Nat :=
  match s.turn.agent with
  | .core n => n
  | _ => 0

/-- Core `n`. -/
def State.coreAt (s : State) (n : Nat) : Core := SMap.get s.cores n (Core.reset n)

/-- The core whose turn it is. -/
def State.me (s : State) : Core := s.coreAt s.coreNo

/-- `s` with core `n` replaced. -/
def State.putCore (s : State) (n : Nat) (c : Core) : State := { s with cores := SMap.put s.cores n c }

/-- `s` with the core whose turn it is changed by `f`. -/
def State.onMe (s : State) (f : Core → Core) : State := s.putCore s.coreNo (f s.me)

/-- Die `d`. -/
def State.dieAt (s : State) (d : Nat) : Die := SMap.get s.dies d Die.reset

/-- `s` with die `d` replaced. -/
def State.putDie (s : State) (d : Nat) (x : Die) : State := { s with dies := SMap.put s.dies d x }

/-- The cluster of a core (R12, R89). -/
def clusterOf (core : Nat) : Nat := core / 16

/-- The die of a cluster: 0 to 5 on the prompt dies 0 and 1, 3 on each token die (R11, R12). -/
def dieOfCluster (cl : Nat) : Nat := if cl < 12 then cl / 6 else 2 + (cl - 12) / 3

/-- The die of a core. -/
def dieOf (core : Nat) : Nat := dieOfCluster (clusterOf core)

/-- Supervisor mode (R358, R362). -/
def Core.sup (c : Core) : Bool := c.sw.priv.getLsbD 0

/-- A trapped context is held (R362). -/
def Core.isHeld (c : Core) : Bool := c.sw.priv.getLsbD 1

/-- The running context's identifier (R324). -/
def Core.ctx (c : Core) : Nat := fieldGet c.sw.ctxId 0 16

/-- A deterministic launch (R394). -/
def Core.determ (c : Core) : Bool := c.sw.determ.getLsbD 0

/-- Profile 2 governs the latencies (R341, R349). -/
def Core.profile2 (c : Core) : Bool := fieldGet c.sw.checkctl 14 2 == 2

/-- The latency of the running profile. -/
def Core.lat (c : Core) (p1 p2 : Nat) : Nat := if c.profile2 then p2 else p1

/-- CORE_ID (R89). -/
def Core.coreId (c : Core) : Word :=
  let split := fieldGet c.engmap 2 2 == fieldGet c.engmap 0 2 || fieldGet c.engmap 6 2 == fieldGet c.engmap 4 2
  let cl := clusterOf c.id
  BitVec.ofNat 64 ((if split then 2 ^ 24 else 0) + (if Config.steppingB0 then 2 ^ 22 else 0) +
    (if cl < 12 then 0 else 2 ^ 21) + dieOfCluster cl * 2 ^ 18 + cl * 2 ^ 13 + c.id % 16 * 2 ^ 9 + c.id)

/-- The core is split (R347). -/
def Core.split (c : Core) : Bool :=
  fieldGet c.engmap 2 2 == fieldGet c.engmap 0 2 || fieldGet c.engmap 6 2 == fieldGet c.engmap 4 2

/-- The SLOT codes of TRAP_CAUSE (R362). -/
def slotCode (sl : Slot) : Nat :=
  match sl with
  | .S => 0 | .V0 => 1 | .V1 => 2 | .M => 3 | .C0 => 4 | .C1 => 5 | .B => 6

/-! ## Registers -/

/-- Unit-start values of the register sets (R85). -/
def SReg.zero : SReg := { val := 0, poison := false, pend := false }
/-- Unit-start value of a predicate. -/
def PReg.zero : PReg := { val := false, poison := false }
/-- Unit-start value of a lane mask. -/
def MReg.zero : MReg := { val := 0, poison := false }
/-- Unit-start value of a vector register. -/
def VReg.zero : VReg := { val := 0, tag := 0, poison := 0, pend := false }
/-- Unit-start value of a tile register. -/
def TReg.zero : TReg := { val := 0, tag := 0, ready := true, poison := 0 }
/-- Unit-start value of a ring register. -/
def Ring.zero : Ring :=
  { valid := false, base := 0, entries := 0, entryBytes := 0, head := 0, count := 0, tags := [] }
/-- An empty latch. -/
def Latch.zero : Latch := { word := 0, disp := 0, full := false }

/-- Physical scalar, predicate, vector and base registers under the rotation bases (R76). -/
def Core.physS (c : Core) (n : Nat) : Nat := physOf n 96 32 (rotS c.sw.rot)
/-- Physical predicate. -/
def Core.physP (c : Core) (n : Nat) : Nat := physOf n 32 32 (rotP c.sw.rot)
/-- Physical vector register. -/
def Core.physV (c : Core) (n : Nat) : Nat := physOf n 448 256 (rotV c.sw.rot)
/-- Physical base register. -/
def Core.physB (c : Core) (n : Nat) : Nat := physOf n 0 16 (rotB c.sw.rot)

/-- A scalar register by physical number. -/
def Core.sreg (c : Core) (n : Nat) : SReg := SMap.get c.s n SReg.zero
/-- A predicate register by physical number; p0 reads as 1 with poison clear (R75). -/
def Core.preg (c : Core) (n : Nat) : PReg :=
  if n = 0 then { val := true, poison := false } else SMap.get c.p n PReg.zero
/-- A lane mask. -/
def Core.mreg (c : Core) (n : Nat) : MReg := SMap.get c.m n MReg.zero
/-- A vector register by physical number. -/
def Core.vreg (c : Core) (n : Nat) : VReg := SMap.get c.v n VReg.zero
/-- A tile register. -/
def Core.treg (c : Core) (n : Nat) : TReg := SMap.get c.t n TReg.zero
/-- A ring register. -/
def Core.ringReg (c : Core) (n : Nat) : Ring := SMap.get c.ring n Ring.zero
/-- A base register by physical number. -/
def Core.breg (c : Core) (n : Nat) : BitVec 20 := SMap.get c.b n 0
/-- A shape slot; none where it is empty. -/
def Core.shape (c : Core) (n : Nat) : Option Shape := (c.k.find? (fun e => e.1 == n)).map (·.2)
/-- A sticky latch by slot code. -/
def Core.latchOf (c : Core) (n : Nat) : Latch := SMap.get c.latch n Latch.zero

/-- `c` with a scalar register replaced. -/
def Core.putS (c : Core) (n : Nat) (r : SReg) : Core := { c with s := SMap.set c.s n r SReg.zero }
/-- `c` with a predicate replaced; a write of p0 is discarded (R75). -/
def Core.putP (c : Core) (n : Nat) (r : PReg) : Core :=
  if n = 0 then c else { c with p := SMap.set c.p n r PReg.zero }
/-- `c` with a lane mask replaced. -/
def Core.putM (c : Core) (n : Nat) (r : MReg) : Core := { c with m := SMap.set c.m n r MReg.zero }
/-- `c` with a vector register replaced. -/
def Core.putV (c : Core) (n : Nat) (r : VReg) : Core := { c with v := SMap.set c.v n r VReg.zero }
/-- `c` with a tile register replaced. -/
def Core.putT (c : Core) (n : Nat) (r : TReg) : Core := { c with t := SMap.set c.t n r TReg.zero }
/-- `c` with a ring register replaced. -/
def Core.putRing (c : Core) (n : Nat) (r : Ring) : Core := { c with ring := SMap.set c.ring n r Ring.zero }
/-- `c` with a base register replaced. -/
def Core.putB (c : Core) (n : Nat) (r : BitVec 20) : Core := { c with b := SMap.set c.b n r 0 }
/-- `c` with a sticky latch replaced. -/
def Core.putLatch (c : Core) (n : Nat) (l : Latch) : Core := { c with latch := SMap.set c.latch n l Latch.zero }
/-- `c` with a status word replaced. -/
def Core.putW (c : Core) (i : Nat) (v : Word) : Core := { c with sw := c.sw.put i v }

/-! ## Operands as an issue reads them: captured operands of a trapped bundle come first (R357) -/

/-- The captured value of a register of a slot, if the bundle is re-issued with captured operands. The operands of one kind stand in the
order of their fields, and `k` is the place of the field among them, so that two fields that name one register keep a value each
(R357, R427). -/
def Core.capVal (c : Core) (slot kind num : Nat) (k : Nat := 0) : Option CapVal :=
  match c.cap.find? (fun e => e.slot == slot) with
  | some cs =>
    let l := cs.vals.filter (fun v => v.kind == kind)
    (l[k]?.filter (fun v => v.num == num)).or (l.find? (fun v => v.num == num))
  | none => none

/-- Scalar operand: value and poison; the field is the `k`th of its kind, from 0. -/
def Core.rs (c : Core) (sl : Slot) (r : BitVec 7) (k : Nat := 0) : Word × Bool :=
  let n := c.physS r.toNat
  match c.capVal (slotCode sl) 0 n k with
  | some v => (v.val.extractLsb' 0 64, v.poison.getLsbD 0)
  | none => ((c.sreg n).val, (c.sreg n).poison)

/-- Predicate operand: value and poison. -/
def Core.rp (c : Core) (sl : Slot) (r : BitVec 6) (k : Nat := 0) : Bool × Bool :=
  let n := c.physP r.toNat
  match c.capVal (slotCode sl) 1 n k with
  | some v => (v.val.getLsbD 0, v.poison.getLsbD 0)
  | none => ((c.preg n).val, (c.preg n).poison)

/-- Lane-mask operand: value and poison. -/
def Core.rm (c : Core) (sl : Slot) (r : BitVec 4) : BitVec 32 × Bool :=
  match c.capVal (slotCode sl) 2 r.toNat with
  | some v => (v.val.extractLsb' 0 32, v.poison.getLsbD 0)
  | none => ((c.mreg r.toNat).val, (c.mreg r.toNat).poison)

/-- The flume bound to a physical vector register. -/
def Core.flumeOf (c : Core) (n : Nat) : Option Flume := c.flumes.find? (fun f => f.reg == n)

/-- Vector operand: value, tag and lane poison. A read flume gives its next element (R182). -/
def Core.rv (c : Core) (sl : Slot) (r : BitVec 10) (k : Nat := 0) : VReg :=
  let n := c.physV r.toNat
  match c.capVal (slotCode sl) 3 n k with
  | some v => { val := v.val, tag := v.tag, poison := v.poison, pend := false }
  | none =>
    match c.flumeOf n with
    | some f =>
      match f.buf with
      | (x, p, _) :: _ => { val := x, tag := f.shape.format, poison := p, pend := false }
      | [] => { val := 0, tag := f.shape.format, poison := 0, pend := false }
    | none => c.vreg n

/-- Base-register operand of a V1 operation. -/
def Core.rb (c : Core) (r : BitVec 4) : BitVec 20 :=
  match c.cap.find? (fun e => e.slot == 2) with
  | some cs => cs.base
  | none => c.breg (c.physB r.toNat)

/-- The latched displacement of a slot as it issues: captured, latched, or, outside an issue, the field `off` that it
starts from (R139, R167). -/
def Core.disp (c : Core) (sl : Slot) (off : BitVec 32) : BitVec 32 :=
  match c.cap.find? (fun e => e.slot == slotCode sl) with
  | some cs => cs.disp
  | none => if c.issue.isSome then (c.latchOf (slotCode sl)).disp else off

/-! ## Results in flight -/

/-- The header address of the bundle in progress, or of the bundle at the program counter. -/
def Core.bundlePc (c : Core) : Word :=
  match c.issue with
  | some i => i.pc
  | none => c.pc

/-- A segment is open and the core runs its bundles: a handler's belong to no segment of the trapped context, and may open one of
their own (R27, R383, R387; DEDUCED, log 39). -/
def Core.segOpen (c : Core) : Bool := c.sw.segState.getLsbD 63 && c.sup == c.supSeg

/-- A result of the operation in slot `sl` that lands `lat` cycles from now (R338, R343). -/
def Core.flight (c : Core) (sl : Slot) (d : Dest) (lat : Nat) : Flight :=
  { dest := d, val := 0, tag := 0, poison := 0, land := c.time + lat, slot := slotCode sl, mismatch := false, twin := none,
    pc := c.bundlePc, opcode := 0, seg := c.segOpen, size := 0, events := [], issued := c.time,
    seq := c.seq, acq := false }

/-- `c` with one more result in flight. -/
def Core.emit (c : Core) (f : Flight) : Core := { c with flights := c.flights ++ [f] }

/-- A scalar result. -/
def Core.outS (c : Core) (sl : Slot) (r : BitVec 7) (lat : Nat) (v : Word) (p : Bool) : Core :=
  c.emit { c.flight sl (.scalar (c.physS r.toNat)) lat with
    val := v.setWidth 8192, poison := if p then 1#256 else 0#256 }

/-- A predicate result. -/
def Core.outP (c : Core) (sl : Slot) (r : BitVec 6) (lat : Nat) (v p : Bool) : Core :=
  c.emit { c.flight sl (.pred (c.physP r.toNat)) lat with
    val := if v then 1#8192 else 0#8192, poison := if p then 1#256 else 0#256 }

/-- The program's write of a status word (tag 1) or a status result that replaces it (tag 0). -/
def Core.outW (c : Core) (sl : Slot) (i : Nat) (lat : Nat) (v : Word) (program : Bool) : Core :=
  c.emit { c.flight sl (.status i) lat with val := v.setWidth 8192, tag := if program then 1#4 else 0#4 }

/-- Gives the V0 result of the same issue its V1 twin (R378). -/
def Core.pair (c : Core) (v : Vec) (tag : BitVec 4) (p : BitVec 32) (d : Dest) : Core :=
  { c with flights := c.flights.map (fun f =>
      if f.slot == 1 && f.pc == c.bundlePc && f.dest == d && decide (c.time < f.land) && f.twin.isNone
      then { f with twin := some (v, tag, p), opcode := (bitsAt (c.latchOf 1).word 56 7).toNat } else f) }

/-- Where a vector result goes: a bound write flume takes a push (R183). -/
def Core.vdest (c : Core) (r : BitVec 10) : Dest :=
  let n := c.physV r.toNat
  match c.flumeOf n with
  | some f => if f.shape.write then .flume n else .vec n
  | none => .vec n

/-- A vector result. The V1 operation of a D-pair writes nothing itself: its result is the twin of V0's (R378). -/
def Core.outV (c : Core) (h : Hdr) (r : BitVec 10) (lat : Nat) (v : Vec) (tag : BitVec 4) (p : BitVec 32) : Core :=
  if h.dup then c.pair v tag p (c.vdest r)
  else
    let c1 := c.emit { c.flight h.slot (c.vdest r) lat with
      val := v.setWidth 8192, tag := tag, poison := p.setWidth 256 }
    match c.vdest r with
    | .flume n => { c1 with flumes := c1.flumes.map (fun f => if f.reg == n then { f with inflight := f.inflight + 1 } else f) }
    | _ => c1

/-- A lane-mask result. -/
def Core.outM (c : Core) (h : Hdr) (r : BitVec 4) (lat : Nat) (v : BitVec 32) (p : Bool) : Core :=
  let q : BitVec 32 := if p then 1#32 else 0#32
  if h.dup then c.pair (v.setWidth 1024) 0 q (.mask r.toNat)
  else c.emit { c.flight h.slot (.mask r.toNat) lat with val := v.setWidth 8192, poison := q.setWidth 256 }

/-- A warning count of the slot's VCFG raised by `n`, if `n` is not 0 (R141). -/
def Core.outWarn (c : Core) (sl : Slot) (lat n : Nat) : Core :=
  if n = 0 then c
  else c.emit { c.flight sl (.warn (if sl = .V1 then 1 else 0)) lat with val := BitVec.ofNat 8192 n }

/-- A scalar or vector register waits for a result: a load, or an atomic that returns its old value and has not been
performed (R82). -/
def Core.awaits (c : Core) : Bool := !c.loads.isEmpty || c.sb.any (fun e => e.dest.isSome)

/-! ## The journal of a segment (R381) -/

/-- `c` with a journal entry added where `have` finds none yet; the count in SEG_STATE follows. -/
def Core.journal (c : Core) (have_ : JEntry → Bool) (e : JEntry) : Core :=
  if c.seg.journal.any have_ then c
  else
    let j := c.seg.journal ++ [e]
    { c with seg := { c.seg with journal := j }, sw := { c.sw with segState := fieldPut c.sw.segState 52 9 j.length } }

/-- Journal entry of a scalar register. A pending bit of a register that the segment writes is the segment's own, since
every earlier result had landed at its opening (R379); a rewind leaves it clear. -/
def Core.journalS (c : Core) (n : Nat) : Core :=
  c.journal (fun e => match e with | .scalar k _ => k == n | _ => false) (.scalar n { c.sreg n with pend := false })
/-- Journal entry of a predicate. -/
def Core.journalP (c : Core) (n : Nat) : Core :=
  if n = 0 then c else c.journal (fun e => match e with | .pred k _ => k == n | _ => false) (.pred n (c.preg n))
/-- Journal entry of a lane mask. -/
def Core.journalM (c : Core) (n : Nat) : Core :=
  c.journal (fun e => match e with | .mask k _ => k == n | _ => false) (.mask n (c.mreg n))
/-- Journal entry of a vector register, its pending bit clear as for a scalar register. -/
def Core.journalV (c : Core) (n : Nat) : Core :=
  c.journal (fun e => match e with | .vec k _ => k == n | _ => false) (.vec n { c.vreg n with pend := false })
/-- Journal entry of a status word marked "context"; SEG_STATE itself is the journal's own word. -/
def Core.journalW (c : Core) (i : Nat) : Core :=
  if contextWord i && i != 0x047 then
    c.journal (fun e => match e with | .status k _ => k == i | _ => false) (.status i (c.sw.get i))
  else c
/-- Journal entry of a base register, by the status index of its physical number. -/
def Core.journalB (c : Core) (n : Nat) : Core :=
  c.journal (fun e => match e with | .status k _ => k == 0x060 + n | _ => false)
    (.status (0x060 + n) ((c.breg n).setWidth 64))
/-- Journal entry of a sticky latch. -/
def Core.journalL (c : Core) (n : Nat) : Core :=
  c.journal (fun e => match e with | .latch k _ => k == n | _ => false) (.latch n (c.latchOf n))

/-- One journal entry put back (R385). -/
def Core.restore (c : Core) (e : JEntry) : Core :=
  match e with
  | .scalar n r => c.putS n r
  | .pred n r => c.putP n r
  | .mask n r => c.putM n r
  | .vec n r => c.putV n r
  | .status i w => if 0x060 ≤ i then c.putB (i - 0x060) (w.setWidth 20) else c.putW i w
  | .latch n l => c.putLatch n l

/-! ## Main memory at its homes -/

/-- A word with the bytes and the poison of a store laid over it. -/
def overlayWord (w : Nat) (x : BitVec 32 × Bool) (bs : List (Nat × Byte)) (ws : List (Nat × Bool × Bool)) : BitVec 32 × Bool :=
  (bs.foldl (fun v b => if b.1 / 4 = w then fieldPut v (8 * (b.1 % 4)) 8 b.2.toNat else v) x.1,
    ws.foldl (fun p e => if e.1 = w then (if e.2.2 then e.2.1 else p || e.2.1) else p) x.2)

/-- The entries of a die's outbound queue that touch a word, oldest first. -/
def State.outEntries (s : State) (d w : Nat) : List OutEntry :=
  (s.outq.filter (fun e => e.1 == d && e.2.words.any (fun x => x.1 == w))).map (·.2)

/-- The L1 copy of word `w` of core `n` after the home L2 has performed a write of its own (R200): the home's word with the
core's own stores that the outbound queue still holds; dropped where the queue holds one of another core (log 10). -/
def State.refreshCopy (s : State) (n w : Nat) : State :=
  let c := s.coreAt n
  let es := s.outEntries (dieOf n) w
  if es.any (fun e => e.core != n) then s.putCore n { c with l1 := SMap.del c.l1 w }
  else
    let x := (BitVec.ofNat 32 (s.home.num (4 * w) 4), s.home.pois w)
    s.putCore n { c with l1 := SMap.put c.l1 w (es.foldl (fun x e => overlayWord w x e.bytes e.words) x) }

/-- The parts of an L1 that a write leaves: the writer's own copies take the new words, the previous owner's are
revoked (R200). -/
def revoke (s : State) (w : Nat) (who : Option Nat) (keepsOwner : Bool) : State :=
  let prev := SMap.get s.owner w 0
  let s1 :=
    if prev ≠ 0 ∧ (¬ keepsOwner ∨ who ≠ some (prev - 1)) then
      let c := s.coreAt (prev - 1)
      s.putCore (prev - 1) { c with l1 := SMap.del c.l1 w }
    else s
  match who with
  | none => s1
  | some n =>
    let c := s1.coreAt n
    if c.l1.any (fun e => e.1 == w) then
      if keepsOwner then s1.refreshCopy n w else s1.putCore n { c with l1 := SMap.del c.l1 w }
    else s1

/-- The lines that a die's L2 holds as far as it matters: one with an owner for a word, or dirty. -/
def State.l2Lines (s : State) (d : Nat) : List Nat :=
  let l : List Nat := s.owner.map (fun (e : Nat × Nat) => e.1 / 16) ++ s.dirty.map (·.1)
  l.eraseDups.filter (fun l => homeDie (64 * l) == d)

/-- A line out of its L2: its words have no owner, and the previous owners' copies are revoked (R200, R283). -/
def State.dropLine (s : State) (l : Nat) : State :=
  let s1 := (List.range 16).foldl (fun s i =>
    let s2 := revoke s (16 * l + i) none false
    { s2 with owner := SMap.del s2.owner (16 * l + i) }) s
  { s1 with dirty := SMap.del s1.dirty l }

/-- The lines of the 128 MiB of a die's L2 (R10, R18). -/
def l2Size : Nat := 2 ^ 21

/-- The L2 that holds line `l` within its size (R10, R18): a line of its others leaves it, by a free choice (log 10). -/
def State.fitL2 (s : State) (l : Nat) : State :=
  if s.owner.length + s.dirty.length ≤ l2Size then s
  else
    let ls := (s.l2Lines (homeDie (64 * l))).filter (· != l)
    if ls.length < l2Size then s
    else
      match ls[Config.cacheVictim s.free % ls.length]? with
      | some k => { (s.dropLine k) with free := s.free + 1 }
      | none => s

/-- A write performed at the home L2s (R191, R200, R374, R389): bytes, word poison, the owner afterwards, and the last
writer's context of each line. `who` is the writing core; `owns` says that it becomes the owner. -/
def homeWrite (s : State) (who : Option Nat) (owns : Bool) (ctx : Nat) (bs : List (Nat × Byte))
    (ws : List (Nat × Bool × Bool)) : State :=
  let s1 := { s with home := s.home.store bs ws }
  let s2 := ws.foldl (fun s e =>
    let s2 := revoke s e.1 who owns
    { s2 with
      owner := SMap.set s2.owner e.1 (if owns then (match who with | some n => n + 1 | none => 0) else 0) 0,
      dirty := SMap.put s2.dirty (e.1 / 16) (ctx, who) }) s1
  ((ws.map (fun e => e.1 / 16)).eraseDups).foldl State.fitL2 s2

/-! ## Error records (R391, R392) -/

/-- The 64 bytes of a record at address `a`. -/
def ErrRec.bytes (r : ErrRec) (a : Nat) : List (Nat × Byte) :=
  let head := bytesOf (r.kind + r.outcome * 2 ^ 8 + r.ctx * 2 ^ 16 + r.die * 2 ^ 32 + r.slot * 2 ^ 40 + r.core * 2 ^ 48) a 8
  let det := r.detail.foldl (fun n e => n + e.2.2 % 2 ^ (8 * e.2.1) * 2 ^ (8 * e.1)) 0
  head ++ bytesOf r.beat (a + 8) 8 ++ bytesOf r.addr (a + 16) 8 ++ bytesOf r.pc.toNat (a + 24) 8 ++ bytesOf det (a + 32) 32

/-- A record with the beat count, at writing, of the die on which its event was detected. -/
def State.stamp (s : State) (r : ErrRec) : ErrRec := { r with beat := (s.dieAt r.die).beat }

/-- A record for Strelino alone. -/
def State.hubRecord (s : State) (r : ErrRec) : State := { s with records := s.records ++ [s.stamp r] }

/-- A record written by core `n` into its ring, with Strelino's copy (R391). Where the ring does not translate, or leads to
an address that R15 does not populate, only Strelino's copy is made. The write leaves its words without an owner (DESIGN CHOICE,
log 73). -/
def State.record (s : State) (n : Nat) (r : ErrRec) : State :=
  let s1 := s.hubRecord r
  let c := s1.coreAt n
  let i := fieldGet c.sw.errLog 48 16
  let va := fieldGet c.sw.errLog 12 36 * 4096 + 64 * (i % 256)
  let s2 := s1.putCore n { c with sw := { c.sw with errLog := fieldPut c.sw.errLog 48 16 (i + 1) } }
  match walk s2 c.ctx va with
  | .ok pa _ _ =>
    if populated pa then homeWrite s2 (some n) false c.ctx ((s.stamp r).bytes pa) (wordsOf pa 64 false) else s2
  | .fail _ _ _ => s2

/-- The fields that every record of a core's operation shares. -/
def Core.errRec (c : Core) (kind outcome slot addr : Nat) (pc : Word) (detail : List (Nat × Nat × Nat)) : ErrRec :=
  { kind := kind, outcome := outcome, ctx := c.ctx, die := dieOf c.id, slot := slot, core := c.id, addr := addr, pc := pc,
    detail := detail, beat := 0 }

/-! ## On-chip memories -/

/-- The byte store of a space as core `c` reaches it. Loft bytes of die d stand from 2^26 · d, cluster-memory bytes of
cluster c from 2^23 · c. -/
def State.spaceMem (s : State) (c : Core) (sp : Space) : Mem :=
  match sp with
  | .scratch => c.scratch
  | .slices => c.slices
  | .loft => s.loft
  | .cluster => s.cmem
  | .main => s.home
  | .code => s.home

/-- A store performed in an on-chip space; addresses are the store's own. -/
def State.spaceStore (s : State) (n : Nat) (sp : Space) (bs : List (Nat × Byte)) (ws : List (Nat × Bool × Bool)) : State :=
  let c := s.coreAt n
  match sp with
  | .scratch => s.putCore n { c with scratch := c.scratch.store bs ws }
  | .slices => s.putCore n { c with slices := c.slices.store bs ws }
  | .loft => { s with loft := s.loft.store bs ws }
  | .cluster => { s with cmem := s.cmem.store bs ws }
  | .main => s
  | .code => s

/-- A value with a held store of the open segment laid over it (R190, R382): the byte at `a`. -/
def heldByte (l : List SegLine) (sp : Space) (a : Nat) : Option Byte :=
  match l.find? (fun x => x.space == sp && x.addr == a / 64) with
  | some x => (x.bytes.find? (fun e => e.1 == a)).map (·.2)
  | none => none

/-- The poison that the held stores give word `w`, over `p`. -/
def heldPois (l : List SegLine) (sp : Space) (w : Nat) (p : Bool) : Bool :=
  match l.find? (fun x => x.space == sp && x.addr == w / 16) with
  | some x => x.words.foldl (fun p e => if e.1 = w then (if e.2.2 then e.2.1 else p || e.2.1) else p) p
  | none => p

/-- One byte of an on-chip space as core `n` reads it. -/
def State.spaceByte (s : State) (n : Nat) (sp : Space) (a : Nat) : Byte :=
  let c := s.coreAt n
  match heldByte c.seg.lines sp a with
  | some b => b
  | none => (s.spaceMem c sp).byte a

/-- The poison of one word of an on-chip space as core `n` reads it. -/
def State.spacePois (s : State) (n : Nat) (sp : Space) (w : Nat) : Bool :=
  let c := s.coreAt n
  heldPois c.seg.lines sp w ((s.spaceMem c sp).pois w)

/-- The little-endian number in `k` bytes of an on-chip space. -/
def State.spaceNum (s : State) (n : Nat) (sp : Space) (a k : Nat) : Nat :=
  match k with
  | 0 => 0
  | k + 1 => (s.spaceByte n sp a).toNat + 256 * s.spaceNum n sp (a + 1) k

/-- Some word of the `k` bytes from `a` carries poison. -/
def State.spaceAnyPois (s : State) (n : Nat) (sp : Space) (a k : Nat) : Bool :=
  (List.range ((a + k + 3) / 4 - a / 4)).any (fun i => s.spacePois n sp (a / 4 + i))

/-! ## Stores that an open segment holds back (R382) -/

/-- The line of a space and line number in a list of held lines, or an empty one. -/
def lineOf (l : List SegLine) (sp : Space) (n : Nat) : SegLine :=
  match l.find? (fun x => x.space == sp && x.addr == n) with
  | some x => x
  | none => { space := sp, addr := n, bytes := [], words := [] }

/-- The held lines with one line replaced, or added at the end. -/
def putLine (l : List SegLine) (x : SegLine) : List SegLine :=
  if l.any (fun y => y.space == x.space && y.addr == x.addr) then
    l.map (fun y => if y.space == x.space && y.addr == x.addr then x else y)
  else l ++ [x]

/-- A word's poison merged into those of a line: later bytes stand over earlier ones. -/
def mergeWord (l : List (Nat × Bool × Bool)) (e : Nat × Bool × Bool) : List (Nat × Bool × Bool) :=
  match l.find? (fun x => x.1 == e.1) with
  | none => l ++ [e]
  | some x => l.map (fun y => if y.1 == e.1 then (e.1, if e.2.2 then e.2.1 else e.2.1 || x.2.1, e.2.2 || x.2.2) else y)

/-- The held lines after a store. -/
def mergeStore (l : List SegLine) (sp : Space) (bs : List (Nat × Byte)) (ws : List (Nat × Bool × Bool)) : List SegLine :=
  let l1 := bs.foldl (fun l b =>
    let x := lineOf l sp (b.1 / 64)
    putLine l { x with bytes := SMap.put x.bytes b.1 b.2 }) l
  ws.foldl (fun l w =>
    let x := lineOf l sp (w.1 / 16)
    putLine l { x with words := mergeWord x.words w }) l1

/-- The entry of a store of the operation in issue. -/
def Core.sbEntry (c : Core) (sp : Space) (bs : List (Nat × Byte)) (ws : List (Nat × Bool × Bool)) : SbEntry :=
  { seq := c.seq, space := sp, kind := .store, addr := (match bs with | b :: _ => b.1 | [] => 0), bytes := bs, words := ws,
    rel := 0, dest := none, virt := 0, pc := c.bundlePc, seg := c.segOpen, beat := none, gd := none, due := 0, unit := 0 }

/-- `c` with a store held back by its open segment. -/
def Core.holdStore (c : Core) (e : SbEntry) : Core :=
  let l := mergeStore c.seg.lines e.space e.bytes e.words
  { c with
    seg := { c.seg with lines := l, held := c.seg.held ++ [e] },
    sw := { c.sw with segState := fieldPut c.sw.segState 45 7 l.length } }

/-- The bytes of a vector access that its next turn performs: any of its elements of `unit` bytes, all of them where the choice names
none; an access that is one element is performed whole (R163). Elements narrower than a word go a word at a time (DESIGN CHOICE, log
81). -/
def State.pieceOf (s : State) (unit : Nat) (as : List Nat) : List Nat :=
  let l := as.filter (fun a => (Config.elements s.free).testBit (a % 65536 / unit))
  if unit = 0 || l.isEmpty then as else l

/-- `c` past one place in program order. -/
def Core.step (c : Core) : Core := { c with seq := c.seq + 1 }

/-- A bundle address as the program counter holds it: a multiple of 8 (R21), as the issue of the branch (R126) or the acceptance of the
launch (R317) has found it. -/
def codeAddr (w : Word) : Word := w &&& 0xFFFFFFFFFFFFFFF8#64

/-- The deterministic rules hold for the running code: the unit's own, not its handler's. -/
def Core.det (c : Core) : Bool := c.determ && !c.sup

/-- Two lists of byte addresses share one. -/
def meets (a b : List Nat) : Bool := a.any (fun x => b.contains x)

/-- `c` with an on-chip store that is performed at issue time `due`, a release at scope `rel`, after the comparison `gd`
where it is guarded, or held back by its open segment. -/
def Core.putStore (c : Core) (due rel : Nat) (gd : Option Nat) (sp : Space) (bs : List (Nat × Byte)) (ws : List (Nat × Bool × Bool)) : Core :=
  (if c.segOpen then c.holdStore (c.sbEntry sp bs ws)
  else { c with
    timed := c.timed ++ [{ due := due, seq := c.seq, rel := rel, acq := 0, gd := gd, act := .store sp bs ws }],
    padStores := if c.det && rel ≠ 0 then c.padStores ++ [{ space := sp, addrs := bs.map (·.1), due := due }] else c.padStores }).step

/-- An access of an on-chip space overlaps a release whose padded time has still to come: it stalls (R395, R424). -/
def Core.padStall (c : Core) (sp : Space) (addrs : List Nat) : Bool :=
  c.det && c.padStores.any (fun x => x.space == sp && decide (c.time < x.due) && meets x.addrs addrs)

/-- The lines that a store of the given bytes touches (R382). -/
def linesOf (sp : Space) (bs : List (Nat × Byte)) : List (Space × Nat) := (bs.map (fun b => (sp, b.1 / 64))).eraseDups

/-! ## The L1 (R195, R197, R199, R200) -/

/-- The L1 copies that a store of the core updates (R197). -/
def Core.l1Write (c : Core) (bs : List (Nat × Byte)) (ws : List (Nat × Bool × Bool)) : Core :=
  let put (l : SMap (BitVec 32 × Bool)) (b : Nat × Byte) : SMap (BitVec 32 × Bool) :=
    match l.find? (fun e => e.1 == b.1 / 4) with
    | some e => SMap.put l (b.1 / 4) (fieldPut e.2.1 (8 * (b.1 % 4)) 8 b.2.toNat, e.2.2)
    | none => l
  let pois (l : SMap (BitVec 32 × Bool)) (w : Nat × Bool × Bool) : SMap (BitVec 32 × Bool) :=
    match l.find? (fun e => e.1 == w.1) with
    | some e => SMap.put l w.1 (e.2.1, if w.2.2 then w.2.1 else w.2.1 || e.2.2)
    | none => l
  { c with l1 := ws.foldl pois (bs.foldl put c.l1) }

/-- A store of the store buffer lies in the L1 too: it is no longer guarded, and its page is not worked (R197). -/
def SbEntry.inL1 (e : SbEntry) : Bool := e.kind == .store && e.gd.isNone && e.beat.isNone

/-- The L1 copies as a guarded store leaves them once it may proceed: its bytes, under those of the core's later stores. -/
def Core.l1Settle (c : Core) (seq : Nat) : Core :=
  (c.sb.filter (fun e => decide (seq ≤ e.seq) && e.inL1)).foldl (fun c e => c.l1Write e.bytes e.words) c

/-- The outbound queue of core `n`'s die holds a store of another core to word `w`, which an L1 copy of the word lacks. -/
def State.queuedOther (s : State) (n w : Nat) : Bool := (s.outEntries (dieOf n) w).any (fun e => e.core != n)

/-- An acquire of core `n` drops every word of its L1 that it does not own (R199), and one that it owns where its die's outbound queue
holds a later store of another core, which the acquire may have synchronised with (R192, R193; DEDUCED, log 10). -/
def State.invalidate (s : State) (n : Nat) : State :=
  let c := s.coreAt n
  s.putCore n { c with l1 := c.l1.filter (fun e => SMap.get s.owner e.1 0 == n + 1 && !s.queuedOther n e.1) }

/-- A release of core `n` in place `seq` has been performed: another core of the die may have been given what its earlier stores left in
the outbound queue (R192, R193, R201). -/
def State.publish (s : State) (n seq : Nat) : State :=
  { s with outq := s.outq.map (fun e => if e.2.core == n && decide (e.2.seq < seq) then (e.1, { e.2 with seen := true }) else e) }

/-! ## Scale tickets (R417) -/

/-- A counter of a context raised. -/
def State.ticket (s : State) (ctx i n : Nat) : State :=
  if n = 0 then s
  else
    let t := SMap.get s.hub.tickets ctx { live := [], shown := [] }
    { s with hub := { s.hub with
        tickets := SMap.put s.hub.tickets ctx { t with live := SMap.set t.live i (SMap.get t.live i 0 + n) 0 } } }

/-- The counter of bytes moved in a space. -/
def Space.ticketNo (sp : Space) : Nat :=
  match sp with
  | .slices => 6 | .scratch => 7 | .cluster => 8 | .loft => 9 | .main => 10 | .code => 10

/-- Bytes moved by core `n`. -/
def State.moved (s : State) (n : Nat) (sp : Space) (k : Nat) : State := s.ticket (s.coreAt n).ctx sp.ticketNo k

/-! ## Order among the accesses of one core -/

/-- The engine operation writes main memory. -/
def Engine.stores (e : Engine) : Bool :=
  match e.kind with
  | .tileStore _ | .scatter _ | .spill _ | .kvstore _ | .kvfree | .kvho => true
  | _ => false

/-- A ring fill, which may wait for pops that come later in program order. -/
def Engine.isFill (e : Engine) : Bool := match e.kind with | .fill _ => true | _ => false

/-- An engine operation of a deterministic launch whose accesses to memory have all been made: a store is kept only for the
stalls of later accesses and of its tile (R178, R395), a load until it lands at its time. -/
def Engine.ended (e : Engine) : Bool :=
  e.work.isEmpty &&
    (match e.kind with
     | .tileStore _ | .scatter _ | .kvstore _ => decide (e.padEnd ≠ 0)
     | .spill _ => e.virt.isEmpty && decide (e.padEnd ≠ 0)
     | .tileLoad _ | .gather _ | .kvload _ _ => decide (e.due ≠ 0)
     | _ => false)

/-- The addresses of an entry of the store buffer. -/
def SbEntry.addrs (e : SbEntry) : List Nat := e.bytes.map (·.1)

/-- The result's value has been taken from memory, or it needs none: what a release waits for (R198). -/
def PendLoad.taken (l : PendLoad) : Bool :=
  l.arrived.isSome || (!l.away && l.kind != .bytes && l.kind != .spread)

/-- An acquire of the core before place `seq` is not complete (R199, R203, R206). -/
def Core.acquiring (c : Core) (seq : Nat) : Bool :=
  c.loads.any (fun l => decide (l.seq < seq) && decide (l.acq ≠ 0) && l.arrived.isNone) ||
    c.fences.any (fun f => decide (f.seq < seq) && !f.done && f.kind != 1 && decide (f.scope ≠ 0)) ||
    c.timed.any (fun x => decide (x.seq < seq) && decide (x.acq ≠ 0)) ||
    c.engines.any (fun e => decide (e.seq < seq) && decide (e.acq ≠ 0) && !e.ended) ||
    c.sb.any (fun e => decide (e.seq < seq) && decide (e.rel ≠ 0) && e.dest.isSome &&
      (match e.kind with | .atomic _ _ _ _ => true | _ => false))

/-- A release fence of the core before place `seq` is not complete (R203). -/
def Core.fencing (c : Core) (seq : Nat) : Bool :=
  c.fences.any (fun f => decide (f.seq < seq) && !f.done && f.kind != 2 && decide (f.scope ≠ 0))

/-- An access of core `n` to a worked page has not been performed or refused. -/
def State.workedLeft (s : State) (n seq : Nat) (loads : Bool) : Bool :=
  s.dies.any (fun d => d.2.accesses.any (fun a => a.core == n && decide (a.seq < seq) && (loads || !a.load)))

/-- The space of a timed access. -/
def Timed.space (x : Timed) : Space :=
  match x.act with
  | .store sp _ _ => sp
  | .load sp _ _ _ _ => sp
  | _ => .cluster

/-- It accesses the loft or cluster memory; a chunk on its way into a tile, or from one to an engine, does not. -/
def Timed.inMemory (x : Timed) : Bool :=
  match x.act with
  | .chunkWrite _ _ _ _ _ _ => false
  | .engineTake _ _ _ => false
  | _ => x.space == .loft || x.space == .cluster

/-- It writes memory, or takes bytes that it will write. -/
def Timed.stores (x : Timed) : Bool :=
  match x.act with
  | .store _ _ _ => true
  | .chunkTake _ _ _ => true
  | _ => false

/-- The bytes that a timed access moves. -/
def Timed.size (x : Timed) : Nat :=
  match x.act with
  | .store _ bs _ => bs.length
  | .load _ _ k _ _ => k
  | .chunkRead _ items _ _ _ _ => items.length
  | .chunkWrite _ _ _ _ _ _ => 0
  | .chunkTake _ _ _ => 0
  | .engineTake _ _ _ => 0

/-- A push to a write flume by an operation at or before place `seq` has not landed (R183). A freeze takes such a result into
the snapshot buffer, where nothing waits for it. -/
def Core.flumePushing (c : Core) (seq : Nat) : Bool :=
  let early (f : Flight) : Bool := (match f.dest with | .flume _ => true | _ => false) && decide (f.seq ≤ seq)
  c.entering.isNone && (c.flights.any early || c.timed.any (fun x => match x.act with | .load _ _ _ _ f => early f | _ => false))

/-- A push to a write flume by an operation at or before place `seq` has landed and has not been performed (R184). -/
def Core.flumePushed (c : Core) (seq : Nat) : Bool :=
  c.flumes.any (fun f => f.shape.write && f.buf.any (fun e => decide (e.2.2 ≤ seq)))

/-- The ring of a fill or spill. -/
def Engine.ringNo (e : Engine) : Nat := match e.kind with | .fill h => h | .spill h => h | _ => 0

/-- A spill. -/
def Engine.isSpill (e : Engine) : Bool := match e.kind with | .spill _ => true | _ => false

/-- An earlier operation of the core on the ring of `e`, of its kind. -/
def Core.ringBefore (c : Core) (e : Engine) : Bool :=
  c.engines.any (fun x => decide (x.seq < e.seq) && x.isFill == e.isFill && (x.isFill || x.isSpill) && x.ringNo == e.ringNo && !x.ended)

/-- Cycles of one ring entry: its bytes / 64. -/
def Core.ringStep (c : Core) (h : Nat) : Nat := (c.ringReg h).entryBytes / 64

/-- Drains on their way into ring `h`, those of a frozen context among them: each takes a place when it lands (R232). -/
def Core.drainsInto (c : Core) (h : Nat) : Nat :=
  ((c.flights ++ (match c.held with | some x => x.flights | none => [])).filter (fun f =>
    match f.dest with | .ringRow k _ => k == h | _ => false)).length

/-- The issue time of an operation at place `seq`: of the code under a handler, that of the freeze. -/
def Core.timeOf (c : Core) (seq : Nat) : Nat :=
  match c.held with
  | some h => if c.sup && decide (seq < c.supFrom) then h.time else c.time
  | none => c.time

/-- The issue time `due` of an operation at place `seq` has come, as far as a deterministic launch goes by it: a handler's own operations
go by no such time. Nothing lands before it, in a freeze neither, but what the handler itself waits for: `aw`, and once it saves the
context everything (R355, R367, R395, R400; DEDUCED, log 77). -/
def Core.comes (c : Core) (seq due : Nat) (aw : Bool) : Bool :=
  !c.determ || aw || c.drains || (c.sup && (decide (c.supFrom ≤ seq) || c.held.isNone)) || decide (due ≤ c.timeOf seq)

/-- The times of a deterministic launch do not hold back an effect on memory: outside one, in a handler, and during a freeze, whose
issue time stands (R424). -/
def Core.untimed (c : Core) : Bool := !c.det || c.entering.isSome

/-- A ring has a place for the next entry of a fill, and in a deterministic launch its time has come (R233, R395). -/
def Core.fillRoom (c : Core) (e : Engine) : Bool :=
  let r := c.ringReg e.ringNo
  e.isFill && !e.virt.isEmpty && decide (r.count + c.drainsInto e.ringNo < r.entries) && !c.ringBefore e &&
    c.comes e.seq (e.due + c.ringStep e.ringNo * (e.done + 1)) false

/-- A ring fill that cannot go on before the program does: its ring has no room, its time has not come, or it has a fault (R233, R250,
R395). -/
def Core.fillStuck (c : Core) (e : Engine) : Bool := e.isFill && (e.fault.isSome || !c.fillRoom e)

/-- The waits of a release at scope `k` in place `seq` of core `n`'s program order (R198, R208): every earlier load and engine read has
its value, every earlier on-chip access, store, engine write and flume push is performed. A wait that stops issue, `stop`, does not
wait for a ring fill that can only go on with issue (DEDUCED, log 40). -/
def State.released (s : State) (n seq k : Nat) (stop : Bool) : Bool :=
  let c := s.coreAt n
  c.loads.all (fun l => decide (seq ≤ l.seq) || l.taken) && c.timed.all (fun x => decide (seq ≤ x.seq) || !x.inMemory) &&
    c.sb.all (fun e => decide (seq ≤ e.seq)) && (c.sw.segState.getLsbD 63 || c.seg.held.isEmpty) &&
    c.engines.all (fun e => decide (seq ≤ e.seq) || e.ended || (stop && c.fillStuck e)) && !c.flumePushing seq && !c.flumePushed seq &&
    !s.workedLeft n seq true && (decide (k < 3) || s.outq.all (fun e => e.2.core != n || decide (seq ≤ e.2.seq)))

/-- A timed access may be made: its comparison is known, and in the loft and cluster memory the acquires, the release
fences and the waits of its own release before it have ended (R198, R199). -/
def State.timedReady (s : State) (n : Nat) (x : Timed) : Bool :=
  let c := s.coreAt n
  x.gd.isNone &&
    (!x.inMemory ||
      (!c.acquiring x.seq && (!x.stores || !c.fencing x.seq) && (decide (x.rel = 0) || s.released n x.seq x.rel true)))

/-! ## Timed on-chip accesses -/

/-- The bits of a tile with the given bytes replaced. -/
def tileBytes (v : BitVec 131072) (bs : List (Nat × Byte)) : BitVec 131072 :=
  bs.foldl (fun v e => fieldPut v (8 * e.1) 8 e.2.toNat) v

/-- One byte of a tile. -/
def TReg.byte (t : TReg) (i : Nat) : Byte := t.val.extractLsb' (8 * i) 8

/-- The element groups of 64 bytes that a list of tile bytes touches, with the poison each takes. -/
def groupsOf (items : List (Nat × Bool)) : List (Nat × Bool) :=
  items.foldl (fun l e =>
    match l.find? (fun x => x.1 == e.1 / 64) with
    | some x => (e.1 / 64, x.2 || e.2) :: l.filter (fun y => y.1 != e.1 / 64)
    | none => (e.1 / 64, e.2) :: l) []

/-- The tile at the first piece of a transfer: the tag, and the bytes from `rest` on 0, with the poison of the groups that lie wholly
there clear (R174, R177). Every byte that the transfer has still to write stays as it was (R164). -/
def TReg.begin (r : TReg) (tag : BitVec 4) (rest : Nat) : TReg :=
  if rest < 16384 then
    { r with
      tag := tag
      val := (r.val.setWidth (8 * rest)).setWidth 131072
      poison := (r.poison.setWidth ((rest + 63) / 64)).setWidth 256 }
  else { r with tag := tag }

/-- Tile bytes and group poison written: one piece of a transfer. `rest` is the byte from which the rest of the tile becomes 0, and lies
beyond 16,384 where other bytes keep their contents, and with them the poison of a group that is written in part; elsewhere the piece
that holds a group's first byte begins its poison anew (R174, R177). -/
def Core.writeTile (c : Core) (t : Nat) (bs : List (Nat × Byte)) (gs : List (Nat × Bool)) (tag : BitVec 4) (rest : Nat) (first : Bool) :
    Core :=
  let r := if first then (c.treg t).begin tag rest else c.treg t
  let anew (g : Nat) : Bool :=
    decide ((bs.filter (fun b => b.1 / 64 == g)).length = 64) || (decide (rest ≤ 16384) && bs.any (fun b => b.1 == 64 * g))
  c.putT t { r with
    val := tileBytes r.val bs,
    poison := gs.foldl (fun p e => fieldPut p e.1 1 (if e.2 || (p.getLsbD e.1 && !anew e.1) then 1 else 0)) r.poison }

/-- The value that a load of `size` bytes reads, as 1,024 bits, with the poison of each of its words. A load of the
whole register (`size` below 128) joins its words' poison into bit 0; `spread` puts one word into every lane. -/
def State.loadValue (s : State) (n : Nat) (sp : Space) (addr size : Nat) (spread : Bool) : Nat × Nat :=
  if spread then
    let v := s.spaceNum n sp addr 4
    ((List.range 32).foldl (fun x j => x + v * 2 ^ (32 * j)) 0, if s.spaceAnyPois n sp addr 4 then 2 ^ 32 - 1 else 0)
  else if size < 128 then (s.spaceNum n sp addr size, if s.spaceAnyPois n sp addr size then 1 else 0)
  else
    (s.spaceNum n sp addr size,
      (List.range 32).foldl (fun x j => if s.spaceAnyPois n sp (addr + 4 * j) 4 then x + 2 ^ j else x) 0)

/-- `c` with the held lines that an access at place `seq` finds: those of the stores before it (R190, R382). -/
def Core.heldBefore (c : Core) (seq : Nat) : Core :=
  { c with seg := { c.seg with
      lines := (c.seg.held.filter (fun e => decide (e.seq < seq))).foldl (fun l e => mergeStore l e.space e.bytes e.words) [] } }

/-- One timed access performed (R157, R164). -/
def State.performTimed (s : State) (n : Nat) (x : Timed) : State :=
  match x.act with
  | .store sp bs ws => s.spaceStore n sp bs ws
  | .load sp a k spread f =>
    let (v, p) := (s.putCore n ((s.coreAt n).heldBefore x.seq)).loadValue n sp a k spread
    let c := s.coreAt n
    s.putCore n (c.emit { f with val := BitVec.ofNat 8192 v, poison := BitVec.ofNat 256 p })
  | .chunkRead t items land tag rest first =>
    let bs := items.map (fun e => (e.1, s.spaceByte n .cluster e.2))
    let gs := groupsOf (items.map (fun e => (e.1, s.spacePois n .cluster (e.2 / 4))))
    let c := s.coreAt n
    s.putCore n { c with timed := c.timed ++ [{ due := land, seq := x.seq, rel := 0, acq := 0, gd := none, act := .chunkWrite t bs gs tag rest first }] }
  | .chunkWrite t bs gs tag rest first =>
    let c := s.coreAt n
    s.putCore n (c.writeTile t bs gs tag rest first)
  | .chunkTake t items due =>
    let c := s.coreAt n
    let r := c.treg t
    let bs := items.map (fun e => (e.2, r.byte e.1))
    let ws := wordsOfBytes (items.map (fun e => (e.2, r.poison.getLsbD (e.1 / 64))))
    s.putCore n { c with timed := c.timed ++ [{ due := due, seq := x.seq, rel := 0, acq := 0, gd := none, act := .store .cluster bs ws }] }
  | .engineTake t items seq =>
    let c := s.coreAt n
    let r := c.treg t
    s.putCore n { c with engines := c.engines.map (fun e =>
      if e.seq = seq then { e with buf := e.buf ++ items.map (fun i => (r.byte i, r.poison.getLsbD (i / 64))) } else e) }

/-- One timed access made and taken from the list; an acquire then drops the words that the core does not own (R199). -/
def State.runTimed (s : State) (n : Nat) (x : Timed) (rest : List Timed) : State :=
  let s1 := ((s.putCore n { s.coreAt n with timed := rest }).moved n x.space x.size).performTimed n x
  let s2 := if x.rel = 0 then s1 else s1.publish n x.seq
  if x.acq = 0 then s2 else s2.invalidate n

/-- The first of a core's timed accesses that `p` admits and that may be made: the earliest, in issue order among equals. In
the loft and in cluster memory one that may not be made yet keeps back those behind it in its space (R164). -/
def State.nextTimed (s : State) (n : Nat) (p : Timed → Bool) : Option (Timed × List Timed) :=
  let l := (s.coreAt n).timed
  let behind (x y : Timed) : Bool :=
    y.inMemory && x.inMemory && y.space == x.space && (decide (y.due < x.due) || (y.due == x.due && decide (y.seq < x.seq)))
  let ok (x : Timed) : Bool := p x && s.timedReady n x && l.all (fun y => !behind x y || y.gd.isSome || s.timedReady n y)
  match (l.filter ok).map (·.due) with
  | [] => none
  | d :: ds =>
    let m := ds.foldl min d
    takeFirst (fun x => ok x && x.due == m) l

/-- The timed accesses of core `n` that may be made, made in their order with those they lead to: what a freeze completes
(DESIGN CHOICE, log 11). -/
def State.drainTimed (s : State) (n fuel : Nat) : State :=
  match fuel with
  | 0 => s
  | fuel + 1 =>
    match s.nextTimed n (fun _ => true) with
    | none => s
    | some (x, rest) => (s.runTimed n x rest).drainTimed n fuel

/-- Every operand pop pending is made (R233, R251). -/
def Core.popRings (c : Core) (now : Nat) : Core :=
  let due := c.pops.filter (fun p => decide (p.due ≤ now))
  let c1 := due.foldl (fun c p =>
    let r := c.ringReg p.ring
    if r.entries = 0 then c
    else c.putRing p.ring { r with head := (r.head + p.n) % r.entries, count := r.count - p.n }) c
  { c1 with pops := c.pops.filter (fun p => decide (now < p.due)) }

/-! ## D-pairs (R378) -/

/-- The 32-bit lanes in which two results differ. -/
def laneDiff (a b : Vec) : Nat :=
  (List.range 32).foldl (fun m j => if a.extractLsb' (32 * j) 32 = b.extractLsb' (32 * j) 32 then m else m + 2 ^ j) 0

/-- The V1 result of a D-pair differs from V0's in a bit, its tag or its poison (R378). -/
def Flight.differs (f : Flight) : Bool :=
  match f.twin with
  | none => false
  | some (v, tag, p) => decide (f.val.setWidth 1024 ≠ v ∨ f.tag ≠ tag ∨ f.poison.setWidth 32 ≠ p)

/-- The 32-bit lanes in which the two results of a D-pair differ: bit j of a lane mask stands for lane j. -/
def Flight.diffLanes (f : Flight) : Nat :=
  match f.twin with
  | none => 0
  | some (v, _, p) =>
    match f.dest with
    | .mask _ => (f.val.setWidth 32 ^^^ v.setWidth 32).toNat
    | _ => laneDiff (f.val.setWidth 1024) v ||| (f.poison.setWidth 32 ^^^ p).toNat

/-- Two results of one operation, such as those of V.RCHK. -/
def Flight.mate (f g : Flight) : Bool := f.issued == g.issued && f.pc == g.pc && f.slot == g.slot

/-- A result after the comparison of its D-pair: V0's, and where the comparison failed with every lane poisoned and the
mismatch flag set. -/
def Flight.compared (f : Flight) (bad : Bool) : Flight :=
  if bad then
    { f with twin := none, mismatch := true, poison := (match f.dest with | .mask _ => 1#256 | _ => 0xFFFFFFFF#256) }
  else { f with twin := none }

/-- What the comparison of the issue at time `t` leaves of the guarded operations that wait for it (R124, R170): they
proceed, a store into the L1 too (R197), or the store is dropped and the branch fails. -/
def Core.decideGuard (c : Core) (t : Nat) (ok : Bool) : Core :=
  let won := (c.sb.filter (fun e => ok && e.gd == some t)).map (·.seq)
  let c1 : Core := { c with
    sb := (c.sb.filter (fun e => ok || e.gd != some t)).map (fun e => if e.gd == some t then { e with gd := none } else e),
    timed := (c.timed.filter (fun e => ok || e.gd != some t)).map
      (fun e => if e.gd == some t then { e with gd := none } else e),
    xfer := c.xfer.map (fun x => if x.guarded && x.issued == t && !ok then { x with failed := true } else x) }
  match won with
  | [] => c1
  | k :: r => c1.l1Settle (r.foldl min k)

/-- Every D-pair comparison of core `n` that is chosen completes, each operation that fails with its record of type 5. The
results of one operation are judged as one (R378). -/
def State.compareTwins (s : State) (n : Nat) (which : Flight → Bool) : State :=
  let c := s.coreAt n
  let done := c.flights.filter (fun f => which f && f.twin.isSome)
  let bad (f : Flight) : Bool := done.any (fun g => f.mate g && g.differs)
  let c1 := { c with flights := c.flights.map (fun f => if which f && f.twin.isSome then f.compared (bad f) else f) }
  let c2 := done.foldl (fun c f => c.decideGuard f.issued (!bad f)) c1
  let firsts := (List.range done.length).filterMap (fun i =>
    match done[i]? with
    | some f => if bad f && !(done.take i).any f.mate then some f else none
    | none => none)
  firsts.foldl (fun s f =>
    s.record n (c.errRec 5 1 1 0 f.pc [(0, 1, f.opcode),
      (4, 4, (done.filter f.mate).foldl (fun m g => m ||| g.diffLanes) 0)])) (s.putCore n c2)

/-! ## Segments (R379 to R388) -/

/-- The segment's counters and buffers emptied, as a commit leaves them (R380). -/
def Core.closeSegment (c : Core) : Core :=
  { c with
    seg := { c.seg with journal := [], lines := [], held := [] },
    sw := { c.sw with segState := fieldPut (fieldPut c.sw.segState 45 15 0) 60 4 0 },
    flights := c.flights.map (fun f => { f with seg := false }),
    loads := c.loads.map (fun l => { l with seg := false }) }

/-- One held on-chip store performed at the commit; one that finds an access of its space, or a store, issued before it on its way follows
that one, so that the held stores are performed in program order, and stays before those issued after it (R380). -/
def State.releaseHeld (s : State) (n : Nat) (e : SbEntry) : State :=
  let c := s.coreAt n
  let before (x : Timed) : Bool := decide (x.seq < e.seq)
  match (c.timed.filter (fun x => before x && (x.space == e.space || x.stores))).map (·.due) with
  | [] => (s.spaceStore n e.space e.bytes e.words).moved n e.space e.bytes.length
  | d :: r =>
    let x : Timed := {
      due := r.foldl max d, seq := e.seq, rel := 0, acq := 0, gd := none, act := .store e.space e.bytes e.words }
    s.putCore n { c with timed := c.timed.filter before ++ x :: c.timed.filter (fun y => !before y) }

/-- The C1 stores of a committed segment enter the store buffer as it has places, in program order (R342, R380). -/
def State.refill (s : State) (n : Nat) : State :=
  let c := s.coreAt n
  let k := 32 - c.sb.length
  if c.sw.segState.getLsbD 63 then s
  else
    s.putCore n ((c.seg.held.take k).foldl
      (fun c e => Core.l1Write { c with sb := c.sb ++ [{ e with seg := false }] } e.bytes e.words)
      { c with seg := { c.seg with held := c.seg.held.drop k } })

/-- The open segment of core `n` commits (R380); its D-pair comparisons are complete. -/
def State.commitSegment (s : State) (n : Nat) : State :=
  let c := s.coreAt n
  let c1 := c.closeSegment
  let s1 := s.putCore n { c1 with seg := { c1.seg with held := c.seg.held.filter (fun e => e.space == .main) } }
  ((c.seg.held.filter (fun e => e.space != .main)).foldl (fun s e => s.releaseHeld n e) s1).refill n

/-- RETRY of SEG_STATE (R383). -/
def Core.retry (c : Core) : Nat := fieldGet c.sw.segState 61 2

/-- Header address of the SE bundle (R383). -/
def Core.segEntry (c : Core) : Word := BitVec.ofNat 64 (fieldGet c.sw.segState 0 45 * 8)

/-- The decisions of a gang's lead up to the last opening of a segment, which stands among them as 16 + RETRY (R327, R388), with
RETRY raised to `r`. -/
def sinceEntry (r : Nat) (l : List (Word × Nat × Option Word)) : List (Word × Nat × Option Word) :=
  match l.reverse.dropWhile (fun d => decide (d.2.1 < 16)) with
  | [] => []
  | d :: rest => rest.reverse ++ [(d.1, 16 + r, d.2.2)]

/-- How many of the first `k` decisions a member that rewinds has reached: those up to the opening of its segment. -/
def reachedAt (k : Nat) (l : List (Word × Nat × Option Word)) : Nat :=
  ((l.take k).reverse.dropWhile (fun d => decide (d.2.1 < 16))).length

/-- The rewind of core `n` (R385) for the trap `x`, whose bundle and slot its record names, and after it the issue in cycle `at_`. -/
def State.rewindCore (s : State) (n at_ : Nat) (x : Trap) : State :=
  let c := s.coreAt n
  let cancelled := c.loads.filter (·.seg)
  let c1 : Core := { c with
    flights := c.flights.filter (fun f => !f.seg),
    timed := c.timed.filter (fun x => match x.act with | .load _ _ _ _ f => !f.seg | _ => true),
    loads := c.loads.filter (fun l => !l.seg) }
  let c2 := cancelled.foldl (fun c l =>
    match l.dest with
    | .scalar k => c.putS k { c.sreg k with pend := false }
    | .vec k _ => c.putV k { c.vreg k with pend := false }) c1
  let c3 := c2.seg.journal.foldl Core.restore c2
  let r := c.retry + 1
  let c4 : Core := { c3 with
    seg := { c3.seg with journal := [], lines := [], held := [], opened := at_ },
    sw := { c3.sw with segState := fieldPut (fieldPut c3.sw.segState 45 16 0) 61 2 r },
    xfer := none, slip := none, issue := none, cap := [], capTree := none, pc := c.segEntry,
    next := at_, padDone := false,
    charged := true, rewound := true, rvDone := false,
    async := c.async.filter (fun t => !t.seg), supAsync := c.supAsync.filter (fun t => !t.seg) }
  (s.putCore n c4).record n (c.errRec 6 4 x.slot c.segEntry.toNat x.pc [(0, 1, r), (1, 1, x.code)])

/-- The cores of a core's gang; the core alone outside a gang (R327). -/
def Core.gangCores (c : Core) : List Nat :=
  let g := fieldGet c.sw.gangPos 20 4
  if g = 0 then [c.id]
  else (List.range (2 ^ g)).map (fun i => c.id - fieldGet c.sw.gangPos 16 4 + i)

/-- What the lead of a gang has done reaches its members, each of which takes it up at its own skew (R327). -/
def State.tellGang (s : State) (n : Nat) (f : UnitInfo → UnitInfo) : State :=
  match (s.coreAt n).unit with
  | none => s
  | some u =>
    if u.gang ≤ 1 ∨ u.pos ≠ 0 then s
    else
      ((s.coreAt n).gangCores.filter (· != n)).foldl (fun s k =>
        let c := s.coreAt k
        s.putCore k { c with unit := c.unit.map (fun (v : UnitInfo) => if v.launch = u.launch then f v else v) }) s

/-- A gang member's account of its lead's decisions after a rewind: those of the lead end at the entry where it rewinds too, and the
member has reached those before the entry where it does. -/
def UnitInfo.back (u : UnitInfo) (lead me : Bool) (r : Nat) : UnitInfo :=
  let l := if lead then sinceEntry r u.decisions else u.decisions
  { u with
    decisions := l, reached := if me then reachedAt u.reached u.decisions else min u.reached l.length
    issues := if me then u.entry else u.issues }

/-- A rewind of any member of a gang rewinds every member that stands in the same segment, and they keep their skew (R327, R388). One
that its skew has not yet brought to the entry is kept back by as many cycles as the others lose, and takes RETRY as it opens the
segment. A handler rewinds alone. -/
def State.rewind (s : State) (n : Nat) (x : Trap) : State :=
  let me := s.coreAt n
  let pos (c : Core) : Nat := fieldGet c.sw.gangPos 16 4
  let within (k : Nat) : Bool := k == n || ((s.coreAt k).segOpen && !(s.coreAt k).sup && (s.coreAt k).segEntry == me.segEntry)
  let now := (me.gangCores.map (fun k => let c := s.coreAt k; if c.ctx == me.ctx && !c.sup then c.time else 0)).foldl max me.time
  let lost := now + 4 * pos me - me.seg.opened
  let lead := within (n - pos me)
  if me.sup then s.rewindCore n me.time x
  else
    me.gangCores.foldl (fun s k =>
      let c := s.coreAt k
      let c1 : Core := { c with unit := c.unit.map (fun (u : UnitInfo) => u.back lead (within k) (me.retry + 1)) }
      if within k then (s.putCore k c1).rewindCore k (now + 4 * pos c) x
      else if c.ctx == me.ctx && decide (pos me < pos c) then s.putCore k { c1 with next := max c.next c.time + lost }
      else s) s

/-! ## Taking an exception -/

/-- TRAP_CAUSE of a trap (R362). -/
def Trap.cause (t : Trap) : Word :=
  BitVec.ofNat 64 (t.code % 2 ^ 16 + (if t.async then 2 ^ 31 else 0) + t.slot % 16 * 2 ^ 32 + t.sub % 256 * 2 ^ 40)

/-- FAULT_INFO of a trap (R362). -/
def Trap.info (t : Trap) : Word :=
  BitVec.ofNat 64 (t.size % 256 + t.level % 256 * 2 ^ 8 + t.kind % 256 * 2 ^ 16 + t.space % 256 * 2 ^ 24 +
    t.data % 2 ^ 32 * 2 ^ 32)

/-- A trap of a bundle with every other field of its record 0 and no slot. -/
def Trap.bare (code : Nat) (pc : Word) : Trap :=
  { code := code, sub := 0, slot := 0xF, async := false, pc := pc, addr := 0, data := 0, space := 0, kind := 0, level := 0,
    size := 0, seg := false }

/-- A pending bit of s0 to s15 is set, for which handler entry waits (R359). -/
def Core.lowPending (c : Core) : Bool := (List.range 16).any (fun n => (c.sreg n).pend)

/-- The bank of s0 to s15 or p1 to p15 taken out of a register set. -/
def bankOf {α : Type} (m : SMap α) : SMap α := m.filter (fun e => decide (e.1 < 16))
/-- The registers outside the bank. -/
def bankRest {α : Type} (m : SMap α) : SMap α := m.filter (fun e => decide (16 ≤ e.1))

/-- Handler entry of core `n` (R359) on a freeze whose on-chip accesses and comparisons have completed: the trap words,
the supervisor bank, PRIV, and the next bundle from TRAP_VEC. An event that is entered while a bundle has yet to issue again keeps that
bundle's captured operands, and a skip that it was given (R357, R425). -/
def Core.enter (c : Core) (t : Trap) (atIssue : Bool) : Core :=
  let h : Held := {
    s := bankOf c.s, p := bankOf c.p, rot := c.sw.rot, lc := c.sw.lc, depth := c.sw.depth, repc := c.sw.repc,
    beatNow := c.sw.beatNow, latches := c.latch, pc := c.pc, time := c.time, next := c.next, flights := c.flights,
    xfer := c.xfer, slip := c.slip, cap := c.cap, capTree := c.capTree, atIssue := atIssue, skip := c.skipNext,
    c0free := c.c0free, charged := c.charged, rvDone := c.rvDone, first := t,
    drainCount := c.arr.drainCount, padDone := c.padDone, noOpen := c.noOpen, phaseIndex := c.phase.index }
  { c with
    held := some h, s := bankRest c.s, p := bankRest c.p, latch := [], flights := [], timed := [], wants := [], drains := false, xfer := none,
    slip := none, cap := [], capTree := none, issue := none, charged := false, hold := .none, entering := none,
    rvDone := false, skipNext := false, padDone := false, noOpen := false, supSeg := false, rewound := false, time := 0, next := 0, c0free := 0, waiting := none, fetch := [], supFrom := c.seq,
    supAsync := [],
    engines := c.engines.map (fun e => { e with frozen := true }),
    flumes := c.flumes.map (fun f => if f.shape.write then f else { f with buf := [], moved := f.next, fault := none }),
    sw := { c.sw with
      rot := 0, lc := 0, depth := 0, repc := 0, beatNow := 0, trapCause := t.cause,
      trapPc := t.pc &&& 0xFFFFFFFFFFFF#64, faultAddr := t.addr, faultInfo := t.info,
      priv := fieldPut c.sw.priv 0 3 3 },
    phase := { c.phase with running := false },
    pc := c.sw.trapVec &&& 0xFFFFFFFFFFC0#64 }

/-- Handler entry waits: for the pending bits of s0 to s15 (R359); for the on-chip accesses issued before the freeze, of which
none may be made now (R198, R199; log 11); or, on a core that the debugger holds, for the next step (R368). -/
def State.entryWaits (s : State) (n : Nat) : Bool :=
  let c := s.coreAt n
  c.lowPending || (c.debugStop && !c.debugStep) ||
    (c.timed.any (·.inMemory) && (s.nextTimed n (fun _ => true)).isNone)

/-- Handler entry of core `n` at its freeze (R355), whose comparisons and on-chip accesses are complete. -/
def State.freezeNow (s : State) (n : Nat) (t : Trap) (atIssue : Bool) : State :=
  let c1 := (s.coreAt n).popRings ((s.coreAt n).time + 1)
  s.putCore n (c1.enter t atIssue)

/-- The entry that core `n` is making goes on: the on-chip accesses that may be made are made, and once nothing is awaited it
completes. -/
def State.goEnter (s : State) (n : Nat) : State :=
  let s1 := s.drainTimed n (4 * (s.coreAt n).timed.length + 4)
  match (s1.coreAt n).entering with
  | none => s
  | some (t, atIssue) =>
    if s1.entryWaits n || (s1.coreAt n).timed.any (·.inMemory) then s1 else s1.freezeNow n t atIssue

/-- The freeze and handler entry of core `n`: at once, or as soon as its wait ends (the HANDLER_ENTRY row then completes it). A
trap met during a step of the debugger is that step's outcome, and enters the handler when stepping resumes (R368). -/
def State.freeze (s : State) (n : Nat) (t : Trap) (atIssue : Bool) : State :=
  let c := s.coreAt n
  let s1 := s.putCore n { c with entering := some (t, atIssue), issue := none, hold := .none, debugStep := false }
  (s1.compareTwins n (fun f => f.twin.isSome)).goEnter n

/-- A trap in supervisor mode (R361): SCODE, SFLT and the handler's second entry; a second one stops the core with a
record of type 2, and the unit counts as failed with the cause of the first trap. -/
def State.supervisorFault (s : State) (n : Nat) (t : Trap) : State :=
  let c := s.coreAt n
  if c.sw.priv.getLsbD 2 then
    let first := match c.held with | some h => h.first | none => { Trap.bare 0x23 0 with addr := c.sw.faultAddr }
    let s1 := s.record n (c.errRec 2 3 0xF first.pc.toNat t.pc
      [(0, 2, first.code), (2, 2, t.code), (8, 8, first.addr.toNat)])
    let c1 := s1.coreAt n
    s1.putCore n { c1 with running := false, issue := none, hold := .none, entering := none, failed := some first.code }
  else
    s.putCore n { c with
      sw := { c.sw with priv := fieldPut (fieldPut c.sw.priv 16 16 t.code) 2 1 1, repc := 0 }, debugStep := false,
      pc := (c.sw.trapVec &&& 0xFFFFFFFFFFC0#64) + 64#64, issue := none, xfer := none, slip := none,
      cap := [], capTree := none, charged := false, hold := .none, rvDone := false, padDone := false, noOpen := false,
      fetch := c.fetch.filter (fun l => !l.faulted) }

/-- The events due at a boundary with one more; events of one cause merge into a single trap (R354). -/
def addEvent (l : List Trap) (t : Trap) : List Trap :=
  if l.any (fun x => x.code == t.code) then l.map (fun x => if x.code == t.code then { x with seg := x.seg && t.seg } else x)
  else l ++ [{ t with async := true }]

/-- An event of the unit due at the next boundary. -/
def Core.addAsync (c : Core) (t : Trap) : Core := { c with async := addEvent c.async t }

/-- The record of a poisoned page-table entry (R369, R392): type 12, with the address of the entry. -/
def State.recordWalk (s : State) (n ctx va level slot : Nat) (pc : Word) : State :=
  match pteOf s ctx va level with
  | none => s
  | some a => s.record n ((s.coreAt n).errRec 12 3 slot a pc [(0, 8, va), (8, 1, level)])

/-- The record that a trap of translation writes: of a poisoned entry, or of a walker's access to a worked page, which carries no tag (R278,
R369, R392). -/
def State.recordTrap (s : State) (n : Nat) (t : Trap) : State :=
  let c := s.coreAt n
  if t.code == 0x0A && t.sub == 3 then s.recordWalk n c.ctx t.addr.toNat t.level t.slot t.pc
  else
    match (if t.code == 7 then s.tableWorked c.ctx t.addr.toNat else none) with
    | none => s
    | some (a, _) =>
      let b := (s.dieAt (homeDie a)).beat % 2 ^ 48
      s.record n { c.errRec 7 2 t.slot t.addr.toNat t.pc [(0, 8, b), (8, 8, b), (16, 8, a)] with die := homeDie a }

/-- An event of an operation that core `n` issued at place `seq`, due at the next boundary; the handler's own, where the running
handler issued it, is a supervisor fault there (R361). Each event that meets a poisoned page-table entry writes its record, though it
may merge with another (R354, R369). -/
def State.boundary (s : State) (n seq : Nat) (t : Trap) : State :=
  let s1 := s.recordTrap n t
  let c := s1.coreAt n
  s1.putCore n (if c.sup && decide (c.supFrom ≤ seq) then { c with supAsync := addEvent c.supAsync t } else c.addAsync t)

/-- Outside the retries of an open segment: the exhausted retries are recorded, then the freeze, or in a handler the supervisor fault
(R361, R386). -/
def State.exhausted (s : State) (n : Nat) (t : Trap) (atIssue : Bool) : State :=
  let c := s.coreAt n
  let s1 := s.record n (c.errRec 6 5 t.slot c.segEntry.toNat t.pc [(0, 1, c.retry), (1, 1, t.code)])
  if c.sup then s1.supervisorFault n t else s1.freeze n t atIssue

/-- The silent-mismatch trap of a D-pair (R378): one whose result carries the mismatch flag is named, and the flag is
taken from it. -/
def Core.mismatchTrap (c : Core) : Trap × Core :=
  match c.flights.find? (·.mismatch) with
  | none => (Trap.bare 5 c.pc, c)
  | some f =>
    ({ Trap.bare 5 f.pc with async := true, seg := f.seg },
      { c with flights := c.flights.map (fun x => if x.mismatch && x.pc == f.pc && x.issued == f.issued then { x with mismatch := false } else x) })

/-- The open segment of core `n` commits once its D-pair comparisons have completed; a failed one rewinds the segment, or
traps where its retries are exhausted (R380, R384, R386). The flag says that it committed. -/
def State.tryCommit (s : State) (n : Nat) : State × Bool :=
  let s1 := s.compareTwins n (fun f => f.seg && f.twin.isSome)
  let c := s1.coreAt n
  if c.flights.any (fun f => f.seg && f.mismatch) then
    let m := c.mismatchTrap
    if c.retry < 2 then (s1.rewind n m.1, false) else ((s1.putCore n m.2).exhausted n m.1 false, false)
  else (s1.commitSegment n, true)

/-- A trap for which a bundle of an open segment rewinds (R385). A poison-consumed event of a boundary is that of an operation
issued before the segment, since every operation that can raise one seals (R206, R382). -/
def Trap.rewinds (t : Trap) : Bool := t.code == 5 || (t.code == 6 && !t.async)

/-- Taking an exception on core `n`, the one shared operation (R352 to R361, R384 to R386). A trap in supervisor mode is
a supervisor fault. In an open segment a poison-consumed or silent-mismatch trap rewinds while RETRY is below 2 and is
recorded as exhausted after that; a segment-overflow trap commits first. Every other trap freezes the core and enters
the handler. A segment that the handler itself has opened rewinds in the same way. `atIssue` says that the trapped bundle issues again on resumption. -/
def State.takeTrapAt (s : State) (n : Nat) (t : Trap) (atIssue : Bool) : State :=
  let s := if t.async then s else s.recordTrap n t
  let c := s.coreAt n
  if c.segOpen && t.rewinds then
    if c.retry < 2 then s.rewind n t else s.exhausted n t atIssue
  else if t.code == 0x11 then
    let r := s.tryCommit n
    if !r.2 then r.1 else if c.sup then r.1.supervisorFault n t else r.1.freeze n t atIssue
  else if c.sup then s.supervisorFault n t
  else s.freeze n t atIssue

/-- Taking an exception on the core whose turn it is, for an operation that raises it at issue. -/
def takeTrap (t : Trap) (s : State) : State := s.takeTrapAt s.coreNo t true

/-! ## Returning from one -/

/-- The SE bundle at `pc` issues again after a rewind: the segment is open and its journal, which every issue of the segment
writes, is empty (R381, R385). -/
def Core.atEntry (c : Core) (pc : Word) : Bool := c.sw.segState.getLsbD 63 && c.seg.journal.isEmpty && pc == c.segEntry

/-- The return of B.RFT with a held context (R357, R360): the supervisor bank is discarded, the held state is banked back
in, SUP and HELD clear, the phase timer runs again, and the trapped bundle issues with its captured operands, or the
next bundle in the normal way. -/
def Core.resume (c : Core) (h : Held) : Core :=
  { c with
    held := none, s := bankRest c.s |> (fun r => h.s ++ r), p := bankRest c.p |> (fun r => h.p ++ r), latch := h.latches,
    flights := h.flights, timed := [], xfer := h.xfer, slip := h.slip, cap := if h.skip then [] else h.cap,
    capTree := if h.skip then none else h.capTree, issue := none, charged := h.charged, hold := .none,
    rvDone := h.rvDone, padDone := h.padDone, noOpen := h.noOpen, supSeg := false, rewound := c.atEntry h.pc, fetch := [],
    skipNext := h.skip, supAsync := [], wants := [], drains := false, time := h.time, next := h.next, c0free := h.c0free, pc := h.pc,
    engines := c.engines.map (fun e => { e with frozen := false, fault := (if e.isFill then none else e.fault) }),
    sw := { c.sw with
      rot := h.rot, lc := h.lc, depth := h.depth, repc := h.repc, beatNow := h.beatNow,
      priv := fieldPut c.sw.priv 0 2 0 },
    phase := { c.phase with running := decide (c.phase.expected ≠ 0) && !c.phase.stopped } }

/-- The return on core `n` (R360): with HELD = 0 it is a supervisor fault of the access cause. -/
def State.returnFromTrap (s : State) (n : Nat) : State :=
  let c := s.coreAt n
  match c.held with
  | some h => if c.isHeld then s.putCore n (c.resume h) else s.supervisorFault n (Trap.bare 0x09 c.pc)
  | none => s.supervisorFault n (Trap.bare 0x09 c.pc)

end Sys2Proof.Machine
end

