-- ==== Sys2Proof/Machine/Operands.lean ====
section
/-! DEFINITION. What an operation of a slot is to the issue of its bundle: the registers it reads and writes, what it
waits for, what it checks, what it does (R28 to R33, R43, R82, R176, R353, R357, R382). Every meaning of a slot
operation is one `Sem`, run by `Sem.run`. -/

namespace Sys2Proof.Machine

/-- The scalar that a field names. -/
def Core.xs (c : Core) (r : BitVec 7) : RegRef := .s (c.physS r.toNat)
/-- The predicate that a field names. -/
def Core.xp (c : Core) (r : BitVec 6) : RegRef := .p (c.physP r.toNat)
/-- The lane mask that a field names. -/
def Core.xm (_c : Core) (r : BitVec 4) : RegRef := .m r.toNat
/-- The vector register that a field names. -/
def Core.xv (c : Core) (r : BitVec 10) : RegRef := .v (c.physV r.toNat)
/-- The tile that a field names. -/
def Core.xt (_c : Core) (r : BitVec 5) : RegRef := .t r.toNat

/-- One operation as issue and execution see it. -/
structure Sem where
  /-- registers read, in the order of their fields from bit 42 downward (R427) -/
  reads : Core → List RegRef := fun _ => []
  /-- registers and status words written -/
  writes : Core → List RegRef := fun _ => []
  /-- issue of the bundle stalls while this holds; issue time advances (R25, R233, R182, R343) -/
  stall : State → Bool := fun _ => false
  /-- the operation makes the core hold before it issues (R165) -/
  holds : State → Bool := fun _ => false
  /-- the hold has not been served while this holds (R221, R223, R285) -/
  waits : State → Bool := fun _ => false
  /-- the hold may be left for a trap, a pre-emption or a debug stop, and the bundle issues again (R221, R223, R285) -/
  breaks : State → Bool := fun _ => false
  /-- the trap that the operation raises at issue, its own checks in their order (R353) -/
  check : State → Option Trap := fun _ => none
  /-- fixed-latency results that the operation puts in flight (R343) -/
  results : Nat := 0
  /-- the slot waits alone while this holds: a tile named with W = 1 is not ready, or an engine still reads the tile that
  the operation would write (R175, R176) -/
  slip : State → Bool := fun _ => false
  /-- the hold is a page check, which a deterministic launch replaces by PADC1 cycles of issue time (R395) -/
  padHold : Bool := false
  /-- S.CTXOUT, which waits for all that the frozen code awaits (R367) -/
  saves : Bool := false
  /-- tile bytes read and written at the issue, as (tile, first byte, count), for the early-read checker (R187) -/
  tileReads : State → List (Nat × Nat × Nat) := fun _ => []
  tileWrites : State → List (Nat × Nat × Nat) := fun _ => []
  /-- runs of scratchpad bytes read at the issue, as (first byte, count) (R252) -/
  padReads : State → List (Nat × Nat) := fun _ => []
  /-- the displacement field that the latch of a memory operation starts from, and whether it auto-steps (R139, R167) -/
  off : BitVec 32 := 0#32
  steps : Bool := false
  /-- the base register that a V1 memory operation reads (R155) -/
  bn : Option (BitVec 4) := none
  /-- an active operation of this kind seals an open segment (R382) -/
  seals : State → Bool := fun _ => false
  /-- the bytes of a store that an open segment holds back: its lines by space and line number (R382, R384) -/
  lines : State → List (Space × Nat) := fun _ => []
  /-- a branch-class B operation (R49) -/
  branch : Bool := false
  /-- G of a branch or of a store (R124, R170) -/
  guarded : Bool := false
  /-- S.CKT (R123) -/
  ckt : Bool := false
  /-- B.END, whose issue commits an open segment (R379) -/
  ends : Bool := false
  /-- its place among the operations of its bundle: 0 before and 2 after the others, so that no other sees what it binds or
  restores, nor it what they push (R33) -/
  turn : Nat := 1
  /-- the effect of the active operation -/
  eff : State → State

/-- The guard of an operation as it issues: its predicate and its poison, captured or read (R29, R357). -/
def Core.guardOf (c : Core) (h : Hdr) : Bool × Bool :=
  match c.cap.find? (fun e => e.slot == slotCode h.slot) with
  | some cs => (cs.guard, cs.guardPoison)
  | none => c.rp h.slot h.guard

/-- The leaf of the bundle in progress (R29, R41). -/
def Core.leaf (c : Core) : Nat :=
  match c.issue with
  | some i => i.leaf
  | none => 0

/-- The operation's leaf-mask bit for leaf `l` is 1 (R29); a branch-class operation acts in leaf 0 alone (R41), so
its guard is no condition in another leaf, whatever its mask (DEDUCED, log 70). -/
def onLeaf (h : Hdr) (branch : Bool) (l : Nat) : Bool :=
  h.mask.getLsbD l && (!branch || l == 0)

/-- The operation is active in the issue in progress (R29). -/
def Core.active (c : Core) (h : Hdr) (branch : Bool) : Bool :=
  onLeaf h branch c.leaf && ((c.guardOf h).1 != h.sense)

/-- A trap of the operation in slot `sl` of the bundle in progress. -/
def Core.trap (c : Core) (sl : Slot) (code : Nat) : Trap := { Trap.bare code c.bundlePc with slot := slotCode sl }

/-- The poison-consumed trap of a register (R352, R376). -/
def Core.poisonTrap (c : Core) (sl : Slot) (reg : Nat) : Trap := { c.trap sl 0x06 with data := reg }

/-- The first of a list of consumed registers that carries poison raises the poison-consumed trap. -/
def Core.consumed (c : Core) (sl : Slot) (l : List (Nat × Bool)) : Option Trap :=
  match l.find? (·.2) with
  | some (r, _) => some (c.poisonTrap sl r)
  | none => none

/-- The access trap with a sub-cause. -/
def Core.accessTrap (c : Core) (sl : Slot) (sub : Nat) (addr : Word) : Trap :=
  { c.trap sl 0x09 with sub := sub, addr := addr }

/-- The first trap of a list of checks in order. -/
def firstTrap (l : List (Option Trap)) : Option Trap := l.findSome? id

/-- The format trap of a vector register whose tag is outside the accepted set (R80). -/
def Core.tagTrap (c : Core) (sl : Slot) (r : BitVec 10) (accepts : List Nat) (k : Nat := 0) : Option Trap :=
  if accepts.contains (c.rv sl r k).tag.toNat then none else some { c.trap sl 0x02 with data := r.toNat }

/-- A poisoned guard whose leaf-mask bit is set is a consumed condition (R121). -/
def Core.guardTrap (c : Core) (h : Hdr) (branch : Bool) : Option Trap :=
  if onLeaf h branch c.leaf && (c.guardOf h).2 then some (c.poisonTrap h.slot h.guard.toNat) else none

/-- Names a read flume as a destination, or a write flume as a source; or pops or pushes past a stream's end
(R182, R183): the access trap. -/
def Core.flumeTrap (c : Core) (sl : Slot) (reads writes : List RegRef) : Option Trap :=
  let bad (n : Nat) (asRead : Bool) : Option Trap :=
    match c.flumeOf n with
    | none => none
    | some f =>
      if f.shape.write == asRead then some { c.trap sl 0x09 with data := n }
      else if f.size ≤ f.next + f.inflight then
        some { c.trap sl 0x09 with sub := 2, data := n, addr := BitVec.ofNat 64 f.size }
      else
        match f.fault with
        | some t => if asRead && f.buf.isEmpty then some { t with pc := c.bundlePc, slot := slotCode sl } else none
        | none => none
  firstTrap (reads.map (fun r => match r with | .v n => bad n true | _ => none) ++
    writes.map (fun r => match r with | .v n => bad n false | _ => none))

/-- Every check of one active operation at issue, in order (R353): determinism, its condition, its own checks, its flumes. A
determinism trap is the first of its own checks that fails. -/
def Sem.trapOf (m : Sem) (h : Hdr) (s : State) : Option Trap :=
  let c := s.me
  let own : Option Trap :=
    if c.active h m.branch then (m.check s).or (c.flumeTrap h.slot (m.reads c) (m.writes c)) else none
  match own with
  | some t => if t.code = 0x0D then some t else (c.guardTrap h m.branch).or own
  | none => c.guardTrap h m.branch

/-- Execution of one slot operation (R29, R30, R33): an inactive one changes nothing; outside an issue whose checks have
been made, its checks come first and a trap is taken; then its effect. -/
def Sem.run (m : Sem) (h : Hdr) (s : State) : Host.Outcome State Fault Refusal :=
  match (if s.me.issue.isSome then none else m.trapOf h s) with
  | some t => .next (takeTrap t s)
  | none => if s.me.active h m.branch then .next (m.eff s) else .next s

/-- The value of a register for capture (R427). -/
def Core.capture (c : Core) (r : RegRef) : Option CapVal :=
  match r with
  | .s n => some { kind := 0, num := n, tag := 0, poison := if (c.sreg n).poison then 1 else 0,
                   val := (c.sreg n).val.setWidth 1024 }
  | .p n => some { kind := 1, num := n, tag := 0, poison := if (c.preg n).poison then 1 else 0,
                   val := if (c.preg n).val then 1 else 0 }
  | .m n => some { kind := 2, num := n, tag := 0, poison := if (c.mreg n).poison then 1 else 0,
                   val := (c.mreg n).val.setWidth 1024 }
  | .v n =>
    match c.flumeOf n with
    | some f =>
      match f.buf with
      | (x, p, _) :: _ => some { kind := 3, num := n, tag := f.shape.format, poison := p, val := x }
      | [] => none
    | none => some { kind := 3, num := n, tag := (c.vreg n).tag, poison := (c.vreg n).poison, val := (c.vreg n).val }
  | .pAll =>
    some {
      kind := 8, num := 0, tag := 0,
      poison := if (List.range 64).any (fun i => (c.preg (c.physP i)).poison) then 1 else 0,
      val := (List.range 64).foldl (fun x i => if (c.preg (c.physP i)).val then x ||| (1#1024 <<< i) else x) 0 }
  | .t _ => none
  | .w _ => none

/-- The captured operands of one slot (R357, R427); a slot that is already re-issued from captured operands keeps
them. -/
def Core.captureSlot (c : Core) (h : Hdr) (m : Sem) (disp : BitVec 32) : CapSlot :=
  match c.cap.find? (fun e => e.slot == slotCode h.slot) with
  | some cs => cs
  | none =>
    { slot := slotCode h.slot, guard := (c.rp h.slot h.guard).1, guardPoison := (c.rp h.slot h.guard).2, disp := disp,
      base := (match m.bn with | some b => c.breg (c.physB b.toNat) | none => 0),
      vals := (m.reads c).filterMap c.capture }

/-- A register whose pending bit is set stalls its readers and writers (R82). -/
def Core.refPending (c : Core) (r : RegRef) : Bool :=
  match r with
  | .s n => (c.sreg n).pend
  | .v n => (c.vreg n).pend
  | _ => false

end Sys2Proof.Machine
end

