-- ==== Sys2Proof/Machine/Vector.lean ====
section
/-! DEFINITION. The vector operations on registers: integer arithmetic, logic, floating point, approximations and compares
(R136 to R146). -/

namespace Sys2Proof.Machine

/-- What a vector operation computes: value, tag, lane poison and format warnings. -/
structure VOut where
  val : Vec
  tag : Nat
  poison : BitVec 32
  warn : Nat := 0

/-- Every format tag is accepted. -/
def anyTag : List Nat := List.range 16

/-- The tag of a result pushed to a write flume must be that of its record (R183). -/
def Core.pushTrap (c : Core) (sl : Slot) (r : BitVec 10) (tag : Nat) : Option Trap :=
  match c.vdest r with
  | .flume n =>
    match c.flumeOf n with
    | some f => if f.shape.format.toNat = tag then none else some { c.trap sl 0x02 with data := r.toNat }
    | none => none
  | _ => none

/-- A vector operation: the registers it reads with the tags it accepts in each, in field order, a further check, its
latency under profile 1 and 2, and its result (R136, R138). -/
def semVec (h : Hdr) (vd : BitVec 10) (reads : List (BitVec 10 × List Nat)) (extra : Core → Option Trap) (p1 p2 : Nat)
    (g : Core → VOut) : Sem :=
  { reads := fun c => reads.map (fun r => c.xv r.1), writes := fun c => [c.xv vd], results := 1
    check := fun s => firstTrap (reads.zipIdx.map (fun r => s.me.tagTrap h.slot r.1.1 r.1.2 r.2) ++
      [extra s.me, s.me.pushTrap h.slot vd (g s.me).tag])
    eff := fun s => s.onMe (fun c =>
      let o := g c
      (c.outV h vd (c.lat p1 p2) o.val (BitVec.ofNat 4 o.tag) o.poison).outWarn h.slot (c.lat p1 p2) o.warn) }

/-- An elementwise operation of width `w` on two registers; `tag` gives the result's tag from those of va and vb. -/
def semVV (h : Hdr) (vd va vb : BitVec 10) (accA accB : List Nat) (lat w : Nat) (tag : Nat → Nat → Nat)
    (g : Nat → Nat → Nat) : Sem :=
  semVec h vd [(va, accA), (vb, accB)] (fun _ => none) lat lat (fun c =>
    let a := c.rv h.slot va
    let b := c.rv h.slot vb 1
    { val := vecOf w (List.zipWith g (elems a.val w) (elems b.val w)), tag := tag a.tag.toNat b.tag.toNat,
      poison := a.poison ||| b.poison })

/-- An elementwise operation of width `w` on one register. -/
def semV1 (h : Hdr) (vd va : BitVec 10) (acc : List Nat) (lat w tag : Nat) (g : Nat → Nat) : Sem :=
  semVec h vd [(va, acc)] (fun _ => none) lat lat (fun c =>
    let a := c.rv h.slot va
    { val := vecOf w ((elems a.val w).map g), tag := tag, poison := a.poison })

/-- An elementwise operation of width `w` that also reads vd. -/
def semVVV (h : Hdr) (vd va vb : BitVec 10) (accD accA accB : List Nat) (lat w tag : Nat)
    (g : Nat → Nat → Nat → Nat) : Sem :=
  semVec h vd [(vd, accD), (va, accA), (vb, accB)] (fun _ => none) lat lat (fun c =>
    let a := c.rv h.slot va 1
    let b := c.rv h.slot vb 2
    let d := c.rv h.slot vd
    { val := vecOf w ((List.zip (elems a.val w) (List.zip (elems b.val w) (elems d.val w))).map
        (fun t => g t.1 t.2.1 t.2.2)),
      tag := tag, poison := a.poison ||| b.poison ||| d.poison })

/-- A logic operation on all 1,024 bits (R143). -/
def semVLogic (h : Hdr) (f : OpV3) (g : Vec → Vec → Vec) : Sem :=
  semVec h f.vd [(f.va, anyTag), (f.vb, anyTag)] (fun _ => none) 2 2 (fun c =>
    let a := c.rv h.slot f.va
    let b := c.rv h.slot f.vb 1
    { val := g a.val b.val, tag := if a.tag = b.tag then a.tag.toNat else tBITS, poison := a.poison ||| b.poison })

/-- A compare into a lane mask (R146). -/
def semVCmp (h : Hdr) (f : OpVM) (acc : List Nat) (g : Nat → Nat → Bool) : Sem :=
  { reads := fun c => [c.xv f.va, c.xv f.vb], writes := fun c => [c.xm f.md], results := 1
    check := fun s => firstTrap [s.me.tagTrap h.slot f.va acc, s.me.tagTrap h.slot f.vb acc 1]
    eff := fun s => s.onMe (fun c =>
      let a := c.rv h.slot f.va
      let b := c.rv h.slot f.vb 1
      c.outM h f.md 2 (lanesOf (fun j => g (elem a.val 32 j) (elem b.val 32 j)))
        (a.poison != 0#32 || b.poison != 0#32)) }

/-! ## Integer arithmetic, logic and shifts (R142, R143) -/

/-- V.ADD.I32. -/
def semVAddI32 (h : Hdr) (f : OpV3) : Sem :=
  semVV h f.vd f.va f.vb [tI32, tZ32] [tI32, tZ32] 2 32 (fun a _ => a)
    (fun a b => a + b)

/-- The meaning of the row: one issue of the operation. -/
def execVAddI32 (h : Hdr) (f : OpV3) (s : State) : Host.Outcome State Fault Refusal :=
  (semVAddI32 h f).run h s

/-- V.SUB.I32. -/
def semVSubI32 (h : Hdr) (f : OpV3) : Sem :=
  semVV h f.vd f.va f.vb [tI32, tZ32] [tI32, tZ32] 2 32 (fun a _ => a)
    (fun a b => wrap ((a : Int) - b) 32)

/-- The meaning of the row: one issue of the operation. -/
def execVSubI32 (h : Hdr) (f : OpV3) (s : State) : Host.Outcome State Fault Refusal :=
  (semVSubI32 h f).run h s

/-- V.MUL.I32. -/
def semVMulI32 (h : Hdr) (f : OpV3) : Sem :=
  semVV h f.vd f.va f.vb [tI32, tZ32] [tI32, tZ32] 3 32 (fun a _ => a)
    (fun a b => a * b)

/-- The meaning of the row: one issue of the operation. -/
def execVMulI32 (h : Hdr) (f : OpV3) (s : State) : Host.Outcome State Fault Refusal :=
  (semVMulI32 h f).run h s

/-- V.MULH.I32. -/
def semVMulhI32 (h : Hdr) (f : OpV3) : Sem :=
  semVV h f.vd f.va f.vb [tI32] [tI32] 3 32 (fun _ _ => tI32)
    (fun a b => wrap (sx a 32 * sx b 32 / 2 ^ 32) 32)

/-- The meaning of the row: one issue of the operation. -/
def execVMulhI32 (h : Hdr) (f : OpV3) (s : State) : Host.Outcome State Fault Refusal :=
  (semVMulhI32 h f).run h s

/-- V.ADDS.I32. -/
def semVAddsI32 (h : Hdr) (f : OpV3) : Sem :=
  semVV h f.vd f.va f.vb [tI32] [tI32] 2 32 (fun _ _ => tI32)
    (fun a b => wrap (satI (sx a 32 + sx b 32) (-2 ^ 31) (2 ^ 31 - 1)) 32)

/-- The meaning of the row: one issue of the operation. -/
def execVAddsI32 (h : Hdr) (f : OpV3) (s : State) : Host.Outcome State Fault Refusal :=
  (semVAddsI32 h f).run h s

/-- V.SUBS.I32. -/
def semVSubsI32 (h : Hdr) (f : OpV3) : Sem :=
  semVV h f.vd f.va f.vb [tI32] [tI32] 2 32 (fun _ _ => tI32)
    (fun a b => wrap (satI (sx a 32 - sx b 32) (-2 ^ 31) (2 ^ 31 - 1)) 32)

/-- The meaning of the row: one issue of the operation. -/
def execVSubsI32 (h : Hdr) (f : OpV3) (s : State) : Host.Outcome State Fault Refusal :=
  (semVSubsI32 h f).run h s

/-- V.ADD.I16. -/
def semVAddI16 (h : Hdr) (f : OpV3) : Sem :=
  semVV h f.vd f.va f.vb [tI16, tZ16] [tI16, tZ16] 2 16 (fun a _ => a)
    (fun a b => a + b)

/-- The meaning of the row: one issue of the operation. -/
def execVAddI16 (h : Hdr) (f : OpV3) (s : State) : Host.Outcome State Fault Refusal :=
  (semVAddI16 h f).run h s

/-- V.ADDS.I16. -/
def semVAddsI16 (h : Hdr) (f : OpV3) : Sem :=
  semVV h f.vd f.va f.vb [tI16] [tI16] 2 16 (fun _ _ => tI16)
    (fun a b => wrap (satI (sx a 16 + sx b 16) (-2 ^ 15) (2 ^ 15 - 1)) 16)

/-- The meaning of the row: one issue of the operation. -/
def execVAddsI16 (h : Hdr) (f : OpV3) (s : State) : Host.Outcome State Fault Refusal :=
  (semVAddsI16 h f).run h s

/-- V.ADD.I8. -/
def semVAddI8 (h : Hdr) (f : OpV3) : Sem :=
  semVV h f.vd f.va f.vb [tI8, tZ8] [tI8, tZ8] 2 8 (fun a _ => a)
    (fun a b => a + b)

/-- The meaning of the row: one issue of the operation. -/
def execVAddI8 (h : Hdr) (f : OpV3) (s : State) : Host.Outcome State Fault Refusal :=
  (semVAddI8 h f).run h s

/-- V.ADDS.I8. -/
def semVAddsI8 (h : Hdr) (f : OpV3) : Sem :=
  semVV h f.vd f.va f.vb [tI8] [tI8] 2 8 (fun _ _ => tI8)
    (fun a b => wrap (satI (sx a 8 + sx b 8) (-128) 127) 8)

/-- The meaning of the row: one issue of the operation. -/
def execVAddsI8 (h : Hdr) (f : OpV3) (s : State) : Host.Outcome State Fault Refusal :=
  (semVAddsI8 h f).run h s

/-- V.ADDS.Z8. -/
def semVAddsZ8 (h : Hdr) (f : OpV3) : Sem :=
  semVV h f.vd f.va f.vb [tZ8] [tZ8] 2 8 (fun _ _ => tZ8)
    (fun a b => min (a + b) 255)

/-- The meaning of the row: one issue of the operation. -/
def execVAddsZ8 (h : Hdr) (f : OpV3) (s : State) : Host.Outcome State Fault Refusal :=
  (semVAddsZ8 h f).run h s

/-- V.MIN.I32. -/
def semVMinI32 (h : Hdr) (f : OpV3) : Sem :=
  semVV h f.vd f.va f.vb [tI32] [tI32] 2 32 (fun _ _ => tI32)
    (fun a b => if sx a 32 ≤ sx b 32 then a else b)

/-- The meaning of the row: one issue of the operation. -/
def execVMinI32 (h : Hdr) (f : OpV3) (s : State) : Host.Outcome State Fault Refusal :=
  (semVMinI32 h f).run h s

/-- V.MAX.I32. -/
def semVMaxI32 (h : Hdr) (f : OpV3) : Sem :=
  semVV h f.vd f.va f.vb [tI32] [tI32] 2 32 (fun _ _ => tI32)
    (fun a b => if sx b 32 ≤ sx a 32 then a else b)

/-- The meaning of the row: one issue of the operation. -/
def execVMaxI32 (h : Hdr) (f : OpV3) (s : State) : Host.Outcome State Fault Refusal :=
  (semVMaxI32 h f).run h s

/-- V.MIN.Z32. -/
def semVMinZ32 (h : Hdr) (f : OpV3) : Sem :=
  semVV h f.vd f.va f.vb [tZ32] [tZ32] 2 32 (fun _ _ => tZ32)
    (fun a b => min a b)

/-- The meaning of the row: one issue of the operation. -/
def execVMinZ32 (h : Hdr) (f : OpV3) (s : State) : Host.Outcome State Fault Refusal :=
  (semVMinZ32 h f).run h s

/-- V.MAX.Z32. -/
def semVMaxZ32 (h : Hdr) (f : OpV3) : Sem :=
  semVV h f.vd f.va f.vb [tZ32] [tZ32] 2 32 (fun _ _ => tZ32)
    (fun a b => max a b)

/-- The meaning of the row: one issue of the operation. -/
def execVMaxZ32 (h : Hdr) (f : OpV3) (s : State) : Host.Outcome State Fault Refusal :=
  (semVMaxZ32 h f).run h s

/-- V.ABS.I32. -/
def semVAbsI32 (h : Hdr) (f : OpV2) : Sem :=
  semV1 h f.vd f.va [tI32] 2 32 tI32 (fun a => min (sx a 32).natAbs (2 ^ 31 - 1))

/-- The meaning of the row: one issue of the operation. -/
def execVAbsI32 (h : Hdr) (f : OpV2) (s : State) : Host.Outcome State Fault Refusal :=
  (semVAbsI32 h f).run h s

/-- V.AND. -/
def semVAnd (h : Hdr) (f : OpV3) : Sem :=
  semVLogic h f (fun a b => a &&& b)

/-- The meaning of the row: one issue of the operation. -/
def execVAnd (h : Hdr) (f : OpV3) (s : State) : Host.Outcome State Fault Refusal :=
  (semVAnd h f).run h s

/-- V.OR. -/
def semVOr (h : Hdr) (f : OpV3) : Sem :=
  semVLogic h f (fun a b => a ||| b)

/-- The meaning of the row: one issue of the operation. -/
def execVOr (h : Hdr) (f : OpV3) (s : State) : Host.Outcome State Fault Refusal :=
  (semVOr h f).run h s

/-- V.XOR. -/
def semVXor (h : Hdr) (f : OpV3) : Sem :=
  semVLogic h f (fun a b => a ^^^ b)

/-- The meaning of the row: one issue of the operation. -/
def execVXor (h : Hdr) (f : OpV3) (s : State) : Host.Outcome State Fault Refusal :=
  (semVXor h f).run h s

/-- V.ANDN. -/
def semVAndn (h : Hdr) (f : OpV3) : Sem :=
  semVLogic h f (fun a b => a &&& ~~~b)

/-- The meaning of the row: one issue of the operation. -/
def execVAndn (h : Hdr) (f : OpV3) (s : State) : Host.Outcome State Fault Refusal :=
  (semVAndn h f).run h s

/-- V.SHL.I32. -/
def semVShlI32 (h : Hdr) (f : OpV3) : Sem :=
  semVV h f.vd f.va f.vb [tI32, tZ32] [tI32, tZ32] 2 32 (fun a _ => a)
    (fun a b => a * 2 ^ (b % 32))

/-- The meaning of the row: one issue of the operation. -/
def execVShlI32 (h : Hdr) (f : OpV3) (s : State) : Host.Outcome State Fault Refusal :=
  (semVShlI32 h f).run h s

/-- V.SHR.Z32. -/
def semVShrZ32 (h : Hdr) (f : OpV3) : Sem :=
  semVV h f.vd f.va f.vb [tI32, tZ32] [tI32, tZ32] 2 32 (fun a _ => a)
    (fun a b => a / 2 ^ (b % 32))

/-- The meaning of the row: one issue of the operation. -/
def execVShrZ32 (h : Hdr) (f : OpV3) (s : State) : Host.Outcome State Fault Refusal :=
  (semVShrZ32 h f).run h s

/-- V.SRA.I32. -/
def semVSraI32 (h : Hdr) (f : OpV3) : Sem :=
  semVV h f.vd f.va f.vb [tI32] [tI32, tZ32] 2 32 (fun _ _ => tI32)
    (fun a b => wrap (sx a 32 / 2 ^ (b % 32)) 32)

/-- The meaning of the row: one issue of the operation. -/
def execVSraI32 (h : Hdr) (f : OpV3) (s : State) : Host.Outcome State Fault Refusal :=
  (semVSraI32 h f).run h s

/-- The sum of the four products of the INT8 elements of two lanes (V.DOT4.I8). -/
def dot4 (a b : Nat) : Int :=
  sx a 8 * sx b 8 + sx (a / 2 ^ 8) 8 * sx (b / 2 ^ 8) 8 + sx (a / 2 ^ 16) 8 * sx (b / 2 ^ 16) 8 +
    sx (a / 2 ^ 24) 8 * sx (b / 2 ^ 24) 8

/-- V.DOT4.I8 accumulates into vd, which it reads. -/
def semVDot4I8 (h : Hdr) (f : OpV3) : Sem :=
  semVVV h f.vd f.va f.vb [tI32] [tI8] [tI8] 3 32 tI32 (fun a b d => wrap ((d : Int) + dot4 a b) 32)

/-- The meaning of the row: one issue of the operation. -/
def execVDot4I8 (h : Hdr) (f : OpV3) (s : State) : Host.Outcome State Fault Refusal :=
  (semVDot4I8 h f).run h s

/-! ## Floating-point arithmetic (R144) -/

/-- V.ADD.F32. -/
def semVAddF32 (h : Hdr) (f : OpV3R) : Sem :=
  semVV h f.vd f.va f.vb [tF32] [tF32] 3 32 (fun _ _ => tF32)
    (fun a b => fadd fpF32 f.rnd.toNat (fval fpF32 a) (fval fpF32 b))

/-- The meaning of the row: one issue of the operation. -/
def execVAddF32 (h : Hdr) (f : OpV3R) (s : State) : Host.Outcome State Fault Refusal :=
  (semVAddF32 h f).run h s

/-- V.SUB.F32. -/
def semVSubF32 (h : Hdr) (f : OpV3R) : Sem :=
  semVV h f.vd f.va f.vb [tF32] [tF32] 3 32 (fun _ _ => tF32)
    (fun a b => fadd fpF32 f.rnd.toNat (fval fpF32 a) (fval fpF32 b).neg)

/-- The meaning of the row: one issue of the operation. -/
def execVSubF32 (h : Hdr) (f : OpV3R) (s : State) : Host.Outcome State Fault Refusal :=
  (semVSubF32 h f).run h s

/-- V.MUL.F32. -/
def semVMulF32 (h : Hdr) (f : OpV3R) : Sem :=
  semVV h f.vd f.va f.vb [tF32] [tF32] 4 32 (fun _ _ => tF32)
    (fun a b => fmul fpF32 f.rnd.toNat (fval fpF32 a) (fval fpF32 b))

/-- The meaning of the row: one issue of the operation. -/
def execVMulF32 (h : Hdr) (f : OpV3R) (s : State) : Host.Outcome State Fault Refusal :=
  (semVMulF32 h f).run h s

/-- V.FMA.F32 reads vd. -/
def semVFmaF32 (h : Hdr) (f : OpV3R) : Sem :=
  semVVV h f.vd f.va f.vb [tF32] [tF32] [tF32] 4 32 tF32
    (fun a b d => ffma fpF32 f.rnd.toNat (fval fpF32 a) (fval fpF32 b) (fval fpF32 d))

/-- The meaning of the row: one issue of the operation. -/
def execVFmaF32 (h : Hdr) (f : OpV3R) (s : State) : Host.Outcome State Fault Refusal :=
  (semVFmaF32 h f).run h s

/-- V.FMS.F32 reads vd. -/
def semVFmsF32 (h : Hdr) (f : OpV3R) : Sem :=
  semVVV h f.vd f.va f.vb [tF32] [tF32] [tF32] 4 32 tF32
    (fun a b d => ffma fpF32 f.rnd.toNat (fval fpF32 a) (fval fpF32 b) (fval fpF32 d).neg)

/-- The meaning of the row: one issue of the operation. -/
def execVFmsF32 (h : Hdr) (f : OpV3R) (s : State) : Host.Outcome State Fault Refusal :=
  (semVFmsF32 h f).run h s

/-- V.FNMA.F32 reads vd. -/
def semVFnmaF32 (h : Hdr) (f : OpV3R) : Sem :=
  semVVV h f.vd f.va f.vb [tF32] [tF32] [tF32] 4 32 tF32
    (fun a b d => ffma fpF32 f.rnd.toNat (fval fpF32 a).neg (fval fpF32 b) (fval fpF32 d))

/-- The meaning of the row: one issue of the operation. -/
def execVFnmaF32 (h : Hdr) (f : OpV3R) (s : State) : Host.Outcome State Fault Refusal :=
  (semVFnmaF32 h f).run h s

/-- V.MIN.F32. -/
def semVMinF32 (h : Hdr) (f : OpV3) : Sem :=
  semVV h f.vd f.va f.vb [tF32] [tF32] 3 32 (fun _ _ => tF32) (fmin fpF32)

/-- The meaning of the row: one issue of the operation. -/
def execVMinF32 (h : Hdr) (f : OpV3) (s : State) : Host.Outcome State Fault Refusal :=
  (semVMinF32 h f).run h s

/-- V.MAX.F32. -/
def semVMaxF32 (h : Hdr) (f : OpV3) : Sem :=
  semVV h f.vd f.va f.vb [tF32] [tF32] 3 32 (fun _ _ => tF32) (fmax fpF32)

/-- The meaning of the row: one issue of the operation. -/
def execVMaxF32 (h : Hdr) (f : OpV3) (s : State) : Host.Outcome State Fault Refusal :=
  (semVMaxF32 h f).run h s

/-- V.ADD.F16. -/
def semVAddF16 (h : Hdr) (f : OpV3R) : Sem :=
  semVV h f.vd f.va f.vb [tF16] [tF16] 3 16 (fun _ _ => tF16)
    (fun a b => fadd fpF16 f.rnd.toNat (fval fpF16 a) (fval fpF16 b))

/-- The meaning of the row: one issue of the operation. -/
def execVAddF16 (h : Hdr) (f : OpV3R) (s : State) : Host.Outcome State Fault Refusal :=
  (semVAddF16 h f).run h s

/-- V.SUB.F16. -/
def semVSubF16 (h : Hdr) (f : OpV3R) : Sem :=
  semVV h f.vd f.va f.vb [tF16] [tF16] 3 16 (fun _ _ => tF16)
    (fun a b => fadd fpF16 f.rnd.toNat (fval fpF16 a) (fval fpF16 b).neg)

/-- The meaning of the row: one issue of the operation. -/
def execVSubF16 (h : Hdr) (f : OpV3R) (s : State) : Host.Outcome State Fault Refusal :=
  (semVSubF16 h f).run h s

/-- V.MUL.F16. -/
def semVMulF16 (h : Hdr) (f : OpV3R) : Sem :=
  semVV h f.vd f.va f.vb [tF16] [tF16] 4 16 (fun _ _ => tF16)
    (fun a b => fmul fpF16 f.rnd.toNat (fval fpF16 a) (fval fpF16 b))

/-- The meaning of the row: one issue of the operation. -/
def execVMulF16 (h : Hdr) (f : OpV3R) (s : State) : Host.Outcome State Fault Refusal :=
  (semVMulF16 h f).run h s

/-- V.FMA.F16 reads vd. -/
def semVFmaF16 (h : Hdr) (f : OpV3R) : Sem :=
  semVVV h f.vd f.va f.vb [tF16] [tF16] [tF16] 4 16 tF16
    (fun a b d => ffma fpF16 f.rnd.toNat (fval fpF16 a) (fval fpF16 b) (fval fpF16 d))

/-- The meaning of the row: one issue of the operation. -/
def execVFmaF16 (h : Hdr) (f : OpV3R) (s : State) : Host.Outcome State Fault Refusal :=
  (semVFmaF16 h f).run h s

/-- V.MIN.F16. -/
def semVMinF16 (h : Hdr) (f : OpV3) : Sem :=
  semVV h f.vd f.va f.vb [tF16] [tF16] 3 16 (fun _ _ => tF16) (fmin fpF16)

/-- The meaning of the row: one issue of the operation. -/
def execVMinF16 (h : Hdr) (f : OpV3) (s : State) : Host.Outcome State Fault Refusal :=
  (semVMinF16 h f).run h s

/-- V.MAX.F16. -/
def semVMaxF16 (h : Hdr) (f : OpV3) : Sem :=
  semVV h f.vd f.va f.vb [tF16] [tF16] 3 16 (fun _ _ => tF16) (fmax fpF16)

/-- The meaning of the row: one issue of the operation. -/
def execVMaxF16 (h : Hdr) (f : OpV3) (s : State) : Host.Outcome State Fault Refusal :=
  (semVMaxF16 h f).run h s

/-- V.ADD.B16. -/
def semVAddB16 (h : Hdr) (f : OpV3R) : Sem :=
  semVV h f.vd f.va f.vb [tB16] [tB16] 3 16 (fun _ _ => tB16)
    (fun a b => fadd fpB16 f.rnd.toNat (fval fpB16 a) (fval fpB16 b))

/-- The meaning of the row: one issue of the operation. -/
def execVAddB16 (h : Hdr) (f : OpV3R) (s : State) : Host.Outcome State Fault Refusal :=
  (semVAddB16 h f).run h s

/-- V.SUB.B16. -/
def semVSubB16 (h : Hdr) (f : OpV3R) : Sem :=
  semVV h f.vd f.va f.vb [tB16] [tB16] 3 16 (fun _ _ => tB16)
    (fun a b => fadd fpB16 f.rnd.toNat (fval fpB16 a) (fval fpB16 b).neg)

/-- The meaning of the row: one issue of the operation. -/
def execVSubB16 (h : Hdr) (f : OpV3R) (s : State) : Host.Outcome State Fault Refusal :=
  (semVSubB16 h f).run h s

/-- V.MUL.B16. -/
def semVMulB16 (h : Hdr) (f : OpV3R) : Sem :=
  semVV h f.vd f.va f.vb [tB16] [tB16] 4 16 (fun _ _ => tB16)
    (fun a b => fmul fpB16 f.rnd.toNat (fval fpB16 a) (fval fpB16 b))

/-- The meaning of the row: one issue of the operation. -/
def execVMulB16 (h : Hdr) (f : OpV3R) (s : State) : Host.Outcome State Fault Refusal :=
  (semVMulB16 h f).run h s

/-- V.FMA.B16 reads vd. -/
def semVFmaB16 (h : Hdr) (f : OpV3R) : Sem :=
  semVVV h f.vd f.va f.vb [tB16] [tB16] [tB16] 4 16 tB16
    (fun a b d => ffma fpB16 f.rnd.toNat (fval fpB16 a) (fval fpB16 b) (fval fpB16 d))

/-- The meaning of the row: one issue of the operation. -/
def execVFmaB16 (h : Hdr) (f : OpV3R) (s : State) : Host.Outcome State Fault Refusal :=
  (semVFmaB16 h f).run h s

/-- V.MIN.B16. -/
def semVMinB16 (h : Hdr) (f : OpV3) : Sem :=
  semVV h f.vd f.va f.vb [tB16] [tB16] 3 16 (fun _ _ => tB16) (fmin fpB16)

/-- The meaning of the row: one issue of the operation. -/
def execVMinB16 (h : Hdr) (f : OpV3) (s : State) : Host.Outcome State Fault Refusal :=
  (semVMinB16 h f).run h s

/-- V.MAX.B16. -/
def semVMaxB16 (h : Hdr) (f : OpV3) : Sem :=
  semVV h f.vd f.va f.vb [tB16] [tB16] 3 16 (fun _ _ => tB16) (fmax fpB16)

/-- The meaning of the row: one issue of the operation. -/
def execVMaxB16 (h : Hdr) (f : OpV3) (s : State) : Host.Outcome State Fault Refusal :=
  (semVMaxB16 h f).run h s

/-! ## Approximations (R145) -/

/-- V.RCP.F32. -/
def semVRcpF32 (h : Hdr) (f : OpV2) : Sem :=
  semV1 h f.vd f.va [tF32] 8 32 tF32 (fun a => rcpOf fpF32 (fval fpF32 a))

/-- The meaning of the row: one issue of the operation. -/
def execVRcpF32 (h : Hdr) (f : OpV2) (s : State) : Host.Outcome State Fault Refusal :=
  (semVRcpF32 h f).run h s

/-- V.RSQ.F32. -/
def semVRsqF32 (h : Hdr) (f : OpV2) : Sem :=
  semV1 h f.vd f.va [tF32] 8 32 tF32 (fun a => rsqOf fpF32 (fval fpF32 a))

/-- The meaning of the row: one issue of the operation. -/
def execVRsqF32 (h : Hdr) (f : OpV2) (s : State) : Host.Outcome State Fault Refusal :=
  (semVRsqF32 h f).run h s

/-- V.EXP2.F32. -/
def semVExp2F32 (h : Hdr) (f : OpV2) : Sem :=
  semV1 h f.vd f.va [tF32] 8 32 tF32 (fun a => exp2Of fpF32 (fval fpF32 a))

/-- The meaning of the row: one issue of the operation. -/
def execVExp2F32 (h : Hdr) (f : OpV2) (s : State) : Host.Outcome State Fault Refusal :=
  (semVExp2F32 h f).run h s

/-- V.LOG2.F32. -/
def semVLog2F32 (h : Hdr) (f : OpV2) : Sem :=
  semV1 h f.vd f.va [tF32] 8 32 tF32 (fun a => log2Of fpF32 (fval fpF32 a))

/-- The meaning of the row: one issue of the operation. -/
def execVLog2F32 (h : Hdr) (f : OpV2) (s : State) : Host.Outcome State Fault Refusal :=
  (semVLog2F32 h f).run h s

/-- V.RCP.F16. -/
def semVRcpF16 (h : Hdr) (f : OpV2) : Sem :=
  semV1 h f.vd f.va [tF16] 8 16 tF16 (fun a => rcpOf fpF16 (fval fpF16 a))

/-- The meaning of the row: one issue of the operation. -/
def execVRcpF16 (h : Hdr) (f : OpV2) (s : State) : Host.Outcome State Fault Refusal :=
  (semVRcpF16 h f).run h s

/-- V.RSQ.F16. -/
def semVRsqF16 (h : Hdr) (f : OpV2) : Sem :=
  semV1 h f.vd f.va [tF16] 8 16 tF16 (fun a => rsqOf fpF16 (fval fpF16 a))

/-- The meaning of the row: one issue of the operation. -/
def execVRsqF16 (h : Hdr) (f : OpV2) (s : State) : Host.Outcome State Fault Refusal :=
  (semVRsqF16 h f).run h s

/-- V.EXP2.F16. -/
def semVExp2F16 (h : Hdr) (f : OpV2) : Sem :=
  semV1 h f.vd f.va [tF16] 8 16 tF16 (fun a => exp2Of fpF16 (fval fpF16 a))

/-- The meaning of the row: one issue of the operation. -/
def execVExp2F16 (h : Hdr) (f : OpV2) (s : State) : Host.Outcome State Fault Refusal :=
  (semVExp2F16 h f).run h s

/-- V.LOG2.F16. -/
def semVLog2F16 (h : Hdr) (f : OpV2) : Sem :=
  semV1 h f.vd f.va [tF16] 8 16 tF16 (fun a => log2Of fpF16 (fval fpF16 a))

/-- The meaning of the row: one issue of the operation. -/
def execVLog2F16 (h : Hdr) (f : OpV2) (s : State) : Host.Outcome State Fault Refusal :=
  (semVLog2F16 h f).run h s

/-! ## Compares (R146) -/

/-- V.CEQ.I32. -/
def semVCeqI32 (h : Hdr) (f : OpVM) : Sem :=
  semVCmp h f [tI32, tZ32] (fun a b => decide (a = b))

/-- The meaning of the row: one issue of the operation. -/
def execVCeqI32 (h : Hdr) (f : OpVM) (s : State) : Host.Outcome State Fault Refusal :=
  (semVCeqI32 h f).run h s

/-- V.CLT.I32. -/
def semVCltI32 (h : Hdr) (f : OpVM) : Sem :=
  semVCmp h f [tI32] (fun a b => decide (sx a 32 < sx b 32))

/-- The meaning of the row: one issue of the operation. -/
def execVCltI32 (h : Hdr) (f : OpVM) (s : State) : Host.Outcome State Fault Refusal :=
  (semVCltI32 h f).run h s

/-- V.CLE.I32. -/
def semVCleI32 (h : Hdr) (f : OpVM) : Sem :=
  semVCmp h f [tI32] (fun a b => decide (sx a 32 ≤ sx b 32))

/-- The meaning of the row: one issue of the operation. -/
def execVCleI32 (h : Hdr) (f : OpVM) (s : State) : Host.Outcome State Fault Refusal :=
  (semVCleI32 h f).run h s

/-- V.CLT.Z32. -/
def semVCltZ32 (h : Hdr) (f : OpVM) : Sem :=
  semVCmp h f [tZ32] (fun a b => decide (a < b))

/-- The meaning of the row: one issue of the operation. -/
def execVCltZ32 (h : Hdr) (f : OpVM) (s : State) : Host.Outcome State Fault Refusal :=
  (semVCltZ32 h f).run h s

/-- V.CEQ.F32. -/
def semVCeqF32 (h : Hdr) (f : OpVM) : Sem :=
  semVCmp h f [tF32] (fun a b => (fval fpF32 a).eqv (fval fpF32 b))

/-- The meaning of the row: one issue of the operation. -/
def execVCeqF32 (h : Hdr) (f : OpVM) (s : State) : Host.Outcome State Fault Refusal :=
  (semVCeqF32 h f).run h s

/-- V.CLT.F32. -/
def semVCltF32 (h : Hdr) (f : OpVM) : Sem :=
  semVCmp h f [tF32] (fun a b => (fval fpF32 a).lt (fval fpF32 b))

/-- The meaning of the row: one issue of the operation. -/
def execVCltF32 (h : Hdr) (f : OpVM) (s : State) : Host.Outcome State Fault Refusal :=
  (semVCltF32 h f).run h s

/-- V.CLE.F32. -/
def semVCleF32 (h : Hdr) (f : OpVM) : Sem :=
  semVCmp h f [tF32] (fun a b => (fval fpF32 a).lt (fval fpF32 b) || (fval fpF32 a).eqv (fval fpF32 b))

/-- The meaning of the row: one issue of the operation. -/
def execVCleF32 (h : Hdr) (f : OpVM) (s : State) : Host.Outcome State Fault Refusal :=
  (semVCleF32 h f).run h s

/-- V.CUN.F32. -/
def semVCunF32 (h : Hdr) (f : OpVM) : Sem :=
  semVCmp h f [tF32] (fun a b => decide (fval fpF32 a = .nan ∨ fval fpF32 b = .nan))

/-- The meaning of the row: one issue of the operation. -/
def execVCunF32 (h : Hdr) (f : OpVM) (s : State) : Host.Outcome State Fault Refusal :=
  (semVCunF32 h f).run h s

end Sys2Proof.Machine
end

