-- ==== Sys2Proof/Machine/Convert.lean ====
section
/-! DEFINITION. Conversions, pack and unpack, reductions and permutes of the vector slots (R147 to R152). -/

namespace Sys2Proof.Machine

/-! ## Parts: a slice of the wider register is read or written (R147) -/

/-- The number of parts between two element widths. -/
def partsOf (ws wd : Nat) : Nat := max ws wd / min ws wd

/-- The elements that one conversion handles. -/
def partCount (ws wd : Nat) : Nat := 1024 / max ws wd

/-- Index of source element `j` of part `p`. -/
def partSrc (ws wd p j : Nat) : Nat := if wd ≤ ws then j else partCount ws wd * p + j

/-- A result of `n` elements of width `wd` at element `n · p`, merged into `old` where the conversion narrows. The parts
that R147 writes are whole lanes, so no lane is written in part. -/
def mergePart (ws wd p : Nat) (old : VReg) (vals : List Nat) (pois : Nat → Bool) : Vec × BitVec 32 :=
  let n := partCount ws wd
  if wd < ws then
    let lo := n * p * wd
    (fieldPut old.val lo (n * wd) (ofElems wd vals),
      lanesOf (fun l => if lo ≤ 32 * l ∧ 32 * l < lo + n * wd then
          (List.range (32 / wd)).any (fun i => pois ((32 * l - lo) / wd + i))
        else old.poison.getLsbD l))
  else (vecOf wd vals, lanesOf (fun l => (List.range (32 / wd)).any (fun i => pois (32 * l / wd + i))))

/-- The poison of the source lane that holds source element `i` of width `ws`. -/
def srcPoison (a : VReg) (ws i : Nat) : Bool := a.poison.getLsbD (ws * i / 32)

/-- The exact value of source element `i` of a register with tag `t`; elements of X4 are those of DECODE_X4. -/
def srcNum (a : VReg) (t i : Nat) : FNum :=
  if t = tX4 then decodeX4 (elem a.val 16 (i / 4)) (i % 4) else elemNum t (elem a.val (tagWidth t) i)

/-- The DECODE_X4 warnings of the quads that hold `n` elements from element `i`. -/
def srcWarn (a : VReg) (t i n : Nat) : Nat :=
  if t = tX4 then (List.range (n / 4)).foldl (fun x q => x + warnX4 (elem a.val 16 (i / 4 + q))) 0 else 0

/-- The conversion of part `p` of `a`, tagged `src`, to the format of tag `dst` (R147, R148). -/
def convert (a old : VReg) (src dst p mode : Nat) (scl : Int) (satf : Bool) : VOut :=
  let ws := tagWidth src
  let wd := tagWidth dst
  let n := partCount ws wd
  let r := mergePart ws wd p old
    ((List.range n).map (fun j => cvtNum ((srcNum a src (partSrc ws wd p j)).scale scl) dst mode satf))
    (fun j => srcPoison a ws (partSrc ws wd p j))
  { val := r.1, tag := dst, poison := r.2, warn := srcWarn a src (partSrc ws wd p 0) n }

/-- The source tags that the conversions accept (R147). -/
def cvtTags : List Nat := [tI4, tX4, tI8, tI16, tI32, tZ8, tZ16, tZ32, tE4, tE5, tF16, tB16, tF32]

/-- The format trap of a part that the two widths do not have. -/
def Core.partTrap (c : Core) (sl : Slot) (va : BitVec 10) (ws wd p : Nat) : Option Trap :=
  if partsOf ws wd ≤ p then some { c.trap sl 0x02 with data := va.toNat } else none

/-- V.CVT to the format of tag `dst`. A narrowing conversion reads vd without checking its tag. -/
def semCvt (h : Hdr) (f : OpVCR) (dst : Nat) : Sem :=
  let base := semVec h f.vd [(f.va, cvtTags)]
    (fun c => c.partTrap h.slot f.va (tagWidth (c.rv h.slot f.va).tag.toNat) (tagWidth dst) f.part.toNat) 3 3
    (fun c => let a := c.rv h.slot f.va (if tagWidth dst < tagWidth (c.rv h.slot f.va).tag.toNat then 1 else 0)
      convert a (c.rv h.slot f.vd) a.tag.toNat dst f.part.toNat f.rnd.toNat 0 false)
  { base with reads := fun c =>
      (if tagWidth dst < tagWidth (c.rv h.slot f.va).tag.toNat then [c.xv f.vd] else []) ++ [c.xv f.va] }

/-- V.CVT.F32. -/
def semVCvtF32 (h : Hdr) (f : OpVCR) : Sem := semCvt h f tF32

/-- The meaning of the row: one issue of the operation. -/
def execVCvtF32 (h : Hdr) (f : OpVCR) (s : State) : Host.Outcome State Fault Refusal :=
  (semVCvtF32 h f).run h s

/-- V.CVT.F16. -/
def semVCvtF16 (h : Hdr) (f : OpVCR) : Sem := semCvt h f tF16

/-- The meaning of the row: one issue of the operation. -/
def execVCvtF16 (h : Hdr) (f : OpVCR) (s : State) : Host.Outcome State Fault Refusal :=
  (semVCvtF16 h f).run h s

/-- V.CVT.B16. -/
def semVCvtB16 (h : Hdr) (f : OpVCR) : Sem := semCvt h f tB16

/-- The meaning of the row: one issue of the operation. -/
def execVCvtB16 (h : Hdr) (f : OpVCR) (s : State) : Host.Outcome State Fault Refusal :=
  (semVCvtB16 h f).run h s

/-- V.CVT.E4. -/
def semVCvtE4 (h : Hdr) (f : OpVCR) : Sem := semCvt h f tE4

/-- The meaning of the row: one issue of the operation. -/
def execVCvtE4 (h : Hdr) (f : OpVCR) (s : State) : Host.Outcome State Fault Refusal :=
  (semVCvtE4 h f).run h s

/-- V.CVT.E5. -/
def semVCvtE5 (h : Hdr) (f : OpVCR) : Sem := semCvt h f tE5

/-- The meaning of the row: one issue of the operation. -/
def execVCvtE5 (h : Hdr) (f : OpVCR) (s : State) : Host.Outcome State Fault Refusal :=
  (semVCvtE5 h f).run h s

/-- V.CVT.I32. -/
def semVCvtI32 (h : Hdr) (f : OpVCR) : Sem := semCvt h f tI32

/-- The meaning of the row: one issue of the operation. -/
def execVCvtI32 (h : Hdr) (f : OpVCR) (s : State) : Host.Outcome State Fault Refusal :=
  (semVCvtI32 h f).run h s

/-- V.CVT.I16. -/
def semVCvtI16 (h : Hdr) (f : OpVCR) : Sem := semCvt h f tI16

/-- The meaning of the row: one issue of the operation. -/
def execVCvtI16 (h : Hdr) (f : OpVCR) (s : State) : Host.Outcome State Fault Refusal :=
  (semVCvtI16 h f).run h s

/-- V.CVT.I8. -/
def semVCvtI8 (h : Hdr) (f : OpVCR) : Sem := semCvt h f tI8

/-- The meaning of the row: one issue of the operation. -/
def execVCvtI8 (h : Hdr) (f : OpVCR) (s : State) : Host.Outcome State Fault Refusal :=
  (semVCvtI8 h f).run h s

/-- V.CVT.Z32. -/
def semVCvtZ32 (h : Hdr) (f : OpVCR) : Sem := semCvt h f tZ32

/-- The meaning of the row: one issue of the operation. -/
def execVCvtZ32 (h : Hdr) (f : OpVCR) (s : State) : Host.Outcome State Fault Refusal :=
  (semVCvtZ32 h f).run h s

/-- V.CVT.Z16. -/
def semVCvtZ16 (h : Hdr) (f : OpVCR) : Sem := semCvt h f tZ16

/-- The meaning of the row: one issue of the operation. -/
def execVCvtZ16 (h : Hdr) (f : OpVCR) (s : State) : Host.Outcome State Fault Refusal :=
  (semVCvtZ16 h f).run h s

/-- V.CVT.Z8. -/
def semVCvtZ8 (h : Hdr) (f : OpVCR) : Sem := semCvt h f tZ8

/-- The meaning of the row: one issue of the operation. -/
def execVCvtZ8 (h : Hdr) (f : OpVCR) (s : State) : Host.Outcome State Fault Refusal :=
  (semVCvtZ8 h f).run h s

/-- VCFG0 or VCFG1, the word of the slot (R141). -/
def Core.vcfg (c : Core) (sl : Slot) : Word := if sl = .V1 then c.sw.vcfg1 else c.sw.vcfg0

/-- V.CVTC: source, destination, mode, scale and saturation from the slot's VCFG (R148). -/
def semVCvtc (h : Hdr) (f : OpVC) : Sem :=
  let src (c : Core) : Nat := fieldGet (c.vcfg h.slot) 28 4
  let dst (c : Core) : Nat := fieldGet (c.vcfg h.slot) 24 4
  let base := semVec h f.vd [(f.va, anyTag)]
    (fun c =>
      let bad := (c.rv h.slot f.va).tag.toNat ≠ src c || [tBITS, tI4, tX4, tRS, tKV].contains (dst c) ||
        [tBITS, tRS, tKV].contains (src c)
      if bad then some { c.trap h.slot 0x02 with data := f.va.toNat }
      else c.partTrap h.slot f.va (tagWidth (src c)) (tagWidth (dst c)) f.part.toNat) 3 3
    (fun c => convert (c.rv h.slot f.va (if tagWidth (dst c) < tagWidth (src c) then 1 else 0)) (c.rv h.slot f.vd) (src c) (dst c) f.part.toNat
      (fieldGet (c.vcfg h.slot) 22 2) (sx (fieldGet (c.vcfg h.slot) 8 8) 8) ((c.vcfg h.slot).getLsbD 0))
  { base with
    reads := fun c => (if tagWidth (dst c) < tagWidth (src c) then [c.xv f.vd] else []) ++
      [c.xv f.va, .w (if h.slot = .V1 then 0x029 else 0x028)] }

/-- The meaning of the row: one issue of the operation. -/
def execVCvtc (h : Hdr) (f : OpVC) (s : State) : Host.Outcome State Fault Refusal :=
  (semVCvtc h f).run h s

/-- V.RINT.F32: the sign of a on a zero result (R149). -/
def semVRintF32 (h : Hdr) (f : OpV2R) : Sem :=
  semV1 h f.vd f.va [tF32] 3 32 tF32 (fun a =>
    match fval fpF32 a with
    | .fin s m e => fround fpF32 0 s (rndInt f.rnd.toNat s m e).natAbs 0 false
    | x => froundNum fpF32 0 x)

/-- The meaning of the row: one issue of the operation. -/
def execVRintF32 (h : Hdr) (f : OpV2R) (s : State) : Host.Outcome State Fault Refusal :=
  (semVRintF32 h f).run h s

/-- V.SCALE.F32: vb is read as an integer and must carry I32 (R149). An exponent beyond 1,000 in size rounds as 1,000. -/
def semVScaleF32 (h : Hdr) (f : OpV3R) : Sem :=
  semVV h f.vd f.va f.vb [tF32] [tI32] 3 32 (fun _ _ => tF32)
    (fun a b => froundNum fpF32 f.rnd.toNat ((fval fpF32 a).scale (satI (sx b 32) (-1000) 1000)))

/-- The meaning of the row: one issue of the operation. -/
def execVScaleF32 (h : Hdr) (f : OpV3R) (s : State) : Host.Outcome State Fault Refusal :=
  (semVScaleF32 h f).run h s

/-- V.EXPO.F32 (R149). -/
def semVExpoF32 (h : Hdr) (f : OpV2) : Sem :=
  semV1 h f.vd f.va [tF32] 3 32 tI32 (fun a =>
    match fval fpF32 a with
    | .fin _ m e => if m = 0 then 2 ^ 31 else wrap ((bitLen m : Int) - 1 + e) 32
    | _ => 2 ^ 31 - 1)

/-- The meaning of the row: one issue of the operation. -/
def execVExpoF32 (h : Hdr) (f : OpV2) (s : State) : Host.Outcome State Fault Refusal :=
  (semVExpoF32 h f).run h s

/-! ## Pack and unpack (R150) -/

/-- A pack or unpack of element widths `ws` to `wd`; `g` gives the parts' elements of `wd` bits and the warnings. -/
def semPack (h : Hdr) (vd va : BitVec 10) (part : BitVec 3) (acc : Nat) (ws wd dst : Nat)
    (g : VReg → List Nat × Nat) : Sem :=
  let base := semVec h vd [(va, [acc])] (fun c => c.partTrap h.slot va ws wd part.toNat) 3 3
    (fun c =>
      let a := c.rv h.slot va (if wd < ws then 1 else 0)
      let o := g a
      let r := mergePart ws wd part.toNat (c.rv h.slot vd) o.1 (fun j => srcPoison a ws (partSrc ws wd part.toNat j))
      { val := r.1, tag := dst, poison := r.2, warn := o.2 })
  { base with reads := fun c => (if wd < ws then [c.xv vd] else []) ++ [c.xv va] }

/-- V.PACK.I4. -/
def semVPackI4 (h : Hdr) (f : OpVC) : Sem :=
  semPack h f.vd f.va f.part tI8 8 4 tI4 (fun a => ((elems a.val 8).map (fun x => wrap (satI (sx x 8) (-8) 7) 4), 0))

/-- The meaning of the row: one issue of the operation. -/
def execVPackI4 (h : Hdr) (f : OpVC) (s : State) : Host.Outcome State Fault Refusal :=
  (semVPackI4 h f).run h s

/-- V.UNPK.I4. -/
def semVUnpkI4 (h : Hdr) (f : OpVC) : Sem :=
  semPack h f.vd f.va f.part tI4 4 8 tI8 (fun a =>
    ((List.range 128).map (fun j => wrap (sx (elem a.val 4 (128 * f.part.toNat + j)) 4) 8), 0))

/-- The meaning of the row: one issue of the operation. -/
def execVUnpkI4 (h : Hdr) (f : OpVC) (s : State) : Host.Outcome State Fault Refusal :=
  (semVUnpkI4 h f).run h s

/-- V.PACK.X4: sixteen quads, each of four 4-bit slots, from 64 FP16 elements. -/
def semVPackX4 (h : Hdr) (f : OpVCR) : Sem :=
  semPack h f.vd f.va f.part tF16 16 4 tX4 (fun a =>
    let q := (List.range 16).map (fun i => packX4 f.rnd.toNat (fun k => elem a.val 16 (4 * i + k)))
    ((List.range 64).map (fun j => (q.getD (j / 4) (0, 0)).1 / 2 ^ (4 * (j % 4)) % 16),
      q.foldl (fun x y => x + y.2) 0))

/-- The meaning of the row: one issue of the operation. -/
def execVPackX4 (h : Hdr) (f : OpVCR) (s : State) : Host.Outcome State Fault Refusal :=
  (semVPackX4 h f).run h s

/-- V.UNPK.X4, exact. -/
def semVUnpkX4 (h : Hdr) (f : OpVC) : Sem :=
  semPack h f.vd f.va f.part tX4 4 16 tF16 (fun a =>
    ((List.range 64).map (fun j => cvtNum (srcNum a tX4 (64 * f.part.toNat + j)) tF16 0 false),
      srcWarn a tX4 (64 * f.part.toNat) 64))

/-- The meaning of the row: one issue of the operation. -/
def execVUnpkX4 (h : Hdr) (f : OpVC) (s : State) : Host.Outcome State Fault Refusal :=
  (semVUnpkX4 h f).run h s

/-! ## Reductions (R151) -/

/-- A reduction over elements of width `w`: excluded elements enter as `z`; every element of vd takes the result. -/
def semReduce (h : Hdr) (vd va : BitVec 10) (mn : BitVec 4) (m : Bool) (acc : List Nat) (w levels lat tag z : Nat)
    (g : Nat → Nat → Nat) : Sem :=
  let base := semVec h vd [(va, acc)] (fun _ => none) lat lat (fun c =>
    let a := c.rv h.slot va
    let k := c.rm h.slot mn
    let inc (l : Nat) : Bool := !m || k.1.getLsbD l
    let x := tree g levels ((List.range (1024 / w)).map (fun j => if inc (w * j / 32) then elem a.val w j else z))
    let p := (List.range 32).any (fun l => inc l && a.poison.getLsbD l) || (m && k.2)
    { val := vecOf w (List.replicate (1024 / w) x), tag := tag, poison := if p then 0xFFFFFFFF#32 else 0#32 })
  { base with reads := fun c => [c.xv va] ++ (if m then [c.xm mn] else []) }

/-- V.RADD.F32. -/
def semVRaddF32 (h : Hdr) (f : OpVQR) : Sem :=
  semReduce h f.vd f.va f.mn f.m [tF32] 32 5 10 tF32 0
    (fun x y => fadd fpF32 f.rnd.toNat (fval fpF32 x) (fval fpF32 y))

/-- The meaning of the row: one issue of the operation. -/
def execVRaddF32 (h : Hdr) (f : OpVQR) (s : State) : Host.Outcome State Fault Refusal :=
  (semVRaddF32 h f).run h s

/-- V.RADD.F16. -/
def semVRaddF16 (h : Hdr) (f : OpVQR) : Sem :=
  semReduce h f.vd f.va f.mn f.m [tF16] 16 6 12 tF16 0
    (fun x y => fadd fpF16 f.rnd.toNat (fval fpF16 x) (fval fpF16 y))

/-- The meaning of the row: one issue of the operation. -/
def execVRaddF16 (h : Hdr) (f : OpVQR) (s : State) : Host.Outcome State Fault Refusal :=
  (semVRaddF16 h f).run h s

/-- V.RADD.I32. -/
def semVRaddI32 (h : Hdr) (f : OpVQ) : Sem :=
  semReduce h f.vd f.va f.mn f.m [tI32, tZ32] 32 5 10 tI32 0 (fun x y => (x + y) % 2 ^ 32)

/-- The meaning of the row: one issue of the operation. -/
def execVRaddI32 (h : Hdr) (f : OpVQ) (s : State) : Host.Outcome State Fault Refusal :=
  (semVRaddI32 h f).run h s

/-- V.RMAX.F32. -/
def semVRmaxF32 (h : Hdr) (f : OpVQ) : Sem :=
  semReduce h f.vd f.va f.mn f.m [tF32] 32 5 10 tF32 0xFF800000 (fmax fpF32)

/-- The meaning of the row: one issue of the operation. -/
def execVRmaxF32 (h : Hdr) (f : OpVQ) (s : State) : Host.Outcome State Fault Refusal :=
  (semVRmaxF32 h f).run h s

/-- V.RMIN.F32. -/
def semVRminF32 (h : Hdr) (f : OpVQ) : Sem :=
  semReduce h f.vd f.va f.mn f.m [tF32] 32 5 10 tF32 0x7F800000 (fmin fpF32)

/-- The meaning of the row: one issue of the operation. -/
def execVRminF32 (h : Hdr) (f : OpVQ) (s : State) : Host.Outcome State Fault Refusal :=
  (semVRminF32 h f).run h s

/-- V.RMAX.I32. -/
def semVRmaxI32 (h : Hdr) (f : OpVQ) : Sem :=
  semReduce h f.vd f.va f.mn f.m [tI32] 32 5 10 tI32 0x80000000 (fun x y => if sx x 32 ≤ sx y 32 then y else x)

/-- The meaning of the row: one issue of the operation. -/
def execVRmaxI32 (h : Hdr) (f : OpVQ) (s : State) : Host.Outcome State Fault Refusal :=
  (semVRmaxI32 h f).run h s

/-! ## Permutes (R152) -/

/-- A permute that copies lanes: `src c j` gives the register and lane that lane j comes from, `ix c j` the poison of what
chose it. -/
def semPermute (h : Hdr) (vd : BitVec 10) (reads : Core → List RegRef) (tag : Core → Nat)
    (src : Core → Nat → VReg × Nat) (ix : Core → Nat → Bool) : Sem :=
  let base := semVec h vd [] (fun _ => none) 2 2 (fun c =>
    { val := vecOf 32 ((List.range 32).map (fun j => elem (src c j).1.val 32 (src c j).2)), tag := tag c,
      poison := lanesOf (fun j => (src c j).1.poison.getLsbD (src c j).2 || ix c j) })
  { base with reads := reads }

/-- The tag of two registers that a permute joins. -/
def Core.joinTag (c : Core) (sl : Slot) (va vb : BitVec 10) : Nat :=
  if (c.rv sl va).tag = (c.rv sl vb 1).tag then (c.rv sl va).tag.toNat else tBITS

/-- V.PERM. -/
def semVPerm (h : Hdr) (f : OpV3) : Sem :=
  semPermute h f.vd (fun c => [c.xv f.va, c.xv f.vb]) (fun c => (c.rv h.slot f.va).tag.toNat)
    (fun c j => (c.rv h.slot f.va, elem (c.rv h.slot f.vb 1).val 32 j % 32))
    (fun c j => (c.rv h.slot f.vb 1).poison.getLsbD j)

/-- The meaning of the row: one issue of the operation. -/
def execVPerm (h : Hdr) (f : OpV3) (s : State) : Host.Outcome State Fault Refusal :=
  (semVPerm h f).run h s

/-- V.PERM8. -/
def semVPerm8 (h : Hdr) (f : OpV3) : Sem :=
  let base := semVec h f.vd [] (fun _ => none) 2 2 (fun c =>
    let a := c.rv h.slot f.va
    let b := c.rv h.slot f.vb 1
    { val := vecOf 8 ((List.range 128).map (fun k => elem a.val 8 (elem b.val 8 k % 128))), tag := a.tag.toNat,
      poison := lanesOf (fun j => b.poison.getLsbD j ||
        (List.range 4).any (fun i => a.poison.getLsbD (elem b.val 8 (4 * j + i) % 128 / 4))) })
  { base with reads := fun c => [c.xv f.va, c.xv f.vb] }

/-- The meaning of the row: one issue of the operation. -/
def execVPerm8 (h : Hdr) (f : OpV3) (s : State) : Host.Outcome State Fault Refusal :=
  (semVPerm8 h f).run h s

/-- V.ROT. -/
def semVRot (h : Hdr) (f : OpVN) : Sem :=
  semPermute h f.vd (fun c => [c.xv f.va]) (fun c => (c.rv h.slot f.va).tag.toNat)
    (fun c j => (c.rv h.slot f.va, (j + f.n.toNat) % 32)) (fun _ _ => false)

/-- The meaning of the row: one issue of the operation. -/
def execVRot (h : Hdr) (f : OpVN) (s : State) : Host.Outcome State Fault Refusal :=
  (semVRot h f).run h s

/-- V.SLIDE. -/
def semVSlide (h : Hdr) (f : OpVSL) : Sem :=
  semPermute h f.vd (fun c => [c.xv f.va, c.xv f.vb]) (fun c => c.joinTag h.slot f.va f.vb)
    (fun c j => if j + f.n.toNat < 32 then (c.rv h.slot f.va, j + f.n.toNat)
      else (c.rv h.slot f.vb 1, j + f.n.toNat - 32)) (fun _ _ => false)

/-- The meaning of the row: one issue of the operation. -/
def execVSlide (h : Hdr) (f : OpVSL) (s : State) : Host.Outcome State Fault Refusal :=
  (semVSlide h f).run h s

/-- V.BCAST. -/
def semVBcast (h : Hdr) (f : OpVN) : Sem :=
  semPermute h f.vd (fun c => [c.xv f.va]) (fun c => (c.rv h.slot f.va).tag.toNat)
    (fun c _ => (c.rv h.slot f.va, f.n.toNat)) (fun _ _ => false)

/-- The meaning of the row: one issue of the operation. -/
def execVBcast (h : Hdr) (f : OpVN) (s : State) : Host.Outcome State Fault Refusal :=
  (semVBcast h f).run h s

/-- V.BCS: bits 31:0 of a scalar in every lane, with its poison; a tag X4, RS or KV raises the format trap. -/
def semVBcs (h : Hdr) (f : OpVS) : Sem :=
  let base := semVec h f.vd []
    (fun c => if [tX4, tRS, tKV].contains f.tag.toNat then some { c.trap h.slot 0x02 with data := f.vd.toNat } else none)
    2 2 (fun c =>
      let a := c.rs h.slot f.sa
      { val := vecOf 32 (List.replicate 32 (a.1.toNat % 2 ^ 32)), tag := f.tag.toNat,
        poison := if a.2 then 0xFFFFFFFF#32 else 0#32 })
  { base with reads := fun c => [c.xs f.sa] }

/-- The meaning of the row: one issue of the operation. -/
def execVBcs (h : Hdr) (f : OpVS) (s : State) : Host.Outcome State Fault Refusal :=
  (semVBcs h f).run h s

/-- V.SEL. -/
def semVSel (h : Hdr) (f : OpVSEL) : Sem :=
  semPermute h f.vd (fun c => [c.xv f.va, c.xv f.vb, c.xm f.mn]) (fun c => c.joinTag h.slot f.va f.vb)
    (fun c j => (if (c.rm h.slot f.mn).1.getLsbD j then c.rv h.slot f.va else c.rv h.slot f.vb 1, j))
    (fun c _ => (c.rm h.slot f.mn).2)

/-- The meaning of the row: one issue of the operation. -/
def execVSel (h : Hdr) (f : OpVSEL) (s : State) : Host.Outcome State Fault Refusal :=
  (semVSel h f).run h s

/-- V.IOTA. -/
def semVIota (h : Hdr) (f : OpVI) : Sem :=
  semVec h f.vd [] (fun _ => none) 2 2 (fun _ =>
    { val := vecOf 32 ((List.range 32).map (fun j => f.imm.toNat + j)), tag := tI32, poison := 0#32 })

/-- The meaning of the row: one issue of the operation. -/
def execVIota (h : Hdr) (f : OpVI) (s : State) : Host.Outcome State Fault Refusal :=
  (semVIota h f).run h s

end Sys2Proof.Machine
end

