-- ==== Sys2Proof/Machine/Access.lean ====
section
/-! DEFINITION. How the memory operations of the S, C0 and C1 slots form and check their addresses (R158 to R163, R278 to
R281, R369 to R371). -/

namespace Sys2Proof.Machine

/-- The address WRAP(b + displacement, 64) of a memory operation. -/
def Core.ea (c : Core) (sl : Slot) (sb : BitVec 7) (off : BitVec 32) (k : Nat := 0) : Word :=
  (c.rs sl sb k).1 + (c.disp sl off).signExtend 64

/-- The free choice of an issue and slot: which translation a TLB gives (R372, log 7). -/
def State.pick (s : State) (sl : Slot) : Nat :=
  (match s.me.issue with | some i => i.free | none => s.free) + slotCode sl

/-- A trap of a memory operation with the fields of its record (R352, R362). -/
def Core.memTrap (c : Core) (sl : Slot) (code sub : Nat) (addr : Word) (space kind log2 : Nat) : Trap :=
  { c.trap sl code with sub := sub, addr := addr, space := space, kind := kind, size := log2 }

/-- The context that the core runs under. -/
def State.ctxInfo (s : State) (ctx : Nat) : Option CtxInfo := (s.contexts.find? (fun e => e.1 == ctx)).map (·.2)

/-- Base and size of the loft window of a context on a die; size 0 where it has none (R161). -/
def State.loftWindow (s : State) (ctx die : Nat) : Nat × Nat :=
  match s.ctxInfo ctx with
  | some ci => ci.loft.getD die (0, 0)
  | none => (0, 0)

/-- Base and size of the cluster window of the core's launch; size 0 where none is granted (R160). -/
def Core.clusterWindow (c : Core) : Nat × Nat :=
  match c.unit with
  | some u => u.window
  | none => (0, 0)

/-- The trap of an access of `n` bytes at offset `a` of a window (R160, R161, R163). -/
def Core.windowTrap (c : Core) (sl : Slot) (a : Word) (n align size space kind log2 : Nat) : Option Trap :=
  if a.toNat % align ≠ 0 then some (c.memTrap sl 0x09 1 a space kind log2)
  else if size < a.toNat + n then some (c.memTrap sl 0x09 2 a space kind log2)
  else none

/-- Where offset 0 of the core's loft window stands in the loft store. -/
def State.loftBase (s : State) (c : Core) : Nat := 2 ^ 26 * dieOf c.id + (s.loftWindow c.ctx (dieOf c.id)).1

/-- Where offset 0 of the core's cluster window stands in the cluster store. -/
def Core.clusterBase (c : Core) : Nat := 2 ^ 23 * clusterOf c.id + c.clusterWindow.1

/-- A checked main-memory access: the physical address of each byte and the attributes of its pages. -/
abbrev C1Plan := List Nat × BitVec 8

/-- The check of a C1 access of `n` bytes at `va` (R162, R163, R369 to R371); `kind` is KIND of FAULT_INFO. The address
that a translation fault reports is that of the first byte of the failing page. -/
def State.c1Plan (s : State) (sl : Slot) (va : Word) (n align kind log2 : Nat) (rd wr : Bool) : Except Trap C1Plan :=
  let c := s.me
  if va.toNat / 2 ^ 48 ≠ 0 then .error (c.memTrap sl 0x09 2 va 0 kind log2)
  else if va.toNat % align ≠ 0 then .error (c.memTrap sl 0x09 1 va 0 kind log2)
  else if 2 ^ 48 < va.toNat + n then .error (c.memTrap sl 0x09 2 va 0 kind log2)
  else
    match accessRange s c c.ctx va.toNat n (s.pick sl) { rd := rd, wr := wr, ex := false, user := !c.sup } with
    | (.ok pa at1 lg, .ok pb at2 lg2) => .ok (physList va.toNat n (.ok pa at1 lg) (.ok pb at2 lg2), at1)
    | (.fail code sub level, _) => .error { c.memTrap sl code sub va 0 kind log2 with level := level }
    | (_, .fail code sub level) =>
      .error { c.memTrap sl code sub (BitVec.ofNat 64 ((va.toNat + n - 1) / 2 ^ 16 * 2 ^ 16)) 0 kind log2 with level := level }

/-- The beat tag of a load or store that inherits (R279), with the checks of R279, R163 and R296; none for a page that is
not worked. -/
def State.beatPlan (s : State) (sl : Slot) (va : Word) (n kind log2 : Nat) (attr : BitVec 8) : Except Trap (Option Nat) :=
  let c := s.me
  let t := fieldGet c.sw.beatNow 0 48
  if !isWorked attr then .ok none
  else if c.determ then .error (c.trap sl 0x0D)
  else if !c.sw.beatNow.getLsbD 63 || t % 2 == 1 || va.toNat / 2 ^ 15 != (va.toNat + n - 1) / 2 ^ 15 then
    .error { c.memTrap sl 0x07 0 va 0 kind log2 with data := t % 2 ^ 32 }
  else .ok (some t)

/-- Both checks of a load or store of R169. -/
def State.plainPlan (s : State) (sl : Slot) (va : Word) (n align kind log2 : Nat) (rd wr : Bool) :
    Except Trap (List Nat × Option Nat) :=
  match s.c1Plan sl va n align kind log2 rd wr with
  | .error t => .error t
  | .ok (pas, attr) =>
    match s.beatPlan sl va n kind log2 attr with
    | .error t => .error t
    | .ok b => .ok (pas, b)

/-- The trap of a check. -/
def trapOfPlan {α : Type} (x : Except Trap α) : Option Trap :=
  match x with
  | .error t => some t
  | .ok _ => none

/-- The TLBs of core `n` and of its cluster hold the page of `va` after an access to it (R372): 64 and 4,096 entries,
the oldest dropped first (DESIGN CHOICE, log 7). -/
def State.fillTlb (s : State) (n ctx va : Nat) : State :=
  let c := s.coreAt n
  match walk s ctx va with
  | .fail _ _ _ => s
  | .ok pa attr lg =>
    let e : TlbEntry := { ctx := ctx, page := va / 2 ^ lg, log2 := lg, base := pa - va % 2 ^ lg, attr := attr }
    let add (l : List TlbEntry) (m : Nat) : List TlbEntry := if l.any (fun x => x.covers ctx va) then l else (e :: l).take m
    let s1 := s.putCore n { c with tlb := add c.tlb 64 }
    { s1 with clusterTlb := SMap.put s1.clusterTlb (n / 16) (add (SMap.get s1.clusterTlb (n / 16) []) 4096) }

/-- The TLBs after an access of `k` bytes at `va` by the core whose turn it is. -/
def State.touch (s : State) (va : Word) (k : Nat) : State :=
  let s1 := s.fillTlb s.coreNo s.me.ctx va.toNat
  if va.toNat / 2 ^ 16 = (va.toNat + k - 1) / 2 ^ 16 then s1 else s1.fillTlb s.coreNo s.me.ctx (va.toNat + k - 1)

/-- A latency with its padded value in a deterministic launch (R164, R395). -/
def Core.lat3 (c : Core) (p1 p2 d : Nat) : Nat := if c.determ then d else c.lat p1 p2


/-- PADC1 of DETERM (R394). -/
def Core.padC1 (c : Core) : Nat := fieldGet c.sw.determ 32 16

/-- The issue time at which a C1 result may land in a deterministic launch (R395): PADC1 after the issue; 0 outside one. -/
def Core.padded (c : Core) : Nat := if c.det then c.time + c.padC1 else 0

/-- A gather or scatter. -/
def Engine.gathers (e : Engine) : Bool :=
  match e.kind with
  | .gather _ | .scatter _ => true
  | _ => false

/-- A C1 access whose bytes overlap an element that an earlier gather or scatter has still to perform stalls its bundle
(R178); in a deterministic launch, until the padded time of that operation (R395). -/
def Core.engineStallBy (c : Core) (hit : Nat → Bool) : Bool :=
  if c.det then c.engines.any (fun e => decide (c.time < e.padEnd) && e.span.any hit)
  else c.engines.any (fun e => e.gathers && e.work.any (fun w => w.2.any hit))

/-- The stall for an access whose bytes are known. -/
def Core.engineStall (c : Core) (pas : List Nat) : Bool := c.engineStallBy pas.contains

/-! ## What a read of main memory finds (R190, R191, R193, R195, R199 to R202) -/

/-- The entry is of a release of its core at package or system scope, or waits behind one: no other core sees it (R201). -/
def State.outHidden (s : State) (e : OutEntry) : Bool :=
  let c := s.coreAt e.core
  c.sb.any (fun x => decide (e.seq < x.seq) && decide (3 ≤ x.rel)) ||
    c.fences.any (fun f => decide (e.seq < f.seq) && !f.done && f.kind != 2 && decide (3 ≤ f.scope)) ||
    c.timed.any (fun x => decide (e.seq < x.seq) && decide (3 ≤ x.rel)) ||
    c.engines.any (fun x => decide (e.seq < x.seq) && decide (3 ≤ x.rel))

/-- What the outbound queue of its die shows core `n` of a word: its own entries, and those of others that no release
hides. -/
def State.shown (s : State) (n w : Nat) : List OutEntry :=
  (s.outEntries (dieOf n) w).filter (fun e => e.core == n || !s.outHidden e)

/-- A word as it stands before the core's own buffered stores: the L1 copy where the load takes it, or the home L2; over it
what the outbound queue forwards, beside the L1 copy the core's own entries alone. An acquire at package or system scope takes
the home L2 (R199). -/
def State.baseWord (s : State) (n acq w : Nat) (hit : Bool) : BitVec 32 × Bool :=
  match (if hit then (s.coreAt n).l1.find? (fun e => e.1 == w) else none) with
  | some e => ((s.outEntries (dieOf n) w).filter (fun x => x.core == n)).foldl (fun x e => overlayWord w x e.bytes e.words) e.2
  | none =>
    let home := (BitVec.ofNat 32 (s.home.num (4 * w) 4), s.home.pois w)
    if 3 ≤ acq then home else (s.shown n w).foldl (fun x e => overlayWord w x e.bytes e.words) home

/-- The core's own stores before place `seq` that are not yet performed, in program order; those of its open segment
among them (R190, R382). -/
def Core.ownStores (c : Core) (seq : Nat) : List SbEntry :=
  ((c.sb.filter (fun e => e.kind == .store && e.space == .main)) ++ (c.seg.held.filter (fun e => e.space == .main))).filter
    (fun e => decide (e.seq < seq)) |>.mergeSort (fun a b => decide (a.seq ≤ b.seq))

/-- A word as the read at place `seq` of core `n` finds it. -/
def State.viewWord (s : State) (n seq acq w : Nat) (hit : Bool) : BitVec 32 × Bool :=
  ((s.coreAt n).ownStores seq).foldl (fun x e => overlayWord w x e.bytes e.words) (s.baseWord n acq w hit)

/-- A byte that an engine, a record read or a submission at place `seq` of core `n` finds, for an acquire at scope `acq`; such reads pass
the L1 by. -/
def State.ownByte (s : State) (n seq a : Nat) (acq : Nat := 0) : Byte :=
  BitVec.ofNat 8 (fieldGet (s.viewWord n seq acq (a / 4) false).1 (8 * (a % 4)) 8)

/-- The poison of a word as `ownByte` finds it. -/
def State.ownPois (s : State) (n seq w : Nat) (acq : Nat := 0) : Bool := (s.viewWord n seq acq w false).2

/-- A read of the bytes by core `n` that passes its L1 by has been given the entries of its die's outbound queue that cover
them, and no later load of the core is given an older copy (R191). -/
def State.markSeen (s : State) (n : Nat) (as : List Nat) : State :=
  let c := s.coreAt n
  let s1 := s.putCore n { c with l1 := c.l1.filter (fun e =>
    (SMap.get s.owner e.1 0 == n + 1 && !s.queuedOther n e.1) || !(as.map (· / 4)).contains e.1) }
  { s1 with outq := s.outq.map (fun e =>
      if e.1 == dieOf n && e.2.core != n && !e.2.seen && !s.outHidden e.2 && meets (e.2.bytes.map (·.1)) as
      then (e.1, { e.2 with seen := true }) else e) }

/-- The bank of a physical address is one that the command names (R277, R287). -/
def BankCmd.names (c : BankCmd) (a : Nat) : Bool :=
  c.region / 2 ^ 23 / 2 ^ 11 == a / 2 ^ 23 / 2 ^ 11 && decide (c.region / 2 ^ 15 % 256 ≤ a / 2 ^ 15 % 256) &&
    decide (a / 2 ^ 15 % 256 < c.region / 2 ^ 15 % 256 + c.count)

/-- The address lies in a row of the command. -/
def BankCmd.covers (c : BankCmd) (a : Nat) : Bool :=
  decide (c.region ≤ a / 2 ^ 15 * 2 ^ 15) && decide (a / 2 ^ 15 * 2 ^ 15 < c.region + 2 ^ 15 * c.count)

/-- A compute beat of the home die is in progress, and one of the given addresses lies in a bank that a command of the beat
names, or in a row of a suspended command: an access to it waits until the beat ends (R274, R283, R295). -/
def State.rowBusy (s : State) (as : List Nat) : Bool :=
  as.any (fun a =>
    let d := s.dieAt (homeDie a)
    d.opened && d.beat % 2 == 1 && d.cmds.any (fun c => c.arrived && ((c.due == d.beat && c.names a) || (c.suspended && c.covers a))))

/-- One of the addresses lies in a row of a suspended command: outside a compute beat every access to it is refused (R295). -/
def State.rowRefused (s : State) (as : List Nat) : Bool :=
  as.any (fun a =>
    let d := s.dieAt (homeDie a)
    !(d.opened && d.beat % 2 == 1) && d.cmds.any (fun c => c.suspended && c.covers a))

/-- The parts of physical pages that hold the `len` bytes at `va`, each with its length. -/
def State.pageSpans (s : State) (ctx va len : Nat) : List (Nat × Nat) :=
  (List.range ((va % 65536 + len + 65535) / 65536)).filterMap (fun k =>
    let lo := max va ((va / 65536 + k) * 65536)
    match walk s ctx lo with
    | .ok pa _ _ => some (pa, min (va + len) ((va / 65536 + k + 1) * 65536) - lo)
    | .fail _ _ _ => none)

/-- Two lists of runs of bytes share one. -/
def spansMeet (l m : List (Nat × Nat)) : Bool :=
  l.any (fun x => m.any (fun y => decide (x.1 < y.1 + y.2) && decide (y.1 < x.1 + x.2)))

/-- The physical bytes that an engine operation has still to reach; those of a fill or spill as they translate now. -/
def State.engineBytes (s : State) (ctx : Nat) (e : Engine) : List Nat :=
  e.work.flatMap (·.2) ++ e.virt.flatten.filterMap (fun a =>
    match walk s ctx a.toNat with | .ok pa _ _ => some pa | .fail _ _ _ => none)

/-- A read of the bytes at place `seq` of core `n` waits (R179, R190, R191, R199): for an acquire before it, for a beat, for an
earlier entry of the store buffer that does not forward its bytes, or for an entry of the outbound queue that it may no longer
be given although it, or another core of the die, has been. -/
def State.readHeld (s : State) (n seq : Nat) (as : List Nat) : Bool :=
  let c := s.coreAt n
  c.acquiring seq || s.rowBusy as ||
    c.sb.any (fun e => decide (e.seq < seq) && (e.kind != .store || e.gd.isSome) && meets e.addrs as) ||
    s.outq.any (fun e => e.1 == dieOf n && e.2.core != n && e.2.seen && s.outHidden e.2 && meets (e.2.bytes.map (·.1)) as)

/-- One of the bytes lies in one of the spans. -/
def hitsSpan (l : List (Nat × Nat)) (as : List Nat) : Bool :=
  !l.isEmpty && as.any (fun a => l.any (fun x => decide (x.1 ≤ a) && decide (a < x.1 + x.2)))

/-- The table that a C1.KVHO in progress may write, whose entries it finds as it goes (R308). -/
def State.kvhoSpans (s : State) (ctx : Nat) (e : Engine) : List (Nat × Nat) :=
  match e.kind, e.kv.pool with
  | .kvho, some p => s.pageSpans ctx p.table (16 * p.n)
  | _, _ => []

/-- A record or block read at its issue waits for an engine write of the core that it overlaps, too (R179, R190). -/
def State.recordHeld (s : State) (n seq : Nat) (as : List Nat) : Bool :=
  let c := s.coreAt n
  s.readHeld n seq as || c.engines.any (fun e => e.stores && decide (e.seq < seq) &&
    (meets (s.engineBytes c.ctx e) as || hitsSpan (s.kvhoSpans c.ctx e) as))

/-- The refusal at issue of a record or object read there that lies in a row of a suspended command (R295), with the beat in progress as
the tag that the access does not carry (DESIGN CHOICE, log 65). -/
def State.rowTrap (s : State) (sl : Slot) (va : Word) (pas : List Nat) (kind log2 : Nat) : Option Trap :=
  if s.rowRefused pas then
    some { s.me.memTrap sl 0x07 0 va 0 kind log2 with data := (s.dieAt (homeDie (pas.headD 0))).beat % 2 ^ 32 }
  else none

/-- A write of the bytes at a home L2 by core `n` at place `seq` waits for its own earlier stores to their words in the outbound
queue (R190). -/
def State.queuedBefore (s : State) (n seq : Nat) (as : List Nat) : Bool :=
  s.outq.any (fun e => e.2.core == n && decide (e.2.seq < seq) && meets (e.2.words.map (·.1)) (as.map (· / 4)))

end Sys2Proof.Machine
end

