-- ==== Sys2Proof/Machine/Memory.lean ====
section
/-! DEFINITION. The scalar and vector loads and stores of the S, C0 and C1 slots (R168 to R170, R196 to R199). -/

namespace Sys2Proof.Machine

/-- The scope of the bundle in progress (R26). -/
def Core.scope (c : Core) : Nat :=
  match c.issue with
  | some i => i.scope
  | none => 0

/-- The determinism trap of an ordering form at system scope (R399). -/
def Core.systemTrap (c : Core) (sl : Slot) (ordered : Bool) : Option Trap :=
  if ordered && c.determ && c.scope == 4 then some (c.trap sl 0x0D) else none

/-- The poison-consumed trap of a base register (R376). -/
def Core.baseTrap (c : Core) (sl : Slot) (sb : BitVec 7) (k : Nat := 0) : Option Trap := c.consumed sl [(sb.toNat, (c.rs sl sb k).2)]

/-- The issue time of an active D-pair of the issue in progress, for which a guarded store waits (R124, R170). -/
def Core.pairNow (c : Core) (g : Bool) : Option Nat :=
  if g && c.flights.any (fun f => f.twin.isSome && f.issued == c.time) then some c.time else none

/-! ## The loft (R168) -/

/-- The checks of a loft access of `n` bytes, a load of `kind` 0 or a store of `kind` 1, whose base register stands behind its data. -/
def loftTrap (s : State) (sl : Slot) (sb : BitVec 7) (off : BitVec 32) (n log2 kind : Nat) (ordered : Bool) : Option Trap :=
  let c := s.me
  firstTrap [c.systemTrap sl ordered, c.baseTrap sl sb kind,
    c.windowTrap sl (c.ea sl sb off kind) n n (s.loftWindow c.ctx (dieOf c.id)).2 1 kind log2]

/-- A loft access of `n` bytes stalls behind a release that it overlaps (R395). -/
def State.loftStall (s : State) (sl : Slot) (sb : BitVec 7) (off : BitVec 32) (n k : Nat) : Bool :=
  s.me.padStall .loft ((List.range n).map (s.loftBase s.me + (s.me.ea sl sb off k).toNat + ·))

/-- A loft load: memory read at issue + 20, the result written at L_LOFT (R164). -/
def semLoftLoad (h : Hdr) (f : OpLFL) (log2 : Nat) (ordered : Bool) : Sem :=
  let off := f.imm.signExtend 32
  { reads := fun c => [c.xs f.sb], writes := fun c => [c.xs f.sd], results := 1, off := off, steps := true
    stall := fun s => s.loftStall h.slot f.sb off (2 ^ log2) 0
    check := fun s => loftTrap s h.slot f.sb off (2 ^ log2) log2 0 ordered
    eff := fun s =>
      let a := s.loftBase s.me + (s.me.ea h.slot f.sb off).toNat
      s.onMe (fun c => { c.step with timed := c.timed ++ [{
        due := c.time + 20, seq := c.seq, rel := 0, acq := (if ordered then c.scope else 0), gd := none,
        act := .load .loft a (2 ^ log2) false
          { c.flight h.slot (.scalar (c.physS f.sd.toNat)) (c.lat3 40 44 (fieldGet c.sw.determ 24 8)) with
            acq := ordered && decide (c.scope ≠ 0) } }] }) }

/-- A loft store: performed at issue + 20. -/
def semLoftStore (h : Hdr) (f : OpLFS) (log2 : Nat) (ordered : Bool) : Sem :=
  let off := f.imm.signExtend 32
  { reads := fun c => [c.xs f.sa, c.xs f.sb], off := off, steps := true
    stall := fun s => s.loftStall h.slot f.sb off (2 ^ log2) 1
    check := fun s => loftTrap s h.slot f.sb off (2 ^ log2) log2 1 ordered
    seals := fun _ => ordered
    lines := fun s =>
      if ordered then []
      else linesOf .loft (bytesOf 0 (s.loftBase s.me + (s.me.ea h.slot f.sb off 1).toNat) (2 ^ log2))
    eff := fun s =>
      let a := s.loftBase s.me + (s.me.ea h.slot f.sb off 1).toNat
      s.onMe (fun c =>
        let x := c.rs h.slot f.sa
        let rel := if ordered then c.scope else 0
        let due := if c.determ && 0 < rel then c.padded else c.time + 20
        c.putStore due rel none .loft (bytesOf x.1.toNat a (2 ^ log2)) (wordsOf a (2 ^ log2) x.2)) }

/-- S.LLD. -/
def semSLld (h : Hdr) (f : OpLFL) : Sem := semLoftLoad h f 3 false

/-- The meaning of the row: one issue of the operation. -/
def execSLld (h : Hdr) (f : OpLFL) (s : State) : Host.Outcome State Fault Refusal :=
  (semSLld h f).run h s

/-- S.LLW. -/
def semSLlw (h : Hdr) (f : OpLFL) : Sem := semLoftLoad h f 2 false

/-- The meaning of the row: one issue of the operation. -/
def execSLlw (h : Hdr) (f : OpLFL) (s : State) : Host.Outcome State Fault Refusal :=
  (semSLlw h f).run h s

/-- S.LST. -/
def semSLst (h : Hdr) (f : OpLFS) : Sem := semLoftStore h f 3 false

/-- The meaning of the row: one issue of the operation. -/
def execSLst (h : Hdr) (f : OpLFS) (s : State) : Host.Outcome State Fault Refusal :=
  (semSLst h f).run h s

/-- S.LSTW. -/
def semSLstw (h : Hdr) (f : OpLFS) : Sem := semLoftStore h f 2 false

/-- The meaning of the row: one issue of the operation. -/
def execSLstw (h : Hdr) (f : OpLFS) (s : State) : Host.Outcome State Fault Refusal :=
  (semSLstw h f).run h s

/-- S.LLD.ACQ. -/
def semSLldAcq (h : Hdr) (f : OpLFL) : Sem := semLoftLoad h f 3 true

/-- The meaning of the row: one issue of the operation. -/
def execSLldAcq (h : Hdr) (f : OpLFL) (s : State) : Host.Outcome State Fault Refusal :=
  (semSLldAcq h f).run h s

/-- S.LLW.ACQ. -/
def semSLlwAcq (h : Hdr) (f : OpLFL) : Sem := semLoftLoad h f 2 true

/-- The meaning of the row: one issue of the operation. -/
def execSLlwAcq (h : Hdr) (f : OpLFL) (s : State) : Host.Outcome State Fault Refusal :=
  (semSLlwAcq h f).run h s

/-- S.LST.REL. -/
def semSLstRel (h : Hdr) (f : OpLFS) : Sem := semLoftStore h f 3 true

/-- The meaning of the row: one issue of the operation. -/
def execSLstRel (h : Hdr) (f : OpLFS) (s : State) : Host.Outcome State Fault Refusal :=
  (semSLstRel h f).run h s

/-- S.LSTW.REL. -/
def semSLstwRel (h : Hdr) (f : OpLFS) : Sem := semLoftStore h f 2 true

/-- The meaning of the row: one issue of the operation. -/
def execSLstwRel (h : Hdr) (f : OpLFS) (s : State) : Host.Outcome State Fault Refusal :=
  (semSLstwRel h f).run h s

/-! ## Loads of C0 and C1 (R169) -/

/-- What a load of a C slot writes. -/
inductive CDst where
  | s (r : BitVec 7) | v (r : BitVec 10) (tag : BitVec 4)

/-- The register that a C load writes. -/
def CDst.ref (d : CDst) (c : Core) : RegRef :=
  match d with
  | .s r => c.xs r
  | .v r _ => c.xv r

/-- The traps of a typed load's tag: KV raises the format trap, and a push to a write flume must match it. -/
def CDst.trap (d : CDst) (c : Core) (sl : Slot) : Option Trap :=
  match d with
  | .s _ => none
  | .v r tag => if tag.toNat = tKV then some { c.trap sl 0x02 with data := r.toNat } else c.pushTrap sl r tag.toNat

/-- The element width in bytes of a format for alignment and walks (R163, R172). -/
def ewBytes (tag : Nat) : Nat :=
  if tag = tBITS ∨ tag = tI4 then 1 else if tag = tX4 then 2 else max 1 (tagWidth tag / 8)

/-- Main memory holds back a C1 load while 64 are outstanding, a C1 store while the store buffer is full (R342). A load of a
deterministic launch whose value has arrived before its time is no longer outstanding, so that the hold ends (R396). -/
def Core.loadsFull (c : Core) : Bool := decide (64 ≤ (if c.det then (c.loads.filter (fun l => !l.taken)).length else c.loads.length))
/-- The store buffer holds 32 stores. -/
def Core.storesFull (c : Core) : Bool := decide (32 ≤ c.sb.length)

/-- The C0 port is occupied by an earlier tile transfer (R164). -/
def Core.portBusy (c : Core) : Bool := decide (c.time < c.c0free)

/-- The pending bit of a load's destination set, and a push to a write flume counted (R82, R183). -/
def Core.setPend (c : Core) (d : CDst) : Core :=
  match d with
  | .s r => let n := c.physS r.toNat; c.putS n { c.sreg n with pend := true }
  | .v r _ =>
    let n := c.physV r.toNat
    let c1 := c.putV n { c.vreg n with pend := true }
    { c1 with flumes := c1.flumes.map (fun f => if f.reg == n then { f with inflight := f.inflight + 1 } else f) }

/-- A destination by physical number. -/
def CDst.phys (d : CDst) (c : Core) : LoadDest :=
  match d with
  | .s r => .scalar (c.physS r.toNat)
  | .v r tag => .vec (c.physV r.toNat) tag

/-- A load that is issued to a controller or to the home L2 and has not landed. -/
def Core.addLoad (c : Core) (sl : Slot) (d : CDst) (kind : LoadKind) (addrs : List Nat) (acq : Nat) (virt : Word)
    (away : Bool) : Core :=
  let l : PendLoad := {
    seq := c.seq, dest := d.phys c, kind := kind, addrs := addrs, acq := acq, due := c.padded, slot := slotCode sl,
    pc := c.bundlePc, virt := virt, seg := c.segOpen, away := away, got := [], arrived := none }
  (Core.setPend { c with loads := c.loads ++ [l] } d).step

/-- An access on its way to a controller (R281). -/
def State.sendAccess (s : State) (die : Nat) (a : WAccess) : State :=
  s.putDie die { s.dieAt die with accesses := (s.dieAt die).accesses ++ [a] }

/-- The access of the operation in issue, tagged for beat `t`. -/
def Core.access (c : Core) (sl : Slot) (virt : Word) (t : Nat) : WAccess :=
  { core := c.id, slot := slotCode sl, seq := c.seq, pc := c.bundlePc, virt := virt, ctx := c.ctx, tag := t, bytes := [],
    words := [], addrs := [], load := false, held := false }

/-- A load of cluster memory on its way: read at issue + 12, the result at L_C0 (R164). -/
def Core.clusterLoad (c : Core) (sl : Slot) (d : CDst) (a n : Nat) (spread : Bool) (acq : Nat) : Core :=
  let lat := c.lat3 24 28 (fieldGet c.sw.determ 16 8)
  let fl : Flight :=
    match d with
    | .s r => { c.flight sl (.scalar (c.physS r.toNat)) lat with acq := decide (acq ≠ 0) }
    | .v r t => { c.flight sl (c.vdest r) lat with tag := t, acq := decide (acq ≠ 0) }
  let fm : List Flume :=
    match d with
    | .s _ => c.flumes
    | .v r _ => c.flumes.map (fun f => if f.reg == c.physV r.toNat then { f with inflight := f.inflight + 1 } else f)
  let x : Timed := { due := c.time + 12, seq := c.seq, rel := 0, acq := acq, gd := none, act := .load .cluster a n spread fl }
  { c.step with timed := c.timed ++ [x], flumes := fm }

/-- A load of `n` bytes in C0 or C1: `spread` puts the word into every lane. -/
def semCLoad (h : Hdr) (d : CDst) (sb : BitVec 7) (imm : BitVec 21) (n log2 align : Nat) (spread ordered : Bool) : Sem :=
  let off := imm.signExtend 32
  let main := h.slot == .C1
  let plan (s : State) := s.plainPlan h.slot (s.me.ea h.slot sb off) n align 0 log2 true false
  { reads := fun c => [c.xs sb], writes := fun c => [d.ref c], results := if main then 0 else 1, off := off, steps := true
    stall := fun s => (!main && (s.me.portBusy ||
        s.me.padStall .cluster ((List.range n).map (s.me.clusterBase + (s.me.ea h.slot sb off).toNat + ·)))) ||
      (main && (match plan s with | .ok (pas, _) => s.me.engineStall pas | .error _ => false))
    holds := fun s => main && s.me.loadsFull, waits := fun s => main && s.me.loadsFull
    check := fun s =>
      let c := s.me
      firstTrap [c.systemTrap h.slot ordered, d.trap c h.slot, c.baseTrap h.slot sb,
        if main then trapOfPlan (plan s)
        else c.windowTrap h.slot (c.ea h.slot sb off) n align c.clusterWindow.2 2 0 log2]
    seals := fun s => main && (match plan s with | .ok (_, some _) => true | _ => false)
    eff := fun s =>
      let c := s.me
      let va := c.ea h.slot sb off
      let acq := if ordered then c.scope else 0
      if main then
        match plan s with
        | .error _ => s
        | .ok (pas, beat) =>
          let s1 := (s.touch va n).onMe (fun c =>
            c.addLoad h.slot d (if spread then .spread else .bytes) pas acq va beat.isSome)
          match beat with
          | none => s1
          | some t => s1.sendAccess (homeDie (pas.headD 0)) { c.access h.slot va t with addrs := pas, load := true }
      else
        s.onMe (fun c => c.clusterLoad h.slot d (c.clusterBase + va.toNat) n spread acq) }

/-! ## Stores of C0 and C1 -/

/-- A store of C0 or C1. `data` lists each byte with its offset and poison; `n` is the extent that an access of the form
has, `pre` its checks before the address. -/
def semCStore (h : Hdr) (sb : BitVec 7) (imm : BitVec 21) (g : Bool) (regs : Core → List RegRef)
    (data : Core → List (Nat × Byte × Bool)) (pre : Core → Option Trap) (dataReg log2 : Nat) (align : Core → Nat)
    (ordered : Bool) : Sem :=
  let off := imm.signExtend 32
  let main := h.slot == .C1
  let rank (c : Core) : Nat := (regs c).countP (fun r => match r with | .s _ => true | _ => false)
  let lo (c : Core) : Nat := ((data c).map (·.1)).head?.getD 0
  let n (c : Core) : Nat := ((data c).map (·.1)).getLast?.getD 0 + 1 - lo c
  let va (c : Core) : Word := c.ea h.slot sb off (rank c) + BitVec.ofNat 64 (lo c)
  let plan (s : State) := s.plainPlan h.slot (va s.me) (n s.me) (align s.me) 1 log2 false true
  let worked (s : State) : Bool := match plan s with | .ok (_, some _) => true | _ => false
  let phys (s : State) (pas : List Nat) : List (Nat × Byte × Bool) :=
    (data s.me).map (fun e => (pas.getD (e.1 - lo s.me) 0, e.2))
  let onChip (c : Core) : List (Nat × Byte × Bool) :=
    (data c).map (fun e => (c.clusterBase + (c.ea h.slot sb off (rank c)).toNat + e.1, e.2))
  { reads := fun c => regs c ++ [c.xs sb], guarded := g, off := off, steps := true
    stall := fun s => (!main && (s.me.portBusy || s.me.padStall .cluster ((onChip s.me).map (·.1)))) ||
      (main && (match plan s with | .ok (pas, _) => s.me.engineStall pas | .error _ => false))
    holds := fun s => main && s.me.storesFull, waits := fun s => main && s.me.storesFull
    check := fun s =>
      let c := s.me
      firstTrap [c.systemTrap h.slot ordered, c.baseTrap h.slot sb (rank c),
        if g && (data c).any (·.2.2) then some (c.poisonTrap h.slot dataReg) else none, pre c,
        if (data c).isEmpty then none
        else if main then trapOfPlan (plan s)
        else c.windowTrap h.slot (va c) (n c) (align c) c.clusterWindow.2 2 1 log2]
    seals := fun s => ordered || (main && !(data s.me).isEmpty && worked s)
    lines := fun s =>
      if ordered then []
      else if main then
        (match plan s with | .ok (pas, none) => linesOf .main ((phys s pas).map (fun e => (e.1, e.2.1))) | _ => [])
      else linesOf .cluster ((onChip s.me).map (fun e => (e.1, e.2.1)))
    eff := fun s =>
      let c := s.me
      let rel := if ordered then c.scope else 0
      if (data c).isEmpty then s
      else if main then
        match plan s with
        | .error _ => s
        | .ok (pas, beat) =>
          let d := phys s pas
          let bs := d.map (fun e => (e.1, e.2.1))
          let ws := wordsOfBytes (d.map (fun e => (e.1, e.2.2)))
          let s1 := s.touch (va c) (n c)
          let e : SbEntry := { c.sbEntry .main bs ws with
            rel := rel, virt := va c, beat := beat, gd := c.pairNow g, due := (if rel = 0 then 0 else c.padded),
            unit := (if log2 = 7 then max 4 (align c) else 0) }
          match beat with
          | some t =>
            if 0 < rel || (c.pairNow g).isSome then s1.onMe (fun c => { c.step with sb := c.sb ++ [e] })
            else
              (s1.onMe Core.step).sendAccess (homeDie (pas.headD 0))
                { c.access h.slot (va c) t with bytes := bs.map (fun b => (b.1, b.2, 0xFF#8)), words := ws }
          | none =>
            s1.onMe (fun c =>
              (if c.segOpen && !ordered then c.holdStore { e with gd := none }
              else
                let c1 : Core := { c with sb := c.sb ++ [e] }
                if e.gd.isSome then c1 else c1.l1Write bs ws).step)
      else
        let d := onChip c
        s.onMe (fun c => c.putStore (if c.determ && 0 < rel then c.padded else c.time + 12) rel (c.pairNow g) .cluster
          (d.map (fun e => (e.1, e.2.1))) (wordsOfBytes (d.map (fun e => (e.1, e.2.2))))) }

/-- A scalar store of 2^k bytes. -/
def semCStoreS (h : Hdr) (f : OpCMS) (k : Nat) (ordered : Bool) : Sem :=
  let sa : BitVec 7 := f.sa.setWidth 7
  semCStore h f.sb f.imm f.g (fun c => [c.xs sa])
    (fun c =>
      let x := c.rs h.slot sa
      (List.range (2 ^ k)).map (fun i => (i, x.1.extractLsb' (8 * i) 8, x.2)))
    (fun _ => none) f.sa.toNat k (fun _ => 2 ^ k) ordered

/-- The bytes of the lanes of a vector register that pass a test. -/
def laneBytes (a : VReg) (inc : Nat → Bool) : List (Nat × Byte × Bool) :=
  ((List.range 128).filter (fun i => inc (i / 4))).map (fun i => (i, a.val.extractLsb' (8 * i) 8, a.poison.getLsbD (i / 4)))

/-- LDD. -/
def semCLdd (h : Hdr) (f : OpCML) : Sem := semCLoad h (.s (f.sd.setWidth 7)) f.sb f.imm 8 3 8 false false

/-- The meaning of the row: one issue of the operation. -/
def execCLdd (h : Hdr) (f : OpCML) (s : State) : Host.Outcome State Fault Refusal :=
  (semCLdd h f).run h s

/-- LDW. -/
def semCLdw (h : Hdr) (f : OpCML) : Sem := semCLoad h (.s (f.sd.setWidth 7)) f.sb f.imm 4 2 4 false false

/-- The meaning of the row: one issue of the operation. -/
def execCLdw (h : Hdr) (f : OpCML) (s : State) : Host.Outcome State Fault Refusal :=
  (semCLdw h f).run h s

/-- LDH. -/
def semCLdh (h : Hdr) (f : OpCML) : Sem := semCLoad h (.s (f.sd.setWidth 7)) f.sb f.imm 2 1 2 false false

/-- The meaning of the row: one issue of the operation. -/
def execCLdh (h : Hdr) (f : OpCML) (s : State) : Host.Outcome State Fault Refusal :=
  (semCLdh h f).run h s

/-- LDB. -/
def semCLdb (h : Hdr) (f : OpCML) : Sem := semCLoad h (.s (f.sd.setWidth 7)) f.sb f.imm 1 0 1 false false

/-- The meaning of the row: one issue of the operation. -/
def execCLdb (h : Hdr) (f : OpCML) (s : State) : Host.Outcome State Fault Refusal :=
  (semCLdb h f).run h s

/-- STD. -/
def semCStd (h : Hdr) (f : OpCMS) : Sem := semCStoreS h f 3 false

/-- The meaning of the row: one issue of the operation. -/
def execCStd (h : Hdr) (f : OpCMS) (s : State) : Host.Outcome State Fault Refusal :=
  (semCStd h f).run h s

/-- STW. -/
def semCStw (h : Hdr) (f : OpCMS) : Sem := semCStoreS h f 2 false

/-- The meaning of the row: one issue of the operation. -/
def execCStw (h : Hdr) (f : OpCMS) (s : State) : Host.Outcome State Fault Refusal :=
  (semCStw h f).run h s

/-- STH. -/
def semCSth (h : Hdr) (f : OpCMS) : Sem := semCStoreS h f 1 false

/-- The meaning of the row: one issue of the operation. -/
def execCSth (h : Hdr) (f : OpCMS) (s : State) : Host.Outcome State Fault Refusal :=
  (semCSth h f).run h s

/-- STB. -/
def semCStb (h : Hdr) (f : OpCMS) : Sem := semCStoreS h f 0 false

/-- The meaning of the row: one issue of the operation. -/
def execCStb (h : Hdr) (f : OpCMS) (s : State) : Host.Outcome State Fault Refusal :=
  (semCStb h f).run h s

/-- VLD: its elements are aligned to their own width (R163, log 14). -/
def semCVld (h : Hdr) (f : OpCMVL) : Sem := semCLoad h (.v f.vd f.tag) f.sb f.imm 128 7 (ewBytes f.tag.toNat) false false

/-- The meaning of the row: one issue of the operation. -/
def execCVld (h : Hdr) (f : OpCMVL) (s : State) : Host.Outcome State Fault Refusal :=
  (semCVld h f).run h s

/-- VST: no tag check; its elements are those of the register's format (log 14). -/
def semCVst (h : Hdr) (f : OpCMVS) : Sem :=
  semCStore h f.sb f.imm f.g (fun c => [c.xv f.va]) (fun c => laneBytes (c.rv h.slot f.va) (fun _ => true))
    (fun _ => none) f.va.toNat 7 (fun c => ewBytes (c.rv h.slot f.va).tag.toNat) false

/-- The meaning of the row: one issue of the operation. -/
def execCVst (h : Hdr) (f : OpCMVS) (s : State) : Host.Outcome State Fault Refusal :=
  (semCVst h f).run h s

/-- VSTM: word j is lane j, for the lanes of the mask. -/
def semCVstm (h : Hdr) (f : OpCMVM) : Sem :=
  semCStore h f.sb f.imm f.g (fun c => [c.xv f.va, c.xm f.mn])
    (fun c => laneBytes (c.rv h.slot f.va) (fun j => (c.rm h.slot f.mn).1.getLsbD j))
    (fun c => c.consumed h.slot [(f.mn.toNat, (c.rm h.slot f.mn).2)]) f.va.toNat 7 (fun _ => 4) false

/-- The meaning of the row: one issue of the operation. -/
def execCVstm (h : Hdr) (f : OpCMVM) (s : State) : Host.Outcome State Fault Refusal :=
  (semCVstm h f).run h s

/-- VLDB: the 4-byte word in every lane. -/
def semCVldb (h : Hdr) (f : OpCMVL) : Sem := semCLoad h (.v f.vd f.tag) f.sb f.imm 4 2 4 true false

/-- The meaning of the row: one issue of the operation. -/
def execCVldb (h : Hdr) (f : OpCMVL) (s : State) : Host.Outcome State Fault Refusal :=
  (semCVldb h f).run h s

/-- LDD.ACQ. -/
def semCLddAcq (h : Hdr) (f : OpCML) : Sem := semCLoad h (.s (f.sd.setWidth 7)) f.sb f.imm 8 3 8 false true

/-- The meaning of the row: one issue of the operation. -/
def execCLddAcq (h : Hdr) (f : OpCML) (s : State) : Host.Outcome State Fault Refusal :=
  (semCLddAcq h f).run h s

/-- LDW.ACQ. -/
def semCLdwAcq (h : Hdr) (f : OpCML) : Sem := semCLoad h (.s (f.sd.setWidth 7)) f.sb f.imm 4 2 4 false true

/-- The meaning of the row: one issue of the operation. -/
def execCLdwAcq (h : Hdr) (f : OpCML) (s : State) : Host.Outcome State Fault Refusal :=
  (semCLdwAcq h f).run h s

/-- STD.REL. -/
def semCStdRel (h : Hdr) (f : OpCMS) : Sem := semCStoreS h f 3 true

/-- The meaning of the row: one issue of the operation. -/
def execCStdRel (h : Hdr) (f : OpCMS) (s : State) : Host.Outcome State Fault Refusal :=
  (semCStdRel h f).run h s

/-- STW.REL. -/
def semCStwRel (h : Hdr) (f : OpCMS) : Sem := semCStoreS h f 2 true

/-- The meaning of the row: one issue of the operation. -/
def execCStwRel (h : Hdr) (f : OpCMS) (s : State) : Host.Outcome State Fault Refusal :=
  (semCStwRel h f).run h s

end Sys2Proof.Machine
end

