-- ==== Sys2Proof/Machine/Order.lean ====
section
/-! DEFINITION. Fences and atomics (R196, R203 to R207). -/

namespace Sys2Proof.Machine

/-! ## Fences (R203) -/

/-- A fence of kind 1 release, 2 acquire or 3 full, at the wider of its operand and the scope field. With `wait` it holds
back the next bundle until it is complete. -/
def semFence (h : Hdr) (f : OpFN) (kind : Nat) (wait : Bool) : Sem :=
  let scope (c : Core) : Nat := max f.scope.toNat c.scope
  { seals := fun _ => kind != 2
    check := fun s => if s.me.determ && scope s.me == 4 then some (s.me.trap h.slot 0x0D) else none
    eff := fun s => s.onMe (fun c =>
      let e : Fence := {
        seq := c.seq, kind := kind, scope := scope c, wait := wait, done := false
        due := if wait || (kind != 2 && decide (scope c ≠ 0)) then c.padded else 0 }
      { c.step with fences := c.fences ++ [e] }) }

/-- C.FENCE, kind rel. -/
def semCFenceRel (h : Hdr) (f : OpFN) : Sem := semFence h f 1 false

/-- The meaning of the row: one issue of the operation. -/
def execCFenceRel (h : Hdr) (f : OpFN) (s : State) : Host.Outcome State Fault Refusal :=
  (semCFenceRel h f).run h s

/-- C.FENCE, kind acq. -/
def semCFenceAcq (h : Hdr) (f : OpFN) : Sem := semFence h f 2 false

/-- The meaning of the row: one issue of the operation. -/
def execCFenceAcq (h : Hdr) (f : OpFN) (s : State) : Host.Outcome State Fault Refusal :=
  (semCFenceAcq h f).run h s

/-- C.FENCE, kind full. -/
def semCFenceFull (h : Hdr) (f : OpFN) : Sem := semFence h f 3 false

/-- The meaning of the row: one issue of the operation. -/
def execCFenceFull (h : Hdr) (f : OpFN) (s : State) : Host.Outcome State Fault Refusal :=
  (semCFenceFull h f).run h s

/-- C.FENCE.W, kind rel. -/
def semCFenceWRel (h : Hdr) (f : OpFN) : Sem := semFence h f 1 true

/-- The meaning of the row: one issue of the operation. -/
def execCFenceWRel (h : Hdr) (f : OpFN) (s : State) : Host.Outcome State Fault Refusal :=
  (semCFenceWRel h f).run h s

/-- C.FENCE.W, kind acq. -/
def semCFenceWAcq (h : Hdr) (f : OpFN) : Sem := semFence h f 2 true

/-- The meaning of the row: one issue of the operation. -/
def execCFenceWAcq (h : Hdr) (f : OpFN) (s : State) : Host.Outcome State Fault Refusal :=
  (semCFenceWAcq h f).run h s

/-- C.FENCE.W, kind full. -/
def semCFenceWFull (h : Hdr) (f : OpFN) : Sem := semFence h f 3 true

/-- The meaning of the row: one issue of the operation. -/
def execCFenceWFull (h : Hdr) (f : OpFN) (s : State) : Host.Outcome State Fault Refusal :=
  (semCFenceWFull h f).run h s

/-! ## Atomics (R204 to R207) -/

/-- The new value of atomic operation `k` on `n`-bit words (R204). -/
def atomicNew (k n old x cmp : Nat) : Nat :=
  match k with
  | 0 => (old + x) % 2 ^ n
  | 1 => if sx old n ≤ sx x n then old else x
  | 2 => if sx x n ≤ sx old n then old else x
  | 3 => old &&& x
  | 4 => old ||| x
  | 5 => old ^^^ x
  | 6 => x
  | _ => if old = cmp then x else old

/-- The check of an access that is performed at the home L2 and may not touch a worked page (R206, R220, R278). -/
def State.homePlan (s : State) (sl : Slot) (va : Word) (n align kind log2 : Nat) (rd wr : Bool) :
    Except Trap (List Nat) :=
  match s.c1Plan sl va n align kind log2 rd wr with
  | .error t => .error t
  | .ok (pas, attr) =>
    if isWorked attr then
      .error (if s.me.determ then s.me.trap sl 0x0D else s.me.memTrap sl 0x07 0 va 0 kind log2)
    else .ok pas

/-- The check of a record or object that is read at issue (R278, R295). -/
def State.recordPlan (s : State) (sl : Slot) (va : Word) (n align kind log2 : Nat) (rd wr : Bool) : Except Trap (List Nat) :=
  match s.homePlan sl va n align kind log2 rd wr with
  | .error t => .error t
  | .ok pas =>
    match s.rowTrap sl va pas kind log2 with
    | some t => .error t
    | none => .ok pas

/-- An atomic as issue sees it: the checks of R206 and R207, then a place in the store buffer, from which it is performed
at the home L2 (R205). -/
def semAtomic (h : Hdr) (sd : Option (BitVec 7)) (sb sa : BitVec 7) (sc : Option (BitVec 7)) (imm : BitVec 15) (k : Nat)
    (wide : Bool) : Sem :=
  let off := imm.signExtend 32
  let n := if wide then 8 else 4
  let log2 := if wide then 3 else 2
  let plan (s : State) := s.homePlan h.slot (s.me.ea h.slot sb off) n n 3 log2 true true
  { reads := fun c => [c.xs sb, c.xs sa] ++ (match sc with | some r => [c.xs r] | none => [])
    writes := fun c => match sd with | some r => [c.xs r] | none => []
    off := off, steps := true, seals := fun _ => true
    stall := fun s => match plan s with | .ok pas => s.me.engineStall pas | .error _ => false
    holds := fun s => s.me.storesFull, waits := fun s => s.me.storesFull
    check := fun s =>
      let c := s.me
      firstTrap [
        if c.determ && (sd.isSome || decide (6 ≤ k) || c.scope == 4) then some (c.trap h.slot 0x0D) else none,
        c.consumed h.slot ([(sb.toNat, (c.rs h.slot sb).2), (sa.toNat, (c.rs h.slot sa 1).2)] ++
          (match sc with | some r => [(r.toNat, (c.rs h.slot r 2).2)] | none => [])),
        trapOfPlan (plan s)]
    eff := fun s =>
      match plan s with
      | .error _ => s
      | .ok pas =>
        let va := s.me.ea h.slot sb off
        (s.touch va n).onMe (fun c =>
          let x := (c.rs h.slot sa 1).1
          let y := match sc with | some r => (c.rs h.slot r 2).1 | none => 0#64
          let e : SbEntry := { c.sbEntry .main (pas.map (fun a => (a, 0#8))) (wordsOfBytes (pas.map (fun a => (a, false)))) with
            kind := .atomic k wide x y, rel := c.scope, dest := sd.map (fun r => c.physS r.toNat), virt := va, due := c.padded }
          let c1 : Core := { c.step with sb := c.sb ++ [e] }
          match sd with
          | some r => c1.setPend (.s r)
          | none => c1) }

/-- C1.AADD.I32. -/
def semC1AaddI32 (h : Hdr) (f : OpCAR) : Sem :=
  semAtomic h (some f.sd) f.sb f.sa none f.imm 0 false

/-- The meaning of the row: one issue of the operation. -/
def execC1AaddI32 (h : Hdr) (f : OpCAR) (s : State) : Host.Outcome State Fault Refusal :=
  (semC1AaddI32 h f).run h s

/-- C1.AADD.I64. -/
def semC1AaddI64 (h : Hdr) (f : OpCAR) : Sem :=
  semAtomic h (some f.sd) f.sb f.sa none f.imm 0 true

/-- The meaning of the row: one issue of the operation. -/
def execC1AaddI64 (h : Hdr) (f : OpCAR) (s : State) : Host.Outcome State Fault Refusal :=
  (semC1AaddI64 h f).run h s

/-- C1.AADD.I32.NR. -/
def semC1AaddI32Nr (h : Hdr) (f : OpCAN) : Sem :=
  semAtomic h none f.sb f.sa none f.imm 0 false

/-- The meaning of the row: one issue of the operation. -/
def execC1AaddI32Nr (h : Hdr) (f : OpCAN) (s : State) : Host.Outcome State Fault Refusal :=
  (semC1AaddI32Nr h f).run h s

/-- C1.AADD.I64.NR. -/
def semC1AaddI64Nr (h : Hdr) (f : OpCAN) : Sem :=
  semAtomic h none f.sb f.sa none f.imm 0 true

/-- The meaning of the row: one issue of the operation. -/
def execC1AaddI64Nr (h : Hdr) (f : OpCAN) (s : State) : Host.Outcome State Fault Refusal :=
  (semC1AaddI64Nr h f).run h s

/-- C1.AMIN.I32. -/
def semC1AminI32 (h : Hdr) (f : OpCAR) : Sem :=
  semAtomic h (some f.sd) f.sb f.sa none f.imm 1 false

/-- The meaning of the row: one issue of the operation. -/
def execC1AminI32 (h : Hdr) (f : OpCAR) (s : State) : Host.Outcome State Fault Refusal :=
  (semC1AminI32 h f).run h s

/-- C1.AMIN.I64. -/
def semC1AminI64 (h : Hdr) (f : OpCAR) : Sem :=
  semAtomic h (some f.sd) f.sb f.sa none f.imm 1 true

/-- The meaning of the row: one issue of the operation. -/
def execC1AminI64 (h : Hdr) (f : OpCAR) (s : State) : Host.Outcome State Fault Refusal :=
  (semC1AminI64 h f).run h s

/-- C1.AMIN.I32.NR. -/
def semC1AminI32Nr (h : Hdr) (f : OpCAN) : Sem :=
  semAtomic h none f.sb f.sa none f.imm 1 false

/-- The meaning of the row: one issue of the operation. -/
def execC1AminI32Nr (h : Hdr) (f : OpCAN) (s : State) : Host.Outcome State Fault Refusal :=
  (semC1AminI32Nr h f).run h s

/-- C1.AMIN.I64.NR. -/
def semC1AminI64Nr (h : Hdr) (f : OpCAN) : Sem :=
  semAtomic h none f.sb f.sa none f.imm 1 true

/-- The meaning of the row: one issue of the operation. -/
def execC1AminI64Nr (h : Hdr) (f : OpCAN) (s : State) : Host.Outcome State Fault Refusal :=
  (semC1AminI64Nr h f).run h s

/-- C1.AMAX.I32. -/
def semC1AmaxI32 (h : Hdr) (f : OpCAR) : Sem :=
  semAtomic h (some f.sd) f.sb f.sa none f.imm 2 false

/-- The meaning of the row: one issue of the operation. -/
def execC1AmaxI32 (h : Hdr) (f : OpCAR) (s : State) : Host.Outcome State Fault Refusal :=
  (semC1AmaxI32 h f).run h s

/-- C1.AMAX.I64. -/
def semC1AmaxI64 (h : Hdr) (f : OpCAR) : Sem :=
  semAtomic h (some f.sd) f.sb f.sa none f.imm 2 true

/-- The meaning of the row: one issue of the operation. -/
def execC1AmaxI64 (h : Hdr) (f : OpCAR) (s : State) : Host.Outcome State Fault Refusal :=
  (semC1AmaxI64 h f).run h s

/-- C1.AMAX.I32.NR. -/
def semC1AmaxI32Nr (h : Hdr) (f : OpCAN) : Sem :=
  semAtomic h none f.sb f.sa none f.imm 2 false

/-- The meaning of the row: one issue of the operation. -/
def execC1AmaxI32Nr (h : Hdr) (f : OpCAN) (s : State) : Host.Outcome State Fault Refusal :=
  (semC1AmaxI32Nr h f).run h s

/-- C1.AMAX.I64.NR. -/
def semC1AmaxI64Nr (h : Hdr) (f : OpCAN) : Sem :=
  semAtomic h none f.sb f.sa none f.imm 2 true

/-- The meaning of the row: one issue of the operation. -/
def execC1AmaxI64Nr (h : Hdr) (f : OpCAN) (s : State) : Host.Outcome State Fault Refusal :=
  (semC1AmaxI64Nr h f).run h s

/-- C1.AAND.I32. -/
def semC1AandI32 (h : Hdr) (f : OpCAR) : Sem :=
  semAtomic h (some f.sd) f.sb f.sa none f.imm 3 false

/-- The meaning of the row: one issue of the operation. -/
def execC1AandI32 (h : Hdr) (f : OpCAR) (s : State) : Host.Outcome State Fault Refusal :=
  (semC1AandI32 h f).run h s

/-- C1.AAND.I64. -/
def semC1AandI64 (h : Hdr) (f : OpCAR) : Sem :=
  semAtomic h (some f.sd) f.sb f.sa none f.imm 3 true

/-- The meaning of the row: one issue of the operation. -/
def execC1AandI64 (h : Hdr) (f : OpCAR) (s : State) : Host.Outcome State Fault Refusal :=
  (semC1AandI64 h f).run h s

/-- C1.AAND.I32.NR. -/
def semC1AandI32Nr (h : Hdr) (f : OpCAN) : Sem :=
  semAtomic h none f.sb f.sa none f.imm 3 false

/-- The meaning of the row: one issue of the operation. -/
def execC1AandI32Nr (h : Hdr) (f : OpCAN) (s : State) : Host.Outcome State Fault Refusal :=
  (semC1AandI32Nr h f).run h s

/-- C1.AAND.I64.NR. -/
def semC1AandI64Nr (h : Hdr) (f : OpCAN) : Sem :=
  semAtomic h none f.sb f.sa none f.imm 3 true

/-- The meaning of the row: one issue of the operation. -/
def execC1AandI64Nr (h : Hdr) (f : OpCAN) (s : State) : Host.Outcome State Fault Refusal :=
  (semC1AandI64Nr h f).run h s

/-- C1.AOR.I32. -/
def semC1AorI32 (h : Hdr) (f : OpCAR) : Sem :=
  semAtomic h (some f.sd) f.sb f.sa none f.imm 4 false

/-- The meaning of the row: one issue of the operation. -/
def execC1AorI32 (h : Hdr) (f : OpCAR) (s : State) : Host.Outcome State Fault Refusal :=
  (semC1AorI32 h f).run h s

/-- C1.AOR.I64. -/
def semC1AorI64 (h : Hdr) (f : OpCAR) : Sem :=
  semAtomic h (some f.sd) f.sb f.sa none f.imm 4 true

/-- The meaning of the row: one issue of the operation. -/
def execC1AorI64 (h : Hdr) (f : OpCAR) (s : State) : Host.Outcome State Fault Refusal :=
  (semC1AorI64 h f).run h s

/-- C1.AOR.I32.NR. -/
def semC1AorI32Nr (h : Hdr) (f : OpCAN) : Sem :=
  semAtomic h none f.sb f.sa none f.imm 4 false

/-- The meaning of the row: one issue of the operation. -/
def execC1AorI32Nr (h : Hdr) (f : OpCAN) (s : State) : Host.Outcome State Fault Refusal :=
  (semC1AorI32Nr h f).run h s

/-- C1.AOR.I64.NR. -/
def semC1AorI64Nr (h : Hdr) (f : OpCAN) : Sem :=
  semAtomic h none f.sb f.sa none f.imm 4 true

/-- The meaning of the row: one issue of the operation. -/
def execC1AorI64Nr (h : Hdr) (f : OpCAN) (s : State) : Host.Outcome State Fault Refusal :=
  (semC1AorI64Nr h f).run h s

/-- C1.AXOR.I32. -/
def semC1AxorI32 (h : Hdr) (f : OpCAR) : Sem :=
  semAtomic h (some f.sd) f.sb f.sa none f.imm 5 false

/-- The meaning of the row: one issue of the operation. -/
def execC1AxorI32 (h : Hdr) (f : OpCAR) (s : State) : Host.Outcome State Fault Refusal :=
  (semC1AxorI32 h f).run h s

/-- C1.AXOR.I64. -/
def semC1AxorI64 (h : Hdr) (f : OpCAR) : Sem :=
  semAtomic h (some f.sd) f.sb f.sa none f.imm 5 true

/-- The meaning of the row: one issue of the operation. -/
def execC1AxorI64 (h : Hdr) (f : OpCAR) (s : State) : Host.Outcome State Fault Refusal :=
  (semC1AxorI64 h f).run h s

/-- C1.AXOR.I32.NR. -/
def semC1AxorI32Nr (h : Hdr) (f : OpCAN) : Sem :=
  semAtomic h none f.sb f.sa none f.imm 5 false

/-- The meaning of the row: one issue of the operation. -/
def execC1AxorI32Nr (h : Hdr) (f : OpCAN) (s : State) : Host.Outcome State Fault Refusal :=
  (semC1AxorI32Nr h f).run h s

/-- C1.AXOR.I64.NR. -/
def semC1AxorI64Nr (h : Hdr) (f : OpCAN) : Sem :=
  semAtomic h none f.sb f.sa none f.imm 5 true

/-- The meaning of the row: one issue of the operation. -/
def execC1AxorI64Nr (h : Hdr) (f : OpCAN) (s : State) : Host.Outcome State Fault Refusal :=
  (semC1AxorI64Nr h f).run h s

/-- C1.ASWP.I32. -/
def semC1AswpI32 (h : Hdr) (f : OpCAR) : Sem :=
  semAtomic h (some f.sd) f.sb f.sa none f.imm 6 false

/-- The meaning of the row: one issue of the operation. -/
def execC1AswpI32 (h : Hdr) (f : OpCAR) (s : State) : Host.Outcome State Fault Refusal :=
  (semC1AswpI32 h f).run h s

/-- C1.ASWP.I64. -/
def semC1AswpI64 (h : Hdr) (f : OpCAR) : Sem :=
  semAtomic h (some f.sd) f.sb f.sa none f.imm 6 true

/-- The meaning of the row: one issue of the operation. -/
def execC1AswpI64 (h : Hdr) (f : OpCAR) (s : State) : Host.Outcome State Fault Refusal :=
  (semC1AswpI64 h f).run h s

/-- C1.ASWP.I32.NR. -/
def semC1AswpI32Nr (h : Hdr) (f : OpCAN) : Sem :=
  semAtomic h none f.sb f.sa none f.imm 6 false

/-- The meaning of the row: one issue of the operation. -/
def execC1AswpI32Nr (h : Hdr) (f : OpCAN) (s : State) : Host.Outcome State Fault Refusal :=
  (semC1AswpI32Nr h f).run h s

/-- C1.ASWP.I64.NR. -/
def semC1AswpI64Nr (h : Hdr) (f : OpCAN) : Sem :=
  semAtomic h none f.sb f.sa none f.imm 6 true

/-- The meaning of the row: one issue of the operation. -/
def execC1AswpI64Nr (h : Hdr) (f : OpCAN) (s : State) : Host.Outcome State Fault Refusal :=
  (semC1AswpI64Nr h f).run h s

/-- C1.ACAS.I32. -/
def semC1AcasI32 (h : Hdr) (f : OpCACR) : Sem :=
  semAtomic h (some f.sd) f.sb f.sa (some f.sc) f.imm 7 false

/-- The meaning of the row: one issue of the operation. -/
def execC1AcasI32 (h : Hdr) (f : OpCACR) (s : State) : Host.Outcome State Fault Refusal :=
  (semC1AcasI32 h f).run h s

/-- C1.ACAS.I64. -/
def semC1AcasI64 (h : Hdr) (f : OpCACR) : Sem :=
  semAtomic h (some f.sd) f.sb f.sa (some f.sc) f.imm 7 true

/-- The meaning of the row: one issue of the operation. -/
def execC1AcasI64 (h : Hdr) (f : OpCACR) (s : State) : Host.Outcome State Fault Refusal :=
  (semC1AcasI64 h f).run h s

/-- C1.ACAS.I32.NR. -/
def semC1AcasI32Nr (h : Hdr) (f : OpCACN) : Sem :=
  semAtomic h none f.sb f.sa (some f.sc) f.imm 7 false

/-- The meaning of the row: one issue of the operation. -/
def execC1AcasI32Nr (h : Hdr) (f : OpCACN) (s : State) : Host.Outcome State Fault Refusal :=
  (semC1AcasI32Nr h f).run h s

/-- C1.ACAS.I64.NR. -/
def semC1AcasI64Nr (h : Hdr) (f : OpCACN) : Sem :=
  semAtomic h none f.sb f.sa (some f.sc) f.imm 7 true

/-- The meaning of the row: one issue of the operation. -/
def execC1AcasI64Nr (h : Hdr) (f : OpCACN) (s : State) : Host.Outcome State Fault Refusal :=
  (semC1AcasI64Nr h f).run h s

end Sys2Proof.Machine
end

