-- ==== Sys2Proof/Machine/Queue.lean ====
section
/-! DEFINITION. Barriers as memory objects, and the queue and barrier instructions (R218 to R224). -/

namespace Sys2Proof.Machine

/-! ## Barrier objects (R218, R219) -/

/-- The fields of a barrier. -/
structure Barrier where
  pending : Nat
  expected : Nat
  remaining : Nat
  phase : Nat
  flags : Nat
  failed : Nat
  deriving DecidableEq, Repr

/-- The barrier at a physical address. -/
def barrierAt (m : Mem) (a : Nat) : Barrier :=
  { pending := m.num a 4, expected := m.num (a + 4) 2, remaining := m.num (a + 6) 2, phase := m.num (a + 8) 2,
    flags := m.num (a + 10) 2, failed := m.num (a + 12) 4 }

/-- The 16 bytes of a barrier. -/
def Barrier.bytes (b : Barrier) (a : Nat) : List (Nat × Byte) :=
  bytesOf (b.pending + b.expected * 2 ^ 32 + b.remaining * 2 ^ 48 + b.phase * 2 ^ 64 + b.flags * 2 ^ 80 +
    b.failed * 2 ^ 96) a 16

/-- DONE (R219). -/
def Barrier.done (b : Barrier) : Barrier :=
  if b.pending = 0 ∧ b.remaining = 0 then { b with phase := (b.phase + 1) % 2 ^ 16, remaining := b.expected } else b

/-- ARRIVE(n) without its DONE. -/
def Barrier.arrive0 (b : Barrier) (n : Nat) : Barrier :=
  if b.remaining < n then { b with flags := b.flags ||| 2, remaining := 0 } else { b with remaining := b.remaining - n }

/-- ARRIVE(n) (R219). -/
def Barrier.arrive (b : Barrier) (n : Nat) : Barrier := (b.arrive0 n).done

/-- ARM(n) (R219). -/
def Barrier.arm (b : Barrier) (n : Nat) : Barrier := { b with expected := n, remaining := n, flags := 0, failed := 0 }

/-- ACCEPT(len), for which the counter has room (R219). -/
def Barrier.accept (b : Barrier) (len : Nat) : Barrier := { b with pending := b.pending + len }

/-- The FAILED flag set and the failed count raised, saturating. -/
def Barrier.fail (b : Barrier) : Barrier := { b with flags := b.flags ||| 1, failed := min (2 ^ 32 - 1) (b.failed + 1) }

/-- CHUNK(n, ok) (R219). -/
def Barrier.chunk (b : Barrier) (n : Nat) (ok : Bool) : Barrier :=
  let b1 := { b with pending := (b.pending + 2 ^ 32 - n) % 2 ^ 32 }
  (if ok then b1 else b1.fail).done

/-- A change of a barrier (R219): what it makes of the fields, and the words of which it writes all four bytes, which so
lose their poison (R374). -/
structure BarrierOp where
  new : Barrier → Barrier
  whole : List Nat

/-- ACCEPT(len) writes the pending bytes. -/
def BarrierOp.accept (len : Nat) : BarrierOp := { new := fun b => b.accept len, whole := [0] }
/-- CHUNK(n, ok) writes the pending bytes, and for a failure the failed chunks. -/
def BarrierOp.chunk (n : Nat) (ok : Bool) : BarrierOp := { new := fun b => b.chunk n ok, whole := if ok then [0] else [0, 3] }
/-- ARRIVE(n) writes parts of words. -/
def BarrierOp.arrive (n : Nat) : BarrierOp := { new := fun b => b.arrive n, whole := [] }
/-- ARM(n) writes both arrival counts and the failed chunks. -/
def BarrierOp.arm (n : Nat) : BarrierOp := { new := fun b => b.arm n, whole := [1, 3] }
/-- FAILREPORT with `n` arrivals (R216). -/
def BarrierOp.fail (n : Nat) : BarrierOp := { new := fun b => ((if n = 0 then b.fail else b.fail.arrive0 n)).done, whole := [3] }

/-- One indivisible change of the barrier at physical address `a` by core `who`, or by another party: its words are left with
no owner, and the issuer's own copies are revoked (R200, R219). -/
def State.barrier (s : State) (who : Option Nat) (ctx a : Nat) (g : BarrierOp) : State :=
  homeWrite s who false ctx ((g.new (barrierAt s.home a)).bytes a)
    ((List.range 4).map (fun i => (a / 4 + i, false, g.whole.contains i)))

/-- A store of core `n` to one of the given bytes that has not been performed at its home L2 (R190). -/
def State.ownPending (s : State) (n : Nat) (as : List Nat) : Bool :=
  let hit (bs : List (Nat × Byte)) : Bool := bs.any (fun b => as.contains b.1)
  (s.coreAt n).sb.any (fun e => hit e.bytes) || s.outq.any (fun e => e.2.core == n && hit e.2.bytes)

/-! ## The instructions (R220 to R224) -/

/-- The check of the address of a queue or barrier instruction (R220): poison, then the address, then its page. -/
def queueTrap (s : State) (sl : Slot) (sb : BitVec 7) (off : BitVec 32) (n : Nat) (ordered : Bool)
    (params : List (Nat × Bool)) : Option Trap :=
  let c := s.me
  firstTrap [c.systemTrap sl ordered, c.consumed sl ((sb.toNat, (c.rs sl sb).2) :: params),
    trapOfPlan (s.homePlan sl (c.ea sl sb off) n n 3 (if n = 64 then 6 else 4) false true)]

/-- The physical address of a queue or barrier instruction's object; 0 where it does not translate. -/
def State.objectAt (s : State) (sl : Slot) (sb : BitVec 7) (off : BitVec 32) (n : Nat) : Nat :=
  match s.homePlan sl (s.me.ea sl sb off) n n 3 (if n = 64 then 6 else 4) false true with
  | .ok (a :: _) => a
  | _ => 0

/-- The bytes of a queue or barrier instruction's object. -/
def State.objectBytes (s : State) (sl : Slot) (sb : BitVec 7) (off : BitVec 32) (n : Nat) : List Nat :=
  (List.range n).map (s.objectAt sl sb off n + ·)

/-- The slot that a claim of the queue at `obj` takes next may not lie in a worked page (R278, R399): its trap at issue. -/
def State.slotTrap (s : State) (sl : Slot) (obj : Nat) : Option Trap :=
  let c := s.me
  let va := s.home.num (obj + 16) 8 + 64 * (s.home.num obj 8 % 2 ^ (s.home.byte (obj + 24)).toNat)
  match translate s c c.ctx va (s.pick sl) with
  | .ok _ attr _ =>
    if !isWorked attr || s.home.anyPois obj 8 then none
    else if c.determ then some (c.trap sl 0x0D)
    else some { c.memTrap sl 0x07 0 (BitVec.ofNat 64 va) 0 1 6 with data := fieldGet c.sw.beatNow 0 32 }
  | .fail _ _ _ => none

/-- C1.QAPP: the hold until the queue has room, the claim at the home L2, and the publication behind a release (R221). A
poisoned write index is the old value of an atomic: nothing is claimed, and its trap follows at a boundary (R206). -/
def semC1Qapp (h : Hdr) (f : OpLQ) : Sem :=
  let off := f.imm.signExtend 32
  let obj (s : State) : Nat := s.objectAt h.slot f.sb off 64
  let slots (s : State) : Nat := 2 ^ (s.home.byte (obj s + 24)).toNat
  let check (s : State) : Option Trap :=
    queueTrap s h.slot f.sb off 64 true [(f.va.toNat, (s.me.rv h.slot f.va).poison.setWidth 16 != 0#16)]
  let bytes (s : State) : List Nat := s.objectBytes h.slot f.sb off 64
  let last (s : State) : Option Trap :=
    match check s with
    | some t => some t
    | none => firstTrap [s.rowTrap h.slot (s.me.ea h.slot f.sb off) (bytes s) 3 6, s.slotTrap h.slot (obj s)]
  { reads := fun c => [c.xs f.sb, c.xv f.va], writes := fun c => [c.xs f.sd], off := off, steps := true, seals := fun _ => true
    stall := fun s => s.me.engineStall (bytes s), holds := fun _ => true
    breaks := fun s => !(s.me.storesFull || s.me.loadsFull || s.ownPending s.coreNo (bytes s) || s.recordHeld s.coreNo s.me.seq (bytes s))
    waits := fun s => s.me.storesFull || s.me.loadsFull || (check s).isNone && (s.ownPending s.coreNo (bytes s) ||
      s.recordHeld s.coreNo s.me.seq (bytes s) || decide (slots s ≤ s.home.num (obj s) 8 - s.home.num (obj s + 8) 8))
    check := last
    eff := fun s =>
      let a := obj s
      let n := slots s
      let i := s.home.num a 8
      let base := s.home.num (a + 16) 8
      let va := s.me.ea h.slot f.sb off
      if s.home.anyPois a 8 then
        (s.touch va 64).onMe (fun c => c.addLoad h.slot (.s f.sd)
          (.fail { c.trap h.slot 0x06 with async := true, addr := va, kind := 3, size := 6 }) [] 0 va false)
      else
      (homeWrite (s.touch va 64) (some s.coreNo) false s.me.ctx (bytesOf (i + 1) a 8) (wordsOf a 8 false)).onMe (fun c =>
        let v := (c.rv h.slot f.va).val
        let data := (List.range 63).map (fun k => v.extractLsb' (8 * k) 8)
        let e : SbEntry := { c.sbEntry .main [] [] with kind := .publish base i n data (!c.sup), rel := c.scope, virt := va }
        let c1 : Core := { c with sb := c.sb ++ [e], claim := some (a, i, n) }
        c1.addLoad h.slot (.s f.sd) (.value (if c.determ then 0#64 else BitVec.ofNat 64 i) false) [] 0 va false) }

/-- The meaning of the row: one issue of the operation. -/
def execC1Qapp (h : Hdr) (f : OpLQ) (s : State) : Host.Outcome State Fault Refusal :=
  (semC1Qapp h f).run h s

/-- A barrier change by a core, performed at the barrier's home L2 from the store buffer. -/
def semBarrier (h : Hdr) (sb : BitVec 7) (imm : BitVec 13) (sa : Option (BitVec 7)) (rel : Bool)
    (kind : Core → Option SbKind) : Sem :=
  let off := imm.signExtend 32
  { reads := fun c => [c.xs sb] ++ (match sa with | some r => [c.xs r] | none => [])
    off := off, steps := true, seals := fun _ => true
    stall := fun s => s.me.engineStall (s.objectBytes h.slot sb off 16)
    holds := fun s => s.me.storesFull, waits := fun s => s.me.storesFull
    check := fun s => queueTrap s h.slot sb off 16 rel
      (match sa with | some r => [(r.toNat, (s.me.rs h.slot r 1).2)] | none => [])
    eff := fun s =>
      let a := s.objectAt h.slot sb off 16
      let va := s.me.ea h.slot sb off
      (s.touch va 16).onMe (fun c =>
        match kind c with
        | none => c
        | some k =>
          let bs := bytesOf 0 a 16
          let e : SbEntry := { c.sbEntry .main bs (wordsOf a 16 false) with
            kind := k, rel := (if rel then c.scope else 0), virt := va }
          { c.step with sb := c.sb ++ [e] }) }

/-- C.BARM. -/
def semCBarm (h : Hdr) (f : OpLBI) : Sem := semBarrier h f.sb f.imm none false (fun _ => some (.barm f.n.toNat))

/-- The meaning of the row: one issue of the operation. -/
def execCBarm (h : Hdr) (f : OpLBI) (s : State) : Host.Outcome State Fault Refusal :=
  (semCBarm h f).run h s

/-- C.BARMR. -/
def semCBarmr (h : Hdr) (f : OpLBR) : Sem :=
  semBarrier h f.sb f.imm (some f.sa) false (fun c => some (.barm ((c.rs h.slot f.sa 1).1.toNat % 2 ^ 16)))

/-- The meaning of the row: one issue of the operation. -/
def execCBarmr (h : Hdr) (f : OpLBR) (s : State) : Host.Outcome State Fault Refusal :=
  (semCBarmr h f).run h s

/-- C.BSIG. -/
def semCBsig (h : Hdr) (f : OpLBI) : Sem := semBarrier h f.sb f.imm none true (fun _ => some (.bsig f.n.toNat))

/-- The meaning of the row: one issue of the operation. -/
def execCBsig (h : Hdr) (f : OpLBI) (s : State) : Host.Outcome State Fault Refusal :=
  (semCBsig h f).run h s

/-- C.BSIGR: a count of 0 does nothing. -/
def semCBsigr (h : Hdr) (f : OpLBR) : Sem :=
  semBarrier h f.sb f.imm (some f.sa) true (fun c =>
    let n := (c.rs h.slot f.sa 1).1.toNat % 2 ^ 16
    if n = 0 then none else some (.bsig n))

/-- The meaning of the row: one issue of the operation. -/
def execCBsigr (h : Hdr) (f : OpLBR) (s : State) : Host.Outcome State Fault Refusal :=
  (semCBsigr h f).run h s

/-- C.BWAIT: the hold until the phase differs, the acquire, and bytes 8 to 15 of the barrier into sd (R223), one cycle
after the issue that ends the hold (log 15). -/
def semCBwait (h : Hdr) (f : OpLBW) : Sem :=
  let off := f.imm.signExtend 32
  let obj (s : State) : Nat := s.objectAt h.slot f.sb off 16
  let check (s : State) : Option Trap := queueTrap s h.slot f.sb off 16 true [(f.sa.toNat, (s.me.rs h.slot f.sa 1).2)]
  let bytes (s : State) : List Nat := s.objectBytes h.slot f.sb off 16
  { reads := fun c => [c.xs f.sb, c.xs f.sa], writes := fun c => [c.xs f.sd], results := 1, off := off, steps := true
    seals := fun _ => true, stall := fun s => s.me.engineStall (bytes s), holds := fun _ => true
    breaks := fun s => !(s.ownPending s.coreNo (bytes s) || s.recordHeld s.coreNo s.me.seq (bytes s))
    waits := fun s => (check s).isNone && (s.ownPending s.coreNo (bytes s) || s.recordHeld s.coreNo s.me.seq (bytes s) ||
      decide ((barrierAt s.home (obj s)).phase = (s.me.rs h.slot f.sa 1).1.toNat % 2 ^ 16))
    check := fun s => firstTrap [check s, s.rowTrap h.slot (s.me.ea h.slot f.sb off) (bytes s) 3 4]
    eff := fun s =>
      let v := BitVec.ofNat 64 (s.home.num (obj s + 8) 8)
      let s1 := (s.touch (s.me.ea h.slot f.sb off) 16).onMe (fun c => c.outS h.slot f.sd 1 v (s.home.anyPois (obj s + 8) 8))
      if s.me.scope = 0 then s1 else s1.invalidate s.coreNo }

/-- The meaning of the row: one issue of the operation. -/
def execCBwait (h : Hdr) (f : OpLBW) (s : State) : Host.Outcome State Fault Refusal :=
  (semCBwait h f).run h s

end Sys2Proof.Machine
end

