-- ==== Sys2Proof/Machine/Beats.lean ====
section
/-! DEFINITION. The beat, plane and bank-command instructions (R279, R284 to R287, R296). -/

namespace Sys2Proof.Machine

/-- An absolute beat from BEAT_BASE and a tag field (R279). -/
def Core.beatOf (c : Core) (tag : BitVec 12) : Nat := (fieldGet c.sw.beatBase 0 48 + tag.toNat) % 2 ^ 48

/-- BEAT_NOW with V set and a beat. -/
def beatNowOf (b : Nat) : Word := BitVec.ofNat 64 (2 ^ 63 + b % 2 ^ 48)

/-- C1.BEAT tag. -/
def semC1Beat (h : Hdr) (f : OpBeat) : Sem :=
  { reads := fun _ => [.w 0x030], writes := fun _ => [.w 0x031], results := 1
    eff := fun s => s.onMe (fun c => c.outW h.slot 0x031 1 (beatNowOf (c.beatOf f.tag)) false) }

/-- The meaning of the row: one issue of the operation. -/
def execC1Beat (h : Hdr) (f : OpBeat) (s : State) : Host.Outcome State Fault Refusal :=
  (semC1Beat h f).run h s

/-- C1.BEAT off: V is cleared and BEAT kept. -/
def semC1BeatOff (h : Hdr) (_f : OpBOff) : Sem :=
  { reads := fun _ => [.w 0x031], writes := fun _ => [.w 0x031], results := 1
    eff := fun s => s.onMe (fun c => c.outW h.slot 0x031 1 (fieldPut c.sw.beatNow 63 1 0) false) }

/-- The meaning of the row: one issue of the operation. -/
def execC1BeatOff (h : Hdr) (f : OpBOff) (s : State) : Host.Outcome State Fault Refusal :=
  (semC1BeatOff h f).run h s

/-- C1.BEATR: bits 63:48 all ones clear V. -/
def semC1Beatr (h : Hdr) (f : OpSA) : Sem :=
  { reads := fun c => [c.xs f.sa, .w 0x031], writes := fun _ => [.w 0x031], results := 1
    check := fun s => s.me.consumed h.slot [(f.sa.toNat, (s.me.rs h.slot f.sa).2)]
    eff := fun s => s.onMe (fun c =>
      let a := (c.rs h.slot f.sa).1
      c.outW h.slot 0x031 1
        (if fieldGet a 48 16 = 0xFFFF then fieldPut c.sw.beatNow 63 1 0 else beatNowOf a.toNat) false) }

/-- The meaning of the row: one issue of the operation. -/
def execC1Beatr (h : Hdr) (f : OpSA) (s : State) : Host.Outcome State Fault Refusal :=
  (semC1Beatr h f).run h s

/-- The determinism trap of the forms that R296 refuses. -/
def Core.determTrap (c : Core) (sl : Slot) : Option Trap := if c.determ then some (c.trap sl 0x0D) else none

/-- The home die of the address in a register, which must translate (R285). -/
def State.dieOfReg (s : State) (sl : Slot) (sb : BitVec 7) : Except Trap Nat :=
  match s.c1Plan sl (s.me.rs sl sb).1 1 1 0 0 false false with
  | .error t => .error t
  | .ok (pas, _) => .ok (homeDie (pas.headD 0))

/-- C1.BEATRD: the answer is given when the request arrives at the controller (R285). -/
def semC1Beatrd (h : Hdr) (f : OpBQ) : Sem :=
  { reads := fun c => [c.xs f.sb], writes := fun c => [c.xs f.sd]
    holds := fun s => s.me.loadsFull, waits := fun s => s.me.loadsFull
    check := fun s => firstTrap [s.me.determTrap h.slot, s.me.baseTrap h.slot f.sb, trapOfPlan (s.dieOfReg h.slot f.sb)]
    eff := fun s =>
      match s.dieOfReg h.slot f.sb with
      | .error _ => s
      | .ok d =>
        let va := (s.me.rs h.slot f.sb).1
        (s.touch va 1).onMe (fun c => c.addLoad h.slot (.s f.sd) (.beat d) [] 0 va true) }

/-- The meaning of the row: one issue of the operation. -/
def execC1Beatrd (h : Hdr) (f : OpBQ) (s : State) : Host.Outcome State Fault Refusal :=
  (semC1Beatrd h f).run h s

/-- C1.BEATW: the hold until the home die's beat is at least BEAT_BASE + tag (R285); an operation that traps does not hold. -/
def semC1Beatw (h : Hdr) (f : OpBW) : Sem :=
  { reads := fun c => [c.xs f.sb, .w 0x030], holds := fun _ => true, breaks := fun _ => true
    waits := fun s =>
      match s.dieOfReg h.slot f.sb with
      | .error _ => false
      | .ok d =>
        (s.me.determTrap h.slot).isNone && (s.me.baseTrap h.slot f.sb).isNone &&
          decide ((s.dieAt d).beat < s.me.beatOf f.tag)
    check := fun s => firstTrap [s.me.determTrap h.slot, s.me.baseTrap h.slot f.sb, trapOfPlan (s.dieOfReg h.slot f.sb)]
    eff := fun s => s.touch (s.me.rs h.slot f.sb).1 1 }

/-- The meaning of the row: one issue of the operation. -/
def execC1Beatw (h : Hdr) (f : OpBW) (s : State) : Host.Outcome State Fault Refusal :=
  (semC1Beatw h f).run h s

/-! ## Plane loads and stores (R286) -/

/-- The beat of a plane operation or command: explicit, or inherited with I = 1; none where it is untagged (R279). -/
def Core.tagOf (c : Core) (i : Bool) (tag : BitVec 12) : Option Nat :=
  if i then (if c.sw.beatNow.getLsbD 63 then some (fieldGet c.sw.beatNow 0 48) else none) else some (c.beatOf tag)

/-- The formats of a plane operation. -/
def planeTags : List Nat := [tI8, tZ8, tI16, tZ16, tI32, tZ32]

/-- One plane operation: address register, offset step, format, planes, and its beat. -/
structure PlaneOp where
  sb : BitVec 7
  w : Nat
  i : Bool
  tag : BitVec 12
  store : Bool
  mn : Option (BitVec 4)

/-- Elements of a plane operation of format `t`. -/
def planeN (t : Nat) : Nat := 1024 / max 1 (tagWidth t)

/-- The bytes from the first to the last of a plane operation. -/
def PlaneOp.span (p : PlaneOp) (t : Nat) : Nat := 256 * (p.w - 1) + planeN t / 8

/-- The beat-kind trap of an access, with the beat in DATA. -/
def Core.beatTrap (c : Core) (sl : Slot) (va : Word) (kind t : Nat) : Trap :=
  { c.memTrap sl 0x07 0 va 0 kind 0 with data := t % 2 ^ 32 }

/-- The checks of a plane operation of format `t` on register `r`; the physical address of its first byte and its beat. -/
def PlaneOp.plan (p : PlaneOp) (s : State) (sl : Slot) (t r : Nat) : Except Trap (Nat × Nat) :=
  let c := s.me
  let va := c.ea sl p.sb 0
  let k := if p.store then 1 else 0
  if c.determ then .error (c.trap sl 0x0D)
  else if !planeTags.contains t || decide (min 16 (tagWidth t) < p.w) then .error { c.trap sl 0x02 with data := r }
  else
    match c.consumed sl ((p.sb.toNat, (c.rs sl p.sb).2) ::
        (match p.mn with | some m => [(m.toNat, (c.rm sl m).2)] | none => [])) with
    | some tr => .error tr
    | none =>
      let b := c.tagOf p.i p.tag
      let bt := b.getD (fieldGet c.sw.beatNow 0 48)
      if va.toNat / 2 ^ 48 ≠ 0 then .error (c.memTrap sl 0x09 2 va 0 k 0)
      else if va.toNat % (planeN t / 8) ≠ 0 then .error (c.memTrap sl 0x09 1 va 0 k 0)
      else if va.toNat / 2 ^ 15 ≠ (va.toNat + p.span t - 1) / 2 ^ 15 then .error (c.beatTrap sl va k bt)
      else
        match s.c1Plan sl va (p.span t) 1 k 0 (!p.store) p.store with
        | .error tr => .error tr
        | .ok (pas, attr) =>
          if !isWorked attr || b.isNone || bt % 2 == 1 then .error (c.beatTrap sl va k bt)
          else .ok (pas.headD 0, bt)

/-- The bytes that a plane store writes at physical base `a`: value and mask of the bits written in each, from the
elements of `v` whose lane is included. -/
def planeBytes (v : VReg) (t w : Nat) (inc : Nat → Bool) (a : Nat) : List (Nat × Byte × Byte) :=
  let wd := tagWidth t
  let bits (b : Nat) (g : Nat → Bool) : Byte :=
    BitVec.ofNat 8 (ofElems 1 ((List.range 8).map (fun x => if g (8 * b + x) then 1 else 0)))
  ((List.range w).flatMap (fun i => (List.range (planeN t / 8)).map (fun b =>
    (a + 256 * i + b,
      bits b (fun k => inc (k * wd / 32) && decide (elem v.val wd k / 2 ^ i % 2 = 1)),
      bits b (fun k => inc (k * wd / 32)))))).filter (fun e => e.2.2 != 0#8)

/-- The words that a plane store writes: the OR of the poison of the lanes whose elements supply their bits (R286). A word written
only in part keeps its old poison as well (DESIGN CHOICE, log 80). -/
def planeWords (v : VReg) (t w : Nat) (inc : Nat → Bool) (a : Nat) : List (Nat × Bool × Bool) :=
  let wd := tagWidth t
  ((List.range w).flatMap (fun i => (List.range (planeN t / 32)).map (fun q =>
    let ks := (List.range 32).map (fun x => (32 * q + x) * wd / 32)
    let js := ks.filter inc
    (((a + 256 * i) / 4 + q, js.any (fun j => v.poison.getLsbD j), decide (js.length = 32)), js.isEmpty)))).filterMap
      (fun e => if e.2 then none else some e.1)

/-- A plane store: it bypasses the store buffer (R278). -/
def semPlaneStore (h : Hdr) (va : BitVec 10) (p : PlaneOp) : Sem :=
  { reads := fun c => [c.xv va, c.xs p.sb] ++ (match p.mn with | some m => [c.xm m] | none => [])
    steps := true, seals := fun _ => true, holds := fun _ => true
    check := fun s => trapOfPlan (p.plan s h.slot (s.me.rv h.slot va).tag.toNat va.toNat)
    eff := fun s =>
      let c := s.me
      let v := c.rv h.slot va
      match p.plan s h.slot v.tag.toNat va.toNat with
      | .error _ => s
      | .ok (a, t) =>
        let inc (j : Nat) : Bool := match p.mn with | some m => (c.rm h.slot m).1.getLsbD j | none => true
        let x : WAccess := { c.access h.slot (c.ea h.slot p.sb 0) t with
          bytes := planeBytes v v.tag.toNat p.w inc a, words := planeWords v v.tag.toNat p.w inc a }
        let s1 := (s.touch (c.ea h.slot p.sb 0) 1).onMe Core.step
        if x.bytes.isEmpty then s1 else s1.sendAccess (homeDie a) x }

/-- C1.PST. -/
def semC1Pst (h : Hdr) (f : OpPST) : Sem :=
  semPlaneStore h f.va { sb := f.sb, w := f.w1.toNat + 1, i := f.i, tag := f.tag, store := true, mn := none }

/-- The meaning of the row: one issue of the operation. -/
def execC1Pst (h : Hdr) (f : OpPST) (s : State) : Host.Outcome State Fault Refusal :=
  (semC1Pst h f).run h s

/-- C1.PSTM. -/
def semC1Pstm (h : Hdr) (f : OpPSTM) : Sem :=
  semPlaneStore h f.va { sb := f.sb, w := f.w1.toNat + 1, i := f.i, tag := f.tag, store := true, mn := some f.mn }

/-- The meaning of the row: one issue of the operation. -/
def execC1Pstm (h : Hdr) (f : OpPSTM) (s : State) : Host.Outcome State Fault Refusal :=
  (semC1Pstm h f).run h s

/-- C1.PLD: the pending bit stands until the access is performed in its beat, or refused. -/
def semC1Pld (h : Hdr) (f : OpPLD) : Sem :=
  let p : PlaneOp := { sb := f.sb, w := f.w1.toNat + 1, i := f.i, tag := f.tag, store := false, mn := none }
  let t := f.fmt.toNat
  { reads := fun c => [c.xs f.sb], writes := fun c => [c.xv f.vd], steps := true, seals := fun _ => true
    holds := fun _ => true, waits := fun s => s.me.loadsFull
    check := fun s => firstTrap [trapOfPlan (p.plan s h.slot t f.vd.toNat), s.me.pushTrap h.slot f.vd t]
    eff := fun s =>
      match p.plan s h.slot t f.vd.toNat with
      | .error _ => s
      | .ok (a, b) =>
        let va := s.me.ea h.slot f.sb 0
        let addrs := (List.range p.w).flatMap (fun i => (List.range (planeN t / 8)).map (fun k => a + 256 * i + k))
        let s1 := (s.touch va 1).onMe (fun c =>
          c.addLoad h.slot (.v f.vd f.fmt) (.planes p.w (tagWidth t) (isSigned t)) addrs 0 va true)
        s1.sendAccess (homeDie a) { s.me.access h.slot va b with addrs := addrs, load := true } }

/-- The meaning of the row: one issue of the operation. -/
def execC1Pld (h : Hdr) (f : OpPLD) (s : State) : Host.Outcome State Fault Refusal :=
  (semC1Pld h f).run h s

/-! ## Bank commands (R287) -/

/-- What C1.BKRUN has checked: the physical row, bank count, beat and program. -/
structure BkPlan where
  region : Nat
  count : Nat
  beat : Nat
  prog : List Nat

/-- The checks of the pages that hold the `len` bytes of a region from `va`, each at its first byte of the region (R284, R287):
its translation and rights, then that it is worked; the physical address of the first byte. -/
def State.regionPlan (s : State) (sl : Slot) (va : Word) (len bt : Nat) : Except Trap Nat :=
  let pages := (List.range ((va.toNat % 65536 + len + 65535) / 65536)).map (fun k =>
    BitVec.ofNat 64 (max va.toNat ((va.toNat / 65536 + k) * 65536)))
  pages.foldr (fun a r =>
    match s.c1Plan sl a 1 1 5 0 true true with
    | .error t => .error t
    | .ok (pas, attr) =>
      if !isWorked attr then .error (s.me.beatTrap sl a 5 bt)
      else match r with | .error t => .error t | .ok _ => .ok (pas.headD 0)) (.ok 0)

/-- The checks of C1.BKRUN. -/
def bkPlan (s : State) (sl : Slot) (f : OpBK) : Except Trap BkPlan :=
  let c := s.me
  let va := c.ea sl f.sa 0
  let pa := (c.rs sl f.sb 1).1
  let k := (c.rs sl f.sc 2).1.toNat
  let n := k / 256 % 256 + 1
  let count := k % 256 + 1
  let b := c.tagOf f.i f.tag
  let bt := b.getD (fieldGet c.sw.beatNow 0 48)
  if c.determ then .error (c.trap sl 0x0D)
  else
    match c.consumed sl [(f.sa.toNat, (c.rs sl f.sa).2), (f.sb.toNat, (c.rs sl f.sb 1).2), (f.sc.toNat, (c.rs sl f.sc 2).2)] with
    | some t => .error t
    | none =>
      if va.toNat % 32768 ≠ 0 then .error (c.memTrap sl 0x09 1 va 0 5 0)
      else if k / 65536 ≠ 0 then .error (c.memTrap sl 0x09 2 va 0 5 0)
      else if pa.toNat % 4 ≠ 0 then .error (c.memTrap sl 0x09 1 pa 0 4 2)
      else
        match s.regionPlan sl va (32768 * count) bt with
        | .error t => .error t
        | .ok region =>
          if 255 < region / 2 ^ 15 % 256 + count - 1 then .error (c.memTrap sl 0x09 2 va 0 5 0)
          else
            match s.c1Plan sl pa (4 * n) 4 4 2 true false with
            | .error t => .error t
            | .ok (ps, at2) =>
              if isWorked at2 then .error (c.memTrap sl 0x09 0 pa 0 4 2)
              else if s.rowRefused ps then
                .error { c.memTrap sl 0x07 0 pa 0 4 2 with data := (s.dieAt (homeDie (ps.headD 0))).beat % 2 ^ 32 }
              else if b.isNone || bt % 2 == 0 then .error (c.beatTrap sl va 5 bt)
              else .ok { region := region, count := count, beat := bt, prog := ps }

/-- C1.BKRUN: the program is read at issue and the command travels to the region's home die. -/
def semC1Bkrun (h : Hdr) (f : OpBK) : Sem :=
  { reads := fun c => [c.xs f.sa, c.xs f.sb, c.xs f.sc], steps := true, seals := fun _ => true, holds := fun _ => true
    waits := fun s =>
      match bkPlan s h.slot f with
      | .error _ => false
      | .ok p => s.recordHeld s.coreNo s.me.seq p.prog
    stall := fun s =>
      match bkPlan s h.slot f with
      | .error _ => false
      | .ok p => s.me.engineStall p.prog
    check := fun s => trapOfPlan (bkPlan s h.slot f)
    eff := fun s =>
      match bkPlan s h.slot f with
      | .error _ => s
      | .ok p =>
        let c := s.me
        let d := homeDie p.region
        let words := (List.range (p.prog.length / 4)).map (fun i =>
          BitVec.ofNat 32 (ofElems 8 ((List.range 4).map (fun j => (s.ownByte s.coreNo c.seq (p.prog.getD (4 * i + j) 0)).toNat))))
        let cmd : BankCmd := {
          id := c.id * 2 ^ 40 + c.seq, core := c.id, pc := c.bundlePc, virt := c.ea h.slot f.sa 0, ctx := c.ctx,
          tag := p.beat, due := p.beat, region := p.region, first := p.region / 2 ^ 15 % 256, count := p.count, program := words,
          seq := c.seq, arrived := false, suspended := false }
        let s1 := ((s.touch (c.ea h.slot f.sa 0) 1).markSeen s.coreNo p.prog).onMe Core.step
        s1.putDie d { s1.dieAt d with cmds := (s1.dieAt d).cmds ++ [cmd] } }

/-- The meaning of the row: one issue of the operation. -/
def execC1Bkrun (h : Hdr) (f : OpBK) (s : State) : Host.Outcome State Fault Refusal :=
  (semC1Bkrun h f).run h s

end Sys2Proof.Machine
end

