-- ==== Sys2Proof/Machine/Branch.lean ====
section
/-! DEFINITION. The B-slot operations: branches with their two delay bundles, loop-branches, unit end, software trap,
return from trap, and the loop set-up operations (R124, R126 to R135). -/

namespace Sys2Proof.Machine

/-- A direct target: H + 8 · SX(disp, 32) (R126). -/
def Core.target (c : Core) (disp : BitVec 32) : Word := c.bundlePc + (disp.signExtend 64 <<< 3)

/-- The length in bytes of the bundle whose header is `w` (R22, R335). -/
def bundleBytes (w : Word) : Nat :=
  let present (lo : Nat) : Nat := if fieldGet w lo 2 = 2 then 1 else 0
  8 * (1 + present 61 + present 59 + present 57 + present 55 + present 53 + present 51 + present 49 + fieldGet w 48 1)

/-- The syllable at a code address as fetch has it, or as memory holds it where fetch has not brought it yet (log 12); none in a
faulted line, or where the address does not translate. -/
def State.codeAt (s : State) (a : Nat) : Option Word :=
  let c := s.me
  match c.fetch.find? (fun l => l.addr == a / 64) with
  | some l => if l.faulted then none else some (BitVec.ofNat 64 (fieldGet l.data (8 * (a % 64)) 64))
  | none =>
    match translate s c c.ctx a s.free with
    | .ok pa _ _ => some (BitVec.ofNat 64 (s.home.num pa 8))
    | .fail _ _ _ => none

/-- The same, 0 where it cannot be read. -/
def State.codeWord (s : State) (a : Nat) : Word := (s.codeAt a).getD 0

/-- The link of a call: the bundle after the second delay bundle (R127). -/
def State.linkOf (s : State) : Word :=
  let after : Nat := match s.me.issue with | some i => i.after.toNat | none => (s.me.pc + 8#64).toNat
  let d1 := after + bundleBytes (s.codeWord after)
  BitVec.ofNat 64 (d1 + bundleBytes (s.codeWord d1))

/-- Both delay bundles of the call can be read, so that its link is known at its issue. -/
def State.linkKnown (s : State) : Bool :=
  let after : Nat := match s.me.issue with | some i => i.after.toNat | none => (s.me.pc + 8#64).toNat
  match s.codeAt after with
  | some w => (s.codeAt (after + bundleBytes w)).isSome
  | none => false

/-- A branch with no update: transfer to `target`, or on to the bundle after the delay bundles (R128). -/
def Core.xferTo (c : Core) (kind : XferKind) (target : Option Word) (guarded : Bool) : Xfer :=
  { kind := kind, target := target, left := 2, atTime := 0, lc := none, depth := none, rot := none, p32 := none, link := none,
    pc := c.bundlePc, guarded := guarded, failed := false, issued := c.time }

/-- `c` with a pending transfer. -/
def Core.setXfer (c : Core) (x : Xfer) : Core := { c with xfer := some x }

/-- The check of a register that holds a branch target (R127). -/
def Core.targetTrap (c : Core) (sl : Slot) (r : BitVec 7) : Option Trap :=
  let a := c.rs sl r
  if a.2 then some (c.poisonTrap sl r.toNat)
  else if a.1.toNat % 8 ≠ 0 then some (c.accessTrap sl 1 a.1)
  else none

/-- B.BR. -/
def semBBr (h : Hdr) (f : OpBD) : Sem :=
  { branch := true, guarded := f.g
    eff := fun s => s.onMe (fun c => let _ := h; c.setXfer (c.xferTo .go (some (c.target f.disp)) f.g)) }

/-- The meaning of the row: one issue of the operation. -/
def execBBr (h : Hdr) (f : OpBD) (s : State) : Host.Outcome State Fault Refusal :=
  (semBBr h f).run h s

/-- A branch to a register. -/
def regBranch (h : Hdr) (f : OpBRG) : Sem :=
  { branch := true, guarded := f.g, reads := fun c => [c.xs f.sa]
    check := fun s => s.me.targetTrap h.slot f.sa
    eff := fun s => s.onMe (fun c => c.setXfer (c.xferTo .go (some (c.rs h.slot f.sa).1) f.g)) }

/-- B.BRI. -/
def semBBri (h : Hdr) (f : OpBRG) : Sem := regBranch h f

/-- The meaning of the row: one issue of the operation. -/
def execBBri (h : Hdr) (f : OpBRG) (s : State) : Host.Outcome State Fault Refusal :=
  (semBBri h f).run h s

/-- The value that a link holds at its latency while a delay bundle cannot be read: free, a multiple of 8 (log 12). -/
def State.linkGuess (s : State) : Word :=
  BitVec.ofNat 64 (Config.freeNat (match s.me.issue with | some i => i.free | none => s.free) % 2 ^ 45 * 8)

/-- A call: the transfer, and the link at a latency of 1 (R127), a guarded call too (DEDUCED, log 70). Where a delay bundle cannot be read yet
the link lands with a free value and stays pending with the transfer, until the headers can be read (R135; DESIGN CHOICE, log 12). -/
def State.call (s : State) (sl : Slot) (sd : BitVec 7) (x : Core → Xfer) : State :=
  s.onMe (fun c =>
    if s.linkKnown then (c.outS sl sd 1 s.linkOf false).setXfer (x c)
    else (c.outS sl sd 1 s.linkGuess false).setXfer { x c with link := some (c.physS sd.toNat) })

/-- B.CALL. -/
def semBCall (h : Hdr) (f : OpBDL) : Sem :=
  { branch := true, guarded := f.g, writes := fun c => [c.xs f.sd], results := 1
    eff := fun s => s.call h.slot f.sd (fun c => c.xferTo .go (some (c.target f.disp)) f.g) }

/-- The meaning of the row: one issue of the operation. -/
def execBCall (h : Hdr) (f : OpBDL) (s : State) : Host.Outcome State Fault Refusal :=
  (semBCall h f).run h s

/-- B.CALLI. -/
def semBCalli (h : Hdr) (f : OpBRL) : Sem :=
  { branch := true, guarded := f.g, reads := fun c => [c.xs f.sa], writes := fun c => [c.xs f.sd], results := 1
    check := fun s => s.me.targetTrap h.slot f.sa
    eff := fun s => s.call h.slot f.sd (fun c => c.xferTo .go (some (c.rs h.slot f.sa).1) f.g) }

/-- The meaning of the row: one issue of the operation. -/
def execBCalli (h : Hdr) (f : OpBRL) (s : State) : Host.Outcome State Fault Refusal :=
  (semBCalli h f).run h s

/-- B.RET, which only the debugger tells from B.BRI. -/
def semBRet (h : Hdr) (f : OpBRG) : Sem := regBranch h f

/-- The meaning of the row: one issue of the operation. -/
def execBRet (h : Hdr) (f : OpBRG) (s : State) : Host.Outcome State Fault Refusal :=
  (semBRet h f).run h s

/-- B.BRX. -/
def semBBrx (h : Hdr) (f : OpBRD) : Sem :=
  { branch := true, guarded := f.g, reads := fun c => [c.xs f.sa]
    check := fun s => s.me.targetTrap h.slot f.sa
    eff := fun s => s.onMe (fun c =>
      c.setXfer (c.xferTo .go (some ((c.rs h.slot f.sa).1 + (f.disp.signExtend 64 <<< 3))) f.g)) }

/-- The meaning of the row: one issue of the operation. -/
def execBBrx (h : Hdr) (f : OpBRD) (s : State) : Host.Outcome State Fault Refusal :=
  (semBBrx h f).run h s

/-- B.DBNZ: sa falls by 1 and decides by its new value. A poisoned count is consumed (R127). A guarded one writes sa
at its latency of 1, before its comparison is known (DEDUCED, log 70). -/
def semBDbnz (h : Hdr) (f : OpBRD) : Sem :=
  { branch := true, guarded := f.g, reads := fun c => [c.xs f.sa], writes := fun c => [c.xs f.sa], results := 1
    check := fun s =>
      let a := s.me.rs h.slot f.sa
      if a.2 then some (s.me.poisonTrap h.slot f.sa.toNat) else none
    eff := fun s => s.onMe (fun c =>
      let a := (c.rs h.slot f.sa).1 - 1#64
      (c.outS h.slot f.sa 1 a false).setXfer
        (c.xferTo .go (if a = 0 then none else some (c.target f.disp)) f.g)) }

/-- The meaning of the row: one issue of the operation. -/
def execBDbnz (h : Hdr) (f : OpBRD) (s : State) : Host.Outcome State Fault Refusal :=
  (semBDbnz h f).run h s

/-- B.LOOP: LC is read at issue and its update is pending (R127, R128). -/
def semBLoop (h : Hdr) (f : OpBD) : Sem :=
  { branch := true, guarded := f.g, reads := fun _ => [.w 0x009], writes := fun _ => [.w 0x009]
    eff := fun s => s.onMe (fun c =>
      let _ := h
      if c.sw.lc = 0 then c.setXfer (c.xferTo .go none f.g)
      else c.setXfer { c.xferTo .go (some (c.target f.disp)) f.g with lc := some (lcDec c.sw.lc) }) }

/-- The meaning of the row: one issue of the operation. -/
def execBLoop (h : Hdr) (f : OpBD) (s : State) : Host.Outcome State Fault Refusal :=
  (semBLoop h f).run h s

/-- The updates of the pipelined loop-branches (R129): the pending transfer before its target is chosen, and whether
more issues of the body follow. `count` says that LC counts the starts. -/
def Core.loopStep (c : Core) (count go guarded : Bool) : Xfer × Bool :=
  let x := c.xferTo .go none guarded
  let st := stagesOf c.sw.depth
  let tail := tailOf c.sw.depth
  let r := rotate c.sw.rot 0xF#4
  if go then
    ({ x with lc := if count then some (lcDec c.sw.lc) else none, depth := some (depthOf st st), rot := some r,
              p32 := some true }, true)
  else if 1 < tail then
    ({ x with depth := some (depthOf (tail - 1) st), rot := some r, p32 := some false }, true)
  else if tail = 1 then
    ({ x with depth := some (depthOf 0 st), rot := some r, p32 := some false }, false)
  else (x, false)

/-- A counted pipelined loop-branch; `exit` says that it transfers when no more issues follow. -/
def semCount (f : OpBD) (exit : Bool) : Sem :=
  { branch := true, guarded := f.g, reads := fun _ => [.w 0x009, .w 0x00A, .w 0x008]
    writes := fun c => [.w 0x009, .w 0x00A, .w 0x008, c.xp 32#6]
    eff := fun s => s.onMe (fun c =>
      let (x, more) := c.loopStep true (c.sw.lc != 0) f.g
      c.setXfer { x with target := if more != exit then some (c.target f.disp) else none }) }

/-- A while loop-branch. -/
def semWhile (h : Hdr) (f : OpBWC) (exit : Bool) : Sem :=
  { branch := true, guarded := f.g, reads := fun c => [c.xp f.pc, .w 0x00A, .w 0x008]
    writes := fun c => [.w 0x00A, .w 0x008, c.xp 32#6]
    check := fun s => s.me.consumed h.slot [(f.pc.toNat, (s.me.rp h.slot f.pc).2)]
    eff := fun s => s.onMe (fun c =>
      let (x, more) := c.loopStep false ((c.rp h.slot f.pc).1 != f.sense) f.g
      c.setXfer { x with target := if more != exit then some (c.target f.disp) else none }) }

/-- B.PCNT. -/
def semBPcnt (_h : Hdr) (f : OpBD) : Sem := semCount f false

/-- The meaning of the row: one issue of the operation. -/
def execBPcnt (h : Hdr) (f : OpBD) (s : State) : Host.Outcome State Fault Refusal :=
  (semBPcnt h f).run h s

/-- B.PCNTX. -/
def semBPcntx (_h : Hdr) (f : OpBD) : Sem := semCount f true

/-- The meaning of the row: one issue of the operation. -/
def execBPcntx (h : Hdr) (f : OpBD) (s : State) : Host.Outcome State Fault Refusal :=
  (semBPcntx h f).run h s

/-- B.PWHL. -/
def semBPwhl (h : Hdr) (f : OpBWC) : Sem := semWhile h f false

/-- The meaning of the row: one issue of the operation. -/
def execBPwhl (h : Hdr) (f : OpBWC) (s : State) : Host.Outcome State Fault Refusal :=
  (semBPwhl h f).run h s

/-- B.PWHLX. -/
def semBPwhlx (h : Hdr) (f : OpBWC) : Sem := semWhile h f true

/-- The meaning of the row: one issue of the operation. -/
def execBPwhlx (h : Hdr) (f : OpBWC) (s : State) : Host.Outcome State Fault Refusal :=
  (semBPwhlx h f).run h s

/-- B.END: the unit ends at the transfer cycle (R130). -/
def semBEnd (_h : Hdr) (_f : OpNone) : Sem :=
  { branch := true, ends := true
    eff := fun s => s.onMe (fun c => c.setXfer (c.xferTo .unitEnd none false)) }

/-- The meaning of the row: one issue of the operation. -/
def execBEnd (h : Hdr) (f : OpNone) (s : State) : Host.Outcome State Fault Refusal :=
  (semBEnd h f).run h s

/-- B.TRAP: the software trap with its code at the transfer cycle (R130). -/
def semBTrap (_h : Hdr) (f : OpBT) : Sem :=
  { branch := true
    eff := fun s => s.onMe (fun c => c.setXfer (c.xferTo (.trap f.code.toNat) none false)) }

/-- The meaning of the row: one issue of the operation. -/
def execBTrap (h : Hdr) (f : OpBT) (s : State) : Host.Outcome State Fault Refusal :=
  (semBTrap h f).run h s

/-- B.TRAPR: the code is bits 15:0 of sa (R130). -/
def semBTrapr (h : Hdr) (f : OpBTR) : Sem :=
  { branch := true, reads := fun c => [c.xs f.sa]
    check := fun s => s.me.consumed h.slot [(f.sa.toNat, (s.me.rs h.slot f.sa).2)]
    eff := fun s => s.onMe (fun c =>
      c.setXfer (c.xferTo (.trap ((c.rs h.slot f.sa).1.toNat % 2 ^ 16)) none false)) }

/-- The meaning of the row: one issue of the operation. -/
def execBTrapr (h : Hdr) (f : OpBTR) (s : State) : Host.Outcome State Fault Refusal :=
  (semBTrapr h f).run h s

/-- B.RFT: supervisor-only; the return takes place at the transfer cycle (R130, R360). A segment of the handler's own commits first
(log 39). -/
def semBRft (h : Hdr) (_f : OpNone) : Sem :=
  { branch := true, seals := fun s => s.me.supSeg
    check := fun s => if s.me.sup then none else some (s.me.accessTrap h.slot 5 0)
    eff := fun s => s.onMe (fun c => c.setXfer (c.xferTo .rft none false)) }

/-- The meaning of the row: one issue of the operation. -/
def execBRft (h : Hdr) (f : OpNone) (s : State) : Host.Outcome State Fault Refusal :=
  (semBRft h f).run h s

/-! ## Loop counts and rotation (R131) -/

/-- B.SETLC. -/
def semBSetlc (h : Hdr) (f : OpSA) : Sem :=
  { reads := fun c => [c.xs f.sa], writes := fun _ => [.w 0x009], results := 1
    check := fun s => s.me.consumed h.slot [(f.sa.toNat, (s.me.rs h.slot f.sa).2)]
    eff := fun s => s.onMe (fun c => c.outW h.slot 0x009 1 (c.rs h.slot f.sa).1 true) }

/-- The meaning of the row: one issue of the operation. -/
def execBSetlc (h : Hdr) (f : OpSA) (s : State) : Host.Outcome State Fault Refusal :=
  (semBSetlc h f).run h s

/-- B.SETLCI. -/
def semBSetlci (h : Hdr) (f : OpBI) : Sem :=
  { writes := fun _ => [.w 0x009], results := 1
    eff := fun s => s.onMe (fun c => c.outW h.slot 0x009 1 (f.imm.setWidth 64) true) }

/-- The meaning of the row: one issue of the operation. -/
def execBSetlci (h : Hdr) (f : OpBI) (s : State) : Host.Outcome State Fault Refusal :=
  (semBSetlci h f).run h s

/-- B.SETDP: STAGES and TAIL from sa, saturated at 255. -/
def semBSetdp (h : Hdr) (f : OpSA) : Sem :=
  { reads := fun c => [c.xs f.sa], writes := fun _ => [.w 0x00A], results := 1
    check := fun s => s.me.consumed h.slot [(f.sa.toNat, (s.me.rs h.slot f.sa).2)]
    eff := fun s => s.onMe (fun c =>
      let n := min 255 (c.rs h.slot f.sa).1.toNat
      c.outW h.slot 0x00A 1 (depthOf n n) true) }

/-- The meaning of the row: one issue of the operation. -/
def execBSetdp (h : Hdr) (f : OpSA) (s : State) : Host.Outcome State Fault Refusal :=
  (semBSetdp h f).run h s

/-- B.SETDPI. -/
def semBSetdpi (h : Hdr) (f : OpBI8) : Sem :=
  { writes := fun _ => [.w 0x00A], results := 1
    eff := fun s => s.onMe (fun c => c.outW h.slot 0x00A 1 (depthOf f.imm.toNat f.imm.toNat) true) }

/-- The meaning of the row: one issue of the operation. -/
def execBSetdpi (h : Hdr) (f : OpBI8) (s : State) : Host.Outcome State Fault Refusal :=
  (semBSetdpi h f).run h s

/-- B.ROT: from ROT as it stands at issue. -/
def semBRot (h : Hdr) (f : OpBM) : Sem :=
  { reads := fun _ => [.w 0x008], writes := fun _ => [.w 0x008], results := 1
    eff := fun s => s.onMe (fun c => c.outW h.slot 0x008 1 (rotate c.sw.rot f.mask) true) }

/-- The meaning of the row: one issue of the operation. -/
def execBRot (h : Hdr) (f : OpBM) (s : State) : Host.Outcome State Fault Refusal :=
  (semBRot h f).run h s

/-- B.ROTCLR. -/
def semBRotclr (h : Hdr) (f : OpBM) : Sem :=
  { reads := fun _ => [.w 0x008], writes := fun _ => [.w 0x008], results := 1
    eff := fun s => s.onMe (fun c => c.outW h.slot 0x008 1 (rotClear c.sw.rot f.mask) true) }

/-- The meaning of the row: one issue of the operation. -/
def execBRotclr (h : Hdr) (f : OpBM) (s : State) : Host.Outcome State Fault Refusal :=
  (semBRotclr h f).run h s

/-- B.STAGE: p32 := v and p33 to p63 := 0, by logical name. -/
def semBStage (h : Hdr) (f : OpBI1) : Sem :=
  { writes := fun c => (List.range 32).map (fun i => .p (c.physP (32 + i))), results := 32
    eff := fun s => s.onMe (fun c =>
      (List.range 32).foldl (fun c i => c.outP h.slot (BitVec.ofNat 6 (32 + i)) 1 (f.imm && i == 0) false) c) }

/-- The meaning of the row: one issue of the operation. -/
def execBStage (h : Hdr) (f : OpBI1) (s : State) : Host.Outcome State Fault Refusal :=
  (semBStage h f).run h s

/-- B.LOOPSET. -/
def semBLoopset (h : Hdr) (f : OpBL) : Sem :=
  { writes := fun _ => [.w 0x009, .w 0x00A], results := 2
    eff := fun s => s.onMe (fun c =>
      (c.outW h.slot 0x009 1 (f.lc.setWidth 64) true).outW h.slot 0x00A 1 (depthOf f.stages.toNat f.stages.toNat) true) }

/-- The meaning of the row: one issue of the operation. -/
def execBLoopset (h : Hdr) (f : OpBL) (s : State) : Host.Outcome State Fault Refusal :=
  (semBLoopset h f).run h s

end Sys2Proof.Machine
end

