-- ==== Sys2Proof/Machine/Tiles.lean ====
section
/-! DEFINITION. Shape slots, tile transfers, gathers and scatters, ring fills and spills, and flumes
(R171 to R187). -/

namespace Sys2Proof.Machine

/-! ## Shape records (R171, R172) -/

/-- The number of elements of a record. -/
def Shape.count (k : Shape) : Nat := (k.counts.take k.rank).foldl (fun x d => x * d) 1

/-- The element width of a record in bytes. -/
def Shape.ew (k : Shape) : Nat := ewBytes k.format.toNat

/-- The byte offset of element `i` of a walk over counts and strides, the first index varying fastest. -/
def walkOffset (cs : List Nat) (ss : List Int) (i : Nat) : Int :=
  match cs, ss with
  | c :: cs, st :: ss => (i % max 1 c : Nat) * st + walkOffset cs ss (i / max 1 c)
  | _, _ => 0

/-- The address of element `i` under a displacement (R172). -/
def Shape.addr (k : Shape) (disp : Word) (i : Nat) : Word :=
  k.base + disp + BitVec.ofInt 64 (walkOffset (k.counts.take k.rank) (k.strides.take k.rank) i)

/-- Every element of a record, in walk order. -/
def Shape.addrs (k : Shape) (disp : Word) : List Word := (List.range k.count).map (k.addr disp)

/-- The record of 64 bytes, as a number (R171). -/
def Shape.encode (k : Shape) : Nat :=
  k.rank + k.format.toNat * 2 ^ 8 + (if k.write then 2 ^ 16 else 0) + k.base.toNat * 2 ^ 64 +
    ofElems 32 k.counts * 2 ^ 128 + ofElems 32 (k.strides.map (fun x => wrap x 32)) * 2 ^ 288

/-- A record read from memory: none where it breaks R171. -/
def Shape.decode (n : Nat) : Option Shape :=
  let fld (lo w : Nat) : Nat := n / 2 ^ lo % 2 ^ w
  let rank := fld 0 8
  let counts := (List.range 5).map (fun d => fld (128 + 32 * d) 32)
  let strides := (List.range 5).map (fun d => sx (fld (288 + 32 * d) 32) 32)
  let dims := (List.range 5).all (fun d =>
    if d < rank then counts.getD d 0 ≠ 0 else counts.getD d 0 = 0 ∧ strides.getD d 0 = 0)
  if 1 ≤ rank ∧ rank ≤ 5 ∧ fld 8 8 < 16 ∧ fld 16 8 < 2 ∧ fld 24 40 = 0 ∧ fld 448 64 = 0 ∧ dims then
    some { rank := rank, format := BitVec.ofNat 4 (fld 8 8), write := decide (fld 16 8 = 1),
           base := BitVec.ofNat 64 (fld 64 64), counts := counts, strides := strides }
  else none

/-- The record at the physical bytes `pas`, as the core whose turn it is reads it; an error is its trap. -/
def State.readShape (s : State) (sl : Slot) (va : Word) (pas : List Nat) : Except Trap Shape :=
  let c := s.me
  let n := ofElems 8 (pas.map (fun a => (s.ownByte s.coreNo c.seq a).toNat))
  if pas.any (fun a => s.ownPois s.coreNo c.seq (a / 4)) then .error (c.memTrap sl 0x06 0 va 0 0 6)
  else
    match Shape.decode n with
    | none => .error (c.memTrap sl 0x09 0 va 0 0 6)
    | some k => if k.format.toNat = tKV then .error (c.trap sl 0x02) else .ok k

/-- The physical bytes of the record that C.SHLD or C.SHEV names; none where its check fails. -/
def shapeBytes (s : State) (sl : Slot) (f : OpSHL) (load : Bool) : List Nat :=
  match s.homePlan sl (s.me.ea sl f.sb (f.imm.signExtend 32)) 64 1 (if load then 0 else 1) 6 load (!load) with
  | .error _ => []
  | .ok pas => pas

/-- The plan of C.SHLD. Its record needs no alignment (DESIGN CHOICE, log 72). -/
def shldPlan (s : State) (sl : Slot) (f : OpSHL) : Except Trap Shape :=
  let va := s.me.ea sl f.sb (f.imm.signExtend 32)
  match s.recordPlan sl va 64 1 0 6 true false with
  | .error t => .error t
  | .ok pas => s.readShape sl va pas

/-- C.SHLD: the record is read and checked; the slot is written in the cycle after the hold (R173). It has no
auto-step. -/
def semCShld (h : Hdr) (f : OpSHL) : Sem :=
  let pas (s : State) := shapeBytes s h.slot f true
  { reads := fun c => [c.xs f.sb], off := f.imm.signExtend 32, seals := fun _ => true, holds := fun _ => true, padHold := true, turn := 2
    stall := fun s => s.me.engineStall (pas s), waits := fun s => s.recordHeld s.coreNo s.me.seq (pas s)
    check := fun s => firstTrap [s.me.baseTrap h.slot f.sb, trapOfPlan (shldPlan s h.slot f)]
    eff := fun s =>
      match shldPlan s h.slot f with
      | .error _ => s
      | .ok k => ((s.touch (s.me.ea h.slot f.sb (f.imm.signExtend 32)) 64).markSeen s.coreNo (pas s)).onMe (fun c =>
          { c.step with k := SMap.put c.k f.ks.toNat k }) }

/-- The meaning of the row: one issue of the operation. -/
def execCShld (h : Hdr) (f : OpSHL) (s : State) : Host.Outcome State Fault Refusal :=
  (semCShld h f).run h s

/-- The access trap of an empty shape slot (R173). -/
def Core.shapeTrap (c : Core) (sl : Slot) (ks : BitVec 5) : Option Trap :=
  if (c.shape ks.toNat).isNone then some (c.trap sl 0x09) else none

/-- C.SHEV: the record is stored and the slot emptied. -/
def semCShev (h : Hdr) (f : OpSHL) : Sem :=
  let plan (s : State) := s.homePlan h.slot (s.me.ea h.slot f.sb (f.imm.signExtend 32)) 64 1 1 6 false true
  { reads := fun c => [c.xs f.sb], off := f.imm.signExtend 32, seals := fun _ => true, holds := fun _ => true, padHold := true, turn := 2
    stall := fun s => s.me.engineStall (shapeBytes s h.slot f false), waits := fun s => s.me.storesFull
    check := fun s => firstTrap [s.me.baseTrap h.slot f.sb, s.me.shapeTrap h.slot f.ks, trapOfPlan (plan s)]
    eff := fun s =>
      match plan s, s.me.shape f.ks.toNat with
      | .ok pas, some k =>
        let va := s.me.ea h.slot f.sb (f.imm.signExtend 32)
        (s.touch va 64).onMe (fun c =>
          let bs := (List.range 64).map (fun i => (pas.getD i 0, BitVec.ofNat 8 (k.encode / 2 ^ (8 * i))))
          let ws := wordsOfBytes (pas.map (fun a => (a, false)))
          let c1 : Core := { c.step with
            sb := c.sb ++ [{ c.sbEntry .main bs ws with virt := va }], k := SMap.del c.k f.ks.toNat }
          c1.l1Write bs ws)
      | _, _ => s }

/-- The meaning of the row: one issue of the operation. -/
def execCShev (h : Hdr) (f : OpSHL) (s : State) : Host.Outcome State Fault Refusal :=
  (semCShev h f).run h s

/-! ## Plans of the walks of an engine -/

/-- The attributes of the page that holds a virtual address. -/
def State.attrAt (s : State) (sl : Slot) (a : Word) : Option (BitVec 8) :=
  match translate s s.me s.me.ctx a.toNat (s.pick sl) with
  | .ok _ attr _ => some attr
  | .fail _ _ _ => none

/-- The first element of a tile access that goes on where the one before it ends, across a boundary between two pages with different
attributes (R163; DEDUCED, log 66). -/
def State.attrFault (s : State) (sl : Slot) (addrs : List Word) (ew : Nat) : Option (Nat × Word) :=
  let pages := (addrs.map (fun a => a.toNat / 2 ^ 16)).eraseDups
  let attrs := pages.map (fun p => (p, (s.attrAt sl (BitVec.ofNat 64 (p * 2 ^ 16))).map (fun x => x.extractLsb' 2 6)))
  let look (p : Nat) : Option (BitVec 6) := (attrs.find? (fun e => e.1 == p)).bind (·.2)
  let num := (List.range addrs.length).zip addrs
  ((num.drop 1).zip addrs).findSome? (fun e =>
    let p := e.2.toNat / 2 ^ 16
    let q := e.1.2.toNat / 2 ^ 16
    if p ≠ q ∧ e.2.toNat + ew = e.1.2.toNat ∧ look p ≠ look q then some e.1 else none)

/-- The physical address of each element of a walk: every page checked before any access (R175, R178). `kind` is 4 for an
engine read and 5 for an engine write. -/
def State.walkPlan (s : State) (sl : Slot) (addrs : List Word) (ew kind : Nat) : Except Trap (List Nat) :=
  let c := s.me
  let log2 := Nat.log2 ew
  let num := (List.range addrs.length).zip addrs
  match num.find? (fun e => decide (e.2.toNat % ew ≠ 0)) with
  | some e => .error { c.memTrap sl 0x09 1 e.2 0 kind log2 with data := e.1 }
  | none =>
    let pages := (addrs.map (fun a => a.toNat / 2 ^ 16)).eraseDups
    let tr := pages.map (fun p =>
      (p, s.homePlan sl (BitVec.ofNat 64 (p * 2 ^ 16)) 1 1 kind log2 (kind == 4) (kind == 5)))
    let look (a : Word) : Except Trap (List Nat) :=
      match tr.find? (fun e => e.1 == a.toNat / 2 ^ 16) with
      | some e => e.2
      | none => .ok []
    match num.findSome? (fun e => match look e.2 with | .error t => some { t with addr := e.2, data := (if t.code = 9 then e.1 else t.data) } | .ok _ => none) with
    | some t => .error t
    | none => .ok (addrs.map (fun a =>
        match look a with
        | .ok (p :: _) => p + a.toNat % 2 ^ 16
        | _ => 0))

/-- Groups of at most 128 bytes of a transfer: the tile byte of each element and its address, `per` elements a group. -/
def groupBy (per : Nat) (l : List (Nat × Nat)) (fuel : Nat) : List (List (Nat × Nat)) :=
  match fuel with
  | 0 => []
  | fuel + 1 => if l.isEmpty then [] else l.take per :: groupBy per (l.drop per) fuel

/-- The pages of a walk enter the TLBs. -/
def State.touchAll (s : State) (addrs : List Word) : State :=
  ((addrs.map (fun a => a.toNat / 2 ^ 16)).eraseDups).foldl (fun s p => s.touch (BitVec.ofNat 64 (p * 2 ^ 16)) 1) s

/-- An engine write into tile `t` has issued and not finished. -/
def Engine.fills (e : Engine) (t : Nat) : Bool :=
  match e.kind with
  | .tileLoad k => k == t
  | .gather k => k == t
  | .kvload k _ => k == t
  | _ => false

/-- The engine operation reads tile `t` (R175, R178, R306). -/
def Engine.readsTile (e : Engine) (t : Nat) : Bool :=
  match e.kind with
  | .tileStore k => k == t
  | .scatter k => k == t || e.rest == t
  | .kvstore k => k == t && (e.buf.isEmpty || decide (e.padEnd ≠ 0))
  | _ => false

/-- The issue time at which the last engine write into tile `t` lands in a deterministic launch: a later one lands no earlier
(R81, R395). -/
def Core.fillDue (c : Core) (t : Nat) : Nat := (c.engines.filter (fun e => e.fills t)).foldl (fun m e => max m e.due) 0

/-- A drain into tile `t` is in flight (R245). -/
def Core.drainsTo (c : Core) (t : Nat) : Bool :=
  c.flights.any (fun f => match f.dest with | .tileRow k _ => k == t | _ => false)

/-- The issue time at which a deterministic launch frees the tile that an engine operation reads: that of its last chunk (R395); for
a C1.KVST, whose stalls fall with its padded time (R310), that time (DEDUCED, log 64). -/
def Engine.freeAt (e : Engine) (pad : Nat) : Nat :=
  match e.kind with
  | .kvstore _ => e.padEnd
  | _ => e.padEnd - pad

/-- Some engine still reads tile `t`; a handler of a deterministic launch finds every such tile read. -/
def Core.tileBusy (c : Core) (t : Nat) : Bool :=
  c.engines.any (fun e => e.readsTile t && (decide (e.padEnd = 0) || (!c.sup && decide (c.time < e.freeAt c.padC1))))

/-- An engine operation added; a load clears its tile's ready tag (R81). -/
def Core.addEngine (c : Core) (e : Engine) (clears : Option Nat) : Core :=
  let c1 : Core := { c.step with engines := c.engines ++ [e] }
  match clears with
  | none => c1
  | some t => c1.putT t { c1.treg t with ready := false }

/-- The engine operation of the issue in progress. -/
def Core.engine (c : Core) (sl : Slot) (kind : EngKind) : Engine :=
  { seq := c.seq, kind := kind, tag := 0, work := [], virt := [], vas := [], done := 0, rest := 16385, acq := 0, rel := 0, due := 0, span := [], padEnd := 0, padEnds := [],
    slot := slotCode sl, pc := c.bundlePc, ew := 1, fault := none, virtAt := 0, par := 0, buf := [], kv := KvWalk.zero,
    frozen := false, sup := c.sup }

/-- The chunks of a tile taken for the engine operation in issue, one a cycle, in a deterministic launch (R395). -/
def Core.takeChunks (c : Core) (t : Nat) (chunks : List (List Nat)) : Core :=
  if c.det then
    { c with timed := c.timed ++ ((List.range chunks.length).zip chunks).map (fun e =>
        { due := c.time + e.1, seq := c.seq, rel := 0, acq := 0, gd := none, act := .engineTake t e.2 c.seq }) }
  else c

/-! ## Tile transfers (R174, R175) -/

/-- One tile transfer as its fields give it. -/
structure TileOp where
  t : Nat
  ks : BitVec 5
  sb : BitVec 7
  line : Nat
  load : Bool
  whole : Bool
  w : Bool
  ordered : Bool

/-- The elements of a transfer: each tile byte with its address. -/
structure TilePlan where
  shape : Shape
  addrs : List Word
  phys : List Nat

/-- The checks of a tile transfer. -/
def TileOp.plan (o : TileOp) (s : State) (sl : Slot) : Except Trap TilePlan :=
  let c := s.me
  let kind := if o.load then 4 else 5
  match firstTrap [c.systemTrap sl o.ordered, c.baseTrap sl o.sb] with
  | some t => .error t
  | none =>
    match c.shape o.ks.toNat with
    | none => .error (c.trap sl 0x09)
    | some k =>
      let b := k.count * k.ew
      if 16384 < 64 * o.line + b then .error { c.trap sl 0x09 with sub := 2, kind := kind }
      else
        let addrs := k.addrs ((c.rs sl o.sb).1 + (c.disp sl 0).signExtend 64)
        if sl = .C1 then
          match s.walkPlan sl addrs k.ew kind with
          | .error t => .error t
          | .ok ps =>
            match s.attrFault sl addrs k.ew with
            | some (i, a) => .error { c.memTrap sl 0x09 4 a 0 kind (Nat.log2 k.ew) with data := i }
            | none => .ok { shape := k, addrs := addrs, phys := ps }
        else
          match ((List.range addrs.length).zip addrs).findSome? (fun e =>
              (c.windowTrap sl e.2 k.ew k.ew c.clusterWindow.2 2 kind (Nat.log2 k.ew)).map (fun t => { t with data := e.1 })) with
          | some t => .error t
          | none => .ok { shape := k, addrs := addrs, phys := addrs.map (fun a => c.clusterBase + a.toNat) }

/-- Each byte of a transfer: its place in the tile and its address. -/
def TilePlan.items (p : TilePlan) (line : Nat) : List (Nat × Nat) :=
  ((List.range p.phys.length).zip p.phys).flatMap (fun e =>
    (List.range p.shape.ew).map (fun i => (64 * line + p.shape.ew * e.1 + i, e.2 + i)))

/-- The bytes of a transfer. -/
def TilePlan.bytes (p : TilePlan) (line : Nat) : List Nat := (p.items line).map (·.2)

/-- The chunks of a transfer: 128 bytes each, in tile byte order (R164). -/
def TilePlan.chunks (p : TilePlan) (line : Nat) : List (List (Nat × Nat)) :=
  groupBy 128 (p.items line) (p.phys.length * p.shape.ew)

/-- A tile transfer. In C0 its chunks run on the formula of R164; in C1 the engine moves them behind the program. -/
def semTile (h : Hdr) (o : TileOp) : Sem :=
  let main := h.slot == .C1
  let span (s : State) : List (Nat × Nat × Nat) :=
    match s.me.shape o.ks.toNat with
    | some k => [(o.t, 64 * o.line, k.count * k.ew)]
    | none => []
  { reads := fun c => [c.xs o.sb] ++ (if o.load then [] else [.t o.t])
    writes := fun _ => if o.load then [.t o.t] else []
    steps := true, seals := fun _ => true, holds := fun _ => main, padHold := main
    stall := fun s =>
      if main then
        (o.load && s.me.drainsTo o.t) || (match o.plan s h.slot with | .ok p => s.me.engineStall (p.bytes o.line) | .error _ => false)
      else (o.load && !(s.me.treg o.t).ready) ||
        (match o.plan s h.slot with | .ok p => s.me.padStall .cluster (p.bytes o.line) | .error _ => false)
    slip := fun s => (o.w && !(s.me.treg o.t).ready) || (o.load && s.me.tileBusy o.t)
    tileReads := fun s => if o.load then [] else span s
    tileWrites := fun s => if !o.load then [] else if o.whole then [(o.t, 0, 16384)] else span s
    check := fun s => trapOfPlan (o.plan s h.slot)
    eff := fun s =>
      match o.plan s h.slot with
      | .error _ => s
      | .ok p =>
        let chunks := p.chunks o.line
        let b := p.shape.count * p.shape.ew
        if main then
          (s.touchAll p.addrs).onMe (fun c =>
            let e : Engine := { c.engine h.slot (if o.load then .tileLoad o.t else .tileStore o.t) with
              tag := p.shape.format
              work := chunks.map (fun l => ((l.headD (0, 0)).1, l.map (·.2)))
              vas := (List.range chunks.length).map (fun j =>
                p.addrs.getD (128 * j / p.shape.ew) 0 + BitVec.ofNat 64 (128 * j % p.shape.ew))
              rest := if o.whole && o.load then b else 16385
              acq := if o.ordered && o.load then c.scope else 0
              rel := if o.ordered && !o.load then c.scope else 0
              due := if c.det && o.load then max (c.padded + chunks.length) (c.fillDue o.t) else 0
              padEnd := if c.det && !o.load then c.padded + chunks.length else 0
              virtAt := BitVec.ofNat 64 (64 * o.line)
              ew := p.shape.ew }
            let c1 := if o.load then c else c.takeChunks o.t (chunks.map (fun l => l.map (·.1)))
            c1.addEngine e (if o.load then some o.t else none))
        else
          s.onMe (fun c =>
            let mk (due : Nat) (a : TAct) : Timed := { due := due, seq := c.seq, rel := 0, acq := 0, gd := none, act := a }
            let num := (List.range chunks.length).zip chunks
            let lat := c.lat3 24 28 (fieldGet c.sw.determ 16 8)
            let ts := num.map (fun e =>
              if o.load then
                mk (c.time + 12 + e.1) (.chunkRead o.t e.2 (c.time + lat + e.1) p.shape.format (if o.whole then b else 16385)
                  (decide (e.1 = 0)))
              else mk (c.time + e.1) (.chunkTake o.t e.2 (c.time + 12 + e.1)))
            { c.step with timed := c.timed ++ ts, c0free := c.time + chunks.length }) }

/-- TLD. -/
def semCTld (h : Hdr) (f : OpTLD) : Sem :=
  semTile h { t := f.td.toNat, ks := f.ks, sb := f.sb, line := 0, load := true, whole := true, w := false, ordered := false }

/-- The meaning of the row: one issue of the operation. -/
def execCTld (h : Hdr) (f : OpTLD) (s : State) : Host.Outcome State Fault Refusal :=
  (semCTld h f).run h s

/-- TST. -/
def semCTst (h : Hdr) (f : OpTST) : Sem :=
  semTile h { t := f.ta.toNat, ks := f.ks, sb := f.sb, line := 0, load := false, whole := true, w := f.w, ordered := false }

/-- The meaning of the row: one issue of the operation. -/
def execCTst (h : Hdr) (f : OpTST) (s : State) : Host.Outcome State Fault Refusal :=
  (semCTst h f).run h s

/-- TLDP. -/
def semCTldp (h : Hdr) (f : OpTLDP) : Sem :=
  semTile h {
    t := f.td.toNat, ks := f.ks, sb := f.sb, line := f.line.toNat, load := true, whole := false, w := false, ordered := false }

/-- The meaning of the row: one issue of the operation. -/
def execCTldp (h : Hdr) (f : OpTLDP) (s : State) : Host.Outcome State Fault Refusal :=
  (semCTldp h f).run h s

/-- TSTP. -/
def semCTstp (h : Hdr) (f : OpTSTP) : Sem :=
  semTile h {
    t := f.ta.toNat, ks := f.ks, sb := f.sb, line := f.line.toNat, load := false, whole := false, w := f.w, ordered := false }

/-- The meaning of the row: one issue of the operation. -/
def execCTstp (h : Hdr) (f : OpTSTP) (s : State) : Host.Outcome State Fault Refusal :=
  (semCTstp h f).run h s

/-- C1.TLD.ACQ: the acquire is complete when the last byte has been read. -/
def semC1TldAcq (h : Hdr) (f : OpTLD) : Sem :=
  semTile h { t := f.td.toNat, ks := f.ks, sb := f.sb, line := 0, load := true, whole := true, w := false, ordered := true }

/-- The meaning of the row: one issue of the operation. -/
def execC1TldAcq (h : Hdr) (f : OpTLD) (s : State) : Host.Outcome State Fault Refusal :=
  (semC1TldAcq h f).run h s

/-- C1.TST.REL: a release before the first byte is written. -/
def semC1TstRel (h : Hdr) (f : OpTST) : Sem :=
  semTile h { t := f.ta.toNat, ks := f.ks, sb := f.sb, line := 0, load := false, whole := true, w := f.w, ordered := true }

/-- The meaning of the row: one issue of the operation. -/
def execC1TstRel (h : Hdr) (f : OpTST) (s : State) : Host.Outcome State Fault Refusal :=
  (semC1TstRel h f).run h s

/-! ## Gather and scatter (R177, R178) -/

/-- The element formats of a gather or scatter. -/
def gatherTags : List Nat := [tI8, tI16, tI32, tZ8, tZ16, tZ32, tE4, tE5, tF16, tB16, tF32, tRS]

/-- The checks of a gather or scatter of `n` elements; the address of each. -/
def gatherPlan (s : State) (sl : Slot) (td tx : Nat) (sb : BitVec 7) (n tag : Nat) (store : Bool) :
    Except Trap (List Word × List Nat) :=
  let c := s.me
  let x := c.treg tx
  let ew := tagWidth tag / 8
  let kind := if store then 5 else 4
  if x.tag.toNat ≠ tI32 ∧ x.tag.toNat ≠ tZ32 then .error { c.trap sl 0x02 with data := tx }
  else if !gatherTags.contains tag || (store && (c.treg td).tag.toNat != tag) then .error { c.trap sl 0x02 with data := td }
  else
    match c.baseTrap sl sb with
    | some t => .error t
    | none =>
      if 131072 / tagWidth tag < n then .error { c.trap sl 0x09 with sub := 2, kind := kind }
      else
        match (List.range n).find? (fun i => x.poison.getLsbD (4 * i / 64)) with
        | some _ => .error { c.trap sl 0x06 with data := tx }
        | none =>
          let addrs := (List.range n).map (fun i =>
            (c.rs sl sb).1 + (c.disp sl 0).signExtend 64 + BitVec.ofNat 64 (elem x.val 32 i))
          match s.walkPlan sl addrs ew kind with
          | .error t => .error t
          | .ok ps => .ok (addrs, ps)

/-- A gather or scatter is itself a later access of an earlier one (R178). -/
def gatherStall (s : State) (plan : Except Trap (List Word × List Nat)) (ew : Nat) : Bool :=
  match plan with
  | .ok (_, ps) => s.me.engineStall (ps.flatMap (fun a => (List.range ew).map (a + ·)))
  | .error _ => false

/-- C1.GATH. -/
def semC1Gath (h : Hdr) (f : OpCGL) : Sem :=
  let n := f.n1.toNat + 1
  let t := f.td.toNat
  let plan (s : State) := gatherPlan s h.slot t f.tx.toNat f.sb n f.tag.toNat false
  { reads := fun c => [.t f.tx.toNat, c.xs f.sb], writes := fun _ => [.t t], steps := true, seals := fun _ => true
    holds := fun _ => true, padHold := true
    stall := fun s => s.me.drainsTo t || gatherStall s (plan s) (tagWidth f.tag.toNat / 8)
    slip := fun s => (f.w && !(s.me.treg f.tx.toNat).ready) || s.me.tileBusy t
    tileReads := fun _ => [(f.tx.toNat, 0, 4 * n)], tileWrites := fun _ => [(t, 0, 16384)]
    check := fun s => trapOfPlan (plan s)
    eff := fun s =>
      match plan s with
      | .error _ => s
      | .ok (addrs, ps) =>
        let ew := tagWidth f.tag.toNat / 8
        (s.touchAll addrs).onMe (fun c =>
          let e : Engine := { c.engine h.slot (.gather t) with
            tag := f.tag, ew := ew, rest := n * ew, vas := addrs
            work := ((List.range n).zip ps).map (fun e => (ew * e.1, (List.range ew).map (e.2 + ·)))
            due := if c.det then max (c.padded + (n + 15) / 16) (c.fillDue t) else 0
            span := if c.det then ps.flatMap (fun a => (List.range ew).map (a + ·)) else []
            padEnd := if c.det then c.padded + (n + 15) / 16 else 0 }
          c.addEngine e (some t)) }

/-- The meaning of the row: one issue of the operation. -/
def execC1Gath (h : Hdr) (f : OpCGL) (s : State) : Host.Outcome State Fault Refusal :=
  (semC1Gath h f).run h s

/-- C1.SCAT: of two elements at one address the higher is kept; td and tx are busy for writes until they are read. -/
def semC1Scat (h : Hdr) (f : OpCGS) : Sem :=
  let n := f.n1.toNat + 1
  let t := f.ta.toNat
  let plan (s : State) := gatherPlan s h.slot t f.tx.toNat f.sb n f.tag.toNat true
  { reads := fun c => [.t t, .t f.tx.toNat, c.xs f.sb], steps := true, seals := fun _ => true
    holds := fun _ => true, padHold := true
    stall := fun s => gatherStall s (plan s) (tagWidth f.tag.toNat / 8)
    slip := fun s => f.w && !((s.me.treg t).ready && (s.me.treg f.tx.toNat).ready)
    tileReads := fun _ => [(f.tx.toNat, 0, 4 * n), (t, 0, n * (tagWidth f.tag.toNat / 8))]
    check := fun s => trapOfPlan (plan s)
    eff := fun s =>
      match plan s with
      | .error _ => s
      | .ok (addrs, ps) =>
        let ew := tagWidth f.tag.toNat / 8
        (s.touchAll addrs).onMe (fun c =>
          let e : Engine := { c.engine h.slot (.scatter t) with
            tag := f.tag, ew := ew, rest := f.tx.toNat, vas := addrs
            work := ((List.range n).zip ps).map (fun e => (ew * e.1, (List.range ew).map (e.2 + ·)))
            span := if c.det then ps.flatMap (fun a => (List.range ew).map (a + ·)) else []
            padEnd := if c.det then c.padded + (n + 15) / 16 else 0 }
          (c.takeChunks t ((List.range ((n + 15) / 16)).map (fun k =>
            (List.range (ew * min 16 (n - 16 * k))).map (16 * ew * k + ·)))).addEngine e none) }

/-- The meaning of the row: one issue of the operation. -/
def execC1Scat (h : Hdr) (f : OpCGS) (s : State) : Host.Outcome State Fault Refusal :=
  (semC1Scat h f).run h s

/-! ## Ring fills and spills (R180) -/

/-- A fill or spill in progress on a ring. -/
def Core.ringEngine (c : Core) (hn : Nat) (fill : Bool) : Bool :=
  c.engines.any (fun e => match e.kind with
    | .fill k => fill && k == hn
    | .spill k => !fill && k == hn
    | _ => false)

/-- The worked page that a list of addresses of an engine reaches (R278, R296). -/
def State.workedTrap (s : State) (sl : Slot) (as : List Word) (kind log2 : Nat) : Option Trap :=
  as.findSome? (fun a =>
    match s.homePlan sl a 1 1 kind log2 (kind == 4) (kind == 5) with
    | .error t => if t.code = 7 ∨ t.code = 13 then some t else none
    | .ok _ => none)

/-- The checks of a fill or spill made at issue, that of worked pages among them. The translation and the rights of an entry's
pages are checked as the engine reaches it. -/
def ringTrap (s : State) (sl : Slot) (hn : Nat) (ks : BitVec 5) (sb : BitVec 7) (kind : Nat) : Option Trap :=
  let c := s.me
  let r := c.ringReg hn
  firstTrap [c.baseTrap sl sb, if r.valid then none else some { c.trap sl 0x09 with data := hn },
    match c.shape ks.toNat with
    | none => some (c.trap sl 0x09)
    | some k =>
      let addrs := k.addrs ((c.rs sl sb).1 + (c.disp sl 0).signExtend 64)
      if k.count * k.ew % r.entryBytes ≠ 0 then some { c.trap sl 0x09 with data := hn, kind := kind }
      else
        match ((List.range addrs.length).zip addrs).find? (fun e => decide (e.2.toNat % k.ew ≠ 0)) with
        | some e => some { c.memTrap sl 0x09 1 e.2 0 kind (Nat.log2 k.ew) with data := e.1 }
        | none => s.workedTrap sl addrs kind (Nat.log2 k.ew)]

/-- The entries of a fill or spill: the virtual address of each byte of each. -/
def ringEntries (k : Shape) (disp : Word) (entryBytes : Nat) : List (List Word) :=
  let bytes := (k.addrs disp).flatMap (fun a => (List.range k.ew).map (fun i => a + BitVec.ofNat 64 i))
  (List.range (bytes.length / max 1 entryBytes)).map (fun e => (bytes.drop (e * entryBytes)).take entryBytes)

/-- A fill or spill as issue sees it. -/
def semRing (h : Hdr) (f : OpCR) (fill : Bool) : Sem :=
  let hn := f.hn.toNat
  let reaches (s : State) : List Nat :=
    match s.me.shape f.ks.toNat with
    | none => []
    | some k => (ringEntries k ((s.me.rs h.slot f.sb).1 + (s.me.disp h.slot 0).signExtend 64) (s.me.ringReg hn).entryBytes).flatten.filterMap
        (fun a => match walk s s.me.ctx a.toNat with | .ok pa _ _ => some pa | .fail _ _ _ => none)
  { reads := fun c => [c.xs f.sb], steps := true, seals := fun _ => true, holds := fun _ => true, padHold := true
    stall := fun s => s.me.engineStall (reaches s)
    check := fun s => ringTrap s h.slot hn f.ks f.sb (if fill then 4 else 5)
    eff := fun s => s.onMe (fun c =>
      match c.shape f.ks.toNat with
      | none => c
      | some k =>
        let r := c.ringReg hn
        let e : Engine := { c.engine h.slot (if fill then .fill hn else .spill hn) with
          tag := k.format, ew := k.ew
          virt := ringEntries k ((c.rs h.slot f.sb).1 + (c.disp h.slot 0).signExtend 64) r.entryBytes
          due := if c.det then (if fill then c.padded else c.time) else 0 }
        c.addEngine e none) }

/-- C1.RFILL. -/
def semC1Rfill (h : Hdr) (f : OpCR) : Sem := semRing h f true

/-- The meaning of the row: one issue of the operation. -/
def execC1Rfill (h : Hdr) (f : OpCR) (s : State) : Host.Outcome State Fault Refusal :=
  (semC1Rfill h f).run h s

/-- C1.RSPILL. -/
def semC1Rspill (h : Hdr) (f : OpCR) : Sem := semRing h f false

/-- The meaning of the row: one issue of the operation. -/
def execC1Rspill (h : Hdr) (f : OpCR) (s : State) : Host.Outcome State Fault Refusal :=
  (semC1Rspill h f).run h s

/-! ## Flumes (R181 to R186) -/

/-- Every element of a record lies at a multiple of its element width: the first does, and every stride that counts. -/
def Shape.aligned (k : Shape) (disp : Word) : Bool :=
  decide ((k.base + disp).toNat % k.ew = 0) &&
    ((k.counts.take k.rank).zip (k.strides.take k.rank)).all (fun e => decide (e.1 ≤ 1 ∨ e.2 % k.ew = 0))

/-- The worked page that an element of a stream over main memory touches with its first or its last byte (R278). -/
def State.streamWorked (s : State) (sl : Slot) (k : Shape) (disp : Word) : Option Trap :=
  s.workedTrap sl ((k.addrs disp).flatMap (fun a => [a, a + 127#64])) (if k.write then 5 else 4) 7

/-- C.FARM: binds vn to a stream; the record is copied at issue (R181). It has no auto-step. It stalls while a load or
a result for vn is in flight (DESIGN CHOICE, log 72). -/
def semCFarm (h : Hdr) (f : OpCF) : Sem :=
  let main := h.slot == .C1
  let n := f.vn.toNat
  { reads := fun c => [c.xs f.sb], seals := fun _ => true, holds := fun _ => main, padHold := main, turn := 2
    stall := fun s => (s.me.vreg n).pend || s.me.flights.any (fun x => x.dest == .vec n)
    check := fun s =>
      let c := s.me
      let bad : Option Trap := some { c.trap h.slot 0x09 with data := n }
      firstTrap [c.baseTrap h.slot f.sb,
        if n < 704 ∨ 768 ≤ n ∨ (c.flumeOf n).isSome ∨ 16 ≤ c.flumes.length then bad else none,
        match c.shape f.ks.toNat with
        | none => bad
        | some k =>
          let d := (c.rs h.slot f.sb).1
          if !k.aligned d then some { c.memTrap h.slot 0x09 1 (k.base + d) (if main then 0 else 2) (if k.write then 5 else 4) 7 with data := n }
          else if main then s.streamWorked h.slot k d else none]
    eff := fun s => s.onMe (fun c =>
      match c.shape f.ks.toNat with
      | none => c
      | some k =>
        let x : Flume := {
          reg := n, main := main, seq := c.seq, shape := k, disp := (c.rs h.slot f.sb).1, size := k.count, next := 0,
          moved := 0, buf := [], inflight := 0, fault := none, armed := c.time, pops := [], pc := c.bundlePc, sup := c.sup }
        { c.step with flumes := c.flumes ++ [x] }) }

/-- The meaning of the row: one issue of the operation. -/
def execCFarm (h : Hdr) (f : OpCF) (s : State) : Host.Outcome State Fault Refusal :=
  (semCFarm h f).run h s

/-- The pushes of a write flume that its buffer counts: those whose elements are not performed; in a deterministic launch each
until PADC1 cycles after its landing (R395). -/
def Core.pushesHeld (c : Core) (f : Flume) : Nat :=
  if c.det then (f.pops.filter (fun t => decide (c.time < t + c.padC1))).length else f.buf.length

/-- A write flume still has pushes that count. -/
def Core.flumeBusy (c : Core) (n : Nat) : Bool :=
  match c.flumeOf n with
  | none => false
  | some f => f.shape.write && decide (0 < c.pushesHeld f + f.inflight)

/-- A write flume has elements that memory has not seen: in a deterministic launch a hold once their time has come (R395). -/
def Core.flumeLate (c : Core) (n : Nat) : Bool :=
  match c.flumeOf n with
  | none => false
  | some f => f.shape.write && !f.buf.isEmpty

/-- A register after its flume is unbound (R185). -/
def Core.unbind (c : Core) (n : Nat) : Core :=
  if (c.flumeOf n).isSome then
    let c1 := c.putV n VReg.zero
    { c1 with flumes := c.flumes.filter (fun f => f.reg != n) }
  else c

/-- C.FSTOP. -/
def semCFstop (_h : Hdr) (f : OpCFV) : Sem :=
  { seals := fun _ => true, stall := fun s => s.me.flumeBusy f.vn.toNat, turn := 2
    holds := fun s => s.me.flumeLate f.vn.toNat, waits := fun s => s.me.flumeLate f.vn.toNat
    eff := fun s => s.onMe (fun c => c.unbind f.vn.toNat) }

/-- The meaning of the row: one issue of the operation. -/
def execCFstop (h : Hdr) (f : OpCFV) (s : State) : Host.Outcome State Fault Refusal :=
  (semCFstop h f).run h s

/-- C.FWAIT. -/
def semCFwait (_h : Hdr) (f : OpCFV) : Sem :=
  { seals := fun _ => true, stall := fun s => s.me.flumeBusy f.vn.toNat
    holds := fun s => s.me.flumeLate f.vn.toNat, waits := fun s => s.me.flumeLate f.vn.toNat, eff := fun s => s }

/-- The meaning of the row: one issue of the operation. -/
def execCFwait (h : Hdr) (f : OpCFV) (s : State) : Host.Outcome State Fault Refusal :=
  (semCFwait h f).run h s

/-- The issue time before which element `i` of a read flume is not available in a deterministic launch (R395): PADC1 after
the arming, one cycle for each element before it, and PADC1 after the pop of element i − 8. -/
def Flume.due (f : Flume) (pad i : Nat) : Nat :=
  max (f.armed + pad + i) (if i < 8 then 0 else f.pops.getD (f.next - 1 - (i - 8)) 0 + pad)

/-- The elements that a flume's buffer counts; those of a read flume in a deterministic launch by their times (R395). -/
def Core.flumeHeld (c : Core) (f : Flume) : Nat :=
  if f.shape.write then c.pushesHeld f
  else if c.det then
    ((List.range 8).filter (fun k => decide (f.next + k < f.size) && decide (f.due c.padC1 (f.next + k) ≤ c.time))).length
  else f.buf.length

/-- The report of C.FSTAT. -/
def Core.flumeReport (c : Core) (n : Nat) : Word :=
  match c.flumeOf n with
  | none => 0#64
  | some f =>
    BitVec.ofNat 64 (2 ^ 63 + (if f.shape.write then 2 ^ 62 else 0) + (c.flumeHeld f + f.inflight) % 2 ^ 16 * 2 ^ 32 +
      (f.size - f.next - f.inflight) % 2 ^ 32)

/-- C.FSTAT. -/
def semCFstat (h : Hdr) (f : OpCFS) : Sem :=
  { writes := fun c => [c.xs f.sd], results := 1, turn := 0
    eff := fun s => s.onMe (fun c => c.outS h.slot f.sd 1 (c.flumeReport f.vn.toNat) false) }

/-- The meaning of the row: one issue of the operation. -/
def execCFstat (h : Hdr) (f : OpCFS) (s : State) : Host.Outcome State Fault Refusal :=
  (semCFstat h f).run h s

end Sys2Proof.Machine
end

