-- ==== Sys2Proof/Machine/Kv.lean ====
section
/-! DEFINITION. Key-value blocks, pools, LOOKUP and the key-value instructions (R297 to R313). -/

namespace Sys2Proof.Machine

/-! ## Pools and table entries (R299 to R301) -/

/-- KVHASH (R301). -/
def kvHash (seq layer head lb n : Nat) : Nat :=
  let k := seq + 2 ^ 32 * layer + 2 ^ 40 * head + 2 ^ 48 * lb
  let x := k ^^^ (k / 2 ^ 29)
  let y := x * 0xB71C4E29A35D0F87 % 2 ^ 64
  let z := y ^^^ (y / 2 ^ 32)
  z % 2 ^ 32 * n / 2 ^ 32

/-- The index that ends a chain (R300). -/
def kvNone : Nat := 0xFFFFFFF

/-- The owner class of a table entry (R300). -/
def kvOwner (e : Nat) : Nat := e / 2 ^ 64 % 4
/-- The valid bit of a table entry. -/
def kvValid (e : Nat) : Bool := decide (e / 2 ^ 66 % 2 = 1)
/-- The chain field of a table entry. -/
def kvChain (e : Nat) : Nat := e / 2 ^ 72 % 2 ^ 28
/-- The next field of a table entry. -/
def kvNext (e : Nat) : Nat := e / 2 ^ 100 % 2 ^ 28

/-- A table entry matches a key (R300). -/
def kvMatches (e seq layer head lb : Nat) : Bool :=
  kvValid e && (kvOwner e == 1 || kvOwner e == 2) && e % 2 ^ 64 == seq + 2 ^ 32 * layer + 2 ^ 40 * head + 2 ^ 48 * lb

/-- A pool descriptor read as a number, if it keeps the limits of R299 that concern its own fields. -/
def KvPool.decode (va n : Nat) : Option KvPool :=
  let fld (lo w : Nat) : Nat := n / 2 ^ (8 * lo) % 2 ^ (8 * w)
  let p : KvPool := { va := va, base := fld 0 8, table := fld 8 8, n := fld 16 4, logF := fld 20 1, flag := fld 24 8 }
  if p.base % 2 ^ 16 = 0 ∧ p.table % 64 = 0 ∧ 1 ≤ p.n ∧ p.n < 2 ^ 28 ∧ p.logF ≤ 20 ∧ fld 21 3 = 0 ∧ p.flag % 8 = 0 ∧
      fld 32 32 = 0 then some p
  else none

/-- The address of a flag (R302). -/
def KvPool.flagAt (p : KvPool) (seq layer : Nat) : Nat := p.flag + 8 * (seq % 2 ^ p.logF * 256 + layer)

/-- The address of a block (R297). -/
def KvPool.block (p : KvPool) (i : Nat) : Nat := p.base + 4608 * i

/-- The pages of a region that translate must not be worked, and must agree in their attributes (R299): the trap code and
the address, if they do not. -/
def State.regionFault (s : State) (c : Core) (va n pick : Nat) : Option (Nat × Nat) :=
  let first := va / 2 ^ 16
  let pages := ((List.range ((va + n - 1) / 2 ^ 16 - first + 1)).map (first + ·)).filter (fun p => decide (p < 2 ^ 32))
  let attrs := pages.filterMap (fun p =>
    match translate s c c.ctx (p * 2 ^ 16) pick with
    | .ok _ attr _ => some (p * 2 ^ 16, attr)
    | .fail _ _ _ => none)
  match attrs.find? (fun e => isWorked e.2) with
  | some e => some (0x07, e.1)
  | none =>
    match attrs with
    | [] => none
    | x :: r => (r.find? (fun e => e.2.extractLsb' 2 6 != x.2.extractLsb' 2 6)).map (fun e => (0x09, e.1))

/-- The first fault of a pool's regions: blocks, table, flags. -/
def State.poolFault (s : State) (c : Core) (p : KvPool) (pick : Nat) : Option (Nat × Nat) :=
  [s.regionFault c p.base (4608 * p.n) pick, s.regionFault c p.table (16 * p.n) pick,
    s.regionFault c p.flag (2048 * 2 ^ p.logF) pick].findSome? id

/-- The descriptor at `va` as the operation in issue reads it (R299, R303): its page, its poison, its limits. -/
def State.readPool (s : State) (sl : Slot) (va : Word) : Except Trap KvPool :=
  let c := s.me
  match s.recordPlan sl va 64 64 4 6 true false with
  | .error t => .error t
  | .ok pas =>
    if pas.any (fun a => s.ownPois s.coreNo c.seq (a / 4)) then .error (c.memTrap sl 0x06 0 va 0 4 6)
    else
      match KvPool.decode va.toNat (ofElems 8 (pas.map (fun a => (s.ownByte s.coreNo c.seq a).toNat))) with
      | none => .error (c.memTrap sl 0x09 0 va 0 4 6)
      | some p =>
        match s.poolFault c p (s.pick sl) with
        | none => .ok p
        | some (code, a) =>
          .error (if code = 7 ∧ c.determ = true then c.trap sl 0x0D
                  else if code = 7 then { c.memTrap sl 0x07 0 (BitVec.ofNat 64 a) 0 4 6 with data := fieldGet c.sw.beatNow 0 32 }
                  else c.memTrap sl 0x09 4 (BitVec.ofNat 64 a) 0 4 6)

/-- The bytes of the descriptor at `va`; none where its page fails. -/
def State.poolBytes (s : State) (sl : Slot) (va : Word) : List Nat :=
  match s.homePlan sl va 64 64 4 6 true false with
  | .error _ => []
  | .ok pas => pas

/-- The descriptor at `va` may not be read yet (R179, R190, R199). -/
def State.poolHeld (s : State) (sl : Slot) (va : Word) : Bool := s.recordHeld s.coreNo s.me.seq (s.poolBytes sl va)

/-- The block named by `a` (R305, R306): bit 63 of `a` clear, and an index below N. -/
def kvBlock (c : Core) (sl : Slot) (p : KvPool) (a : Word) : Except Trap Nat :=
  let i := a.toNat % 2 ^ 28
  if a.getLsbD 63 || decide (p.n ≤ i) then .error (c.memTrap sl 0x09 0 a 0 4 0) else .ok i

/-- A table entry as core `n` reads it at its home L2 at place `seq` of its program order, one indivisible access
(R301): its value with its physical address, or whether the read returned poison. -/
def State.kvEntry (s : State) (n seq : Nat) (user : Bool) (p : KvPool) (i pick : Nat) : Except Bool (Nat × Nat) :=
  let c := s.coreAt n
  let va := p.table + 16 * i
  if 2 ^ 48 ≤ va then .error false
  else
    match access s c c.ctx va pick { rd := true, wr := false, ex := false, user := user } with
    | .fail _ _ _ => .error false
    | .ok pa attr _ =>
      if isWorked attr then .error false
      else if (List.range 4).any (fun k => s.ownPois n seq (pa / 4 + k)) then .error true
      else .ok (ofElems 8 ((List.range 16).map (fun k => (s.ownByte n seq (pa + k)).toNat)), pa)

/-! ## LOOKUP, one read at a time (R301) -/

/-- What one read of LOOKUP leads to. -/
inductive KvRes where
  | more (w : KvWalk) | found (w : KvWalk) (i own : Nat) | miss (w : KvWalk) (k : Nat)
  deriving DecidableEq, Repr

/-- The walk at its home entry. -/
def KvWalk.start (w : KvWalk) (p : KvPool) : KvWalk :=
  { w with pool := some p, reads := 0, entry := kvHash w.seq w.layer w.head w.lb p.n, chain := kvNone }

/-- One read of the walk of engine operation `e` of core `n`, in the order of R301; a read that fails is recorded. -/
def State.kvLook (s : State) (n : Nat) (e : Engine) (p : KvPool) : State × KvRes :=
  let w := e.kv
  let c := s.coreAt n
  match s.kvEntry n e.seq (!e.sup) p w.entry (s.free + n) with
  | .error poison =>
    (s.record n (c.errRec 11 3 5 (p.table + 16 * w.entry) e.pc [(0, 8, p.va)]),
      .miss { w with pois := w.pois || poison } 3)
  | .ok (v, pa) =>
    let s := s.markSeen n ((List.range 16).map (pa + ·))
    let w1 := { w with reads := w.reads + 1, chain := if w.reads = 0 then kvChain v else w.chain }
    if kvMatches v w.seq w.layer w.head w.lb then (s, .found w1 w.entry (kvOwner v))
    else
      let probes := min 8 p.n
      if w1.reads < probes then
        (s, .more { w1 with entry := (kvHash w.seq w.layer w.head w.lb p.n + w1.reads) % p.n })
      else
        let i := if w1.reads = probes then w1.chain else kvNext v
        if i = kvNone then (s, .miss w1 1)
        else if w1.reads = probes + 16 then (s, .miss w1 2)
        else if p.n ≤ i then (s, .miss w1 3)
        else (s, .more { w1 with entry := i })

/-! ## Blocks as read (R298, R305) -/

/-- A block as a number. -/
abbrev KvBlock := Nat

/-- One field of `w` bytes of a block. -/
def kvField (b : KvBlock) (lo w : Nat) : Nat := b / 2 ^ (8 * lo) % 2 ^ (8 * w)
/-- The payload nibble of an element. -/
def kvNibble (b : KvBlock) (e : Nat) : Nat := b / 2 ^ (4 * e) % 16
/-- The kind byte, the outlier count and the token count. -/
def kvKind (b : KvBlock) : Nat := kvField b 4480 1
/-- The outlier count. -/
def kvOutliers (b : KvBlock) : Nat := kvField b 4481 1
/-- The token count. -/
def kvTokens (b : KvBlock) : Nat := kvField b 4482 1
/-- A scale. -/
def kvScale (b : KvBlock) (g : Nat) : Nat := kvField b (4096 + 2 * g) 2
/-- The used side list: position and FP16 value. -/
def kvSide (b : KvBlock) : List (Nat × Nat) :=
  (List.range (kvOutliers b)).map (fun k => (kvField b (4352 + 4 * k) 2, kvField b (4354 + 4 * k) 2))

/-- Positions strictly increase. -/
def kvRising (l : List Nat) : Bool := (l.zip (l.drop 1)).all (fun e => decide (e.1 < e.2))

/-- The first condition of R298 that a block fails, 1 to 7 in their order; 0 for a well-formed block. -/
def kvFails (b : KvBlock) : Nat :=
  let pos := (kvSide b).map (·.1)
  let tok := kvTokens b
  if 1 < kvKind b then 1
  else if 32 < kvOutliers b then 2
  else if tok < 1 ∨ 64 < tok then 3
  else if kvField b 4483 125 ≠ 0 ∨ kvField b (4352 + 4 * kvOutliers b) (128 - 4 * kvOutliers b) ≠ 0 ∨
      (kvKind b = 1 ∧ kvField b 4224 128 ≠ 0) then 4
  else if pos.any (fun x => decide (128 * tok ≤ x)) || !kvRising pos then 5
  else if pos.any (fun x => kvNibble b x != 0) then 6
  else if kvField b (64 * tok) (4096 - 64 * tok) ≠ 0 ∨ (kvKind b = 1 ∧ kvField b (4096 + 2 * tok) (128 - 2 * tok) ≠ 0) then 7
  else 0

/-- The integer nearest to num / den under RNE; `den` is not 0. -/
def quotRne (num den : Nat) : Nat :=
  let q := num / den
  let r := num % den
  if den < 2 * r ∨ (2 * r = den ∧ q % 2 = 1) then q + 1 else q

/-- RNDINT(x / y, RNE) saturated, for a finite x and a finite y that is not 0; an infinite x saturates. -/
def quotSat (x y : FNum) (lo hi : Int) : Int :=
  match x, y with
  | .fin s m e, .fin t d f =>
    let base := min e f
    let q : Int := quotRne (m * 2 ^ (e - base).toNat) (d * 2 ^ (f - base).toNat)
    satI (if s = t then q else -q) lo hi
  | .inf s, .fin t _ _ => if s = t then hi else lo
  | _, _ => 0

/-- Element `e` of a well-formed block as FP16 (R305). -/
def kvF16 (b : KvBlock) (e : Nat) : Nat :=
  match (kvSide b).find? (fun x => x.1 == e) with
  | some (_, v) => if fval fpF16 v = .nan then fpF16.canon else v
  | none =>
    if kvTokens b ≤ e / 128 then 0
    else fmul fpF16 0 (intNum (sx (kvNibble b e) 4)) (fval fpF16 (kvScale b (if kvKind b = 1 then e / 128 else e % 128)))

/-- Element `e` of a well-formed block as INT8 (R305). -/
def kvI8 (b : KvBlock) (e : Nat) : Nat :=
  match (kvSide b).find? (fun x => x.1 == e) with
  | some (_, v) =>
    let sc := fval fpF16 (kvScale b (if kvKind b = 1 then e / 128 else e % 128))
    let x := fval fpF16 v
    let r : Int := match sc with
      | .fin _ m _ => if m = 0 ∨ x = .nan then 0 else quotSat x sc (-128) 127
      | _ => 0
    wrap r 8
  | none => if kvTokens b ≤ e / 128 then 0 else wrap (sx (kvNibble b e) 4) 8

/-- The tile that a block loads as: its contents, tag and group poison (R305). -/
def kvTile (b : KvBlock) (poison i8 : Bool) : TReg :=
  let all : BitVec 256 := BitVec.allOnes 256
  if kvFails b ≠ 0 then { val := 0, tag := BitVec.ofNat 4 (if i8 then tI8 else tF16), ready := false, poison := all }
  else
    let v : Nat :=
      if i8 then ofElems 8 ((List.range 8192).map (kvI8 b)) + kvField b 4096 256 * 2 ^ (8 * 8192)
      else ofElems 16 ((List.range 8192).map (kvF16 b))
    { val := BitVec.ofNat 131072 v, tag := BitVec.ofNat 4 (if i8 then tI8 else tF16), ready := false,
      poison := if poison then all else 0 }

/-! ## Blocks as written (R306) -/

/-- The size of an element for the choice of outliers: NaN first, then infinities, then |x| in units of 2^(-24). -/
def kvSize (x : FNum) : Nat :=
  match x with
  | .nan => 2 ^ 65
  | .inf _ => 2 ^ 64
  | .fin _ m e => m * 2 ^ (e + 24).toNat

/-- The parameter word of C1.KVST. -/
structure KvParam where
  kind : Nat
  limit : Nat
  tokens : Nat
  threshold : Nat

/-- The fields of the parameter word. -/
def kvParam (c : Word) : KvParam :=
  { kind := fieldGet c 0 1, limit := fieldGet c 1 6, tokens := fieldGet c 7 6 + 1, threshold := fieldGet c 16 16 }

/-- The bytes of the block that C1.KVST writes, given the FP16 elements of the tile (R306). -/
def kvPack (q : KvParam) (elemAt : Nat → Nat) : List Nat :=
  let xs := (List.range (128 * q.tokens)).map (fun e => (e, fval fpF16 (elemAt e)))
  let th := fval fpF16 q.threshold
  let cand := xs.filter (fun x =>
    match x.2 with
    | .fin _ m e => th.lt (.fin false m e)
    | _ => true)
  let sorted := cand.mergeSort (fun a b => decide (kvSize b.2 < kvSize a.2 ∨ (kvSize a.2 = kvSize b.2 ∧ a.1 ≤ b.1)))
  let outl := (sorted.take q.limit).map (·.1)
  let group (e : Nat) : Nat := if q.kind = 1 then e / 128 else e % 128
  let amax (g : Nat) : Nat :=
    xs.foldl (fun m x =>
      match x.2 with
      | .fin _ _ _ => if group x.1 = g ∧ ¬ outl.contains x.1 then max m (kvSize x.2) else m
      | _ => m) 0
  let scales := (List.range (if q.kind = 1 then 64 else 128)).map (fun g =>
    let m := amax g
    fround fpF16 3 false (m * 2 ^ 40 / 7) (-64) (decide (m * 2 ^ 40 % 7 ≠ 0)))
  let nib (e : Nat) : Nat :=
    if 128 * q.tokens ≤ e ∨ outl.contains e then 0
    else
      match fval fpF16 (elemAt e), fval fpF16 (scales.getD (group e) 0) with
      | .fin s m x, .fin t d y => if d = 0 then 0 else wrap (quotSat (.fin s m x) (.fin t d y) (-7) 7) 4
      | _, _ => 0
  let half (l : List Nat) : List Nat := l.flatMap (fun x => [x % 256, x / 256 % 256])
  let pos := outl.mergeSort (fun a b => decide (a ≤ b))
  let side := pos.flatMap (fun e => half [e, elemAt e])
  (List.range 4096).map (fun i => nib (2 * i) + 16 * nib (2 * i + 1)) ++
    (half scales ++ List.replicate 256 0).take 256 ++ (side ++ List.replicate 128 0).take 128 ++
    [q.kind, outl.length, q.tokens] ++ List.replicate 125 0

/-! ## The instructions (R303 to R309) -/

/-- The poison of the scalar operands of a key-value form (R303). -/
def Core.kvPoison (c : Core) (sl : Slot) (l : List (BitVec 7)) : Option Trap :=
  c.consumed sl (l.zipIdx.map (fun r => (r.1.toNat, (c.rs sl r.1 r.2).2)))

/-- An operand with a bit set that its form does not use: the access trap. -/
def Core.kvBits (c : Core) (sl : Slot) (bad : Bool) : Option Trap := if bad then some (c.trap sl 0x09) else none

/-- The plan of a load or store of a block: the pool, the block's index and the physical addresses of its bytes. -/
def State.kvBlockPlan (s : State) (sl : Slot) (a b : Word) (rd : Bool) : Except Trap (KvPool × Nat × List Nat) :=
  match s.readPool sl b with
  | .error t => .error t
  | .ok p =>
    match kvBlock s.me sl p a with
    | .error t => .error t
    | .ok i =>
      match s.homePlan sl (BitVec.ofNat 64 (p.block i)) 4608 1 (if rd then 4 else 5) 12 rd (!rd) with
      | .error t => .error t
      | .ok pas => .ok (p, i, pas)

/-- The engine operation of a key-value form. -/
def Core.kvEngine (c : Core) (sl : Slot) (kind : EngKind) (va par : Word) (pas : List Nat) (w : KvWalk) : Engine :=
  { c.engine sl kind with
    virtAt := va, par := par, kv := w, vas := (List.range 36).map (fun j => va + BitVec.ofNat 64 (128 * j)),
    work := (groupBy 128 (pas.map (fun a => (a, a))) 36).map (fun l => (0, l.map (·.1))) }

/-- The pages of the descriptor and of block `i` after their check, and the descriptor read. -/
def State.kvTouch (s : State) (sl : Slot) (p : KvPool) (i : Nat) : State :=
  ((s.touch (BitVec.ofNat 64 p.va) 64).touch (BitVec.ofNat 64 (p.block i)) 4608).markSeen s.coreNo
    (s.poolBytes sl (BitVec.ofNat 64 p.va))

/-- C1.KVLD (R305). -/
def semKvld (h : Hdr) (f : OpKL) (i8 : Bool) : Sem :=
  let t := f.td.toNat
  let plan (s : State) := s.kvBlockPlan h.slot (s.me.rs h.slot f.sa).1 (s.me.rs h.slot f.sb 1).1 true
  { reads := fun c => [c.xs f.sa, c.xs f.sb], writes := fun _ => [.t t], seals := fun _ => true
    holds := fun _ => true, padHold := true
    stall := fun s => s.me.drainsTo t || s.me.engineStall (s.poolBytes h.slot (s.me.rs h.slot f.sb 1).1) ||
      (match plan s with | .ok (_, _, pas) => s.me.engineStall pas | .error _ => false)
    slip := fun s => s.me.tileBusy t
    waits := fun s => s.poolHeld h.slot (s.me.rs h.slot f.sb 1).1
    tileWrites := fun _ => [(t, 0, 16384)]
    check := fun s => firstTrap [s.me.kvPoison h.slot [f.sa, f.sb], trapOfPlan (plan s)]
    eff := fun s =>
      match plan s with
      | .error _ => s
      | .ok (p, i, pas) =>
        (s.kvTouch h.slot p i).onMe (fun c =>
          let e := c.kvEngine h.slot (.kvload t i8) (BitVec.ofNat 64 (p.block i)) (BitVec.ofNat 64 i) pas
            { KvWalk.zero with pool := some p }
          c.addEngine { e with due := if c.det then max (c.padded + 128) (c.fillDue t) else 0 } (some t)) }

/-- C1.KVLD.F16. -/
def semC1KvldF16 (h : Hdr) (f : OpKL) : Sem := semKvld h f false

/-- The meaning of the row: one issue of the operation. -/
def execC1KvldF16 (h : Hdr) (f : OpKL) (s : State) : Host.Outcome State Fault Refusal :=
  (semC1KvldF16 h f).run h s

/-- C1.KVLD.I8. -/
def semC1KvldI8 (h : Hdr) (f : OpKL) : Sem := semKvld h f true

/-- The meaning of the row: one issue of the operation. -/
def execC1KvldI8 (h : Hdr) (f : OpKL) (s : State) : Host.Outcome State Fault Refusal :=
  (semC1KvldI8 h f).run h s

/-- The check of an entry by C1.KVST and C1.KVFREE, one read of its byte 8 (R306, R307, R309): its page, its poison, its owner; the
byte's physical address. -/
def State.kvOwned (s : State) (sl : Slot) (p : KvPool) (i : Nat) (free : Bool) : Except Trap Nat :=
  let c := s.me
  let va := BitVec.ofNat 64 (p.table + 16 * i + 8)
  match s.recordPlan sl va 1 1 (if free then 5 else 4) 0 true free with
  | .error t => .error t
  | .ok pas =>
    let v := 2 ^ 64 * (s.ownByte s.coreNo c.seq (pas.headD 0)).toNat
    if s.ownPois s.coreNo c.seq (pas.headD 0 / 4) then .error (c.memTrap sl 0x06 0 va 0 4 0)
    else if !kvValid v || kvOwner v != (if clusterOf c.id < 12 then 1 else 2) then
      .error { c.trap sl 0x0C with addr := BitVec.ofNat 64 (p.block i), data := i }
    else .ok (pas.headD 0)

/-- The virtual address of byte 8 of the table entry of block `i`. -/
def KvPool.ownerAt (p : KvPool) (i : Nat) : Word := BitVec.ofNat 64 (p.table + 16 * i + 8)

/-- Byte 8 of the table entry that the operation checks; none where the pool or the entry's page fails. -/
def State.kvOwnerByte (s : State) (sl : Slot) (a b : Word) : List Nat :=
  match s.readPool sl b with
  | .error _ => []
  | .ok p => match s.homePlan sl (p.ownerAt (a.toNat % 2 ^ 28)) 1 1 4 0 true false with | .error _ => [] | .ok pas => pas

/-- The descriptor, or byte 8 of the table entry that the operation checks, may not be read yet: a store of the core to the entry, or
an engine write of it, has not been performed at its home (R190, R307). -/
def State.kvEntryPending (s : State) (sl : Slot) (a b : Word) : Bool :=
  let as := s.kvOwnerByte sl a b
  s.poolHeld sl b || s.ownPending s.coreNo as || s.recordHeld s.coreNo s.me.seq as

/-- A C1.KVST or C1.KVFREE stalls for its descriptor and for the entry that it checks (R178). -/
def State.kvEntryStall (s : State) (sl : Slot) (a b : Word) : Bool :=
  s.me.engineStall (s.poolBytes sl b) || s.me.engineStall (s.kvOwnerByte sl a b)

/-- The bytes of the block that a tile packs into under a parameter word, each with its poison (R306). -/
def TReg.packed (r : TReg) (par : Word) : List (Byte × Bool) :=
  (kvPack (kvParam par) (fun i => elem r.val 16 i)).map (fun b => (BitVec.ofNat 8 b, r.poison != 0#256))

/-- C1.KVST (R306). -/
def semC1Kvst (h : Hdr) (f : OpKS) : Sem :=
  let t := f.ta.toNat
  let a (s : State) := (s.me.rs h.slot f.sa).1
  let b (s : State) := (s.me.rs h.slot f.sb 1).1
  let plan (s : State) : Except Trap (KvPool × Nat × List Nat) :=
    match s.kvBlockPlan h.slot (a s) (b s) false with
    | .error x => .error x
    | .ok (p, i, pas) =>
      match s.kvOwned h.slot p i false with
      | .error x => .error x
      | .ok _ => .ok (p, i, pas)
  { reads := fun c => [.t t, c.xs f.sa, c.xs f.sb, c.xs f.sc], seals := fun _ => true
    holds := fun _ => true, padHold := true, waits := fun s => s.kvEntryPending h.slot (a s) (b s)
    stall := fun s => s.kvEntryStall h.slot (a s) (b s) || (match plan s with | .ok (_, _, pas) => s.me.engineStall pas | .error _ => false)
    slip := fun s => f.w && !(s.me.treg t).ready
    tileReads := fun _ => [(t, 0, 16384)]
    check := fun s =>
      let c := s.me
      let q := (c.rs h.slot f.sc 2).1
      firstTrap [c.kvPoison h.slot [f.sa, f.sb, f.sc],
        if (c.treg t).tag.toNat ≠ tF16 then some { c.trap h.slot 0x02 with data := t } else none,
        c.kvBits h.slot (q &&& ~~~0xFFFF1FFF#64 != 0#64 || decide (32 < (kvParam q).limit)), trapOfPlan (plan s)]
    eff := fun s =>
      match plan s with
      | .error _ => s
      | .ok (p, i, pas) =>
        (s.kvTouch h.slot p i).onMe (fun c =>
          let e := c.kvEngine h.slot (.kvstore t) (BitVec.ofNat 64 (p.block i)) (c.rs h.slot f.sc 2).1 pas KvWalk.zero
          c.addEngine (if c.det then { e with buf := (c.treg t).packed e.par, padEnd := c.padded + 36 } else e) none) }

/-- The meaning of the row: one issue of the operation. -/
def execC1Kvst (h : Hdr) (f : OpKS) (s : State) : Host.Outcome State Fault Refusal :=
  (semC1Kvst h f).run h s

/-- The bytes that LOOKUP reads from the walk of `e` on, as memory stands (R301). -/
def State.kvReads (s : State) (n : Nat) (e : Engine) (p : KvPool) (fuel : Nat) : List Nat :=
  match fuel with
  | 0 => []
  | fuel + 1 =>
    let here : List Nat :=
      match s.kvEntry n e.seq (!e.sup) p e.kv.entry (s.free + n) with
      | .ok (_, pa) => (List.range 16).map (pa + ·)
      | .error _ => []
    match (s.kvLook n e p).2 with
    | .more w => here ++ s.kvReads n { e with kv := w } p fuel
    | _ => here

/-- The key of C1.KVX as its operands give it (R304). -/
def kvxWalk (a q : Word) : KvWalk :=
  { KvWalk.zero with
    seq := fieldGet a 0 32, layer := fieldGet a 32 8, head := fieldGet a 40 8,
    lb := fieldGet q 6 15 + 2 ^ 15 * fieldGet q 32 1 }

/-- A C1.KVX stalls where an earlier gather or scatter has still to perform an element in its descriptor or in an entry that its LOOKUP
reads (R178). -/
def State.kvxStall (s : State) (sl : Slot) (b : Word) (w : KvWalk) : Bool :=
  let c := s.me
  c.engineStall (s.poolBytes sl b) ||
    (c.engines.any (fun e => e.gathers) &&
      (match s.readPool sl b with
       | .error _ => false
       | .ok p => c.engineStall (s.kvReads s.coreNo { c.engine sl .kvho with kv := w.start p } p 32)))

/-- C1.KVX (R304): the walk runs as an engine operation, and its result lands 260 cycles after issue. -/
def semC1Kvx (h : Hdr) (f : OpKX) : Sem :=
  { reads := fun c => [c.xs f.sa, c.xs f.sb, c.xs f.sc], writes := fun c => [c.xs f.sd], results := 1, seals := fun _ => true
    stall := fun s => s.kvxStall h.slot (s.me.rs h.slot f.sb 1).1 (kvxWalk (s.me.rs h.slot f.sa).1 (s.me.rs h.slot f.sc 2).1)
    check := fun s =>
      let c := s.me
      let a := (c.rs h.slot f.sa).1
      let b := (c.rs h.slot f.sb 1).1
      let q := (c.rs h.slot f.sc 2).1
      firstTrap [c.kvPoison h.slot [f.sa, f.sb, f.sc],
        c.kvBits h.slot (decide (2 ^ 48 ≤ a.toNat) || q &&& ~~~0x1001FFFFF#64 != 0#64),
        if b.toNat % 64 ≠ 0 then some (c.memTrap h.slot 0x09 1 b 0 4 6) else none,
        if 2 ^ 48 ≤ b.toNat then some (c.memTrap h.slot 0x09 2 b 0 4 6) else none,
        if c.determ then (trapOfPlan (s.readPool h.slot b)).filter (fun t => t.code == 0x0D) else none]
    eff := fun s => s.onMe (fun c =>
      let w := kvxWalk (c.rs h.slot f.sa).1 (c.rs h.slot f.sc 2).1
      c.addEngine (c.kvEngine h.slot (.kvx (c.physS f.sd.toNat) (c.time + 260)) (c.rs h.slot f.sb 1).1 0 [] w) none) }

/-- The meaning of the row: one issue of the operation. -/
def execC1Kvx (h : Hdr) (f : OpKX) (s : State) : Host.Outcome State Fault Refusal :=
  (semC1Kvx h f).run h s

/-- A C1.KVHO stalls where an earlier gather or scatter has still to perform an element in its descriptor, its flag or its table (R178); the
table counts whole (DESIGN CHOICE, log 74). -/
def State.kvhoStall (s : State) (sl : Slot) (b : Word) (flag : List Nat) : Bool :=
  let c := s.me
  c.engineStall (s.poolBytes sl b ++ flag) ||
    (c.engines.any (fun e => e.gathers) &&
      (match s.readPool sl b with
       | .error _ => false
       | .ok p => let l := s.pageSpans c.ctx p.table (16 * p.n); c.engineStallBy (fun a => hitsSpan l [a])))

/-- C1.KVHO (R308): a release, the flips of a layer, and the flag. -/
def semC1Kvho (h : Hdr) (f : OpKX) : Sem :=
  let plan (s : State) : Except Trap (KvPool × List Nat) :=
    match s.readPool h.slot (s.me.rs h.slot f.sb 1).1 with
    | .error x => .error x
    | .ok p =>
      let a := (s.me.rs h.slot f.sa).1
      match s.homePlan h.slot (BitVec.ofNat 64 (p.flagAt (fieldGet a 0 32) (fieldGet a 32 8))) 8 8 5 3 false true with
      | .error x => .error x
      | .ok pas => .ok (p, pas)
  { reads := fun c => [c.xs f.sa, c.xs f.sb, c.xs f.sc], writes := fun c => [c.xs f.sd], seals := fun _ => true
    stall := fun s => s.kvhoStall h.slot (s.me.rs h.slot f.sb 1).1 (match plan s with | .ok (_, pas) => pas | .error _ => [])
    holds := fun _ => true, waits := fun s => s.me.loadsFull || s.poolHeld h.slot (s.me.rs h.slot f.sb 1).1
    check := fun s =>
      let c := s.me
      firstTrap [if c.determ then some (c.trap h.slot 0x0D) else none, c.kvPoison h.slot [f.sa, f.sb, f.sc],
        c.kvBits h.slot (decide (2 ^ 40 ≤ (c.rs h.slot f.sa).1.toNat) || decide (2 ^ 23 ≤ (c.rs h.slot f.sc 2).1.toNat) ||
          decide (c.scope < 3)), trapOfPlan (plan s)]
    eff := fun s =>
      match plan s with
      | .error _ => s
      | .ok (p, pas) => s.onMe (fun c =>
        let a := (c.rs h.slot f.sa).1
        let q := (c.rs h.slot f.sc 2).1
        let w : KvWalk := { KvWalk.zero with
          pool := some p, seq := fieldGet a 0 32, layer := fieldGet a 32 8, heads := fieldGet q 0 8 + 1,
          blocks := fieldGet q 8 15 + 1 }
        let e := c.kvEngine h.slot .kvho (c.rs h.slot f.sb 1).1 0 pas (w.start p)
        let c1 := c.addEngine { e with rel := c.scope } none
        c1.addLoad h.slot (.s f.sd) (.value 0 false) [] 0 (c.rs h.slot f.sb 1).1 true) }

/-- The meaning of the row: one issue of the operation. -/
def execC1Kvho (h : Hdr) (f : OpKX) (s : State) : Host.Outcome State Fault Refusal :=
  (semC1Kvho h f).run h s

/-- C1.KVFREE (R309). -/
def semC1Kvfree (h : Hdr) (f : OpKF) : Sem :=
  let a (s : State) := (s.me.rs h.slot f.sa).1
  let b (s : State) := (s.me.rs h.slot f.sb 1).1
  let plan (s : State) : Except Trap (Word × Nat) :=
    match s.readPool h.slot (b s) with
    | .error x => .error x
    | .ok p =>
      match kvBlock s.me h.slot p (a s) with
      | .error x => .error x
      | .ok i => match s.kvOwned h.slot p i true with | .error x => .error x | .ok pa => .ok (p.ownerAt i, pa)
  { reads := fun c => [c.xs f.sa, c.xs f.sb], seals := fun _ => true, holds := fun _ => true
    stall := fun s => s.kvEntryStall h.slot (a s) (b s)
    waits := fun s => s.kvEntryPending h.slot (a s) (b s)
    check := fun s =>
      let c := s.me
      firstTrap [if c.determ then some (c.trap h.slot 0x0D) else none, c.kvPoison h.slot [f.sa, f.sb], trapOfPlan (plan s)]
    eff := fun s =>
      match plan s with
      | .error _ => s
      | .ok (va, pa) => s.onMe (fun c =>
        let e := c.kvEngine h.slot .kvfree va 0 [pa] KvWalk.zero
        c.addEngine { e with rel := c.scope } none) }

/-- The meaning of the row: one issue of the operation. -/
def execC1Kvfree (h : Hdr) (f : OpKF) (s : State) : Host.Outcome State Fault Refusal :=
  (semC1Kvfree h f).run h s

/-! ## The pieces of a key-value operation as its engine performs them -/

/-- What one piece leaves of its operation: more pieces, or nothing. -/
abbrev KvPiece := State × Option Engine

/-- The result of C1.KVX: into the snapshot of a frozen context, or among the results in flight (R304, R356). -/
def Core.kvResult (c : Core) (e : Engine) (d land : Nat) (v : Word) (poison : Bool) : Core :=
  let f : Flight := { c.flight .C1 (.scalar d) 0 with
    val := v.setWidth 8192, poison := if poison then 1#256 else 0#256, land := land, pc := e.pc, seg := false,
    issued := land - 260 }
  match e.frozen, c.held with
  | true, some h => { c with held := some { h with flights := h.flights ++ [f] } }
  | _, _ => c.emit f

/-- The descriptor read at the start of a walk of C1.KVX: none where it is malformed or unreadable, with whether a word
of it carries poison (R304). -/
def State.kvDescriptor (s : State) (n : Nat) (e : Engine) : Option KvPool × Bool :=
  let c := s.coreAt n
  match access s c c.ctx e.virtAt.toNat (s.free + n) { rd := true, wr := false, ex := false, user := !e.sup } with
  | .fail _ _ _ => (none, false)
  | .ok pa attr _ =>
    if isWorked attr then (none, false)
    else if (List.range 16).any (fun k => s.ownPois n e.seq (pa / 4 + k)) then (none, true)
    else
      match KvPool.decode e.virtAt.toNat (ofElems 8 ((List.range 64).map (fun k => (s.ownByte n e.seq (pa + k)).toNat))) with
      | none => (none, false)
      | some p => (if (s.poolFault c p (s.free + n)).isSome then none else some p, false)

/-- Where the next access of an engine operation to memory stands: the virtual address of its first byte, and its physical bytes. -/
def State.nextAccess (s : State) (n : Nat) (e : Engine) : Word × List Nat :=
  let entry (p : KvPool) (i : Nat) : Word × List Nat :=
    (BitVec.ofNat 64 (p.table + 16 * i),
      match s.kvEntry n e.seq (!e.sup) p i (s.free + n) with
      | .ok (_, pa) => (List.range 16).map (pa + ·)
      | .error _ => [])
  let head : Word × List Nat := (e.vas.getD e.done 0, match e.work with | (_, as) :: _ => as | [] => [])
  match e.kind, e.kv.pool with
  | .kvx _ _, none =>
    (e.virtAt, ((s.pageSpans (s.coreAt n).ctx e.virtAt.toNat 64).flatMap (fun x => (List.range x.2).map (x.1 + ·))))
  | .kvx _ _, some p => entry p e.kv.entry
  | .kvho, some p =>
    if 2 * e.kv.blocks * e.kv.heads ≤ e.kv.pos then (BitVec.ofNat 64 (p.flagAt e.kv.seq e.kv.layer), e.work.flatMap (·.2))
    else entry p (e.kv.found.getD e.kv.entry)
  | .kvstore _, _ => if e.buf.isEmpty then (0, []) else head
  | _, _ => head

/-- One piece of C1.KVX. -/
def State.kvxPiece (s : State) (n : Nat) (e : Engine) (d land : Nat) : KvPiece :=
  let missWord (k : Nat) : Word := BitVec.ofNat 64 (2 ^ 63 + k)
  match e.kv.pool with
  | none =>
    match s.kvDescriptor n e with
    | (none, poison) => (s.putCore n ((s.coreAt n).kvResult e d land (missWord 3) poison), none)
    | (some p, _) => (s, some { e with kv := e.kv.start p })
  | some p =>
    match s.kvLook n e p with
    | (s1, .more w) => (s1, some { e with kv := w })
    | (s1, .found w i own) =>
      (s1.putCore n ((s1.coreAt n).kvResult e d land (BitVec.ofNat 64 (i + 2 ^ 32 * own)) w.pois), none)
    | (s1, .miss w k) => (s1.putCore n ((s1.coreAt n).kvResult e d land (missWord k) w.pois), none)

/-- The walk of C1.KVHO at the next (kind, block, head) of its layer (R308). -/
def KvWalk.next (w : KvWalk) (p : KvPool) : KvWalk :=
  let k := w.pos + 1
  let b := k / w.heads
  { w with pos := k, found := none, head := k % w.heads, lb := b % w.blocks + 2 ^ 15 * (b / w.blocks) }.start p

/-- The end of C1.KVHO: its counts into sd, and nothing left of it. -/
def State.kvAnswer (s : State) (n : Nat) (e : Engine) : KvPiece :=
  let v : Word := BitVec.ofNat 64 (e.kv.flips + 2 ^ 32 * e.kv.other)
  let c := s.coreAt n
  (s.putCore n { c with loads := c.loads.map (fun l =>
    if l.seq = e.seq + 1 then { l with kind := .value v false, away := false } else l) }, none)

/-- One piece of C1.KVHO: a read of a LOOKUP, a flip, or, at the end, the flag and the acknowledgement of sd. -/
def State.kvhoPiece (s : State) (n : Nat) (e : Engine) : KvPiece :=
  let c := s.coreAt n
  match e.kv.pool with
  | none => (s, none)
  | some p =>
    let w := e.kv
    if 2 * w.blocks * w.heads ≤ w.pos then
      let bs := (e.work.flatMap (·.2)).zip ((bytesOf (w.layer + 1) 0 8).map (·.2))
      (homeWrite s (some n) true c.ctx bs (wordsOfBytes (bs.map (fun b => (b.1, false))))).kvAnswer n e
    else
      match w.found with
      | some i =>
        match s.kvEntry n e.seq (!e.sup) p i (s.free + n) with
        | .ok (v, pa) =>
          if kvMatches v w.seq w.layer w.head w.lb && kvOwner v == 1 then
            let b : Byte := BitVec.ofNat 8 (v / 2 ^ 64 / 4 * 4 + 2)
            (homeWrite s (some n) false c.ctx [(pa + 8, b)] [((pa + 8) / 4, false, false)],
              some { e with kv := { w.next p with flips := w.flips + 1 } })
          else (s, some { e with kv := { w.next p with other := w.other + 1 } })
        | .error _ => (s, some { e with kv := { w.next p with other := w.other + 1 } })
      | none =>
        match s.kvLook n e p with
        | (s1, .more w1) => (s1, some { e with kv := w1 })
        | (s1, .found w1 i _) => (s1, some { e with kv := { w1 with found := some i } })
        | (s1, .miss w1 _) => (s1, some { e with kv := { w1.next p with other := w1.other + 1 } })

/-- The free of C1.KVFREE: valid and owner class to 0 in one access (R309). It leaves the entry with no owner, as an atomic does (DESIGN
CHOICE, log 73). -/
def State.kvfreePiece (s : State) (n : Nat) (e : Engine) : KvPiece :=
  let pa := (e.work.flatMap (·.2)).headD 0
  let b := s.home.byte pa
  (homeWrite s (some n) false (s.coreAt n).ctx [(pa, b &&& 0xF8#8)] [(pa / 4, false, false)], none)

/-- One piece of C1.KVLD: 128 bytes of the block, and at the end the tile, with a record for a malformed block. -/
def State.kvloadPiece (s : State) (n : Nat) (e : Engine) (t : Nat) (i8 : Bool) : KvPiece :=
  match e.work with
  | (_, as) :: rest =>
    let got := as.map (fun a => (s.ownByte n e.seq a, s.ownPois n e.seq (a / 4)))
    let e1 : Engine := { e with work := rest, buf := e.buf ++ got, done := e.done + 1 }
    ((s.markSeen n as).moved n .main as.length, some e1)
  | [] =>
    let b : KvBlock := ofElems 8 (e.buf.map (·.1.toNat))
    let c := s.coreAt n
    let r := if e.fault.isSome then { c.treg t with poison := BitVec.allOnes 256 } else kvTile b (e.buf.any (·.2)) i8
    let s1 := s.putCore n (c.putT t r)
    (if e.fault.isSome || kvFails b = 0 then s1
     else s1.record n (c.errRec 15 1 5 e.virtAt.toNat e.pc
       [(0, 8, (match e.kv.pool with | some p => p.va | none => 0)), (8, 4, e.par.toNat), (12, 1, kvFails b)]), none)

end Sys2Proof.Machine
end

