-- ==== Sys2Proof/Machine/Launch.lean ====
section
/-! DEFINITION. C1.CANCEL and the launch instructions as a core issues them (R331, R333). -/

namespace Sys2Proof.Machine

/-- One byte of cluster memory with the core's own earlier stores to it, performed or not (R190). -/
def State.ownCluster (s : State) (n a : Nat) : Byte :=
  let own := (s.coreAt n).timed.filterMap (fun x =>
    match x.act with
    | .store .cluster bs _ => (bs.find? (fun b => b.1 == a)).map (fun b => (x.seq, b.2))
    | _ => none)
  match own with
  | [] => s.spaceByte n .cluster a
  | x :: r => (r.foldl (fun m y => if m.1 < y.1 then y else m) x).2

/-- A tile store into cluster memory has chunks that are not performed. -/
def Core.tileStoring (c : Core) : Bool := c.timed.any (fun x => match x.act with | .chunkTake _ _ _ => true | _ => false)

/-- A cancel of the completion record at `off(sb)` (R331): the record is read while the core holds. -/
def semC1Cancel (h : Hdr) (f : OpCAN2) : Sem :=
  let off := f.imm.signExtend 32
  let va (s : State) : Word := s.me.ea h.slot f.sb off
  let plan (s : State) : Except Trap (List Nat) :=
    let c := s.me
    match s.recordPlan h.slot (va s) 64 64 3 6 true true with
    | .error t => .error t
    | .ok pas =>
      let b (i : Nat) : Nat := (s.ownByte s.coreNo c.seq (pas.getD i 0)).toNat
      if b 0 ≠ f.level.toNat then .error (c.memTrap h.slot 0x09 0 (va s) 0 3 6)
      else if !c.sup && b 48 + 256 * b 49 != c.ctx then .error (c.memTrap h.slot 0x09 5 (va s) 0 3 6)
      else .ok pas
  let pas (s : State) : List Nat := match s.homePlan h.slot (va s) 64 64 3 6 true true with | .ok pas => pas | .error _ => []
  { reads := fun c => [c.xs f.sb], off := off, steps := true, seals := fun _ => true
    stall := fun s => s.me.engineStall (pas s)
    holds := fun _ => true, waits := fun s => s.me.storesFull || s.recordHeld s.coreNo s.me.seq (pas s)
    check := fun s =>
      let c := s.me
      firstTrap [if c.determ then some (c.trap h.slot 0x0D) else none, c.baseTrap h.slot f.sb, trapOfPlan (plan s)]
    eff := fun s =>
      match plan s with
      | .error _ => s
      | .ok pas =>
        let v := va s
        ((s.touch v 64).markSeen s.coreNo pas).onMe (fun c =>
          let bs := pas.map (fun a => (a, 0#8))
          let e : SbEntry := { c.sbEntry .main bs (wordsOfBytes (pas.map (fun a => (a, false)))) with kind := .cancel, virt := v }
          { c.step with sb := c.sb ++ [e] }) }

/-- The meaning of the row: one issue of the operation. -/
def execC1Cancel (h : Hdr) (f : OpCAN2) (s : State) : Host.Outcome State Fault Refusal :=
  (semC1Cancel h f).run h s

/-- LNCH (R333): the block is read while the core holds; the submission follows a release at the bundle's scope. -/
def semCLnch (h : Hdr) (f : OpLN) : Sem :=
  let off := f.imm.signExtend 32
  let main := h.slot == .C1
  let va (s : State) : Word := s.me.ea h.slot f.sb off
  let plan (s : State) : Except Trap Nat :=
    let c := s.me
    if main then
      match s.recordPlan h.slot (va s) 128 128 0 7 true false with
      | .error t => .error t
      | .ok pas =>
        if pas.any (fun a => s.ownPois s.coreNo c.seq (a / 4)) then .error (c.memTrap h.slot 0x06 0 (va s) 0 0 7)
        else .ok (ofElems 8 (pas.map (fun a => (s.ownByte s.coreNo c.seq a).toNat)))
    else
      match c.windowTrap h.slot (va s) 128 128 c.clusterWindow.2 2 0 7 with
      | some t => .error t
      | none =>
        let a := c.clusterBase + (va s).toNat
        .ok (ofElems 8 ((List.range 128).map (fun i => (s.ownCluster s.coreNo (a + i)).toNat)))
  let pas (s : State) : List Nat :=
    if main then (match s.homePlan h.slot (va s) 128 128 0 7 true false with | .ok pas => pas | .error _ => []) else []
  { reads := fun c => [c.xs f.sb], writes := fun c => [c.xs f.sd], off := off, steps := true, seals := fun _ => true
    stall := fun s => if main then s.me.engineStall (pas s) else s.me.tileStoring
    holds := fun _ => true
    waits := fun s => s.me.storesFull || s.me.loadsFull ||
      (if main then s.recordHeld s.coreNo s.me.seq (pas s) else s.me.acquiring s.me.seq)
    check := fun s =>
      let c := s.me
      firstTrap [if c.determ then some (c.trap h.slot 0x0D) else none, c.baseTrap h.slot f.sb, trapOfPlan (plan s)]
    eff := fun s =>
      match plan s with
      | .error _ => s
      | .ok blk =>
        let v := va s
        (if main then (s.touch v 128).markSeen s.coreNo (pas s) else s).onMe (fun c =>
          let e : SbEntry := { c.sbEntry .main [] [] with
            kind := .submit blk (!c.sup), rel := c.scope, virt := v, dest := some (c.physS f.sd.toNat) }
          let c1 : Core := { c.step with sb := c.sb ++ [e] }
          c1.addLoad h.slot (.s f.sd) (.value 0 false) [] 0 v true) }

/-- The meaning of the row: one issue of the operation. -/
def execCLnch (h : Hdr) (f : OpLN) (s : State) : Host.Outcome State Fault Refusal :=
  (semCLnch h f).run h s

end Sys2Proof.Machine
end

