-- ==== Sys2Proof/Machine/Residue.lean ====
section
/-! DEFINITION. Residue channels, their location and correction, the limits of format pairs, and V.RFWD, V.RREV and
V.RCHK (R111 to R113, R253 to R272). -/

namespace Sys2Proof.Machine

/-- The modulus of channel `c`: lanes 0 to 5 of narrow A, then of narrow B (R111, R253). -/
def chMod (c : Nat) : Nat := [251, 241, 239, 233, 229, 227, 223, 211, 199, 197, 193, 191].getD c 1

/-- x mod m, the least non-negative residue (R255). -/
def residue (x : Int) (m : Nat) : Nat := (x % (m : Int)).toNat

/-- INV(a, m) for a prime m (R256). -/
def invMod (a m : Nat) : Nat := a ^ (m - 2) % m

/-- The digit that MRC forms for a residue `t` modulo `dk`, given the digits before it (R256). -/
def mrcDigit (dk : Nat) (t : Nat) (prev : List (Nat × Nat)) : Nat :=
  prev.foldl (fun t e => (t + dk * dk - e.2 % dk) % dk * invMod (e.1 % dk) dk % dk) t

/-- The digits of MRC, as (modulus, digit), lowest first. -/
def mrcDigits (l : List (Nat × Nat)) (acc : List (Nat × Nat)) : List (Nat × Nat) :=
  match l with
  | [] => acc
  | (d, r) :: rest => mrcDigits rest (acc ++ [(d, mrcDigit d (r % d) acc)])

/-- MRC (R256) of residues given as (modulus, residue). -/
def mrc (l : List (Nat × Nat)) : Int :=
  let r := (mrcDigits l []).foldl (fun (acc : Nat × Nat) e => (acc.1 + e.2 * acc.2, acc.2 * e.1)) (0, 1)
  if (r.2 - 1) / 2 < r.1 then (r.1 : Int) - r.2 else r.1

/-- The data and check channels of a word or pair under retired lanes, 7 for none (R253, R262). -/
def chLists (wide : Bool) (parity ra rb : Nat) : List Nat × List Nat :=
  let full := (if wide then List.range 12 else (List.range 6).map (6 * parity + ·)).filter
    (fun c => !(c < 6 && c == ra) && !(6 ≤ c && c == 6 + rb))
  (full.take (if wide then 10 else 4), full.drop (if wide then 10 else 4))

/-- The outcome of LOCATE (R257). -/
inductive Located where
  | ok (y : Int) | corrected (ch : Nat) (y : Int) | multi
  deriving DecidableEq, Repr

/-- LOCATE (R257): `r` gives the residue of each channel, `d` and `k` are the data and check channels. -/
def locate (r : Nat → Nat) (d k : List Nat) (wide : Bool) : Located :=
  let t : Int := if wide then 2 ^ 76 else 2 ^ 29
  let all := d ++ k
  let bad := all.filter (fun c => decide (chMod c ≤ r c))
  let of (l : List Nat) : Int := mrc (l.map (fun c => (chMod c, r c)))
  let y := of d
  if bad.isEmpty && k.all (fun c => r c == residue y (chMod c)) then .ok y
  else if k.length < 2 || 2 ≤ bad.length then .multi
  else
    let found := (all.filter (fun i => bad.isEmpty || bad == [i])).filterMap (fun i =>
      let z := of (all.filter (fun c => c != i))
      if -t ≤ z ∧ z ≤ t then some (i, z) else none)
    match found with
    | [(i, z)] => .corrected i z
    | _ => .multi

/-- A residue word (R111) from its set code and six bytes. -/
def resWord (set : Nat) (b : Nat → Nat) : Nat := set * 2 ^ 48 + ofElems 8 ((List.range 6).map b)

/-- RES_ENC of a value into the channels from `first` on (R112). -/
def resEnc (set first : Nat) (x : Int) : Nat := resWord set (fun k => residue x (chMod (first + k)))

/-! ## Format pairs (R235, R265, R266) -/

/-- A pair of formats: wide, and log2 of its limit under the identity lane map; none where R235 refuses it. -/
def pairOf (a b d : Nat) : Option (Bool × Nat) :=
  let is (x y : Nat) : Bool := (a == x && b == y) || (a == y && b == x)
  let both (l : List Nat) : Bool := l.contains a && l.contains b
  let dInt := d == tI32 || d == tRS
  let dX := d == tF32 || d == tRS
  let dF := d == tF32
  if is tI8 tI8 then if dInt then some (false, 15) else none
  else if is tI8 tZ8 then if dInt then some (false, 14) else none
  else if is tZ8 tZ8 then if dInt then some (false, 13) else none
  else if is tI8 tI4 then if dInt then some (false, 19) else none
  else if is tZ8 tI4 then if dInt then some (false, 18) else none
  else if is tI4 tI4 then if dInt then some (false, 23) else none
  else if a == tX4 && b == tI8 then if dX then some (false, 10) else none
  else if a == tX4 && b == tZ8 then if dX then some (false, 9) else none
  else if a == tX4 && b == tI4 then if dX then some (false, 14) else none
  else if is tI16 tI16 then if dInt then some (true, 31) else none
  else if is tE4 tE4 then if dF then some (true, 31) else none
  else if is tE5 tE5 then if dF then some (true, 13) else none
  else if is tE4 tE5 then if dF then some (true, 27) else none
  else if both [tF16, tB16] then if dF then some (true, 14) else none
  else none

/-- RETA of a LANEMAP value (R261). -/
def retA (lm : Word) : Nat := fieldGet lm 0 3
/-- RETB of a LANEMAP value. -/
def retB (lm : Word) : Nat := fieldGet lm 3 3

/-- The pair under a lane map: WIDE and KLIM (R235, R265, R266). -/
def pairUnder (a b d : Nat) (lm : Word) : Option (Bool × Nat) :=
  match pairOf a b d with
  | none => none
  | some (wide, k) =>
    if wide && decide (retA lm ≤ 5) && decide (retB lm ≤ 5) then none
    else
      let lost := if retA lm ≤ 5 then chMod (retA lm) else if retB lm < 4 then chMod (6 + retB lm) else 0
      some (wide, if (a == tF16 || a == tB16) && lost != 0 && lost != 197 && lost != 199 then 13 else k)

/-! ## The vector residue instructions (R268 to R272) -/

/-- Word or pair `i` of a register: its words. -/
def resInput (a : VReg) (wide : Bool) (i : Nat) : List Nat :=
  if wide then [elem a.val 64 (2 * i), elem a.val 64 (2 * i + 1)] else [elem a.val 64 i]

/-- Some lane of input `i` carries poison. -/
def resPoison (a : VReg) (wide : Bool) (i : Nat) : Bool :=
  let n := if wide then 4 else 2
  (List.range n).any (fun k => a.poison.getLsbD (n * i + k))

/-- The set code of a word. -/
def resSet (w : Nat) : Nat := w / 2 ^ 48 % 256

/-- The set codes and reserved bits of an input are in order (R113, R271). -/
def resOrder (ws : List Nat) (wide : Bool) : Bool :=
  ws.all (fun w => w / 2 ^ 56 == 0) &&
    (if wide then ws.map resSet == [2, 3] else ws.all (fun w => resSet w ≤ 1))

/-- The parity of a narrow word; of one whose set code is neither 0 nor 1, the set code modulo 2 (DESIGN CHOICE, log 80). -/
def resParity (ws : List Nat) (wide : Bool) : Nat := if wide then 0 else resSet (ws.headD 0) % 2

/-- The residue of channel `c` of an input. -/
def resChan (ws : List Nat) (wide : Bool) (c : Nat) : Nat :=
  if wide then ws.getD (c / 6) 0 / 2 ^ (8 * (c % 6)) % 256 else ws.headD 0 / 2 ^ (8 * (c % 6)) % 256

/-- The classification of an input that carries no poison. -/
def resClass (ws : List Nat) (wide : Bool) (ra rb : Nat) : Located :=
  if resOrder ws wide then
    let l := chLists wide (resParity ws wide) ra rb
    locate (resChan ws wide) l.1 l.2 wide
  else .multi

/-- V.RFWD (R270). -/
def semVRfwd (h : Hdr) (f : OpVEF) : Sem :=
  let wide := f.set.toNat == 2
  let n := if wide then 8 else 16
  semVec h f.vd [(f.va, [tI32, tZ32])] (fun _ => none) 3 3 (fun c =>
    let a := c.rv h.slot f.va
    let xs := (List.range n).map (fun i =>
      let e := elem a.val 32 (n * f.part.toNat + i)
      if a.tag.toNat = tI32 then sx e 32 else (e : Int))
    let lim : Int := if f.set.toNat = 0 then 1684281158 else 922309379
    let ys := if wide then xs else xs.map (fun x => satI x (-lim) lim)
    let words := ys.flatMap (fun y =>
      if wide then [resEnc 2 0 y, resEnc 3 6 y] else [resEnc f.set.toNat (6 * f.set.toNat) y])
    { val := vecOf 64 words, tag := tRS,
      poison := lanesOf (fun l => a.poison.getLsbD (n * f.part.toNat + l / (if wide then 4 else 2)))
      warn := ((xs.zip ys).filter (fun e => e.1 != e.2)).length })

/-- The meaning of the row: one issue of the operation. -/
def execVRfwd (h : Hdr) (f : OpVEF) (s : State) : Host.Outcome State Fault Refusal :=
  (semVRfwd h f).run h s

/-- One input of V.RREV: the element, its poison, and the event to report (R271, R260). A MULTI finding of a wide pair names no
single word: its record and DATA carry word 2i (DESIGN CHOICE, log 80). -/
def rrevOne (c : Core) (h : Hdr) (f : OpVER) (a : VReg) (i : Nat) : Nat × Bool × Option ResEvent :=
  let wide := f.set.toNat == 2
  let ws := resInput a wide i
  let conv (y : Int) : Nat :=
    if f.dfmt then fround fpF32 f.rnd.toNat (decide (y < 0)) y.natAbs 0 false else wrap (satI y (-(2 ^ 31)) (2 ^ 31 - 1)) 32
  let rep (m lane par cls word : Nat) : ErrRec :=
    c.errRec 4 (if cls = 1 then 0 else 1) (slotCode h.slot) 0 c.bundlePc
      [(0, 1, m), (1, 1, lane), (2, 1, par), (3, 1, cls), (6, 1, word)]
  if resPoison a wide i then
    let l := chLists wide (resParity ws wide) f.oa.toNat f.ob.toNat
    (conv (mrc (l.1.map (fun k => (chMod k, resChan ws wide k)))), true, none)
  else
    match resClass ws wide f.oa.toNat f.ob.toNat with
    | .ok y => (conv y, false, none)
    | .corrected ch y =>
      let w := if wide then 2 * i + ch / 6 else i
      (conv y, false, some {
        multi := false, trap := c.sw.respol.getLsbD 0, entry := w, record := rep (chMod ch) (ch % 6) (ch / 6) 1 w })
    | .multi =>
      let w := if wide then 2 * i else i
      (0, true, some {
        multi := true, trap := true, entry := w, record := rep 0 0xFF (if wide then 0xFF else resParity ws wide) 2 w })

/-- V.RREV (R271): merges into vd; its counts, records and trap follow at the write (R259, R260). -/
def semVRrev (h : Hdr) (f : OpVER) : Sem :=
  let n := if f.set.toNat = 2 then 8 else 16
  let tag := if f.dfmt then tF32 else tI32
  { reads := fun c => [c.xv f.vd, c.xv f.va], writes := fun c => [c.xv f.vd], results := 1
    check := fun s => firstTrap [s.me.tagTrap h.slot f.va [tRS] 1, s.me.pushTrap h.slot f.vd tag]
    eff := fun s => s.onMe (fun c =>
      let a := c.rv h.slot f.va 1
      let old := c.rv h.slot f.vd
      let out := (List.range n).map (rrevOne c h f a)
      let lo := n * f.part.toNat
      let v := fieldPut old.val (32 * lo) (32 * n) (ofElems 32 (out.map (·.1)))
      let p := lanesOf (fun l => if lo ≤ l ∧ l < lo + n then (out.getD (l - lo) (0, false, none)).2.1 else old.poison.getLsbD l)
      let c1 := c.outV h f.vd (c.lat 6 6) v (BitVec.ofNat 4 tag) p
      if h.dup then c1
      else
        let k := c1.flights.length - 1
        { c1 with flights := ((List.range c1.flights.length).zip c1.flights).map (fun e =>
            if e.1 = k then { e.2 with events := out.filterMap (·.2.2) } else e.2) }) }

/-- The meaning of the row: one issue of the operation. -/
def execVRrev (h : Hdr) (f : OpVER) (s : State) : Host.Outcome State Fault Refusal :=
  (semVRrev h f).run h s

/-- One input of V.RCHK: its words as written, and its two-bit code (R272). -/
def rchkOne (f : OpVEC) (a : VReg) (i : Nat) : List Nat × Nat :=
  let wide := f.set.toNat == 2
  let ws := resInput a wide i
  if resPoison a wide i then (ws, 3)
  else
    match resClass ws wide f.oa.toNat f.ob.toNat with
    | .ok _ => (ws, 0)
    | .corrected ch y =>
      let put (w : Nat) : Nat := (fieldPut (BitVec.ofNat 64 w) (8 * (ch % 6)) 8 (residue y (chMod ch))).toNat
      (((List.range ws.length).zip ws).map (fun e => if wide && e.1 != ch / 6 then e.2 else put e.2), 1)
    | .multi => (ws, 2)

/-- V.RCHK (R272): the words with a located byte restored, and the codes in md. -/
def semVRchk (h : Hdr) (f : OpVEC) : Sem :=
  let wide := f.set.toNat == 2
  let n := if wide then 8 else 16
  { reads := fun c => [c.xv f.va], writes := fun c => [c.xv f.vd, c.xm f.md], results := 2
    check := fun s => firstTrap [s.me.tagTrap h.slot f.va [tRS], s.me.pushTrap h.slot f.vd tRS]
    eff := fun s => s.onMe (fun c =>
      let a := c.rv h.slot f.va
      let out := (List.range n).map (rchkOne f a)
      let codes := out.flatMap (fun e => List.replicate (if wide then 2 else 1) e.2)
      (c.outV h f.vd (c.lat 6 6) (vecOf 64 (out.flatMap (·.1))) (BitVec.ofNat 4 tRS) a.poison).outM h f.md (c.lat 6 6)
        (BitVec.ofNat 32 (ofElems 2 codes)) (a.poison != 0#32)) }

/-- The meaning of the row: one issue of the operation. -/
def execVRchk (h : Hdr) (f : OpVEC) (s : State) : Host.Outcome State Fault Refusal :=
  (semVRchk h f).run h s

end Sys2Proof.Machine
end

