-- ==== Sys2Proof/Machine/Matrix.lean ====
section
/-! DEFINITION. The matrix array and the M-slot operations (R229 to R252). -/

namespace Sys2Proof.Machine

/-! ## MCFG and the format of a slab (R234 to R236) -/

/-- A field of MCFG. -/
def Core.mcfg (c : Core) (lo n : Nat) : Nat := fieldGet c.sw.mcfg lo n
/-- AFMT. -/
def Core.afmt (c : Core) : Nat := c.mcfg 8 4
/-- BFMT. -/
def Core.bfmt (c : Core) : Nat := c.mcfg 12 4
/-- DFMT. -/
def Core.dfmt (c : Core) : Nat := c.mcfg 20 4
/-- WIDE. -/
def Core.wide (c : Core) : Bool := c.mcfg 16 1 == 1
/-- WBASE, signed. -/
def Core.wbase (c : Core) : Int := sx (c.mcfg 24 8) 8
/-- A window pair. -/
def Core.window (c : Core) : Bool := c.afmt == tF16 || c.afmt == tB16
/-- COUNT of KCOUNT0 or KCOUNT1 (R237). -/
def Core.kcount (c : Core) (set : Bool) : Nat := fieldGet (if set then c.sw.kcount1 else c.sw.kcount0) 0 32

/-- `c` with a KCOUNT word replaced. -/
def Core.putKcount (c : Core) (set : Bool) (w : Word) : Core :=
  { c with sw := if set then { c.sw with kcount1 := w } else { c.sw with kcount0 := w } }

/-- `c` with a field of MCFG replaced. -/
def Core.setMcfg (c : Core) (lo n v : Nat) : Core := { c with sw := { c.sw with mcfg := fieldPut c.sw.mcfg lo n v } }

/-- FENCED cleared. -/
def Core.unfence (c : Core) : Core := c.setMcfg 0 1 0

/-- log2 of the product LSB of the pair in MCFG (R235). -/
def Core.lsb (c : Core) : Int :=
  let one (t : Nat) : Int := if t = tE4 then -9 else if t = tE5 then -16 else if t = tX4 then -3 else 0
  if c.window then c.wbase else one c.afmt + one c.bfmt

/-- The value a slab element enters as (R236). Elements of a window pair keep their bits. -/
def LVal.of (fmt b : Nat) (poison : Bool) : LVal :=
  let x := elemNum fmt b
  let v : Int :=
    if fmt = tF16 ∨ fmt = tB16 then (b : Int)
    else
      match x with
      | .fin s m e => rndInt 1 s m (e + (if fmt = tE4 then 9 else if fmt = tE5 then 16 else 0))
      | _ => 0
  { val := v, nan := decide (x = .nan), pinf := decide (x = .inf false), minf := decide (x = .inf true), neg := x.isNeg,
    poison := poison }

/-- An element of DECODE_X4 as it enters (R236): the value and whether it adds a warning. -/
def x4Enter (x : FNum) : Int × Nat :=
  match x with
  | .fin s m e => (satI (rndInt 0 s m (e + 3)) (-3584) 3584, 0)
  | .inf s => (if s then -3584 else 3584, 0)
  | .nan => (0, 1)

/-- The slab of the `n` elements held in the number `v` under a format, with the poison of its 32-bit words and the
warnings it adds. -/
def slabOf (fmt n v : Nat) (pois : Nat → Bool) : List LVal × Nat :=
  if fmt = tX4 then
    let xs := (List.range n).map (fun k => x4Enter (decodeX4 (elem (BitVec.ofNat 8192 v) 16 (k / 4)) (k % 4)))
    let w := (List.range (n / 4)).foldl (fun a q => a + warnX4 (elem (BitVec.ofNat 8192 v) 16 q)) 0
    let one (e : Nat × Int × Nat) : LVal :=
      { val := e.2.1, nan := false, pinf := false, minf := false, neg := decide (e.2.1 < (0 : Int)),
        poison := pois (4 * e.1 / 32) }
    (((List.range n).zip xs).map one, w + (xs.foldl (fun a x => a + x.2) 0))
  else
    let wd := tagWidth fmt
    ((List.range n).map (fun k => LVal.of fmt (v / 2 ^ (wd * k) % 2 ^ wd) (pois (wd * k / 32))), 0)

/-! ## Rings as an M operation sees them (R232, R233, R240, R250) -/

/-- Entry `k` after the head of a ring. -/
def Ring.at' (r : Ring) (k : Nat) : Nat := (r.head + k) % max 1 r.entries

/-- The bytes of an entry of a ring, and the poison of its words. -/
def State.ringEntry (s : State) (r : Ring) (e : Nat) : Nat × (Nat → Bool) :=
  let a := r.base + e * r.entryBytes
  (s.spaceNum s.coreNo .scratch a r.entryBytes, fun w => s.spacePois s.coreNo .scratch (a / 4 + w))

/-- The rings that a push pops, each with the entries it needs. -/
def pushNeeds (ha hb : BitVec 3) : List (Nat × Nat) := if ha = hb then [(ha.toNat, 2)] else [(ha.toNat, 1), (hb.toNat, 1)]

/-- The fill fault that waits for a ring which holds too few entries (R250). -/
def Core.fillFault (c : Core) (hn : Nat) : Option Trap :=
  c.engines.findSome? (fun e => match e.kind with | .fill k => if k = hn then e.fault else none | _ => none)

/-- The trap of a push before its entries are read: no format set, an invalid ring, a ring being spilled, or the fault of
the fill that should have filled it. -/
def pushTrap0 (c : Core) (ha hb : BitVec 3) : Option Trap :=
  if c.afmt = tBITS then some { c.trap .M 0x02 with data := ha.toNat }
  else
    match (pushNeeds ha hb).find? (fun e => !(c.ringReg e.1).valid || c.ringEngine e.1 false) with
    | some e => some { c.trap .M 0x09 with data := e.1 }
    | none =>
      (pushNeeds ha hb).findSome? (fun e =>
        if (c.ringReg e.1).count < e.2 then
          (c.fillFault e.1).map (fun t =>
            { t with pc := c.bundlePc, slot := 3, async := false, data := if t.code = 9 then e.1 else t.data })
        else none)

/-- A push stalls its bundle until its rings hold the entries it pops (R233). -/
def pushStalls (c : Core) (ha hb : BitVec 3) : Bool :=
  (pushTrap0 c ha hb).isNone && (pushNeeds ha hb).any (fun e => decide ((c.ringReg e.1).count < e.2))

/-- What PUSH latches (R240): the slabs and the warnings, or the format trap. -/
def pushSlabs (s : State) (ha hb : BitVec 3) : Except Trap (List LVal × List LVal × Nat) :=
  let c := s.me
  let nb := if c.wide then 64 else 128
  let one (h : BitVec 3) (k fmt n : Nat) : Except Trap (List LVal × Nat) :=
    let r := c.ringReg h.toNat
    let e := r.at' k
    if (SMap.get r.tags e 0).toNat ≠ fmt ∨ r.entryBytes ≠ n * tagWidth fmt / 8 then
      .error { c.trap .M 0x02 with data := h.toNat }
    else
      let x := s.ringEntry r e
      .ok (slabOf fmt n x.1 x.2)
  match pushTrap0 c ha hb with
  | some t => .error t
  | none =>
    match one ha 0 c.afmt 128 with
    | .error t => .error t
    | .ok a =>
      match one hb (if ha = hb then 1 else 0) c.bfmt nb with
      | .error t => .error t
      | .ok b => .ok (a.1, b.1, a.2 + b.2)

/-- A latch as a map of its values. -/
def latchMap (l : List LVal) (z : LVal) : SMap LVal := ((List.range l.length).zip l).filter (fun e => e.2 != z)

/-- A zero latch value. -/
def LVal.zero : LVal := { val := 0, nan := false, pinf := false, minf := false, neg := false, poison := false }

/-- A latch as a list of `n` values. -/
def latchList (m : SMap LVal) (n : Nat) : List LVal := (List.range n).map (fun k => SMap.get m k LVal.zero)

/-- The latches, WARN, FENCED and the pops after a push. -/
def Core.pushed (c : Core) (ha hb : BitVec 3) (a b : List LVal) (warn : Nat) : Core :=
  let c1 : Core := { c with
    arr := { c.arr with latchA := latchMap a LVal.zero, latchB := latchMap b LVal.zero }
    pops := c.pops ++ (pushNeeds ha hb).map (fun e => { ring := e.1, n := e.2, due := c.time + 1 }) }
  Core.unfence { c1 with sw := { c1.sw with mcfg := satAdd16 c1.sw.mcfg 32 warn } }

/-! ## Accumulation (R230, R240 to R242) -/

/-- A position with every field clear but ZNEG. -/
def Pos.zero (zneg : Bool) : Pos :=
  { res := 0, nan := false, pinf := false, minf := false, zneg := zneg, poison := false }

/-- A walk over the positions `k`, `k + 1`, … of a set with its listed cells in rising order: `f` gives each position its
new contents. -/
def cellsWalk (z : Pos) (f : Nat → Pos → Pos) (n k : Nat) (l : SMap Pos) : SMap Pos :=
  match n with
  | 0 => []
  | n + 1 =>
    match l with
    | (k', p) :: r =>
      if k' = k then
        let q := f k p
        if q = z then cellsWalk z f n (k + 1) r else (k, q) :: cellsWalk z f n (k + 1) r
      else
        let q := f k z
        if q = z then cellsWalk z f n (k + 1) l else (k, q) :: cellsWalk z f n (k + 1) l
    | [] =>
      let q := f k z
      if q = z then cellsWalk z f n (k + 1) [] else (k, q) :: cellsWalk z f n (k + 1) []

/-- Every position of a set replaced by `f` of its number and contents. -/
def ASet.mapAll (a : ASet) (f : Nat → Pos → Pos) : ASet :=
  { a with cells := cellsWalk (Pos.zero a.zneg) f 16384 0 a.cells }

/-- Position (row, column) of a set. -/
def ASet.pos (a : ASet) (k : Nat) : Pos := SMap.get a.cells k (Pos.zero a.zneg)

/-- The first position a product reaches: in wide mode two columns fuse. -/
def colOf (wide : Bool) (j : Nat) : Nat := if wide then j / 2 else j

/-- An operand of a product: its value under a window format, or exactly its integer. -/
def LVal.num (x : LVal) (fmt : Nat) : FNum := if fmt = tF16 ∨ fmt = tB16 then fval (fmtOf fmt) x.val.toNat else intNum x.val

/-- The value is special: it enters as 0 (R236). -/
def LVal.special (x : LVal) : Bool := x.nan || x.pinf || x.minf

/-- The value is a zero. -/
def LVal.isZero (x : LVal) (fmt : Nat) : Bool :=
  !x.special && (match x.num fmt with | .fin _ m _ => m == 0 | _ => false)

/-- The integer that a product adds to its sum (R236, R240). -/
def Core.product (c : Core) (a b : LVal) : Int :=
  if a.special || b.special then 0
  else if c.window then
    match (a.num c.afmt).mul (b.num c.bfmt) with
    | .fin s m e => rndInt 1 s m (e - c.wbase)
    | _ => 0
  else a.val * b.val

/-- The flags of a position after a product (R242). Integer and X4 pairs leave the special flags clear, and ZNEG too, since their
products are no −0. A product that is NaN or infinite leaves ZNEG as it was, of which R242 says nothing (DESIGN CHOICE, log 80). -/
def Core.productFlags (c : Core) (a b : LVal) (p : Pos) : Pos :=
  if !(isFp c.afmt) then { p with zneg := false }
  else
    let sign := a.neg != b.neg
    let za := a.isZero c.afmt
    let zb := b.isZero c.bfmt
    let infA := a.pinf || a.minf
    let infB := b.pinf || b.minf
    if a.nan || b.nan || (infA && zb) || (infB && za) then { p with nan := true }
    else if infA || infB then (if sign then { p with minf := true } else { p with pinf := true })
    else if (za || zb) && sign then p
    else { p with zneg := false }

/-- The residue bytes of a position with an integer added modulo each channel, for the channels from `first` on. -/
def addRes (r : BitVec 48) (first : Nat) (q : Int) : BitVec 48 :=
  BitVec.ofNat 48 (ofElems 8 ((List.range 6).map (fun k =>
    let m := chMod (first + k)
    (r.toNat / 2 ^ (8 * k) % 256 + residue q m) % m)))

/-- One k-step: every product added into a set, with flags and poison (R240). -/
def Core.accumulate (c : Core) (set : Bool) (a b : List LVal) : Core :=
  let aa := a.toArray
  let bb := b.toArray
  let f (k : Nat) (p : Pos) : Pos :=
    let x := aa.getD (k / 128) LVal.zero
    let y := bb.getD (colOf c.wide (k % 128)) LVal.zero
    let q := c.product x y
    let p1 := c.productFlags x y p
    { p1 with res := if q = 0 then p1.res else addRes p1.res (6 * (k % 2)) q, poison := p1.poison || x.poison || y.poison }
  let arr := if set then { c.arr with set1 := c.arr.set1.mapAll f } else { c.arr with set0 := c.arr.set0.mapAll f }
  let w := if set then c.sw.kcount1 else c.sw.kcount0
  Core.unfence (Core.putKcount { c with arr := arr } set (fieldPut w 0 32 (c.kcount set + 1)))

/-- The range trap of a k-step (R240): the limit, or a window product of 2^63 and more. -/
def Core.rangeTrap (c : Core) (set : Bool) (a b : List LVal) : Option Trap :=
  let big := c.window && a.any (fun x => b.any (fun y => decide (2 ^ 63 ≤ (c.product x y).natAbs)))
  if 2 ^ c.mcfg 48 6 < c.kcount set + 1 ∨ big then some { c.trap .M 0x03 with data := c.kcount set } else none

/-- The slabs that stand in the latches. -/
def Core.latched (c : Core) : List LVal × List LVal :=
  (latchList c.arr.latchA 128, latchList c.arr.latchB (if c.wide then 64 else 128))

/-! ## Push, accumulate, shift and zero -/

/-- M.PUSH. -/
def semMPush (_h : Hdr) (f : OpMP) : Sem :=
  { seals := fun _ => true, stall := fun s => pushStalls s.me f.ha f.hb
    check := fun s => trapOfPlan (pushSlabs s f.ha f.hb)
    eff := fun s =>
      match pushSlabs s f.ha f.hb with
      | .error _ => s
      | .ok (a, b, w) => s.onMe (fun c => c.pushed f.ha f.hb a b w) }

/-- The meaning of the row: one issue of the operation. -/
def execMPush (h : Hdr) (f : OpMP) (s : State) : Host.Outcome State Fault Refusal :=
  (semMPush h f).run h s

/-- M.ACC. -/
def semMAcc (_h : Hdr) (f : OpMS) : Sem :=
  { results := 1, seals := fun _ => true
    check := fun s => s.me.rangeTrap f.set s.me.latched.1 s.me.latched.2
    eff := fun s => s.onMe (fun c => c.accumulate f.set c.latched.1 c.latched.2) }

/-- The meaning of the row: one issue of the operation. -/
def execMAcc (h : Hdr) (f : OpMS) (s : State) : Host.Outcome State Fault Refusal :=
  (semMAcc h f).run h s

/-- M.PA: the push, then the accumulate on the slab just latched; every check is made at issue. -/
def semMPa (_h : Hdr) (f : OpMPA) : Sem :=
  { results := 1, seals := fun _ => true, stall := fun s => pushStalls s.me f.ha f.hb
    check := fun s =>
      match pushSlabs s f.ha f.hb with
      | .error t => some t
      | .ok (a, b, _) => s.me.rangeTrap f.set a b
    eff := fun s =>
      match pushSlabs s f.ha f.hb with
      | .error _ => s
      | .ok (a, b, w) => s.onMe (fun c => (c.pushed f.ha f.hb a b w).accumulate f.set a b) }

/-- The meaning of the row: one issue of the operation. -/
def execMPa (h : Hdr) (f : OpMPA) (s : State) : Host.Outcome State Fault Refusal :=
  (semMPa h f).run h s

/-- M.SHIFT (R243). -/
def semMShift (_h : Hdr) (f : OpMS) : Sem :=
  { results := 2, seals := fun _ => true
    eff := fun s => s.onMe (fun c =>
      let n := c.kcount f.set
      let src := if f.set then c.arr.set1 else c.arr.set0
      let arr1 : MArray := { c.arr with drain := src, drainCount := n, drained := 0 }
      let arr := if f.set then { arr1 with set1 := ASet.zero } else { arr1 with set0 := ASet.zero }
      Core.unfence (Core.setMcfg (Core.putKcount { c with arr := arr } f.set (BitVec.ofNat 64 (n * 2 ^ 32))) 56 8 128)) }

/-- The meaning of the row: one issue of the operation. -/
def execMShift (h : Hdr) (f : OpMS) (s : State) : Host.Outcome State Fault Refusal :=
  (semMShift h f).run h s

/-- M.ZERO (R243). -/
def semMZero (_h : Hdr) (f : OpMZ) : Sem :=
  { results := 1, seals := fun _ => true
    eff := fun s => s.onMe (fun c =>
      let z : ASet := { zneg := f.n, cells := [] }
      let arr := if f.set then { c.arr with set1 := z } else { c.arr with set0 := z }
      let w := if f.set then c.sw.kcount1 else c.sw.kcount0
      Core.putKcount { c with arr := arr } f.set (fieldPut w 0 32 0)) }

/-- The meaning of the row: one issue of the operation. -/
def execMZero (h : Hdr) (f : OpMZ) (s : State) : Host.Outcome State Fault Refusal :=
  (semMZero h f).run h s

/-! ## Configuration and fence (R247 to R249) -/

/-- The array is not idle: FENCED 0, a COUNT not 0, or rows still to drain (R247, R264). -/
def Core.arrayBusy (c : Core) : Bool :=
  c.mcfg 0 1 == 0 || c.kcount false != 0 || c.kcount true != 0 || c.mcfg 56 8 != 0

/-- The format trap of M.CFG. -/
def Core.cfgTrap (c : Core) (a b d : Nat) : Option Trap :=
  if c.arrayBusy || (pairUnder a b d c.sw.lanemap).isNone then some (c.trap .M 0x02) else none

/-- MCFG after M.CFG; FENCED stays. -/
def Core.configured (c : Core) (a b d wb warn : Nat) : Core :=
  match pairUnder a b d c.sw.lanemap with
  | none => c
  | some (wide, k) =>
    { c with sw := { c.sw with mcfg := BitVec.ofNat 64 (c.mcfg 0 1 + a * 2 ^ 8 + b * 2 ^ 12 + (if wide then 2 ^ 16 else 0) +
        d * 2 ^ 20 + wb * 2 ^ 24 + warn * 2 ^ 32 + k * 2 ^ 48 + c.mcfg 56 8 * 2 ^ 56) } }

/-- M.CFG with immediates. -/
def semMCfgImm (_h : Hdr) (f : OpMI) : Sem :=
  { results := 1, seals := fun _ => true
    check := fun s => s.me.cfgTrap f.afmt.toNat f.bfmt.toNat f.dfmt.toNat
    eff := fun s => s.onMe (fun c => c.configured f.afmt.toNat f.bfmt.toNat f.dfmt.toNat f.wbase.toNat 0) }

/-- The meaning of the row: one issue of the operation. -/
def execMCfgImm (h : Hdr) (f : OpMI) (s : State) : Host.Outcome State Fault Refusal :=
  (semMCfgImm h f).run h s

/-- M.CFG from a scalar. -/
def semMCfgReg (h : Hdr) (f : OpSA) : Sem :=
  let v (c : Core) : Word := (c.rs h.slot f.sa).1
  { reads := fun c => [c.xs f.sa], results := 1, seals := fun _ => true
    check := fun s =>
      let c := s.me
      firstTrap [c.consumed .M [(f.sa.toNat, (c.rs h.slot f.sa).2)],
        c.cfgTrap (fieldGet (v c) 8 4) (fieldGet (v c) 12 4) (fieldGet (v c) 20 4)]
    eff := fun s => s.onMe (fun c =>
      c.configured (fieldGet (v c) 8 4) (fieldGet (v c) 12 4) (fieldGet (v c) 20 4) (fieldGet (v c) 24 8)
        (fieldGet (v c) 32 16)) }

/-- The meaning of the row: one issue of the operation. -/
def execMCfgReg (h : Hdr) (f : OpSA) (s : State) : Host.Outcome State Fault Refusal :=
  (semMCfgReg h f).run h s

/-- The landing time of the last drain in flight, 0 with none. -/
def Core.lastDrain (c : Core) : Nat :=
  c.flights.foldl (fun m f => match f.dest with | .tileRow _ _ => max m f.land | .ringRow _ _ => max m f.land | _ => m) 0

/-- M.FENCE: the next bundle issues no earlier than the cycle after the last drain's write. -/
def semMFence (_h : Hdr) (_f : OpNone) : Sem :=
  { seals := fun _ => true
    eff := fun s => s.onMe (fun c =>
      let c1 := Core.setMcfg { c with arr := { c.arr with latchA := [], latchB := [] } } 0 1 1
      { c1 with next := max c1.next (c.lastDrain + 1) }) }

/-- The meaning of the row: one issue of the operation. -/
def execMFence (h : Hdr) (f : OpNone) (s : State) : Host.Outcome State Fault Refusal :=
  (semMFence h f).run h s

/-! ## Drains (R244 to R246, R253 to R263) -/

/-- The residue of channel `k` of element `j` of a row, from its one or two positions. -/
def drainChan (lo hi : Pos) (wide : Bool) (j k : Nat) : Nat :=
  let p := if wide && 6 ≤ k then hi else lo
  let lane := if wide then k % 6 else k - 6 * (j % 2)
  p.res.toNat / 2 ^ (8 * lane) % 256

/-- An F32 drain of a sum (R244). -/
def drainF32 (p : Pos) (y lsb : Int) : Nat :=
  if p.nan ∨ (p.pinf ∧ p.minf) then fpF32.canon
  else if p.pinf then fpF32.infCode
  else if p.minf then fpF32.signBit + fpF32.infCode
  else if y = 0 then (if p.zneg then fpF32.signBit else 0)
  else fround fpF32 0 (decide (y < 0)) y.natAbs lsb false

/-- One drained element: its bits, its poison and its event (R244, R246, R260). -/
def Core.drainOne (c : Core) (row : Nat) (j : Nat) : Nat × Bool × Option ResEvent :=
  let wide := c.wide
  let lo := c.arr.drain.pos (128 * row + (if wide then 2 * j else j))
  let hi := if wide then c.arr.drain.pos (128 * row + 2 * j + 1) else lo
  let par := if wide then 0 else j % 2
  let ra := retA c.sw.lanemap
  let rb := retB c.sw.lanemap
  let l := chLists wide par ra rb
  let chan (k : Nat) : Nat := drainChan lo hi wide j k
  let cls := locate chan l.1 l.2 wide
  let rep (m lane p k : Nat) : ErrRec :=
    c.errRec 3 (if k = 1 then 0 else 1) 3 0 c.bundlePc
      [(0, 1, m), (1, 1, lane), (2, 1, p), (3, 1, k), (4, 1, row), (5, 1, j), (8, 4, c.arr.drainCount)]
  let word (set first ret : Nat) (g : Nat → Nat) : Nat := resWord set (fun k => if k = ret then 0 else g (first + k))
  let rs (g : Nat → Nat) : Nat :=
    if wide then word 2 0 ra g + word 3 6 rb g * 2 ^ 64 else word par (6 * par) (if par = 1 then rb else ra) g
  let conv (y : Int) : Nat :=
    if c.dfmt = tI32 then wrap (satI y (-(2 ^ 31)) (2 ^ 31 - 1)) 32
    else if c.dfmt = tRS then rs (fun k => residue y (chMod k))
    else drainF32 lo y c.lsb
  match cls with
  | .ok y => (if c.dfmt = tRS then rs chan else conv y, lo.poison, none)
  | .corrected k y =>
    (conv y, lo.poison, some {
      multi := false, trap := c.sw.respol.getLsbD 0, entry := 128 * row + j, record := rep (chMod k) (k % 6) (k / 6) 1 })
  | .multi =>
    (if c.dfmt = tRS then rs chan else 0, true, some {
      multi := true, trap := true, entry := 128 * row + j, record := rep 0 0xFF (if wide then 0xFF else par) 2 })

/-- Row bytes of a drain (R245). At unit start, before any M.CFG, DFMT is BITS, for which R245 gives none: 512 bytes of +0, tagged
BITS (DESIGN CHOICE, log 80). -/
def Core.rowBytes (c : Core) : Nat := if c.dfmt = tRS then 1024 else if c.wide then 256 else 512

/-- The drain of a row towards a destination. -/
def Core.drain (c : Core) (d : Dest) (row : Nat) : Core :=
  let n := if c.wide then 64 else 128
  let eb := c.rowBytes / n
  let out := (List.range n).map (c.drainOne row)
  let pw := out.flatMap (fun e => List.replicate (eb / 4) (if e.2.1 then 1 else 0))
  let f : Flight := { c.flight .M d (c.lat 10 12) with
    val := BitVec.ofNat 8192 (ofElems (8 * eb) (out.map (·.1))), tag := BitVec.ofNat 4 c.dfmt,
    poison := BitVec.ofNat 256 (ofElems 1 pw), size := c.rowBytes, events := out.filterMap (·.2.2) }
  let drained := c.arr.drained ||| (1#128 <<< row)
  let left := 128 - ((List.range 128).filter (fun r => drained.getLsbD r)).length
  let c1 : Core := { c with arr := { c.arr with drained := drained } }
  Core.unfence ((c1.setMcfg 56 8 left).emit f)

/-- M.DRAIN to a tile. -/
def semMDrainTile (h : Hdr) (f : OpMD) : Sem :=
  let t := f.tn.toNat
  { writes := fun _ => [.t t], results := 1, seals := fun _ => true, steps := true
    stall := fun s => !(s.me.treg t).ready
    slip := fun s => s.me.tileBusy t
    tileWrites := fun s => [(t, 64 * f.line.toNat, s.me.rowBytes)]
    check := fun s =>
      let c := s.me
      if 16384 < 64 * f.line.toNat + c.rowBytes then
        some { c.trap h.slot 0x09 with sub := 2, addr := BitVec.ofNat 64 (64 * f.line.toNat) }
      else none
    eff := fun s => s.onMe (fun c => c.drain (.tileRow t f.line.toNat) f.row.toNat) }

/-- The meaning of the row: one issue of the operation. -/
def execMDrainTile (h : Hdr) (f : OpMD) (s : State) : Host.Outcome State Fault Refusal :=
  (semMDrainTile h f).run h s

/-- The drains in flight to a ring. -/
def Core.ringDrains (c : Core) (hn : Nat) : Nat :=
  (c.flights.filter (fun f => match f.dest with | .ringRow k _ => k == hn | _ => false)).length

/-- M.DRAIN to a ring; it stalls while the entries held and those in flight fill the ring (R233). -/
def semMDrainRing (h : Hdr) (f : OpMH) : Sem :=
  let n := f.hn.toNat
  let bad (c : Core) : Option Trap :=
    if !(c.ringReg n).valid || c.ringEngine n true then some { c.trap h.slot 0x09 with data := n }
    else if (c.ringReg n).entryBytes ≠ c.rowBytes then some { c.trap h.slot 0x02 with data := n }
    else none
  { results := 1, seals := fun _ => true, steps := true
    stall := fun s => (bad s.me).isNone && decide ((s.me.ringReg n).entries ≤ (s.me.ringReg n).count + s.me.ringDrains n)
    check := fun s => bad s.me
    eff := fun s => s.onMe (fun c =>
      let r := c.ringReg n
      c.drain (.ringRow n (r.at' (r.count + c.ringDrains n))) f.row.toNat) }

/-- The meaning of the row: one issue of the operation. -/
def execMDrainRing (h : Hdr) (f : OpMH) (s : State) : Host.Outcome State Fault Refusal :=
  (semMDrainRing h f).run h s

end Sys2Proof.Machine
end

