-- ==== Sys2Proof/Machine/Scalar.lean ====
section
/-! DEFINITION. The S-slot operations on registers: arithmetic, predicates, constants, moves, tags and status words
(R117 to R123, R90 to R94). S.NXT, the loft accesses and the system instructions stand with their subjects. -/

namespace Sys2Proof.Machine

/-- A scalar result from two scalar operands. -/
def semSS (h : Hdr) (sd sa sb : BitVec 7) (lat : Nat) (g : Word → Word → Word) : Sem :=
  { reads := fun c => [c.xs sa, c.xs sb], writes := fun c => [c.xs sd], results := 1
    eff := fun s => s.onMe (fun c =>
      let a := c.rs h.slot sa
      let b := c.rs h.slot sb 1
      c.outS h.slot sd lat (g a.1 b.1) (a.2 || b.2)) }

/-- A scalar result from one scalar operand. -/
def semS1 (h : Hdr) (sd sa : BitVec 7) (g : Word → Word) : Sem :=
  { reads := fun c => [c.xs sa], writes := fun c => [c.xs sd], results := 1
    eff := fun s => s.onMe (fun c =>
      let a := c.rs h.slot sa
      c.outS h.slot sd 1 (g a.1) a.2) }

/-- A predicate result from two scalar operands. -/
def semPSS (h : Hdr) (pd : BitVec 6) (sa sb : BitVec 7) (g : Word → Word → Bool) : Sem :=
  { reads := fun c => [c.xs sa, c.xs sb], writes := fun c => [c.xp pd], results := 1
    eff := fun s => s.onMe (fun c =>
      let a := c.rs h.slot sa
      let b := c.rs h.slot sb 1
      c.outP h.slot pd 1 (g a.1 b.1) (a.2 || b.2)) }

/-- A predicate result from one scalar operand. -/
def semPS (h : Hdr) (pd : BitVec 6) (sa : BitVec 7) (g : Word → Bool) : Sem :=
  { reads := fun c => [c.xs sa], writes := fun c => [c.xp pd], results := 1
    eff := fun s => s.onMe (fun c =>
      let a := c.rs h.slot sa
      c.outP h.slot pd 1 (g a.1) a.2) }

/-- A predicate result from two predicate terms (R120). -/
def semPPP (h : Hdr) (f : OpPL) (g : Bool → Bool → Bool) : Sem :=
  { reads := fun c => [c.xp f.pa, c.xp f.pb], writes := fun c => [c.xp f.pd], results := 1
    eff := fun s => s.onMe (fun c =>
      let a := c.rp h.slot f.pa
      let b := c.rp h.slot f.pb 1
      c.outP h.slot f.pd 1 (g (a.1 != f.na) (b.1 != f.nb)) (a.2 || b.2)) }

/-- A constant scalar result with poison clear (R122). -/
def semConst (h : Hdr) (sd : BitVec 7) (g : Core → Word) : Sem :=
  { writes := fun c => [c.xs sd], results := 1
    eff := fun s => s.onMe (fun c => c.outS h.slot sd 1 (g c) false) }

/-! ## Integer and address arithmetic (R119) -/

/-- The shift amount a register gives: bits 5:0. -/
def sh6 (b : Word) : Nat := b.toNat % 64

/-- S.ADD. -/
def semSAdd (h : Hdr) (f : OpRR) : Sem := semSS h f.sd f.sa f.sb 1 (fun a b => a + b)

/-- The meaning of the row: one issue of the operation. -/
def execSAdd (h : Hdr) (f : OpRR) (s : State) : Host.Outcome State Fault Refusal :=
  (semSAdd h f).run h s

/-- S.SUB. -/
def semSSub (h : Hdr) (f : OpRR) : Sem := semSS h f.sd f.sa f.sb 1 (fun a b => a - b)

/-- The meaning of the row: one issue of the operation. -/
def execSSub (h : Hdr) (f : OpRR) (s : State) : Host.Outcome State Fault Refusal :=
  (semSSub h f).run h s

/-- S.MUL. -/
def semSMul (h : Hdr) (f : OpRR) : Sem := semSS h f.sd f.sa f.sb 3 (fun a b => a * b)

/-- The meaning of the row: one issue of the operation. -/
def execSMul (h : Hdr) (f : OpRR) (s : State) : Host.Outcome State Fault Refusal :=
  (semSMul h f).run h s

/-- S.MULH. -/
def semSMulh (h : Hdr) (f : OpRR) : Sem :=
  semSS h f.sd f.sa f.sb 3 (fun a b => BitVec.ofInt 64 (a.toInt * b.toInt / 2 ^ 64))

/-- The meaning of the row: one issue of the operation. -/
def execSMulh (h : Hdr) (f : OpRR) (s : State) : Host.Outcome State Fault Refusal :=
  (semSMulh h f).run h s

/-- S.MULHU. -/
def semSMulhu (h : Hdr) (f : OpRR) : Sem :=
  semSS h f.sd f.sa f.sb 3 (fun a b => BitVec.ofNat 64 (a.toNat * b.toNat / 2 ^ 64))

/-- The meaning of the row: one issue of the operation. -/
def execSMulhu (h : Hdr) (f : OpRR) (s : State) : Host.Outcome State Fault Refusal :=
  (semSMulhu h f).run h s

/-- S.AND. -/
def semSAnd (h : Hdr) (f : OpRR) : Sem := semSS h f.sd f.sa f.sb 1 (fun a b => a &&& b)

/-- The meaning of the row: one issue of the operation. -/
def execSAnd (h : Hdr) (f : OpRR) (s : State) : Host.Outcome State Fault Refusal :=
  (semSAnd h f).run h s

/-- S.OR. -/
def semSOr (h : Hdr) (f : OpRR) : Sem := semSS h f.sd f.sa f.sb 1 (fun a b => a ||| b)

/-- The meaning of the row: one issue of the operation. -/
def execSOr (h : Hdr) (f : OpRR) (s : State) : Host.Outcome State Fault Refusal :=
  (semSOr h f).run h s

/-- S.XOR. -/
def semSXor (h : Hdr) (f : OpRR) : Sem := semSS h f.sd f.sa f.sb 1 (fun a b => a ^^^ b)

/-- The meaning of the row: one issue of the operation. -/
def execSXor (h : Hdr) (f : OpRR) (s : State) : Host.Outcome State Fault Refusal :=
  (semSXor h f).run h s

/-- S.SHL. -/
def semSShl (h : Hdr) (f : OpRR) : Sem := semSS h f.sd f.sa f.sb 1 (fun a b => a <<< sh6 b)

/-- The meaning of the row: one issue of the operation. -/
def execSShl (h : Hdr) (f : OpRR) (s : State) : Host.Outcome State Fault Refusal :=
  (semSShl h f).run h s

/-- S.SHR. -/
def semSShr (h : Hdr) (f : OpRR) : Sem := semSS h f.sd f.sa f.sb 1 (fun a b => a >>> sh6 b)

/-- The meaning of the row: one issue of the operation. -/
def execSShr (h : Hdr) (f : OpRR) (s : State) : Host.Outcome State Fault Refusal :=
  (semSShr h f).run h s

/-- S.SRA. -/
def semSSra (h : Hdr) (f : OpRR) : Sem := semSS h f.sd f.sa f.sb 1 (fun a b => a.sshiftRight (sh6 b))

/-- The meaning of the row: one issue of the operation. -/
def execSSra (h : Hdr) (f : OpRR) (s : State) : Host.Outcome State Fault Refusal :=
  (semSSra h f).run h s

/-- S.MIN. -/
def semSMin (h : Hdr) (f : OpRR) : Sem := semSS h f.sd f.sa f.sb 1 (fun a b => if a.toInt ≤ b.toInt then a else b)

/-- The meaning of the row: one issue of the operation. -/
def execSMin (h : Hdr) (f : OpRR) (s : State) : Host.Outcome State Fault Refusal :=
  (semSMin h f).run h s

/-- S.MAX. -/
def semSMax (h : Hdr) (f : OpRR) : Sem := semSS h f.sd f.sa f.sb 1 (fun a b => if b.toInt ≤ a.toInt then a else b)

/-- The meaning of the row: one issue of the operation. -/
def execSMax (h : Hdr) (f : OpRR) (s : State) : Host.Outcome State Fault Refusal :=
  (semSMax h f).run h s

/-- S.MINU. -/
def semSMinu (h : Hdr) (f : OpRR) : Sem := semSS h f.sd f.sa f.sb 1 (fun a b => if a.toNat ≤ b.toNat then a else b)

/-- The meaning of the row: one issue of the operation. -/
def execSMinu (h : Hdr) (f : OpRR) (s : State) : Host.Outcome State Fault Refusal :=
  (semSMinu h f).run h s

/-- S.MAXU. -/
def semSMaxu (h : Hdr) (f : OpRR) : Sem := semSS h f.sd f.sa f.sb 1 (fun a b => if b.toNat ≤ a.toNat then a else b)

/-- The meaning of the row: one issue of the operation. -/
def execSMaxu (h : Hdr) (f : OpRR) (s : State) : Host.Outcome State Fault Refusal :=
  (semSMaxu h f).run h s

/-- S.ADDS, saturating. -/
def semSAdds (h : Hdr) (f : OpRR) : Sem :=
  semSS h f.sd f.sa f.sb 1 (fun a b => BitVec.ofInt 64 (satI (a.toInt + b.toInt) (-2 ^ 63) (2 ^ 63 - 1)))

/-- The meaning of the row: one issue of the operation. -/
def execSAdds (h : Hdr) (f : OpRR) (s : State) : Host.Outcome State Fault Refusal :=
  (semSAdds h f).run h s

/-- S.ADDI. -/
def semSAddi (h : Hdr) (f : OpRI) : Sem := semS1 h f.sd f.sa (fun a => a + f.imm.signExtend 64)

/-- The meaning of the row: one issue of the operation. -/
def execSAddi (h : Hdr) (f : OpRI) (s : State) : Host.Outcome State Fault Refusal :=
  (semSAddi h f).run h s

/-- S.ANDI. -/
def semSAndi (h : Hdr) (f : OpRI) : Sem := semS1 h f.sd f.sa (fun a => a &&& f.imm.signExtend 64)

/-- The meaning of the row: one issue of the operation. -/
def execSAndi (h : Hdr) (f : OpRI) (s : State) : Host.Outcome State Fault Refusal :=
  (semSAndi h f).run h s

/-- S.ORI. -/
def semSOri (h : Hdr) (f : OpRI) : Sem := semS1 h f.sd f.sa (fun a => a ||| f.imm.signExtend 64)

/-- The meaning of the row: one issue of the operation. -/
def execSOri (h : Hdr) (f : OpRI) (s : State) : Host.Outcome State Fault Refusal :=
  (semSOri h f).run h s

/-- S.XORI. -/
def semSXori (h : Hdr) (f : OpRI) : Sem := semS1 h f.sd f.sa (fun a => a ^^^ f.imm.signExtend 64)

/-- The meaning of the row: one issue of the operation. -/
def execSXori (h : Hdr) (f : OpRI) (s : State) : Host.Outcome State Fault Refusal :=
  (semSXori h f).run h s

/-- S.SHLI. -/
def semSShli (h : Hdr) (f : OpSH) : Sem := semS1 h f.sd f.sa (fun a => a <<< f.n.toNat)

/-- The meaning of the row: one issue of the operation. -/
def execSShli (h : Hdr) (f : OpSH) (s : State) : Host.Outcome State Fault Refusal :=
  (semSShli h f).run h s

/-- S.SHRI. -/
def semSShri (h : Hdr) (f : OpSH) : Sem := semS1 h f.sd f.sa (fun a => a >>> f.n.toNat)

/-- The meaning of the row: one issue of the operation. -/
def execSShri (h : Hdr) (f : OpSH) (s : State) : Host.Outcome State Fault Refusal :=
  (semSShri h f).run h s

/-- S.SRAI. -/
def semSSrai (h : Hdr) (f : OpSH) : Sem := semS1 h f.sd f.sa (fun a => a.sshiftRight f.n.toNat)

/-- The meaning of the row: one issue of the operation. -/
def execSSrai (h : Hdr) (f : OpSH) (s : State) : Host.Outcome State Fault Refusal :=
  (semSSrai h f).run h s

/-- S.LEA. -/
def semSLea (h : Hdr) (f : OpLEA) : Sem := semSS h f.sd f.sa f.sb 1 (fun a b => a + (b <<< f.sh.toNat))

/-- The meaning of the row: one issue of the operation. -/
def execSLea (h : Hdr) (f : OpLEA) (s : State) : Host.Outcome State Fault Refusal :=
  (semSLea h f).run h s

/-! ## Predicates (R120) -/

/-- S.CEQ. -/
def semSCeq (h : Hdr) (f : OpPR) : Sem := semPSS h f.pd f.sa f.sb (fun a b => a == b)

/-- The meaning of the row: one issue of the operation. -/
def execSCeq (h : Hdr) (f : OpPR) (s : State) : Host.Outcome State Fault Refusal :=
  (semSCeq h f).run h s

/-- S.CNE. -/
def semSCne (h : Hdr) (f : OpPR) : Sem := semPSS h f.pd f.sa f.sb (fun a b => a != b)

/-- The meaning of the row: one issue of the operation. -/
def execSCne (h : Hdr) (f : OpPR) (s : State) : Host.Outcome State Fault Refusal :=
  (semSCne h f).run h s

/-- S.CLT. -/
def semSClt (h : Hdr) (f : OpPR) : Sem := semPSS h f.pd f.sa f.sb (fun a b => decide (a.toInt < b.toInt))

/-- The meaning of the row: one issue of the operation. -/
def execSClt (h : Hdr) (f : OpPR) (s : State) : Host.Outcome State Fault Refusal :=
  (semSClt h f).run h s

/-- S.CLE. -/
def semSCle (h : Hdr) (f : OpPR) : Sem := semPSS h f.pd f.sa f.sb (fun a b => decide (a.toInt ≤ b.toInt))

/-- The meaning of the row: one issue of the operation. -/
def execSCle (h : Hdr) (f : OpPR) (s : State) : Host.Outcome State Fault Refusal :=
  (semSCle h f).run h s

/-- S.CLTU. -/
def semSCltu (h : Hdr) (f : OpPR) : Sem := semPSS h f.pd f.sa f.sb (fun a b => decide (a.toNat < b.toNat))

/-- The meaning of the row: one issue of the operation. -/
def execSCltu (h : Hdr) (f : OpPR) (s : State) : Host.Outcome State Fault Refusal :=
  (semSCltu h f).run h s

/-- S.CLEU. -/
def semSCleu (h : Hdr) (f : OpPR) : Sem := semPSS h f.pd f.sa f.sb (fun a b => decide (a.toNat ≤ b.toNat))

/-- The meaning of the row: one issue of the operation. -/
def execSCleu (h : Hdr) (f : OpPR) (s : State) : Host.Outcome State Fault Refusal :=
  (semSCleu h f).run h s

/-- S.CEQI. -/
def semSCeqi (h : Hdr) (f : OpPI) : Sem := semPS h f.pd f.sa (fun a => decide (a.toInt = f.imm.toInt))

/-- The meaning of the row: one issue of the operation. -/
def execSCeqi (h : Hdr) (f : OpPI) (s : State) : Host.Outcome State Fault Refusal :=
  (semSCeqi h f).run h s

/-- S.CLTI. -/
def semSClti (h : Hdr) (f : OpPI) : Sem := semPS h f.pd f.sa (fun a => decide (a.toInt < f.imm.toInt))

/-- The meaning of the row: one issue of the operation. -/
def execSClti (h : Hdr) (f : OpPI) (s : State) : Host.Outcome State Fault Refusal :=
  (semSClti h f).run h s

/-- S.PAND. -/
def semSPand (h : Hdr) (f : OpPL) : Sem := semPPP h f (fun a b => a && b)

/-- The meaning of the row: one issue of the operation. -/
def execSPand (h : Hdr) (f : OpPL) (s : State) : Host.Outcome State Fault Refusal :=
  (semSPand h f).run h s

/-- S.POR. -/
def semSPor (h : Hdr) (f : OpPL) : Sem := semPPP h f (fun a b => a || b)

/-- The meaning of the row: one issue of the operation. -/
def execSPor (h : Hdr) (f : OpPL) (s : State) : Host.Outcome State Fault Refusal :=
  (semSPor h f).run h s

/-- S.PXOR. -/
def semSPxor (h : Hdr) (f : OpPL) : Sem := semPPP h f (fun a b => a != b)

/-- The meaning of the row: one issue of the operation. -/
def execSPxor (h : Hdr) (f : OpPL) (s : State) : Host.Outcome State Fault Refusal :=
  (semSPxor h f).run h s

/-- S.PBIT. -/
def semSPbit (h : Hdr) (f : OpPB) : Sem := semPS h f.pd f.sa (fun a => a.getLsbD f.n.toNat)

/-- The meaning of the row: one issue of the operation. -/
def execSPbit (h : Hdr) (f : OpPB) (s : State) : Host.Outcome State Fault Refusal :=
  (semSPbit h f).run h s

/-! ## Constants (R122) -/

/-- S.LIL. -/
def semSLil (h : Hdr) (f : OpWI) : Sem := semConst h f.sd (fun _ => f.imm.setWidth 64)

/-- The meaning of the row: one issue of the operation. -/
def execSLil (h : Hdr) (f : OpWI) (s : State) : Host.Outcome State Fault Refusal :=
  (semSLil h f).run h s

/-- S.LIH reads sd and keeps its low half and its poison. -/
def semSLih (h : Hdr) (f : OpWI) : Sem := semS1 h f.sd f.sd (fun a => f.imm ++ a.setWidth 32)

/-- The meaning of the row: one issue of the operation. -/
def execSLih (h : Hdr) (f : OpWI) (s : State) : Host.Outcome State Fault Refusal :=
  (semSLih h f).run h s

/-- S.LIS. -/
def semSLis (h : Hdr) (f : OpWI) : Sem := semConst h f.sd (fun _ => f.imm.signExtend 64)

/-- The meaning of the row: one issue of the operation. -/
def execSLis (h : Hdr) (f : OpWI) (s : State) : Host.Outcome State Fault Refusal :=
  (semSLis h f).run h s

/-- S.LPC. -/
def semSLpc (h : Hdr) (f : OpWI) : Sem := semConst h f.sd (fun c => c.bundlePc + (f.imm.signExtend 64 <<< 3))

/-- The meaning of the row: one issue of the operation. -/
def execSLpc (h : Hdr) (f : OpWI) (s : State) : Host.Outcome State Fault Refusal :=
  (semSLpc h f).run h s

/-! ## The check (R123) -/

/-- S.CKT: a difference raises the silent-mismatch trap, a poisoned operand the poison-consumed trap. -/
def semSCkt (h : Hdr) (f : OpCK) : Sem :=
  { reads := fun c => [c.xs f.sa, c.xs f.sb], ckt := true
    check := fun s =>
      let c := s.me
      let a := c.rs h.slot f.sa
      let b := c.rs h.slot f.sb 1
      match c.consumed h.slot [(f.sa.toNat, a.2), (f.sb.toNat, b.2)] with
      | some t => some t
      | none => if a.1 = b.1 then none else some (c.trap h.slot 0x05)
    eff := fun s => s }

/-- The meaning of the row: one issue of the operation. -/
def execSCkt (h : Hdr) (f : OpCK) (s : State) : Host.Outcome State Fault Refusal :=
  (semSCkt h f).run h s

/-! ## Moves, tags and status words (R90 to R94) -/

/-- S.MOV. -/
def semSMov (h : Hdr) (f : OpMOV) : Sem := semS1 h f.sd f.sa (fun a => a)

/-- The meaning of the row: one issue of the operation. -/
def execSMov (h : Hdr) (f : OpMOV) (s : State) : Host.Outcome State Fault Refusal :=
  (semSMov h f).run h s

/-- The value an S.RSW of index `i` reads (R88, R89, R92, R276): the index `0x060 + n` names logical b_n. What the header of its own
bundle changes it reads as it stood before the issue (R33). -/
def State.statusRead (s : State) (i : Nat) : Word :=
  let c := s.me
  if i = 0 then c.coreId
  else if i = 0x032 then (s.dieAt (dieOf c.id)).plan
  else if 0x060 ≤ i ∧ i ≤ 0x06F then (c.breg (c.physB (i - 0x060))).setWidth 64
  else
    match c.issue with
    | some r => if i = 0x00B then r.repc else if i = 0x047 then r.segState else if i = 0x046 then r.phaseCnt else c.sw.get i
    | none => c.sw.get i

/-- S.RSW: supervisor words trap in user mode (R91); PHASE_CNT traps in a deterministic launch (R399). -/
def semSRsw (h : Hdr) (f : OpRSW) : Sem :=
  { reads := fun _ => [.w f.idx.toNat], writes := fun c => [c.xs f.sd], results := 1
    check := fun s =>
      let c := s.me
      if c.determ && f.idx == 0x046#10 then some (c.trap h.slot 0x0D)
      else if supervisorOnly f.idx.toNat && !c.sup then some (c.accessTrap h.slot 5 0)
      else none
    eff := fun s => s.onMe (fun c => c.outS h.slot f.sd 1 (s.statusRead f.idx.toNat) false) }

/-- The meaning of the row: one issue of the operation. -/
def execSRsw (h : Hdr) (f : OpRSW) (s : State) : Host.Outcome State Fault Refusal :=
  (semSRsw h f).run h s

/-- The array is idle for a LANEMAP write (R264). -/
def Core.arrayIdle (c : Core) : Bool :=
  c.sw.mcfg.getLsbD 0 && fieldGet c.sw.mcfg 56 8 == 0 && fieldGet c.sw.kcount0 0 32 == 0 &&
    fieldGet c.sw.kcount1 0 32 == 0

/-- The checks of a write of `v` to LANEMAP (R264). -/
def Core.lanemapOk (c : Core) (v : Word) : Bool :=
  c.arrayIdle && fieldGet v 0 3 != 6 && fieldGet v 3 3 != 6 &&
    !(fieldGet v 0 3 != 7 && fieldGet v 3 3 != 7 && c.sw.mcfg.getLsbD 16)

/-- S.WSW: the RW fields of the word are written at a latency of 1 (R91, R92, R264); the write lands in the row
STATUS_WORD_WRITE, LANEMAP_WRITE or BASE_REGISTER_WRITE. -/
def semSWsw (h : Hdr) (f : OpWSW) : Sem :=
  { reads := fun c => [c.xs f.sa], writes := fun _ => [.w f.idx.toNat], results := 1
    seals := fun _ => !contextWord f.idx.toNat
    check := fun s =>
      let c := s.me
      let a := c.rs h.slot f.sa
      if supervisorOnly f.idx.toNat && !c.sup then some (c.accessTrap h.slot 5 0)
      else if a.2 then some (c.poisonTrap h.slot f.sa.toNat)
      else if 0x060 ≤ f.idx.toNat ∧ a.1.toNat / 2 ^ 20 ≠ 0 then some (c.accessTrap h.slot 2 0)
      else if f.idx == 0x024#10 && !c.lanemapOk a.1 then some (c.accessTrap h.slot 0 0)
      else none
    eff := fun s => s.onMe (fun c =>
      let a := c.rs h.slot f.sa
      if 0x060 ≤ f.idx.toNat then
        c.emit { c.flight h.slot (.base (c.physB (f.idx.toNat - 0x060))) 1 with val := a.1.setWidth 8192 }
      else c.outW h.slot f.idx.toNat 1 a.1 true) }

/-- The meaning of the row: one issue of the operation. -/
def execSWsw (h : Hdr) (f : OpWSW) (s : State) : Host.Outcome State Fault Refusal :=
  (semSWsw h f).run h s

/-- The report of S.RTAG (R93). Of a register bound as a flume it is that of the register, and no element is popped
(DESIGN CHOICE, log 69). -/
def Core.tagReport (c : Core) (k : Bool) (r : BitVec 10) : Word :=
  if k then
    let t := c.treg r.toNat
    BitVec.ofNat 64 (t.tag.toNat + (if t.ready then 16 else 0) + (if t.poison != 0#256 then 128 else 0))
  else
    let n := c.physV r.toNat
    let v := c.vreg n
    BitVec.ofNat 64 (v.tag.toNat + 16 + (if v.pend then 32 else 0) + (if (c.flumeOf n).isSome then 64 else 0) +
      (if v.poison != 0#32 then 128 else 0))

/-- S.RTAG waits on no ready tag and no pending bit (R93). -/
def semSRtag (h : Hdr) (f : OpRTAG) : Sem := semConst h f.sd (fun c => c.tagReport f.k f.reg)

/-- The meaning of the row: one issue of the operation. -/
def execSRtag (h : Hdr) (f : OpRTAG) (s : State) : Host.Outcome State Fault Refusal :=
  (semSRtag h f).run h s

/-- S.WTAG waits for the register's pending bit to clear or its ready tag to be set; a bound flume raises the format
trap (R94). -/
def semSWtag (h : Hdr) (f : OpWTAG) : Sem :=
  { writes := fun c => if f.k then [.t f.reg.toNat] else [c.xv f.reg], results := 1
    stall := fun s => f.k && !(s.me.treg f.reg.toNat).ready
    check := fun s =>
      let c := s.me
      if !f.k && (c.flumeOf (c.physV f.reg.toNat)).isSome then some { c.trap h.slot 0x02 with data := f.reg.toNat }
      else none
    eff := fun s => s.onMe (fun c =>
      c.emit { c.flight h.slot (if f.k then .ttag f.reg.toNat else .vtag (c.physV f.reg.toNat)) 1 with tag := f.tag }) }

/-- The meaning of the row: one issue of the operation. -/
def execSWtag (h : Hdr) (f : OpWTAG) (s : State) : Host.Outcome State Fault Refusal :=
  (semSWtag h f).run h s

/-- S.MFROM. -/
def semSMfrom (h : Hdr) (f : OpMFROM) : Sem :=
  { reads := fun c => [c.xm f.mn], writes := fun c => [c.xs f.sd], results := 1
    eff := fun s => s.onMe (fun c =>
      let a := c.rm h.slot f.mn
      c.outS h.slot f.sd 1 (a.1.setWidth 64) a.2) }

/-- The meaning of the row: one issue of the operation. -/
def execSMfrom (h : Hdr) (f : OpMFROM) (s : State) : Host.Outcome State Fault Refusal :=
  (semSMfrom h f).run h s

/-- S.MTO. -/
def semSMto (h : Hdr) (f : OpMTO) : Sem :=
  { reads := fun c => [c.xs f.sa], writes := fun c => [c.xm f.md], results := 1
    eff := fun s => s.onMe (fun c =>
      let a := c.rs h.slot f.sa
      c.emit { c.flight h.slot (.mask f.md.toNat) 1 with
        val := (a.1.setWidth 32).setWidth 8192, poison := if a.2 then 1 else 0 }) }

/-- The meaning of the row: one issue of the operation. -/
def execSMto (h : Hdr) (f : OpMTO) (s : State) : Host.Outcome State Fault Refusal :=
  (semSMto h f).run h s

/-- The predicate file as S.PGET reads it: bit i is logical p_i; poison if any carries it (R90). -/
def Core.predFile (c : Core) : Word × Bool :=
  match c.capVal 0 8 0 with
  | some v => (v.val.setWidth 64, v.poison.getLsbD 0)
  | none =>
    ((List.range 64).foldl (fun x i => if (c.preg (c.physP i)).val then x ||| (1#64 <<< i) else x) 0,
      (List.range 64).any (fun i => (c.preg (c.physP i)).poison))

/-- S.PGET. -/
def semSPget (h : Hdr) (f : OpPGET) : Sem :=
  { reads := fun _ => [.pAll], writes := fun c => [c.xs f.sd], results := 1
    eff := fun s => s.onMe (fun c => c.outS h.slot f.sd 1 c.predFile.1 c.predFile.2) }

/-- The meaning of the row: one issue of the operation. -/
def execSPget (h : Hdr) (f : OpPGET) (s : State) : Host.Outcome State Fault Refusal :=
  (semSPget h f).run h s

end Sys2Proof.Machine
end

