-- ==== Sys2Proof/Machine/Slices.lean ====
section
/-! DEFINITION. The memory operations of the vector slots: lane-private slices from V0, core scratchpad from V1
(R153 to R157). -/

namespace Sys2Proof.Machine

/-- One access of a vector slot: its space, whether it stores, how many bytes its record names as a power of two, which
lanes it addresses, the address of each, and the index register, mask and base register it names. -/
structure LaneAcc where
  sp : Space
  store : Bool
  log2 : Nat
  lanes : Core → Nat → Bool
  addr : Core → Nat → Int
  idx : Option (BitVec 10)
  mask : Option (BitVec 4)
  bn : Option (BitVec 4)

/-- The traps of such an access: a poisoned mask; a poisoned index lane, before any address is checked; then the lowest
lane whose address is negative, misaligned or out of range (R153, R155, R376). -/
def LaneAcc.trap (x : LaneAcc) (h : Hdr) (c : Core) : Option Trap :=
  let base : Trap := {
    c.trap h.slot 0x09 with
    space := (if x.sp = .slices then 4 else 3), kind := (if x.store then 1 else 0), size := x.log2 }
  let limit : Int := if x.sp = .slices then 8192 else 2 ^ 20
  let lanes := (List.range 32).filter (x.lanes c)
  let maskPoison := match x.mask with | some m => if (c.rm h.slot m).2 then some m.toNat else none | none => none
  match maskPoison with
  | some m => some { base with code := 0x06, data := m }
  | none =>
    let pois := match x.idx with
      | some v => (lanes.find? (fun j => (c.rv h.slot v (if x.store then 1 else 0)).poison.getLsbD j)).map (fun j => (j, v.toNat))
      | none => none
    match pois with
    | some (j, v) => some { base with code := 0x06, data := v + j * 2 ^ 16, addr := BitVec.ofInt 64 (x.addr c j) }
    | none =>
      match lanes.find? (fun j => decide (x.addr c j % 4 ≠ 0 ∨ x.addr c j < 0 ∨ limit < x.addr c j + 4)) with
      | none => none
      | some j =>
        some { base with sub := (if x.addr c j % 4 ≠ 0 then 1 else 2), data := j, addr := BitVec.ofInt 64 (x.addr c j) }

/-- The address of a lane's word in its byte store. -/
def LaneAcc.place (x : LaneAcc) (c : Core) (j : Nat) : Nat :=
  (x.addr c j).toNat + (if x.sp = .slices then 8192 * j else 0)

/-- The registers that an access reads, beside its data. -/
def LaneAcc.regs (x : LaneAcc) (c : Core) : List RegRef :=
  (match x.idx with | some v => [c.xv v] | none => []) ++ (match x.mask with | some m => [c.xm m] | none => []) ++
    (match x.bn with | some b => [.w (0x060 + c.physB b.toNat)] | none => [])

/-- A load or gather: memory is read at issue (R157); an excluded lane becomes 0 with poison clear. -/
def semLaneLoad (h : Hdr) (x : LaneAcc) (vd : BitVec 10) (tag : BitVec 4) (off : BitVec 32) (p1 p2 : Nat) : Sem :=
  { reads := x.regs, writes := fun c => [c.xv vd], results := 1, off := off, steps := true, bn := x.bn
    padReads := fun s => if x.sp = .scratch then ((List.range 32).filter (x.lanes s.me)).map (fun j => (x.place s.me j, 4)) else []
    check := fun s => firstTrap [x.trap h s.me, s.me.pushTrap h.slot vd tag.toNat]
    eff := fun s =>
      let c := s.me
      let v := vecOf 32 ((List.range 32).map (fun j =>
        if x.lanes c j then s.spaceNum s.coreNo x.sp (x.place c j) 4 else 0))
      let p := lanesOf (fun j => x.lanes c j && s.spacePois s.coreNo x.sp (x.place c j / 4))
      s.onMe (fun c => c.outV h vd (c.lat p1 p2) v tag p) }

/-- A store or scatter: performed in the cycle after issue; of two lanes that name one word the higher stands. -/
def semLaneStore (h : Hdr) (x : LaneAcc) (va : BitVec 10) (off : BitVec 32) : Sem :=
  { reads := fun c => c.xv va :: x.regs c, off := off, steps := true, bn := x.bn
    check := fun s => x.trap h s.me
    lines := fun s => linesOf x.sp (((List.range 32).filter (x.lanes s.me)).map (fun j => (x.place s.me j, 0#8)))
    eff := fun s => s.onMe (fun c =>
      let a := c.rv h.slot va
      let js := (List.range 32).filter (x.lanes c)
      let bs := js.flatMap (fun j => bytesOf (elem a.val 32 j) (x.place c j) 4)
      let ws := js.map (fun j => (x.place c j / 4, a.poison.getLsbD j, true))
      c.putStore (c.time + 1) 0 none x.sp bs ws) }

/-- A slice access at the latched offset. -/
def slicesAcc (h : Hdr) (store : Bool) (off : BitVec 13) (idx : Option (BitVec 10)) (mask : Option (BitVec 4)) : LaneAcc :=
  { sp := .slices, store := store, log2 := 2
    lanes := fun c j => match mask with | some m => (c.rm h.slot m).1.getLsbD j | none => true
    addr := fun c j => (c.disp h.slot (off.setWidth 32)).toInt +
      (match idx with | some v => (elem (c.rv h.slot v (if store then 1 else 0)).val 32 j : Int) | none => 0)
    idx := idx, mask := mask, bn := none }

/-- A scratchpad access: b_n plus the latched offset, plus 4 · lane for a whole vector or the index lane. A lane
that the mask excludes is not checked (DEDUCED, log 71). -/
def scratchAcc (h : Hdr) (store : Bool) (log2 : Nat) (bn : BitVec 4) (off : BitVec 32) (stride : Nat)
    (idx : Option (BitVec 10)) (mask : Option (BitVec 4)) : LaneAcc :=
  { sp := .scratch, store := store, log2 := log2
    lanes := fun c j => match mask with | some m => (c.rm h.slot m).1.getLsbD j | none => true
    addr := fun c j => ((c.rb bn).toNat : Int) + (c.disp h.slot off).toInt +
      (match idx with | some v => (elem (c.rv h.slot v (if store then 1 else 0)).val 32 j : Int) | none => (stride * j : Nat))
    idx := idx, mask := mask, bn := some bn }

/-! ## V0 (R154) -/

/-- V0.SLD. -/
def semV0Sld (h : Hdr) (f : OpVLL) : Sem :=
  semLaneLoad h (slicesAcc h false f.off none none) f.vd f.tag (f.off.setWidth 32) 3 3

/-- The meaning of the row: one issue of the operation. -/
def execV0Sld (h : Hdr) (f : OpVLL) (s : State) : Host.Outcome State Fault Refusal :=
  (semV0Sld h f).run h s

/-- V0.SLDX. -/
def semV0Sldx (h : Hdr) (f : OpVLLX) : Sem :=
  semLaneLoad h (slicesAcc h false f.off (some f.vb) none) f.vd f.tag (f.off.setWidth 32) 3 3

/-- The meaning of the row: one issue of the operation. -/
def execV0Sldx (h : Hdr) (f : OpVLLX) (s : State) : Host.Outcome State Fault Refusal :=
  (semV0Sldx h f).run h s

/-- V0.SST. -/
def semV0Sst (h : Hdr) (f : OpVLS) : Sem := semLaneStore h (slicesAcc h true f.off none none) f.va (f.off.setWidth 32)

/-- The meaning of the row: one issue of the operation. -/
def execV0Sst (h : Hdr) (f : OpVLS) (s : State) : Host.Outcome State Fault Refusal :=
  (semV0Sst h f).run h s

/-- V0.SSTX. -/
def semV0Sstx (h : Hdr) (f : OpVLSX) : Sem :=
  semLaneStore h (slicesAcc h true f.off (some f.vb) none) f.va (f.off.setWidth 32)

/-- The meaning of the row: one issue of the operation. -/
def execV0Sstx (h : Hdr) (f : OpVLSX) (s : State) : Host.Outcome State Fault Refusal :=
  (semV0Sstx h f).run h s

/-- V0.SSTM. -/
def semV0Sstm (h : Hdr) (f : OpVLSM) : Sem :=
  semLaneStore h (slicesAcc h true f.off none (some f.mn)) f.va (f.off.setWidth 32)

/-- The meaning of the row: one issue of the operation. -/
def execV0Sstm (h : Hdr) (f : OpVLSM) (s : State) : Host.Outcome State Fault Refusal :=
  (semV0Sstm h f).run h s

/-- V0.SSTXM. -/
def semV0Sstxm (h : Hdr) (f : OpVLSXM) : Sem :=
  semLaneStore h (slicesAcc h true f.off (some f.vb) (some f.mn)) f.va (f.off.setWidth 32)

/-- The meaning of the row: one issue of the operation. -/
def execV0Sstxm (h : Hdr) (f : OpVLSXM) (s : State) : Host.Outcome State Fault Refusal :=
  (semV0Sstxm h f).run h s

/-! ## V1 (R156) -/

/-- V1.LD. -/
def semV1Ld (h : Hdr) (f : OpVDL) : Sem :=
  semLaneLoad h (scratchAcc h false 7 f.bn (f.off.signExtend 32) 4 none none) f.vd f.tag (f.off.signExtend 32) 4 6

/-- The meaning of the row: one issue of the operation. -/
def execV1Ld (h : Hdr) (f : OpVDL) (s : State) : Host.Outcome State Fault Refusal :=
  (semV1Ld h f).run h s

/-- V1.ST. -/
def semV1St (h : Hdr) (f : OpVDS) : Sem :=
  semLaneStore h (scratchAcc h true 7 f.bn (f.off.signExtend 32) 4 none none) f.va (f.off.signExtend 32)

/-- The meaning of the row: one issue of the operation. -/
def execV1St (h : Hdr) (f : OpVDS) (s : State) : Host.Outcome State Fault Refusal :=
  (semV1St h f).run h s

/-- V1.LDB: the same word in every lane. -/
def semV1Ldb (h : Hdr) (f : OpVDL) : Sem :=
  semLaneLoad h (scratchAcc h false 2 f.bn (f.off.signExtend 32) 0 none none) f.vd f.tag (f.off.signExtend 32) 4 6

/-- The meaning of the row: one issue of the operation. -/
def execV1Ldb (h : Hdr) (f : OpVDL) (s : State) : Host.Outcome State Fault Refusal :=
  (semV1Ldb h f).run h s

/-- V1.STM. -/
def semV1Stm (h : Hdr) (f : OpVDSM) : Sem :=
  semLaneStore h (scratchAcc h true 2 f.bn (f.off.signExtend 32) 4 none (some f.mn)) f.va (f.off.signExtend 32)

/-- The meaning of the row: one issue of the operation. -/
def execV1Stm (h : Hdr) (f : OpVDSM) (s : State) : Host.Outcome State Fault Refusal :=
  (semV1Stm h f).run h s

/-- V1.GATH. -/
def semV1Gath (h : Hdr) (f : OpVDLX) : Sem :=
  semLaneLoad h (scratchAcc h false 2 f.bn (f.off.signExtend 32) 0 (some f.vb) none) f.vd f.tag (f.off.signExtend 32) 8 10

/-- The meaning of the row: one issue of the operation. -/
def execV1Gath (h : Hdr) (f : OpVDLX) (s : State) : Host.Outcome State Fault Refusal :=
  (semV1Gath h f).run h s

/-- V1.GATHM. -/
def semV1Gathm (h : Hdr) (f : OpVG) : Sem :=
  semLaneLoad h (scratchAcc h false 2 f.bn (f.off.signExtend 32) 0 (some f.vb) (some f.mn)) f.vd f.tag
    (f.off.signExtend 32) 8 10

/-- The meaning of the row: one issue of the operation. -/
def execV1Gathm (h : Hdr) (f : OpVG) (s : State) : Host.Outcome State Fault Refusal :=
  (semV1Gathm h f).run h s

/-- V1.SCAT. -/
def semV1Scat (h : Hdr) (f : OpVDSX) : Sem :=
  semLaneStore h (scratchAcc h true 2 f.bn (f.off.signExtend 32) 0 (some f.vb) none) f.va (f.off.signExtend 32)

/-- The meaning of the row: one issue of the operation. -/
def execV1Scat (h : Hdr) (f : OpVDSX) (s : State) : Host.Outcome State Fault Refusal :=
  (semV1Scat h f).run h s

/-- V1.SCATM. -/
def semV1Scatm (h : Hdr) (f : OpVDSXM) : Sem :=
  semLaneStore h (scratchAcc h true 2 f.bn (f.off.signExtend 32) 0 (some f.vb) (some f.mn)) f.va (f.off.signExtend 32)

/-- The meaning of the row: one issue of the operation. -/
def execV1Scatm (h : Hdr) (f : OpVDSXM) (s : State) : Host.Outcome State Fault Refusal :=
  (semV1Scatm h f).run h s

end Sys2Proof.Machine
end

