-- ==== Sys2Proof/Machine/Work.lean ====
section
/-! DEFINITION. Launches, tiles, completion records and units (R314 to R325, R331, R332). -/

namespace Sys2Proof.Machine

/-! ## The launch parameter block (R316) -/

/-- Bytes `o` to `o + n - 1` of a block given as a number. -/
def blkField (b o n : Nat) : Nat := b / 2 ^ (8 * o) % 2 ^ (8 * n)

/-- The fields of a block; a grid y of 0 and a crew of 0 are taken as 1. -/
def LaunchBlk.parse (b : Nat) : LaunchBlk :=
  { gx := blkField b 0 2, gy := max 1 (blkField b 2 2), order := blkField b 4 1, swizzle := blkField b 5 1,
    crew := max 1 (blkField b 6 1), gang := blkField b 7 1, determ := decide (blkField b 8 1 % 2 = 1),
    prio := blkField b 9 1, cls := blkField b 10 1, profile := blkField b 11 1, ctx := blkField b 12 2,
    crews := blkField b 14 2, code := blkField b 16 8, args := blkField b 24 8, mask := blkField b 32 4,
    winBase := blkField b 36 4, winSize := blkField b 40 4, policy := blkField b 44 1, rings := blkField b 48 8,
    ringCount := blkField b 56 1, beatA := blkField b 58 2, beatC := blkField b 60 2, imageCount := blkField b 62 2,
    images := blkField b 64 8, record := blkField b 72 8 }

/-- Tiles of the grid. -/
def LaunchBlk.tiles (b : LaunchBlk) : Nat := b.gx * b.gy

/-- Cores of a gang; 1 with no gang. -/
def LaunchBlk.gangSize (b : LaunchBlk) : Nat := max 1 b.gang

/-- Crews that a launch may place; none for as many as fit (R316). -/
def LaunchBlk.crewLimit (b : LaunchBlk) : Option Nat :=
  if b.crews ≠ 0 then some b.crews else if b.determ then some 1 else none

/-- Executors of a deterministic launch (R320). -/
def LaunchBlk.executors (b : LaunchBlk) : Nat :=
  let n := (b.crewLimit).getD 1
  if 1 < b.gang then n else n * b.crew

/-- A field outside its range or a reserved byte that is not zero (R317, code 1). -/
def LaunchBlk.badRange (b : LaunchBlk) (raw : Nat) : Bool :=
  decide (b.gx = 0) || decide (3 < b.order) || decide (15 < b.swizzle) || decide (16 < b.crew) ||
  !([0, 1, 2, 4, 8, 16].contains b.gang) || decide (1 < blkField raw 8 1) || decide (7 < b.prio) || decide (2 < b.cls) ||
  !([1, 2].contains b.profile) || decide (b.code % 8 ≠ 0) || decide (b.mask / 2 ^ 24 ≠ 0) ||
  decide (b.winBase % 65536 ≠ 0) || decide (b.winSize % 65536 ≠ 0) || decide (2 ^ 23 < b.winBase + b.winSize) ||
  decide (3 < b.policy) || decide (blkField raw 45 3 ≠ 0) || decide (8 < b.ringCount) || decide (blkField raw 57 1 ≠ 0) ||
  decide (16 < b.imageCount) || decide (b.record % 64 ≠ 0) || decide (blkField raw 80 48 ≠ 0)

/-- The clusters that class and mask admit (R316). -/
def LaunchBlk.clusters (b : LaunchBlk) : List Nat :=
  (List.range 24).filter (fun c =>
    (decide (b.mask = 0) || decide (b.mask / 2 ^ c % 2 = 1)) &&
    (decide (b.cls = 0) || (decide (b.cls = 1) == decide (c < 12))))

/-! ## Tile order (R318, R319) -/

/-- A tile coordinate word. -/
def tileWord (x y : Nat) : Nat := x + 65536 * y

/-- The `n`-th tile of a walk by panels of `w` columns of a grid of `gx` columns and `gy` rows. -/
def panelTile (gx gy w n : Nat) : Nat × Nat :=
  let p := n / (w * gy)
  let m := n - p * (w * gy)
  let k := max 1 (min w (gx - p * w))
  (p * w + m % k, m / k)

/-- One level of HILBERT: position, and the bits of d that remain. -/
def hilbertStep (x y t q : Nat) : Nat × Nat × Nat :=
  let rx := t / 2 % 2
  let ry := (t ^^^ rx) % 2
  let (x1, y1) := if ry = 0 then (let (a, b) := if rx = 1 then (q - 1 - x, q - 1 - y) else (x, y); (b, a)) else (x, y)
  (x1 + q * rx, y1 + q * ry, t / 4)

/-- HILBERT(d, k). -/
def hilbert (d k : Nat) : Nat × Nat :=
  let r := (List.range k).foldl (fun (e : Nat × Nat × Nat) l => hilbertStep e.1 e.2.1 e.2.2 (2 ^ l)) (0, 0, d)
  (r.1, r.2.1)

/-- The Morton point of d: even bits in x, odd bits in y. -/
def morton (d k : Nat) : Nat × Nat :=
  (List.range k).foldl (fun (e : Nat × Nat) l =>
    (e.1 + d / 2 ^ (2 * l) % 2 * 2 ^ l, e.2 + d / 2 ^ (2 * l + 1) % 2 * 2 ^ l)) (0, 0)

/-- The least k with 2^k not below `n`. -/
def log2Up (n : Nat) : Nat := if n ≤ 1 then 0 else Nat.log2 (n - 1) + 1

/-- The `n`-th point, from `d` on, that the grid keeps. -/
def keptTile (point : Nat → Nat × Nat) (gx gy fuel d n : Nat) : Nat × Nat :=
  match fuel with
  | 0 => (0, 0)
  | fuel + 1 =>
    let p := point d
    if p.1 < gx ∧ p.2 < gy then
      if n = 0 then p else keptTile point gx gy fuel (d + 1) (n - 1)
    else keptTile point gx gy fuel (d + 1) n

/-- The coordinate word of tile `n` of a launch (R319). -/
def LaunchBlk.tile (b : LaunchBlk) (n : Nat) : Nat :=
  let k := log2Up (max b.gx b.gy)
  match b.order with
  | 0 =>
    let p := panelTile b.gx b.gy (if b.swizzle = 0 then b.gx else 2 ^ b.swizzle) n
    tileWord p.1 p.2
  | 1 =>
    let p := panelTile b.gy b.gx (if b.swizzle = 0 then b.gy else 2 ^ b.swizzle) n
    tileWord p.2 p.1
  | 2 => let p := keptTile (fun d => morton d k) b.gx b.gy (4 ^ k) 0 n; tileWord p.1 p.2
  | _ => let p := keptTile (fun d => hilbert d k) b.gx b.gy (4 ^ k) 0 n; tileWord p.1 p.2

/-! ## Acceptance (R317) -/

/-- A profile that the part's stepping covers (R340). -/
def covered (profile : Nat) : Bool := profile == 2 || !Config.steppingB0

/-- The loader has rewritten a kernel for the native profile (R346). -/
def State.rewritten (s : State) (ctx code : Nat) : Bool :=
  s.hub.kernels.any (fun k => k.ctx == ctx && k.code.toNat == code && k.rewritten)

/-- MODE of CHECKCTL under which a core serves a block; none where it is refused (R344), or withdrawn from service (R347). -/
def State.serves (s : State) (b : LaunchBlk) (core : Nat) : Option Nat :=
  let split := (s.coreAt core).split
  if (s.coreAt core).withdrawn || (b.determ && split) then none
  else if !split && covered b.profile then some (if s.rewritten b.ctx b.code then 2 else 0)
  else if b.policy / 2 % 2 = 1 then some 1
  else none

/-- The cores of a cluster. -/
def coresOf (cl : Nat) : List Nat := (List.range 16).map (fun i => 16 * cl + i)

/-- The range of `n` bytes at `va` translated for reading by a party with no core mode, off worked pages. -/
def State.reach (s : State) (ctx va n : Nat) (wr : Bool) : Bool :=
  (List.range ((va + n + 65535) / 65536 - va / 65536)).all (fun i =>
    let a := if i = 0 then va else (va / 65536 + i) * 65536
    match accessWalk s ctx a true wr with
    | .ok _ attr _ => !isWorked attr && (s.tableWorked ctx a).isNone
    | .fail _ _ _ => false)

/-- The byte at `va` with its word's poison, as a party with no core mode reads it; 0 where it does not translate. -/
def State.engineByte (s : State) (ctx va : Nat) : Byte × Bool :=
  match accessWalk s ctx va true false with
  | .ok pa _ _ => (s.home.byte pa, s.home.pois (pa / 4))
  | .fail _ _ _ => (0, false)

/-- The little-endian number in `n` bytes at `va`, read so. -/
def State.engineNum (s : State) (ctx va n : Nat) : Nat :=
  ofElems 8 ((List.range n).map (fun i => (s.engineByte ctx (va + i)).1.toNat))

/-- The ring that a descriptor installs (R231, R232), with its register; none where it breaks a limit. -/
def ringOf (d : Nat) : Option (Nat × Ring) :=
  let base := blkField d 0 4
  let n := blkField d 4 2
  let b := blkField d 6 2
  let r := blkField d 8 1
  if base % 64 ≠ 0 ∨ n = 0 ∨ 1024 < n ∨ b % 64 ≠ 0 ∨ b = 0 ∨ 1024 < b ∨ 7 < r ∨ 2 ^ 20 < base + n * b ∨
      blkField d 9 55 ≠ 0 then none
  else some (r, { Ring.zero with valid := true, base := base, entries := n, entryBytes := b })

/-- The image of an entry (R316); none where it breaks a limit: its destination must lie in its space, the context's loft
window on each admitted die, or the cluster window. -/
def imageOf (e winSize : Nat) (loft : List Nat) : Option ImageEntry :=
  let sp := blkField e 0 1
  let dst := blkField e 16 4
  let n := blkField e 20 4
  let fits : Bool :=
    match sp with
    | 1 => loft.all (fun z => decide (dst + n ≤ z))
    | 2 => decide (dst + n ≤ winSize)
    | 3 => decide (dst + n ≤ 2 ^ 20)
    | 4 => decide (dst + n ≤ 2 ^ 18)
    | _ => false
  if blkField e 1 7 = 0 ∧ fits then some { space := sp, src := blkField e 8 8, dst := dst, size := n } else none

/-- The rings of a launch by register number. -/
def ringRegs (l : List (Nat × Ring)) : List Ring :=
  (List.range 8).map (fun i => match l.find? (fun e => e.1 == i) with | some e => e.2 | none => Ring.zero)

/-- The refusal code of R317, or the rings and images of an accepted launch. `user` says that a user-mode unit submits, of
context and priority `sub`. A block under an unregistered context is not translated. -/
def State.launchCheck (s : State) (raw : Nat) (user : Bool) (sub : Nat × Nat) :
    Except Nat (List Ring × List ImageEntry) :=
  let b := LaunchBlk.parse raw
  let cls := b.clusters
  let known := s.contexts.any (fun e => e.1 == b.ctx)
  let planBad (c : Nat) : Bool :=
    let p := (s.dieAt (dieOfCluster c)).plan
    (decide (b.beatA ≠ 0) && decide (b.beatA ≠ fieldGet p 0 16)) || (decide (b.beatC ≠ 0) && decide (b.beatC ≠ fieldGet p 16 16))
  let ringsOk := known && (decide (b.ringCount = 0) || s.reach b.ctx b.rings (64 * b.ringCount) false)
  let imagesOk := known && (decide (b.imageCount = 0) || s.reach b.ctx b.images (24 * b.imageCount) false)
  let rs := if ringsOk then (List.range b.ringCount).map (fun i => ringOf (s.engineNum b.ctx (b.rings + 64 * i) 64)) else []
  let loft := cls.map (fun c => (s.loftWindow b.ctx (dieOfCluster c)).2)
  let is :=
    if imagesOk then
      (List.range b.imageCount).map (fun i => imageOf (s.engineNum b.ctx (b.images + 24 * i) 24) b.winSize loft)
    else []
  let codeOk : Bool := decide (b.code < 2 ^ 48) &&
    match walkOpen s b.ctx b.code with
    | .ok pa attr _ => (checkLeaf { rd := false, wr := false, ex := true, user := true } pa attr).isNone && !isWorked attr && s.layerOk pa
    | .fail _ _ _ => false
  let recordOk := decide (b.record = 0) || s.reach b.ctx b.record 64 true
  if b.badRange raw then .error 1
  else if decide (b.swizzle ≠ 0) && decide (2 ≤ b.order) then .error 2
  else if (decide (2 ≤ b.gang) && !b.determ) || (decide (2 ≤ b.gang) && decide (b.crew ≠ b.gang)) then .error 3
  else if cls.isEmpty then .error 4
  else if cls.all (fun c => (coresOf c).all (fun k => (s.serves b k).isNone)) then .error 5
  else if cls.any planBad then .error 6
  else if rs.any (·.isNone) || is.any (·.isNone) then .error 7
  else if known && !(ringsOk && imagesOk && codeOk && recordOk) then .error 8
  else if user && (decide (b.ctx ≠ sub.1) || decide (sub.2 < b.prio)) then .error 9
  else if !known then .error 10
  else .ok (ringRegs (rs.filterMap id), is.filterMap id)

/-! ## Completion records (R314, R315) -/

/-- The physical address of a record; none for no record, or where it is not reached. -/
def State.recordPa (s : State) (ctx va : Nat) : Option Nat :=
  if va = 0 then none
  else
    match accessWalk s ctx va true true with
    | .ok pa attr _ => if isWorked attr then none else some pa
    | .fail _ _ _ => none

/-- Bytes written at their home by an engine, leaving no owner (R200). -/
def State.engineStore (s : State) (ctx pa n v : Nat) : State :=
  homeWrite s none false ctx (bytesOf v pa n) (wordsOf pa n false)

/-- Member outcomes of a record: the offset of its count. -/
inductive Outcome3 where
  | completed | cancelled | failed
  deriving DecidableEq, Repr

/-- The offset of an outcome's count in a record. -/
def Outcome3.offset (o : Outcome3) : Nat :=
  match o with
  | .completed => 8 | .cancelled => 12 | .failed => 16

/-- A count of the record at `pa` raised by `n`; a failed member sets flag bit 0. -/
def State.bump (s : State) (ctx pa off n : Nat) : State :=
  let s1 := s.engineStore ctx (pa + off) 4 (s.home.num (pa + off) 4 + n)
  if off = 16 ∧ n ≠ 0 then s1.engineStore ctx (pa + 2) 2 (s1.home.num (pa + 2) 2 ||| 1) else s1

/-- A fail-list entry of the record at `pa`, or flag bit 1 where the list is full or not reached (R315). -/
def State.failEntry (s : State) (ctx pa e : Nat) : State :=
  let w := s.home.num (pa + 44) 4
  let full := s.engineStore ctx (pa + 2) 2 (s.home.num (pa + 2) 2 ||| 2)
  if w < s.home.num (pa + 40) 4 then
    match accessWalk s ctx (s.home.num (pa + 32) 8 + 8 * w) true true with
    | .ok fp _ _ => (s.engineStore ctx fp 8 e).engineStore ctx (pa + 44) 4 (w + 1)
    | .fail _ _ _ => full
  else full

/-- The completion test of the record at `va` (R315): its state, and its one member outcome to its parent, which may then
complete in its turn. A parent equal to `skip` is not told here. -/
def State.complete (s : State) (ctx va skip fuel : Nat) : State :=
  match fuel with
  | 0 => s
  | fuel + 1 =>
    match s.recordPa ctx va with
    | none => s
    | some pa =>
      let st := (s.home.byte (pa + 1)).toNat
      let f := s.home.num (pa + 16) 4
      if (st = 0 ∨ st = 2) ∧ s.home.num (pa + 8) 4 + s.home.num (pa + 12) 4 + f = s.home.num (pa + 4) 4 then
        let s1 := s.engineStore ctx (pa + 1) 1 (if st = 2 then 3 else 1)
        let up := s.home.num (pa + 24) 8
        match (if up = skip then none else s1.recordPa ctx up) with
        | none => s1
        | some pp =>
          let o : Outcome3 := if f ≠ 0 then .failed else if st = 2 then .cancelled else .completed
          (s1.bump ctx pp o.offset 1).complete ctx up 0 fuel
      else s

/-- A record or one of its ancestors is in state 2 (R332). -/
def State.cancelling (s : State) (ctx va fuel : Nat) : Bool :=
  match fuel with
  | 0 => false
  | fuel + 1 =>
    match s.recordPa ctx va with
    | none => false
    | some pa => decide ((s.home.byte (pa + 1)).toNat = 2) || s.cancelling ctx (s.home.num (pa + 24) 8) fuel

/-- The graph of a number. -/
def State.graph (s : State) (id : Nat) : Option GraphRun := s.graphs.find? (fun g => g.id == id)

/-- The launch of a number. -/
def State.launch (s : State) (id : Nat) : Option Launch := s.launches.find? (fun l => l.id == id)

/-- `s` with launch `l` in the place of the one of its number. -/
def State.putLaunch (s : State) (l : Launch) : State :=
  { s with launches := s.launches.map (fun x => if x.id == l.id then l else x) }

/-- A graph or one that encloses it is cancelling. -/
def State.graphCancelling (s : State) (id fuel : Nat) : Bool :=
  match fuel with
  | 0 => false
  | fuel + 1 =>
    match s.graph id with
    | none => false
    | some g =>
      s.cancelling g.ctx g.record 4 ||
        (match g.origin with | .node up _ => s.graphCancelling up fuel | _ => false)

/-- A launch is cancelling (R332). -/
def State.launchCancelling (s : State) (l : Launch) : Bool :=
  l.swept || s.cancelling l.blk.ctx l.blk.record 4 ||
    (match l.origin with | .node g _ => s.graphCancelling g 5 | _ => false)

/-- A record cancelled, by an ancestor too: state 0 becomes 2 (R331, R332). -/
def State.cancelRecord (s : State) (ctx va : Nat) : State :=
  match s.recordPa ctx va with
  | some pa => if s.home.byte (pa + 1) = 0#8 then s.engineStore ctx (pa + 1) 1 2 else s
  | none => s

/-- The tiles never handed out counted cancelled, once (R332). -/
def State.sweep (s : State) (l : Launch) : State :=
  if l.swept then s
  else
    let n := l.blk.tiles - l.started
    let s1 := (s.putLaunch { l with swept := true, cancelled := l.cancelled + n }).cancelRecord l.blk.ctx l.blk.record
    match s1.recordPa l.blk.ctx l.blk.record with
    | some pa => s1.bump l.blk.ctx pa 12 n
    | none => s1

/-- What hears of an end: an arrival at a barrier, or the end of a node (R215, R330). -/
def State.tell (s : State) (o : Origin) (fails cancelled : Bool) : State :=
  match o with
  | .none => s
  | .barrier ctx pa => s.barrier none ctx pa (.arrive 1)
  | .node g n =>
    { s with graphs := s.graphs.map (fun x =>
        if x.id == g then
          { x with states := x.states.set n (.ended fails cancelled (match x.states[n]? with | some (.running r) => r | _ => 0)) }
        else x) }

/-- Every store of core `n` before place `seq` of its program order has been performed at its package point, pushed elements of its
flumes among them (R179, R188, R315). -/
def State.performedTo (s : State) (n seq : Nat) : Bool :=
  let c := s.coreAt n
  c.sb.all (fun e => decide (seq ≤ e.seq)) && s.outq.all (fun e => e.2.core != n || decide (seq ≤ e.2.seq)) &&
    c.engines.all (fun e => decide (seq ≤ e.seq) || e.ended) && c.timed.all (fun x => decide (seq ≤ x.seq) || !x.stores) &&
    c.flumes.all (fun f => !f.shape.write || f.buf.all (fun e => decide (seq ≤ e.2.2))) &&
    s.dies.all (fun d => d.2.accesses.all (fun a => a.core != n || a.load || decide (seq ≤ a.seq)))

/-- Units of a launch that run, wait to be resumed, or have ended with stores to perform. -/
def State.unitsLeft (s : State) (l : Launch) : Bool :=
  !l.waiting.isEmpty || !l.pend.isEmpty || s.cores.any (fun e => match e.2.unit with | some u => u.launch == l.id | none => false)

/-- A launch whose tiles are all accounted for and whose units have ended leaves its dispatchers: its record completes, and
what submitted it hears of it (R315). -/
def State.settleLaunch (s : State) (id : Nat) : State :=
  match s.launch id with
  | none => s
  | some l0 =>
    let l : Launch := { l0 with pend := l0.pend.filter (fun e => !s.performedTo e.1 e.2) }
    let s1 := s.putLaunch l
    if l.completed + l.cancelled + l.failed = l.blk.tiles ∧ !s1.unitsLeft l then
      let skip := match l.origin with | .node g _ => (match s1.graph g with | some x => x.record | none => 0) | _ => 0
      let cancelled := match s1.recordPa l.blk.ctx l.blk.record with
        | some pa => decide ((s1.home.byte (pa + 1)).toNat = 2)
        | none => l.swept
      let s2 := s1.complete l.blk.ctx l.blk.record (if skip = 0 then 2 ^ 64 else skip) 4
      ({ s2 with launches := s2.launches.filter (fun x => x.id != id) } : State).tell l.origin (decide (l.failed ≠ 0))
        (cancelled && decide (l.failed = 0))
    else s1

/-- Every launch settled: called where a store, an engine write or a chunk has been performed, or a unit has ended. -/
def State.settle (s : State) : State := (s.launches.map (·.id)).foldl State.settleLaunch s

/-- An accepted launch: its record, and its place in the order of acceptance (R314, R317). -/
def State.acceptLaunch (s : State) (raw : Nat) (addr : Word) (origin : Origin) (rings : List Ring) (images : List ImageEntry) : State :=
  let b := LaunchBlk.parse raw
  let s1 :=
    match s.recordPa b.ctx b.record with
    | none => s
    | some pa =>
      let s1 := s.engineStore b.ctx pa 2 0
      let s2 := s1.engineStore b.ctx (pa + 4) 4 b.tiles
      let s3 := s2.engineStore b.ctx (pa + 8) 16 0
      (s3.engineStore b.ctx (pa + 44) 4 0).engineStore b.ctx (pa + 48) 2 b.ctx
  { s1 with
    nextId := s1.nextId + 1,
    launches := s1.launches ++ [{
      id := s1.nextId, blk := b, addr := addr, origin := origin, ringRegs := rings, images := images, next := 0, exec := [],
      crews := [], granted := [], dies := [], prepared := [], waiting := [], started := 0, completed := 0, cancelled := 0,
      failed := 0, swept := false, pend := [] }] }

/-- A submission (R317): the state after it, and 0 or the refusal code. -/
def State.submit (s : State) (raw : Nat) (addr : Word) (origin : Origin) (user : Bool) (sub : Nat × Nat) : State × Nat :=
  match s.launchCheck raw user sub with
  | .error c => (s, c)
  | .ok (r, i) => (s.acceptLaunch raw addr origin r i, 0)

/-! ## Handing out tiles (R320) -/

/-- The executor of a member. -/
def LaunchBlk.executor (b : LaunchBlk) (crew pos : Nat) : Nat := if 1 < b.gang then crew else crew * b.crew + pos

/-- The next tile of a launch for a member; none for null. Each tile handed out adds 1 to started. -/
def State.handOut (s : State) (id crew pos : Nat) : State × Option Nat :=
  match s.launch id with
  | none => (s, none)
  | some l =>
    if s.launchCancelling l then (s.sweep l, none)
    else
      let e := l.blk.executor crew pos
      let k := SMap.get l.exec e 0
      let t := if l.blk.determ then e + l.blk.executors * k else l.next
      if l.blk.tiles ≤ t then (s, none)
      else
        let s1 := s.putLaunch { l with
          next := (if l.blk.determ then l.next else l.next + 1),
          exec := (if l.blk.determ then SMap.set l.exec e (k + 1) 0 else l.exec),
          started := l.started + 1 }
        match s1.recordPa l.blk.ctx l.blk.record with
        | some pa => (s1.bump l.blk.ctx pa 20 1, some t)
        | none => (s1, some t)

/-! ## Units on cores (R159 to R161, R321, R322) -/

/-- `m` without the bytes and the poison of `n` bytes from `a`, a multiple of 4. -/
def Mem.clear (m : Mem) (a n : Nat) : Mem :=
  { bytes := m.bytes.filter (fun e => decide (e.1 < a) || decide (a + n ≤ e.1)),
    poison := m.poison.filter (fun e => decide (e.1 < a / 4) || decide ((a + n) / 4 ≤ e.1)) }

/-- The bytes and word poison of an image, for a destination whose byte 0 stands at `base`. -/
def State.imageBytes (s : State) (ctx base : Nat) (i : ImageEntry) : List (Nat × Byte) × List (Nat × Bool × Bool) :=
  let l := (List.range i.size).map (fun k => (base + i.dst + k, s.engineByte ctx (i.src + k)))
  (l.map (fun e => (e.1, e.2.1)), wordsOfBytes (l.map (fun e => (e.1, e.2.2))))

/-- A memory with images written in their order. -/
def State.putImages (s : State) (m : Mem) (ctx base sp : Nat) (l : List ImageEntry) : Mem :=
  (l.filter (fun i => i.space == sp)).foldl (fun m i => let b := s.imageBytes ctx base i; m.store b.1 b.2) m

/-- The window of a launch is granted on a cluster: zeroed, then its image; and the loft images of its die, once. -/
def State.grant (s : State) (l : Launch) (cl : Nat) : State :=
  let d := dieOfCluster cl
  let wb := 2 ^ 23 * cl + l.blk.winBase
  let s1 := if l.granted.contains cl then s
    else { s with cmem := s.putImages (s.cmem.clear wb l.blk.winSize) l.blk.ctx wb 2 l.images }
  let s2 := if l.dies.contains d then s1
    else { s1 with loft := s1.putImages s1.loft l.blk.ctx (2 ^ 26 * d + (s1.loftWindow l.blk.ctx d).1) 1 l.images }
  s2.putLaunch { l with granted := (if l.granted.contains cl then l.granted else l.granted ++ [cl]),
                        dies := (if l.dies.contains d then l.dies else l.dies ++ [d]) }

/-- Another launch on the cluster holds a window that overlaps (R321). -/
def State.windowClash (s : State) (l : Launch) (cl : Nat) : Bool :=
  decide (l.blk.winSize ≠ 0) && !l.granted.contains cl &&
    s.launches.any (fun x => x.id != l.id && x.granted.contains cl && decide (x.blk.winSize ≠ 0) &&
      decide (l.blk.winBase < x.blk.winBase + x.blk.winSize) && decide (x.blk.winBase < l.blk.winBase + l.blk.winSize))

/-- A core is free: it serves no launch, and nothing of an earlier unit still leaves it. -/
def Core.free (c : Core) : Bool :=
  c.unit.isNone && c.job.isNone && c.failed.isNone && c.engines.isEmpty && c.flumes.isEmpty && !c.awaits

/-- The state words that a placement writes (R324, R349, R358, R391, R394). -/
def placeWords (w : StatusWords) (b : LaunchBlk) (mode pos : Nat) (core : Nat) (ci : CtxInfo) : StatusWords :=
  let vbase := ci.errRing.toNat + 16384 * core
  let g := if 1 < b.gang then Nat.log2 b.gang else 0
  { w with
    ctxId := BitVec.ofNat 64 (b.ctx + 65536 * b.prio),
    gangPos := BitVec.ofNat 64 (pos * 2 ^ 8 + (b.crew - 1) * 2 ^ 12 + (if 1 < b.gang then pos * 2 ^ 16 else 0) + g * 2 ^ 20),
    determ := fieldPut w.determ 0 2 ((if b.determ then 1 else 0) + (if 1 < b.gang then 2 else 0)),
    checkctl := fieldPut (fieldPut w.checkctl 12 2 mode) 14 2 b.profile,
    trapVec := ci.handler &&& 0xFFFFFFFFFFC0#64,
    errLog := fieldPut w.errLog 12 36 (vbase / 4096) }

/-- A core with every register at its unit-start value (R85): what belongs to the core and not to its unit stays. -/
def Core.fresh (c : Core) : Core :=
  { Core.reset c.id with
    engmap := c.engmap, lanefuse := c.lanefuse, withdrawn := c.withdrawn, slices := c.slices, scratch := c.scratch, tlb := c.tlb, inval := c.inval, l1 := c.l1, sb := c.sb.map (fun e => { e with due := 0 }),
    fences := (c.fences.filter (fun f => !f.done)).map (fun f => { f with due := 0 }), seq := c.seq, job := c.job, lastLaunch := c.lastLaunch, debugStop := c.debugStop,
    debugStep := c.debugStep,
    sw := { StatusWords.reset with
      lanemap := c.sw.lanemap, quantum := c.sw.quantum, errLog := c.sw.errLog, trapVec := c.sw.trapVec,
      checkctl := fieldPut StatusWords.reset.checkctl 8 1 (fieldGet c.sw.checkctl 8 1) } }

/-- The slices and scratchpad of core `n` stand as launch `id` has them, and no longer as another has. -/
def State.claimCore (s : State) (id n : Nat) : State :=
  { s with launches := s.launches.map (fun l =>
      if l.id == id then (if l.prepared.contains n then l else { l with prepared := l.prepared ++ [n] })
      else { l with prepared := l.prepared.filter (· != n) }) }

/-- The slices and scratchpad of a core at the start of a launch on it (R159), and again where another launch has used it since. -/
def State.prepare (s : State) (l : Launch) (n : Nat) : State :=
  if l.prepared.contains n then s
  else
    let c := s.coreAt n
    (s.putCore n { c with
      scratch := s.putImages Mem.empty l.blk.ctx 0 3 l.images, slices := s.putImages Mem.empty l.blk.ctx 0 4 l.images,
      lastLaunch := some l.id }).claimCore l.id n

/-- The unit of a member with no tile and nothing decided. -/
def Launch.unitOf (l : Launch) (crew pos : Nat) : UnitInfo :=
  { launch := l.id, crew := crew, pos := pos, gang := l.blk.gangSize, tiles := [], window := (l.blk.winBase, l.blk.winSize),
    decisions := [], reached := 0, issues := 0, entry := 0, nexts := [], requests := 0, cancelled := false, first := 0 }

/-- A unit starts on core `n` with tile `t` (R85, R232, R322). -/
def State.startUnit (s : State) (n id crew pos t : Nat) : State :=
  match s.launch id with
  | none => s
  | some l0 =>
    let s1 := s.prepare l0 n
    match s1.launch id, s1.ctxInfo l0.blk.ctx with
    | some l, some ci =>
      let b := l.blk
      let c := (s1.coreAt n).fresh
      let c1 : Core := { c with
        sw := placeWords c.sw b ((s1.serves b n).getD 0) pos n ci,
        ring := (List.range 8).foldl (fun m i => SMap.set m i (l.ringRegs.getD i Ring.zero) Ring.zero) [],
        job := some (id, crew, pos), unit := some { l.unitOf crew pos with tiles := [t], first := c.seq },
        pc := codeAddr (BitVec.ofNat 64 b.code), running := true, next := if 1 < b.gang then 4 * pos else 0 }
      let word (v : Word) : SReg := { SReg.zero with val := v }
      let c2 := ((c1.putS 127 (word (BitVec.ofNat 64 (b.tile t)))).putS 126 (word (BitVec.ofNat 64 b.args))).putS 125
        (word l.addr)
      let k := s1.hub.kernels.find? (fun k => k.ctx == b.ctx && k.code.toNat == b.code)
      let c3 : Core := { c2 with phase := { c2.phase with table := (match k with | some k => k.table | none => 0) } }
      s1.putCore n c3
    | _, _ => s1

/-- What is left of a unit that has gone from its core: engine writes to memory and pushed elements finish; everything that
would reach its registers is dropped (R86, R390). -/
def Core.release (c : Core) : Core :=
  { c.fresh with
    engines := c.engines.filter (fun e =>
      match e.kind with
      | .tileStore _ | .scatter _ | .kvstore _ | .kvfree | .kvho | .spill _ => !e.ended
      | _ => false),
    flumes := c.flumes.filter (fun f => f.shape.write && !f.buf.isEmpty), t := c.t, ring := c.ring,
    timed := c.timed.filter (fun x => match x.act with | .store _ _ _ => true | .chunkTake _ _ _ => true | _ => false),
    time := c.time,
    sw := { c.fresh.sw with ctxId := c.sw.ctxId }, job := c.job }

/-- The clock of a cluster (R414, R420): raised to 940 MHz under full service while no unit is placed there, and dropped at
a unit boundary while some die is in the throttle band. -/
def State.clock (s : State) (cl : Nat) : State :=
  let idle := (coresOf cl).all (fun n => (s.coreAt n).unit.isNone)
  if s.dies.any (fun e => decide (2 ≤ e.2.band)) then { s with fast := s.fast.filter (· != cl) }
  else if 7 ≤ s.hub.stage ∧ idle = true ∧ s.fast.contains cl = false then { s with fast := s.fast ++ [cl] }
  else s

/-- Another member of the gang of core `n`'s unit has not ended: it runs, or waits to be resumed (R320, R327). -/
def State.gangLeft (s : State) (n : Nat) (u : UnitInfo) : Bool :=
  decide (1 < u.gang) &&
    (s.cores.any (fun e => e.1 != n && (match e.2.unit with | some v => v.launch == u.launch && v.crew == u.crew | none => false)) ||
      (match s.launch u.launch with | some l => l.waiting.any (fun p => p.unit.crew == u.crew) | none => false))

/-- The tiles of a gang, which its lead has received, pass to the members that end after it. -/
def State.passTiles (s : State) (u : UnitInfo) : State :=
  let f (v : UnitInfo) : UnitInfo := if v.launch == u.launch && v.crew == u.crew then { v with tiles := u.tiles } else v
  { s with
    cores := s.cores.map (fun e => (e.1, { e.2 with unit := e.2.unit.map f }))
    launches := s.launches.map (fun l => if l.id == u.launch then { l with waiting := l.waiting.map (fun p => { p with unit := f p.unit }) } else l) }

/-- The unit of core `n` ends: its tiles count by `o`, those of a gang with its last member, a failure with its cause in the fail list, and
its core leaves the unit. Its launch settles when its stores have been performed (R315, R320, R327, R332, R390). -/
def State.endUnit (s : State) (n : Nat) (o : Outcome3) (cause : Nat) : State :=
  let c := s.coreAt n
  match c.unit with
  | none => s
  | some u =>
    let left := s.gangLeft n u
    let s0 := if left && u.pos == 0 then s.passTiles u else s
    let s1 := (s0.putCore n { c.release with unit := none, failed := none, running := false }).clock (clusterOf n)
    match s1.launch u.launch with
    | none => s1
    | some l =>
      let k := if left then 0 else u.tiles.length
      let l1 : Launch := { l with
        completed := l.completed + (if o == Outcome3.completed then k else 0),
        cancelled := l.cancelled + (if o == Outcome3.cancelled then k else 0),
        failed := l.failed + (if o == Outcome3.failed then k else 0), pend := l.pend ++ [(n, c.seq)] }
      let s2 := s1.putLaunch l1
      let s3 :=
        match s2.recordPa l.blk.ctx l.blk.record with
        | none => s2
        | some pa =>
          let s3 := s2.bump l.blk.ctx pa o.offset k
          if o = Outcome3.failed ∧ k ≠ 0 then
            u.tiles.foldl (fun s t =>
              s.failEntry l.blk.ctx pa (l.blk.tile t + n * 2 ^ 32 + cause % 2 ^ 16 * 2 ^ 48)) s3
          else s3
      s3.settle

/-- The pre-empted members of the gang of core `n` end with it, and the lead's tiles pass on. -/
def State.dropWaiting (s : State) (n : Nat) : State :=
  match (s.coreAt n).unit with
  | none => s
  | some u =>
    match s.launch u.launch with
    | none => s
    | some l =>
      let mine := l.waiting.filter (fun p => p.unit.crew == u.crew)
      let s1 := s.putLaunch { l with waiting := l.waiting.filter (fun p => p.unit.crew != u.crew) }
      match mine.find? (fun p => p.unit.pos == 0) with
      | some p => s1.passTiles p.unit
      | none => s1

/-- The unit of core `n` is reported failed, with the other members of its gang, which is one unit (R315, R320, R327). -/
def State.failUnit (s : State) (n cause : Nat) : State :=
  let others := (s.coreAt n).gangCores.filter (· != n)
  (if others.isEmpty then s else others.foldl (fun s k => s.endUnit k .failed cause) (s.dropWaiting n)).endUnit n .failed cause

/-- The member that a core serves, changed. -/
def State.onMember (s : State) (id crew pos : Nat) (f : Member → Member) : State :=
  match s.launch id with
  | none => s
  | some l =>
    s.putLaunch { l with crews := l.crews.map (fun k =>
      if k.index == crew then { k with members := k.members.mapIdx (fun i m => if i = pos then f m else m) } else k) }

/-- The core leaves its launch (R322). -/
def State.leave (s : State) (n : Nat) : State :=
  let c := s.coreAt n
  match c.job with
  | none => s
  | some (id, crew, pos) =>
    (s.putCore n { c with job := none }).onMember id crew pos (fun m => { m with left := true, core := none })

end Sys2Proof.Machine
end

