-- ==== Sys2Proof/Machine/System.lean ====
section
/-! DEFINITION. S.NXT (R125) and the system instructions (R365 to R367, R372, R425 to R427), with the context record. -/

namespace Sys2Proof.Machine

/-- S.NXT asks for the unit's next tile; the answer lands in s127 after 40 cycles. A gang asks once, at its lead, and each member
takes the words in their order (R327). -/
def semSNxt (h : Hdr) (_f : OpNone) : Sem :=
  { writes := fun c => [c.xs 127#7], results := 1, seals := fun _ => true
    eff := fun s =>
      let c := s.me
      let land (s : State) (w : Nat) : State :=
        s.onMe (fun c => c.outS h.slot 127#7 40 (BitVec.ofNat 64 w) false)
      match c.unit with
      | none => land s 0xFFFFFFFF
      | some u =>
        if 1 < u.gang ∧ u.pos ≠ 0 then
          land (s.onMe (fun c => { c with unit := some { u with requests := u.requests + 1 } })) (u.nexts.getD u.requests 0xFFFFFFFF)
        else
          let (s1, t) := s.handOut u.launch u.crew u.pos
          let w := (match t, s1.launch u.launch with | some t, some l => l.blk.tile t | _, _ => 0xFFFFFFFF)
          let s2 := s1.tellGang s.coreNo (fun v => { v with nexts := v.nexts ++ [w] })
          land (s2.onMe (fun c => { c with unit := some { u with tiles := u.tiles ++ t.toList, requests := u.requests + 1 } })) w }

/-- The meaning of the row: one issue of the operation. -/
def execSNxt (h : Hdr) (f : OpNone) (s : State) : Host.Outcome State Fault Refusal :=
  (semSNxt h f).run h s

/-! ## The context record (R366, R367, R387, R426, R427) -/

/-- A bitmap of the keys of a map whose entry passes. -/
def bitmapOf {α : Type} (m : SMap α) (p : α → Bool) : Nat :=
  m.foldl (fun n e => if p e.2 then n + 2 ^ e.1 else n) 0

/-- The destination code of a snapshot entry (R426): the kind at bits 15:12 and the number. A result without a destination has no
entry of the layout and is not in use there; a write of a tag alone stands as a whole write of what the register then holds. -/
def Dest.code (d : Dest) : Nat :=
  match d with
  | .scalar n => n | .pred n => 4096 + n | .mask n => 8192 + n | .vec n => 12288 + n | .flume n => 12288 + n
  | .vtag n => 12288 + n | .ttag n => 24576 + n
  | .status i => 16384 + i | .base n => 16384 + 0x060 + n | .warn k => 16384 + 0x028 + k
  | .tileRow t _ => 24576 + t | .ringRow h _ => 28672 + h | .none => 0

/-- A drain into a tile or a ring. -/
def Dest.isDrain (d : Dest) : Bool :=
  match d with
  | .tileRow _ _ => true | .ringRow _ _ => true | .ttag _ => true | _ => false

/-- The entry that a record keeps for a result: the whole value that its destination would take from the bytes alone (R426). -/
def Core.recordForm (c : Core) (f : Flight) : Flight :=
  match f.dest with
  | .vtag n => { f with val := (c.vreg n).val.setWidth 8192, poison := (c.vreg n).poison.setWidth 256 }
  | .ttag _ => { f with size := 0, val := 0, poison := 0 }
  | .status i => { f with tag := 0, val := (if f.tag = 1#4 then rwWrite i c.sw.checkctl (c.sw.get i) (f.val.setWidth 64) else f.val.setWidth 64).setWidth 8192 }
  | .warn k => { f with val := (satAdd16 (c.sw.get (0x028 + k)) 32 f.val.toNat).setWidth 8192 }
  | _ => f

/-- The fields of snapshot entry `e` of a record, as (offset, size, value). -/
def Flight.fields (f : Flight) (e : Nat) : List (Nat × Nat × Nat) :=
  let o := 0x4000 + 160 * e
  let line := match f.dest with | .tileRow _ l => l | .ringRow _ k => k | _ => 0
  if f.dest == .none then []
  else
  [(o, 2, f.dest.code), (o + 2, 1, f.tag.toNat), (o + 3, 1, 1 + (if f.mismatch then 2 else 0)), (o + 8, 8, f.land)] ++
  (if f.dest.isDrain then
    [(o + 16, 2, line), (o + 18, 2, f.size), (o + 32, 32, f.poison.toNat), (0x109000 + 1024 * e, 1024, f.val.toNat)]
  else [(o + 4, 4, f.poison.toNat), (o + 32, 128, f.val.toNat % 2 ^ 1024)])

/-- The fields of a slot's captured operands (R427). -/
def CapSlot.fields (k : CapSlot) : List (Nat × Nat × Nat) :=
  let o := 512 + 512 * k.slot
  [(o, 1, k.vals.length), (o + 1, 1, (if k.guard then 1 else 0) + (if k.guardPoison then 2 else 0)), (o + 4, 4, k.disp.toNat),
   (o + 8, 4, k.base.toNat)] ++
  ((List.range k.vals.length).zip k.vals).flatMap (fun e =>
    let v := o + 16 + 160 * e.1
    [(v, 2, e.2.kind * 4096 + e.2.num), (v + 2, 1, e.2.tag.toNat), (v + 4, 4, e.2.poison.toNat), (v + 16, 128, e.2.val.toNat)])

/-- The value of a latched slab value: the integer in 48 bits, or the bits pushed under a window pair. -/
def LVal.word (x : LVal) : Nat :=
  wrap x.val 48 + 2 ^ 48 * ((if x.nan then 1 else 0) + (if x.pinf then 2 else 0) + (if x.minf then 4 else 0) +
    (if x.neg then 8 else 0)) + (if x.poison then 2 ^ 56 else 0)

/-- A latched slab value read back; under a window pair the bits are taken as they stand. -/
def LVal.ofWord (w : Nat) (window : Bool) : LVal :=
  let b (i : Nat) : Bool := decide (w / 2 ^ i % 2 = 1)
  { val := if window then ((w % 2 ^ 48 : Nat) : Int) else sx w 48, nan := b 48, pinf := b 49, minf := b 50, neg := b 51, poison := b 56 }

/-- The value of an accumulator position. -/
def Pos.word (p : Pos) : Nat :=
  p.res.toNat + 2 ^ 48 * ((if p.nan then 1 else 0) + (if p.pinf then 2 else 0) + (if p.minf then 4 else 0) +
    (if p.zneg then 8 else 0)) + (if p.poison then 2 ^ 56 else 0)

/-- An accumulator position read back. -/
def Pos.ofWord (w : Nat) : Pos :=
  let b (i : Nat) : Bool := decide (w / 2 ^ i % 2 = 1)
  { res := BitVec.ofNat 48 w, nan := b 48, pinf := b 49, minf := b 50, zneg := b 51, poison := b 56 }

/-- The fields of an accumulator set at offset `o`. -/
def ASet.fields (a : ASet) (o : Nat) : List (Nat × Nat × Nat) :=
  (if a.zneg then (List.range 16384).map (fun k => (o + 8 * k, 8, (Pos.zero true).word)) else []) ++
    a.cells.map (fun e => (o + 8 * e.1, 8, e.2.word))

/-- The fields of a ring state: the descriptor of R231, head and count (their places in the 128 bytes: log 18), and its
entry tags. -/
def Ring.fields (r : Ring) (n : Nat) : List (Nat × Nat × Nat) :=
  let o := 0x8000 + 128 * n
  (if r.valid then [(o, 4, r.base), (o + 4, 2, r.entries), (o + 6, 2, r.entryBytes), (o + 8, 1, n)] else []) ++
  [(o + 64, 4, r.head), (o + 68, 4, r.count), (0x8400 + 512 * n, 512, r.tags.foldl (fun x e => x + e.2.toNat * 2 ^ (4 * e.1)) 0)]

/-- The fields of a flume state (the places of its parts in the 128 bytes: log 18). -/
def Flume.fields (f : Flume) (i : Nat) : List (Nat × Nat × Nat) :=
  let o := 0xA000 + 128 * i
  [(o, 2, f.reg), (o + 2, 1, if f.shape.write then 1 else 0), (o + 3, 1, if f.main then 2 else 1), (o + 8, 8, f.disp.toNat),
   (o + 16, 8, f.next), (o + 64, 64, f.shape.encode)]

/-- The fields of a journal entry (R387). -/
def JEntry.fields (j : JEntry) (i : Nat) : List (Nat × Nat × Nat) :=
  let o := 0x272040 + 144 * i
  match j with
  | .scalar n r => [(o, 2, n), (o + 4, 4, if r.poison then 1 else 0), (o + 16, 8, r.val.toNat)]
  | .pred n r => [(o, 2, 4096 + n), (o + 4, 4, if r.poison then 1 else 0), (o + 16, 1, if r.val then 1 else 0)]
  | .mask n r => [(o, 2, 8192 + n), (o + 4, 4, if r.poison then 1 else 0), (o + 16, 4, r.val.toNat)]
  | .vec n r => [(o, 2, 12288 + n), (o + 2, 1, r.tag.toNat), (o + 4, 4, r.poison.toNat), (o + 16, 128, r.val.toNat)]
  | .status k w => [(o, 2, 16384 + k), (o + 16, 8, w.toNat)]
  | .latch n l => [(o, 2, 20480 + n), (o + 16, 8, l.word.toNat), (o + 24, 1, if l.full then 1 else 0), (o + 28, 4, l.disp.toNat)]

/-- The code of a space (R362). -/
def Space.num (s : Space) : Nat :=
  match s with
  | .main => 0 | .loft => 1 | .cluster => 2 | .scratch => 3 | .slices => 4 | .code => 5

/-- The fields of a held line (R387). -/
def SegLine.fields (l : SegLine) (i : Nat) : List (Nat × Nat × Nat) :=
  let o := 0x272000 + 0x9400 + 128 * i
  [(o, 8, l.space.num), (o + 8, 8, l.addr * 64), (o + 16, 8, l.bytes.foldl (fun n e => n + 2 ^ (e.1 % 64)) 0),
   (o + 24, 2, l.words.foldl (fun n e => if e.2.1 then n + 2 ^ (e.1 % 16) else n) 0)] ++
  l.bytes.map (fun e => (o + 64 + e.1 % 64, 1, e.2.toNat))

/-- The status words of the context, by index, as the record keeps them: the held state's own where the bank holds them,
and PRIV without SUP, HELD and SFLT, which belong to the handler (log 18). -/
def contextWords (c : Core) (h : Held) : List (Nat × Word) :=
  [(0x001, c.sw.gangPos), (0x002, c.sw.ctxId), (0x003, fieldPut c.sw.priv 0 3 0), (0x008, h.rot), (0x009, h.lc),
   (0x00A, h.depth), (0x00B, h.repc), (0x010, c.sw.stepS), (0x011, c.sw.stepV0), (0x012, c.sw.stepV1), (0x013, c.sw.stepC0),
   (0x014, c.sw.stepC1), (0x020, c.sw.mcfg), (0x021, c.sw.kcount0), (0x022, c.sw.kcount1), (0x023, c.sw.respol),
   (0x028, c.sw.vcfg0), (0x029, c.sw.vcfg1), (0x030, c.sw.beatBase), (0x031, h.beatNow), (0x038, c.sw.checkctl),
   (0x040, c.sw.trapCause), (0x041, c.sw.trapPc), (0x042, c.sw.faultAddr), (0x043, c.sw.faultInfo), (0x046, c.sw.phaseCnt),
   (0x047, c.sw.segState), (0x049, c.sw.determ)] ++
  (List.range 16).map (fun n => (0x060 + n, (c.breg n).setWidth 64))

/-- Every field of a record that is not a byte of the slices or the scratchpad; `fall` is the address that a transfer not
taken goes on to, which is the value of a pending link too. -/
def Core.recordFields (c : Core) (h : Held) (fall : Word) : List (Nat × Nat × Nat) :=
  let sr := h.s ++ bankRest c.s
  let pr := h.p ++ bankRest c.p
  let x := h.xfer
  let upd : Nat := match x with
    | none => 0
    | some x => (if x.lc.isSome then 1 else 0) + (if x.depth.isSome then 2 else 0) + (if x.rot.isSome then 4 else 0) +
        (if x.p32.isSome then 8 else 0) + (if x.link.isSome then 16 else 0)
  let flags := (if h.atIssue then 1 else 0) + (if h.slip.isSome then 2 else 0) + (if x.isSome then 4 else 0) +
    (if h.skip then 8 else 0) + (if c.phase.stopped then 16 else 0)
  let word (o : Option Word) : Nat := match o with | some w => w.toNat | none => 0
  let tree : Nat := match h.capTree with
    | some t => t.tests.toNat + t.poisons.toNat * 16 + t.leaf * 256 + (if t.hasTree then 2 ^ 15 else 0)
    | none => 0
  let caps := h.cap ++ (match h.slip with | some p => [p.cap] | none => [])
  [(0, 4, 0x58544357), (4, 2, 1), (6, 2, c.ctx), (8, 1, if Config.steppingB0 then 1 else 0), (9, 1, fieldGet c.sw.checkctl 14 2),
   (10, 1, fieldGet c.sw.checkctl 12 2), (11, 1, flags), (16, 8, c.sw.lanemap.toNat), (24, 8, h.pc.toNat),
   (32, 8, max h.time h.next),
   (40, 8, match x with | some x => (match x.target with | some w => w.toNat | none => fall.toNat) | none => 0),
   (48, 1, match x with | some x => x.left | none => 0), (49, 1, match h.slip with | some p => slotCode p.slot | none => 0),
   (56, 8, word (x.bind (·.lc))), (64, 2, word (x.bind (·.depth)) % 65536), (66, 1, upd),
   (67, 1, match x.bind (·.p32) with | some true => 1 | _ => 0), (68, 4, word (x.bind (·.rot)) % 2 ^ 22),
   (72, 8, if (x.bind (·.link)).isSome then fall.toNat else 0), (80, 1, (x.bind (·.link)).getD 0), (88, 8, c.phase.expected), (96, 8, c.phase.table.toNat), (104, 2, tree)] ++
  caps.flatMap CapSlot.fields ++
  sr.map (fun e => (0x1000 + 8 * e.1, 8, e.2.val.toNat)) ++
  [(0x1400, 16, bitmapOf sr (·.poison)), (0x1410, 8, 1 + bitmapOf (pr.filter (fun e => e.1 != 0)) (·.val)),
   (0x1418, 8, bitmapOf pr (·.poison)), (0x1460, 2, bitmapOf c.m (·.poison))] ++
  c.m.map (fun e => (0x1420 + 4 * e.1, 4, e.2.val.toNat)) ++
  (contextWords c h).map (fun e => (0x2000 + 8 * e.1, 8, e.2.toNat)) ++
  ((List.range 96).zip (h.flights.map c.recordForm)).flatMap (fun e => e.2.fields e.1) ++
  h.latches.flatMap (fun e => [(0x7C00 + 16 * e.1, 8, e.2.word.toNat), (0x7C00 + 16 * e.1 + 8, 1, if e.2.full then 1 else 0)]) ++
  (List.range 8).flatMap (fun n => (c.ringReg n).fields n) ++
  c.k.map (fun e => (0x9400 + 64 * e.1, 64, e.2.encode)) ++
  ((List.range 16).zip c.flumes).flatMap (fun e => e.2.fields e.1) ++
  [(0xC000, 384, c.v.foldl (fun n e => n + e.2.tag.toNat * 2 ^ (4 * e.1)) 0)] ++
  c.v.flatMap (fun e => [(0xC180 + 4 * e.1, 4, e.2.poison.toNat), (0x10000 + 128 * e.1, 128, e.2.val.toNat)]) ++
  (List.range 32).flatMap (fun n =>
    let t := c.treg n
    [(0xCD80 + n, 1, t.tag.toNat + (if t.ready then 16 else 0)), (0xCDA0 + 32 * n, 32, t.poison.toNat),
     (0x28000 + 16384 * n, 16384, t.val.toNat)]) ++
  c.arr.set0.fields 0xA8000 ++ c.arr.set1.fields 0xC8000 ++ c.arr.drain.fields 0xE8000 ++
  c.arr.latchA.map (fun e => (0x108000 + 8 * e.1, 8, e.2.word)) ++ c.arr.latchB.map (fun e => (0x108400 + 8 * e.1, 8, e.2.word)) ++
  [(0x108800, 16, c.arr.drained.toNat), (0x268000, 32768, bitmapOf c.scratch.poison (fun b => b)), (0x270000, 8192, bitmapOf c.slices.poison (fun b => b)),
   (0x272000, 8, c.sw.segState.toNat)] ++
  ((List.range 256).zip c.seg.journal).flatMap (fun e => e.2.fields e.1) ++
  ((List.range 64).zip c.seg.lines).flatMap (fun e => e.2.fields e.1)

/-- Every byte of a record that need not be zero, by offset. -/
def Core.recordBytes (c : Core) (h : Held) (fall : Word) : List (Nat × Byte) :=
  (c.recordFields h fall).flatMap (fun e => bytesOf e.2.2 e.1 e.2.1) ++
    c.slices.bytes.map (fun e => (0x128000 + e.1, e.2)) ++ c.scratch.bytes.map (fun e => (0x168000 + e.1, e.2))

/-- The physical base of each of the 40 pages of a record: none of them worked, each with the right it needs (R365). -/
def State.recordPages (s : State) (sl : Slot) (va : Word) (wr : Bool) : Except Trap (List Nat) :=
  let c := s.me
  let kind := if wr then 1 else 0
  if va.toNat % 65536 ≠ 0 then .error (c.memTrap sl 0x09 1 va 0 kind 0)
  else if 2 ^ 48 < va.toNat + 0x280000 then .error (c.memTrap sl 0x09 2 va 0 kind 0)
  else
    (List.range 40).foldl (fun r i =>
      match r with
      | .error t => .error t
      | .ok l =>
        match access s c c.ctx (va.toNat + 65536 * i) (s.pick sl + i) { rd := !wr, wr := wr, ex := false, user := false } with
        | .ok pa attr _ =>
          if isWorked attr then .error (c.memTrap sl 0x09 0 (va + BitVec.ofNat 64 (65536 * i)) 0 kind 0) else .ok (l ++ [pa])
        | .fail code sub level => .error { c.memTrap sl code sub (va + BitVec.ofNat 64 (65536 * i)) 0 kind 0 with level := level }) (.ok [])

/-- A page of main memory cleared by a context save: bytes 0, poison clear, no owner left, its lines dirty in an L2 that keeps its
size (R10, R18). -/
def State.clearPage (s : State) (ctx pa : Nat) : State :=
  let owned := s.owner.filter (fun e => decide (pa / 4 ≤ e.1 ∧ e.1 < pa / 4 + 16384))
  let s1 := owned.foldl (fun s e => revoke s e.1 none false) { s with home := s.home.clear pa 65536 }
  let s2 : State := { s1 with
    owner := s1.owner.filter (fun e => !decide (pa / 4 ≤ e.1 ∧ e.1 < pa / 4 + 16384)),
    dirty := (List.range 1024).foldl (fun m i => SMap.put m (pa / 64 + i) (ctx, some s.coreNo)) s1.dirty }
  if s2.owner.length + s2.dirty.length ≤ l2Size then s2 else (List.range 1024).foldl (fun s i => s.fitL2 (pa / 64 + i)) s2

/-- The physical address of offset `o` of a record. -/
def recAddr (pages : List Nat) (o : Nat) : Nat := pages.getD (o / 65536) 0 + o % 65536

/-- The address that a transfer not taken goes on to, after the delay bundles still owed (R128). -/
def State.fallOf (s : State) (h : Held) : Word :=
  match h.xfer with
  | none => 0
  | some x => (List.range x.left).foldl (fun a _ => a + BitVec.ofNat 64 (bundleBytes (s.codeWord a.toNat))) h.pc

/-- The held context of the core written to its record (R367). The write leaves its words without an owner (DESIGN CHOICE, log 73). -/
def State.writeRecord (s : State) (va : Word) (pages : List Nat) (h : Held) : State :=
  let c := s.me
  let fall := s.fallOf h
  let s1 := pages.foldl (fun s pa => s.clearPage c.ctx pa) s
  let bs := (c.recordBytes h fall).map (fun e => (recAddr pages e.1, e.2))
  let s2 := homeWrite s1 none false c.ctx bs (wordsOfBytes (bs.map (fun e => (e.1, false))))
  { s2 with saved := (c.ctx, va, h) :: s2.saved.filter (fun e => !(e.1 == c.ctx && e.2.1 == va)) }

/-- Pushes into write flume `n` among the results of the frozen context (R183, R356). -/
def Core.frozenPushes (c : Core) (n : Nat) : Nat :=
  match c.held with
  | some h => (h.flights.filter (fun f => f.dest == .flume n)).length
  | none => 0

/-- What S.CTXOUT and S.CTXIN wait for beside their own access: the full fence of R211, and every landing of R367. -/
def State.unsettled (s : State) : Bool :=
  let c := s.me
  !c.sb.isEmpty || s.outq.any (fun e => e.2.core == c.id) || !c.loads.isEmpty || c.timed.any (·.inMemory) ||
    !c.engines.all (fun e => e.stores && e.ended) || (!c.sw.segState.getLsbD 63 && !c.seg.held.isEmpty) ||
    c.flumes.any (fun f => f.shape.write && (f.inflight != c.frozenPushes f.reg || !f.buf.isEmpty)) ||
    s.dies.any (fun d => d.2.accesses.any (fun a => a.core == c.id))

/-- The privilege check of a system instruction (R365). -/
def Core.systemOnly (c : Core) (sl : Slot) : Option Trap := if c.sup then none else some (c.accessTrap sl 5 0)

/-- S.CTXOUT. -/
def semSCtxout (h : Hdr) (f : OpSA) : Sem :=
  let va (s : State) : Word := (s.me.rs h.slot f.sa).1
  { reads := fun c => [c.xs f.sa], seals := fun _ => true, holds := fun _ => true, waits := State.unsettled, saves := true
    check := fun s =>
      let c := s.me
      firstTrap [c.systemOnly h.slot, c.baseTrap h.slot f.sa, if c.isHeld && c.held.isSome then none else some (c.accessTrap h.slot 0 (va s)),
        trapOfPlan (s.recordPages h.slot (va s) true)]
    eff := fun s =>
      match s.recordPages h.slot (va s) true, s.me.held with
      | .ok pages, some k => (s.writeRecord (va s) pages { k with drainCount := s.me.arr.drainCount }).invalidate s.coreNo
      | _, _ => s }

/-- The meaning of the row: one issue of the operation. -/
def execSCtxout (h : Hdr) (f : OpSA) (s : State) : Host.Outcome State Fault Refusal :=
  (semSCtxout h f).run h s

/-! ## Reading a record back -/

/-- The number in `n` bytes at offset `o` of a record. -/
def State.recNum (s : State) (pages : List Nat) (o n : Nat) : Nat := s.home.num (recAddr pages o) n

/-- Bit `i` of a number. -/
def natBit (n i : Nat) : Bool := decide (n / 2 ^ i % 2 = 1)

/-- The destination that a code of R426 names; `line` is its line or entry. -/
def destOf (code line : Nat) : Dest :=
  let n := code % 4096
  match code / 4096 with
  | 0 => .scalar n | 1 => .pred n | 2 => .mask n | 3 => .vec n
  | 4 => if 0x060 ≤ n then .base (n - 0x060) else .status n
  | 6 => .tileRow n line | 7 => .ringRow n line | _ => .none

/-- Snapshot entry `e` of a record: none where it is not in use. What has no place in the record comes from the flight that
was saved there, where it is the same (log 17). Reserved bits of a status word stay zero (R4). -/
def State.recFlight (s : State) (pages : List Nat) (old : List Flight) (e : Nat) : Option Flight :=
  let o := 0x4000 + 160 * e
  let code := s.recNum pages o 2
  let flags := s.recNum pages (o + 3) 1
  let drain := decide (6 ≤ code / 4096)
  let d := destOf code (s.recNum pages (o + 16) 2)
  let base : Flight := match old[e]? with
    | some f => if f.dest.code = code then f else { f with dest := d, events := [], twin := none, opcode := 0, seg := false }
    | none => { dest := d, val := 0, tag := 0, poison := 0, land := 0, slot := 0, mismatch := false, twin := none, pc := 0,
                opcode := 0, seg := false, size := 0, events := [], issued := 0, seq := 0, acq := false }
  let whole : Bool := match base.dest with | .vtag _ => true | .ttag _ => true | .status _ => true | .warn _ => true | .none => true | _ => false
  if old.any (fun f => some f == old[e]?) && whole && (natBit flags 0 || base.dest == .none) then some { base with land := if base.dest == .none then base.land else s.recNum pages (o + 8) 8 }
  else if natBit flags 0 then
    let fields : BitVec 8192 := match base.dest with | .status i => (fieldMask i).setWidth 8192 | _ => BitVec.allOnes 8192
    some { base with
      val := BitVec.ofNat 8192 (if drain then s.recNum pages (0x109000 + 1024 * e) 1024 else s.recNum pages (o + 32) 128) &&& fields,
      poison := BitVec.ofNat 256 (if drain then s.recNum pages (o + 32) 32 else s.recNum pages (o + 4) 4),
      tag := BitVec.ofNat 4 (s.recNum pages (o + 2) 1), land := s.recNum pages (o + 8) 8, mismatch := natBit flags 1,
      size := s.recNum pages (o + 18) 2 }
  else none

/-- The captured operands of a slot in a record, where there are any. -/
def State.recCap (s : State) (pages : List Nat) (slot : Nat) : CapSlot :=
  let o := 512 + 512 * slot
  let g := s.recNum pages (o + 1) 1
  { slot := slot, guard := natBit g 0, guardPoison := natBit g 1, disp := BitVec.ofNat 32 (s.recNum pages (o + 4) 4),
    base := BitVec.ofNat 20 (s.recNum pages (o + 8) 4),
    vals := (List.range (min 3 (s.recNum pages o 1))).map (fun i =>
      let v := o + 16 + 160 * i
      let k := s.recNum pages v 2
      { kind := k / 4096, num := k % 4096, tag := BitVec.ofNat 4 (s.recNum pages (v + 2) 1),
        poison := BitVec.ofNat 32 (s.recNum pages (v + 4) 4), val := BitVec.ofNat 1024 (s.recNum pages (v + 16) 128) }) }

/-- A journal entry of a record; none past its count. Reserved bits of a status word are zero (R4). -/
def State.recJournal (s : State) (pages : List Nat) (i : Nat) : JEntry :=
  let o := 0x272040 + 144 * i
  let code := s.recNum pages o 2
  let n := code % 4096
  let p := s.recNum pages (o + 4) 4
  let v (k : Nat) : Nat := s.recNum pages (o + 16) k
  match code / 4096 with
  | 0 => .scalar n { val := BitVec.ofNat 64 (v 8), poison := natBit p 0, pend := false }
  | 1 => .pred n { val := natBit (v 1) 0, poison := natBit p 0 }
  | 2 => .mask n { val := BitVec.ofNat 32 (v 4), poison := natBit p 0 }
  | 3 => .vec n { val := BitVec.ofNat 1024 (v 128), tag := BitVec.ofNat 4 (s.recNum pages (o + 2) 1), poison := BitVec.ofNat 32 p,
                  pend := false }
  | 4 => .status n (BitVec.ofNat 64 (v 8) &&& fieldMask n)
  | _ => .latch n { word := BitVec.ofNat 63 (v 8), full := natBit (s.recNum pages (o + 24) 1) 0,
                    disp := BitVec.ofNat 32 (s.recNum pages (o + 28) 4) }

/-- A held line of a record. -/
def State.recLine (s : State) (pages : List Nat) (i : Nat) : SegLine :=
  let o := 0x272000 + 0x9400 + 128 * i
  let a := s.recNum pages (o + 8) 8 / 64
  let mask := s.recNum pages (o + 16) 8
  let pois := s.recNum pages (o + 24) 2
  let sp : Space := match s.recNum pages o 8 with
    | 1 => .loft | 2 => .cluster | 3 => .scratch | 4 => .slices | _ => .main
  { space := sp, addr := a,
    bytes := ((List.range 64).filter (natBit mask)).map (fun k => (64 * a + k, BitVec.ofNat 8 (s.recNum pages (o + 64 + k) 1))),
    words := ((List.range 16).filter (fun w => (List.range 4).any (fun k => natBit mask (4 * w + k)))).map (fun w =>
      (16 * a + w, natBit pois w, (List.range 4).all (fun k => natBit mask (4 * w + k)))) }

/-- The store that a held line stands for. -/
def SegLine.entry (l : SegLine) : SbEntry :=
  { seq := 0, space := l.space, kind := .store, addr := 64 * l.addr, bytes := l.bytes, words := l.words, rel := 0, dest := none,
    virt := 0, pc := 0, seg := true, beat := none, gd := none, due := 0, unit := 0 }

/-- An accumulator set of a record. -/
def State.recSet (s : State) (pages : List Nat) (o : Nat) : ASet :=
  { zneg := false,
    cells := ((List.range 16384).map (fun k => (k, Pos.ofWord (s.recNum pages (o + 8 * k) 8)))).filter (fun e => e.2 != Pos.zero false) }

/-- The bytes of a part of a record, as a store of its own from address 0. -/
def State.recWindow (s : State) (pages : List Nat) (o n : Nat) : SMap Byte :=
  (List.range (n / 32768)).flatMap (fun i =>
    let a := recAddr pages (o + 32768 * i)
    (s.home.bytes.filter (fun e => decide (a ≤ e.1 ∧ e.1 < a + 32768))).map (fun e => (e.1 - a + 32768 * i, e.2)))

/-- The bits of a bitmap as poison of words. -/
def bitsToMap (v n : Nat) : SMap Bool := ((List.range n).filter (natBit v)).map (fun i => (i, true))

/-- The registers of a record put into a core: everything outside the supervisor bank. -/
def State.recRegisters (s : State) (pages : List Nat) (c : Core) : Core :=
  let num := s.recNum pages
  let sp := num 0x1400 16
  let pv := num 0x1410 8
  let pp := num 0x1418 8
  let mp := num 0x1460 2
  let vt := num 0xC000 384
  let c1 := (List.range 112).foldl (fun c i =>
    let n := 16 + i
    c.putS n { val := BitVec.ofNat 64 (num (0x1000 + 8 * n) 8), poison := natBit sp n, pend := false }) c
  let c2 := (List.range 48).foldl (fun c i => c.putP (16 + i) { val := natBit pv (16 + i), poison := natBit pp (16 + i) }) c1
  let c3 := (List.range 16).foldl (fun c n =>
    c.putM n { val := BitVec.ofNat 32 (num (0x1420 + 4 * n) 4), poison := natBit mp n }) c2
  let c4 := (List.range 768).foldl (fun c n =>
    c.putV n { val := BitVec.ofNat 1024 (num (0x10000 + 128 * n) 128), tag := BitVec.ofNat 4 (vt / 2 ^ (4 * n)),
               poison := BitVec.ofNat 32 (num (0xC180 + 4 * n) 4), pend := false }) c3
  let c5 := (List.range 32).foldl (fun c n =>
    let b := num (0xCD80 + n) 1
    c.putT n { val := BitVec.ofNat 131072 (num (0x28000 + 16384 * n) 16384), tag := BitVec.ofNat 4 b, ready := natBit b 4,
               poison := BitVec.ofNat 256 (num (0xCDA0 + 32 * n) 32) }) c4
  let c6 := (List.range 8).foldl (fun c n =>
    let o := 0x8000 + 128 * n
    let tags := num (0x8400 + 512 * n) 512
    let entries := num (o + 4) 2
    c.putRing n { valid := decide (entries ≠ 0), base := num o 4, entries := entries, entryBytes := num (o + 6) 2,
                  head := num (o + 64) 4, count := num (o + 68) 4,
                  tags := ((List.range 1024).map (fun k => (k, BitVec.ofNat 4 (tags / 2 ^ (4 * k))))).filter (fun e => e.2 != 0#4) }) c5
  let c7 := (List.range 16).foldl (fun c n => c.putB n (BitVec.ofNat 20 (num (0x2000 + 8 * (0x060 + n)) 8))) c6
  let shapes := (List.range 32).filterMap (fun n => (Shape.decode (num (0x9400 + 64 * n) 64)).map (fun k => (n, k)))
  let flumes := (List.range 16).filterMap (fun i =>
    let o := 0xA000 + 128 * i
    match Shape.decode (num (o + 64) 64) with
    | none => none
    | some k =>
      let next := num (o + 16) 8
      let f : Flume := {
        reg := num o 2, main := decide (num (o + 3) 1 = 2), seq := c.seq, sup := false, shape := k, disp := BitVec.ofNat 64 (num (o + 8) 8),
        size := k.count, next := next, moved := next, buf := [], inflight := 0, fault := none, armed := 0, pops := [], pc := 0 }
      some f)
  let window := (let f := num (0x2000 + 8 * 0x020) 8 / 2 ^ 8 % 16; f == tF16 || f == tB16)
  let latch (o : Nat) : SMap LVal :=
    ((List.range 128).map (fun i => (i, LVal.ofWord (num (o + 8 * i) 8) window))).filter (fun e => e.2 != LVal.zero)
  { c7 with
    seq := c7.seq + 1, k := shapes, flumes := flumes,
    arr := { latchA := latch 0x108000, latchB := latch 0x108400, set0 := s.recSet pages 0xA8000, set1 := s.recSet pages 0xC8000,
             drain := s.recSet pages 0xE8000, drainCount := 0,
             drained := BitVec.ofNat 128 (num 0x108800 16) },
    slices := { bytes := s.recWindow pages 0x128000 0x40000, poison := bitsToMap (num 0x270000 8192) 65536 },
    scratch := { bytes := s.recWindow pages 0x168000 0x100000, poison := bitsToMap (num 0x268000 32768) 262144 },
    seg := { journal := (List.range (fieldGet c.sw.segState 52 9)).map (s.recJournal pages),
             lines := (List.range (fieldGet c.sw.segState 45 7)).map (s.recLine pages),
             held := (List.range (fieldGet c.sw.segState 45 7)).map (fun i => (s.recLine pages i).entry),
             opened := num 32 8 } }

/-- A status word of a record, its reserved bits zero (R4). -/
def State.recWord (s : State) (pages : List Nat) (i : Nat) : Word := BitVec.ofNat 64 (s.recNum pages (0x2000 + 8 * i) 8) &&& fieldMask i

/-- A bundle or target address of a record: always a multiple of 8 (R21). -/
def State.recCode (s : State) (pages : List Nat) (o : Nat) : Word := BitVec.ofNat 64 (s.recNum pages o 8 / 8 * 8)

/-- The status words of a record put into those of a core: SUP, HELD and SFLT are the handler's (log 18). -/
def State.recWords (s : State) (pages : List Nat) (w : StatusWords) : StatusWords :=
  let get (i : Nat) : Word := s.recWord pages i
  let w1 := [0x001, 0x002, 0x010, 0x011, 0x012, 0x013, 0x014, 0x020, 0x021, 0x022, 0x023, 0x028, 0x029, 0x030, 0x040, 0x041, 0x042,
    0x043, 0x046, 0x047, 0x049].foldl (fun w i => w.put i (get i)) w
  { w1 with
    priv := fieldPut (fieldPut w.priv 16 16 (fieldGet (get 0x003) 16 16)) 0 2 3,
    checkctl := fieldPut (get 0x038) 8 1 (fieldGet w.checkctl 8 1) }

/-- The held state of a record (R367). What has no place in the record comes from the held state that was saved there: a latch's
displacement where its syllable is the same (0 for a record that was moved or built), and the count of the drain stage (SHIFTED of
KCOUNT0 where there is none) (DESIGN CHOICE, log 17). The trap of a fetch or a decoding captured no operands (R357). -/
def State.recHeld (s : State) (pages : List Nat) (old : Option Held) : Held :=
  let num := s.recNum pages
  let word (o n : Nat) : Word := BitVec.ofNat 64 (num o n)
  let flags := num 11 1
  let upd := num 66 1
  let sp := num 0x1400 16
  let pv := num 0x1410 8
  let pp := num 0x1418 8
  let tree := num 104 2
  let captured := !([0x01, 0x0B].contains (fieldGet (s.recWord pages 0x040) 0 16))
  let kept := natBit tree 15 || (List.range 7).any (fun k =>
    decide (num (512 + 512 * k) 16 ≠ 0) && !(natBit flags 1 && decide (num 49 1 = k)))
  let oldX := old.bind (·.xfer)
  let slipSlot : Slot := ([Slot.S, .V0, .V1, .M, .C0, .C1, .B]).getD (num 49 1) .C0
  let lat : SMap Latch := (List.range 6).filterMap (fun n =>
    let o := 0x7C00 + 16 * n
    let w : BitVec 63 := BitVec.ofNat 63 (num o 8)
    let disp := match old with
      | some k => (match k.latches.find? (fun e => e.1 == n && e.2.word == w) with | some e => e.2.disp | none => 0#32)
      | none => 0#32
    if natBit (num (o + 8) 1) 0 then some (n, { word := w, disp := disp, full := true }) else none)
  let xfer : Option Xfer :=
    if natBit flags 2 then
      let kind := (match oldX with | some x => x.kind | none => .go)
      let target : Option Word := (match oldX with | some x => (if x.target.isNone then none else some (s.recCode pages 40)) | none => some (s.recCode pages 40))
      some {
        kind := kind, target := target, left := num 48 1, atTime := max (num 32 8) (match oldX with | some x => x.atTime | none => 0),
        lc := if natBit upd 0 then some (word 56 8) else none, depth := if natBit upd 1 then some (word 64 2) else none,
        rot := if natBit upd 2 then some (word 68 4 &&& fieldMask 0x008) else none, p32 := if natBit upd 3 then some (natBit (num 67 1) 0) else none,
        link := oldX.bind (·.link),
        pc := (match oldX with | some x => x.pc | none => s.recCode pages 24), guarded := (match oldX with | some x => x.guarded | none => false),
        failed := (match oldX with | some x => x.failed | none => false), issued := (match oldX with | some x => x.issued | none => 0) }
    else none
  let slip : Option SlipOp :=
    if natBit flags 1 then
      let l := SMap.get lat (slotCode slipSlot) Latch.zero
      (match old.bind (·.slip) with
      | some p => some { p with cap := s.recCap pages (slotCode p.slot) }
      | none => some { slot := slipSlot, word := l.word, pc := s.recCode pages 24, scope := 3, cap := s.recCap pages (slotCode slipSlot), issued := 0,
                        rot := s.recWord pages 0x008,
                        k := (List.range 32).filterMap (fun n => (Shape.decode (num (0x9400 + 64 * n) 64)).map (fun k => (n, k))) })
    else none
  let link : List Flight :=
    if natBit upd 4 && (oldX.bind (·.link)).isNone then
      [{ dest := .scalar (num 80 1), val := BitVec.ofNat 8192 (num 72 8), tag := 0, poison := 0, land := num 32 8, slot := 6,
         mismatch := false, twin := none, pc := 0, opcode := 0, seg := false, size := 0, events := [], issued := 0, seq := 0, acq := false }]
    else []
  let capt : Option CapTree :=
    if natBit flags 0 && captured || natBit tree 15 then
      some { tests := BitVec.ofNat 4 tree, poisons := BitVec.ofNat 4 (tree / 16), leaf := tree / 256 % 8, hasTree := natBit tree 15 }
    else none
  { s := ((List.range 16).map (fun n =>
      ((n, { val := word (0x1000 + 8 * n) 8, poison := natBit sp n, pend := false }) : Nat × SReg))).filter (fun e => e.2 != SReg.zero),
    p := ((List.range 15).map (fun i =>
      ((i + 1, { val := natBit pv (i + 1), poison := natBit pp (i + 1) }) : Nat × PReg))).filter (fun e => e.2 != PReg.zero),
    rot := s.recWord pages 0x008, lc := s.recWord pages 0x009, depth := s.recWord pages 0x00A,
    repc := s.recWord pages 0x00B, beatNow := s.recWord pages 0x031, latches := lat, pc := s.recCode pages 24,
    time := num 32 8, next := num 32 8,
    flights := (List.range 96).filterMap (s.recFlight pages (match old with | some k => k.flights | none => [])) ++ link,
    xfer := xfer, slip := slip,
    cap := if natBit flags 0 && captured || kept then (List.range 7).map (s.recCap pages) else [],
    capTree := capt, atIssue := natBit flags 0, skip := natBit flags 3,
    c0free := 0, charged := natBit flags 0,
    rvDone := (match old with | some k => k.rvDone | none => false),
    first := (match old with | some k => k.first | none => Trap.bare 0x23 0),
    drainCount := (match old with | some k => k.drainCount | none => fieldGet (s.recWord pages 0x021) 32 32),
    phaseIndex := (match old with | some k => k.phaseIndex | none => 0),
    padDone := (match old with | some k => k.padDone | none => false), noOpen := (match old with | some k => k.noOpen | none => false) }

/-- The results of a restored snapshot whose register a write flume holds are its pushes in flight (R183, R356). -/
def Core.relinkPushes (c : Core) : Core :=
  let bound (n : Nat) : Bool := c.flumes.any (fun f => f.reg == n && f.shape.write)
  let c1 : Core := { c with held := c.held.map (fun h => { h with
    flights := h.flights.map (fun f =>
      match f.dest with
      | .vec n => if bound n then { f with dest := .flume n } else f
      | _ => f) }) }
  { c1 with flumes := c1.flumes.map (fun f => { f with inflight := c1.frozenPushes f.reg }) }

/-- The refusal of a record (R267, R365). -/
def State.recRefused (s : State) (pages : List Nat) : Bool :=
  let c := s.me
  let num := s.recNum pages
  let mcfg := num (0x2000 + 8 * 0x020) 8
  let idle := natBit mcfg 0 && decide (mcfg / 2 ^ 56 = 0) && decide (num (0x2000 + 8 * 0x021) 4 = 0) &&
    decide (num (0x2000 + 8 * 0x022) 4 = 0)
  decide (num 0 4 ≠ 0x58544357) || decide (num 4 2 ≠ 1) || decide (num 9 1 ≠ fieldGet c.sw.checkctl 14 2) ||
    decide (num 10 1 ≠ fieldGet c.sw.checkctl 12 2) || (decide (num 16 8 ≠ c.sw.lanemap.toNat) && !idle)

/-- KLIM of MCFG from the core's LANEMAP (R264, R267). Where the pair has no limit on this core, KLIM stays as saved and its words
are decoded without a check channel (DESIGN CHOICE, log 80). -/
def Core.relimit (c : Core) : Core :=
  match pairUnder c.afmt c.bfmt c.dfmt c.sw.lanemap with
  | some (_, k) => c.setMcfg 48 8 k
  | none => c

/-- S.CTXIN: the record becomes the held context (R365 to R367). -/
def semSCtxin (h : Hdr) (f : OpSA) : Sem :=
  let va (s : State) : Word := (s.me.rs h.slot f.sa).1
  { reads := fun c => [c.xs f.sa], seals := fun _ => true, holds := fun _ => true, waits := State.unsettled, turn := 2
    check := fun s =>
      let c := s.me
      firstTrap [c.systemOnly h.slot, c.baseTrap h.slot f.sa, trapOfPlan (s.recordPages h.slot (va s) false),
        match s.recordPages h.slot (va s) false with
        | .ok pages => if s.recRefused pages then some (c.accessTrap h.slot 0 (va s)) else none
        | .error _ => none]
    eff := fun s =>
      match s.recordPages h.slot (va s) false with
      | .error _ => s
      | .ok pages =>
        let old := (s.saved.find? (fun e => e.1 == s.me.ctx && e.2.1 == va s)).map (fun e => e.2.2)
        let s1 := s.onMe (fun c =>
          let same := decide (s.recNum pages 16 8 = c.sw.lanemap.toNat)
          let c1 := s.recRegisters pages { c with sw := s.recWords pages c.sw }
          let k := s.recHeld pages old
          let c2 : Core := { c1 with
            held := some k, supSeg := false, arr := { c1.arr with drainCount := k.drainCount },
            phase := { running := false, stopped := natBit (s.recNum pages 11 1) 4, expected := s.recNum pages 88 8,
                       table := BitVec.ofNat 64 (s.recNum pages 96 8), index := k.phaseIndex } }
          let c3 := c2.relinkPushes
          if same then c3 else c3.relimit)
        s1.invalidate s1.coreNo }

/-- The meaning of the row: one issue of the operation. -/
def execSCtxin (h : Hdr) (f : OpSA) (s : State) : Host.Outcome State Fault Refusal :=
  (semSCtxin h f).run h s

/-- S.CTXSKIP: the trapped issue is skipped on resumption; a trap taken at a boundary has none (R425). -/
def semSCtxskip (h : Hdr) (_f : OpNone) : Sem :=
  { seals := fun _ => true
    check := fun s => s.me.systemOnly h.slot
    eff := fun s => s.onMe (fun c =>
      match c.held with
      | some k => if k.atIssue then { c with held := some { k with skip := true } } else c
      | none => c) }

/-- The meaning of the row: one issue of the operation. -/
def execSCtxskip (h : Hdr) (f : OpNone) (s : State) : Host.Outcome State Fault Refusal :=
  (semSCtxskip h f).run h s

/-! ## The TLBs (R372) -/

/-- A S.TLBINV of a kind: what its core's S.TLBSYNC removes everywhere. -/
def semTlbinv (h : Hdr) (f : OpTI) (kind : Nat) : Sem :=
  let a (c : Core) : Word × Bool := c.rs h.slot f.sa
  let b (c : Core) : Word × Bool := c.rs h.slot f.sb 1
  { reads := fun c => [c.xs f.sa, c.xs f.sb], seals := fun _ => true
    check := fun s =>
      let c := s.me
      firstTrap [c.systemOnly h.slot, if kind = 2 then c.consumed h.slot [(f.sa.toNat, (a c).2)] else none]
    eff := fun s => s.onMe (fun c => { c with inval := c.inval ++ [(kind, (b c).1.toNat % 65536, (a c).1.toNat)] }) }

/-- S.TLBINV, every entry. -/
def semSTlbinvAll (h : Hdr) (f : OpTI) : Sem := semTlbinv h f 0

/-- The meaning of the row: one issue of the operation. -/
def execSTlbinvAll (h : Hdr) (f : OpTI) (s : State) : Host.Outcome State Fault Refusal :=
  (semSTlbinvAll h f).run h s

/-- S.TLBINV, a context. -/
def semSTlbinvContext (h : Hdr) (f : OpTI) : Sem := semTlbinv h f 1

/-- The meaning of the row: one issue of the operation. -/
def execSTlbinvContext (h : Hdr) (f : OpTI) (s : State) : Host.Outcome State Fault Refusal :=
  (semSTlbinvContext h f).run h s

/-- S.TLBINV, the page of an address. -/
def semSTlbinvPage (h : Hdr) (f : OpTI) : Sem := semTlbinv h f 2

/-- The meaning of the row: one issue of the operation. -/
def execSTlbinvPage (h : Hdr) (f : OpTI) (s : State) : Host.Outcome State Fault Refusal :=
  (semSTlbinvPage h f).run h s

/-- An entry that an invalidation names. -/
def TlbEntry.named (e : TlbEntry) (l : List (Nat × Nat × Nat)) : Bool :=
  l.any (fun i => i.1 == 0 || (e.ctx == i.2.1 && (i.1 == 1 || e.covers i.2.1 i.2.2)))

/-- Every TLB of the package without the entries that a list of invalidations names. -/
def State.dropTlb (s : State) (l : List (Nat × Nat × Nat)) : State :=
  { s with
    cores := s.cores.map (fun e => (e.1, { e.2 with tlb := e.2.tlb.filter (fun x => !x.named l) })),
    clusterTlb := s.clusterTlb.map (fun e => (e.1, e.2.filter (fun x => !x.named l))) }

/-- S.TLBSYNC: the hold ends once every earlier S.TLBINV of the core has taken effect; a walk of the model is one read and
none is in progress. -/
def semSTlbsync (h : Hdr) (_f : OpNone) : Sem :=
  { seals := fun _ => true, holds := fun _ => true
    check := fun s => s.me.systemOnly h.slot
    eff := fun s => (s.dropTlb s.me.inval).onMe (fun c => { c with inval := [] }) }

/-- The meaning of the row: one issue of the operation. -/
def execSTlbsync (h : Hdr) (f : OpNone) (s : State) : Host.Outcome State Fault Refusal :=
  (semSTlbsync h f).run h s

/-! ## The end of a handler (R365) -/

/-- The unit goes back to its dispatcher with its record (R325, R363). -/
def State.preempted (s : State) (n : Nat) (record : Word) : State :=
  let c := s.coreAt n
  match c.unit with
  | none => s.putCore n { c.release with running := false }
  | some u =>
    let s1 := (s.putCore n { c.release with unit := none, job := none, failed := none, running := false }).onMember u.launch u.crew u.pos
      (fun m => { m with core := none })
    match s1.launch u.launch with
    | none => s1
    | some l => s1.putLaunch { l with waiting := l.waiting ++ [{ record := record, unit := u, cluster := clusterOf n }] }

/-- S.CTXDONE, n = 0. The other operations of its bundle act before it (R33). -/
def semSCtxdonePreempted (h : Hdr) (f : OpCTXD) : Sem :=
  { reads := fun c => [c.xs f.sa], seals := fun _ => true, turn := 3
    check := fun s =>
      let c := s.me
      firstTrap [c.systemOnly h.slot, c.baseTrap h.slot f.sa,
        trapOfPlan (s.recordPages h.slot (s.me.rs h.slot f.sa).1 false)]
    eff := fun s => s.preempted s.coreNo (s.me.rs h.slot f.sa).1 }

/-- The meaning of the row: one issue of the operation. -/
def execSCtxdonePreempted (h : Hdr) (f : OpCTXD) (s : State) : Host.Outcome State Fault Refusal :=
  (semSCtxdonePreempted h f).run h s

/-- S.CTXDONE, n = 1: the unit is reported failed with CODE of TRAP_CAUSE; held stores are dropped (R386). -/
def semSCtxdoneFailed (h : Hdr) (_f : OpCTXD) : Sem :=
  { seals := fun _ => true, turn := 3
    check := fun s => s.me.systemOnly h.slot
    eff := fun s =>
      let s1 := s.failUnit s.coreNo (fieldGet s.me.sw.trapCause 0 16)
      let c := s1.me
      s1.putCore s1.coreNo { c with running := false, issue := none } }

/-- The meaning of the row: one issue of the operation. -/
def execSCtxdoneFailed (h : Hdr) (f : OpCTXD) (s : State) : Host.Outcome State Fault Refusal :=
  (semSCtxdoneFailed h f).run h s

end Sys2Proof.Machine
end

