-- ==== Sys2Proof/Machine/SemTable.lean ====
section
/-! DEFINITION. The operation of a slot syllable as issue sees it: the opcode maps R45 to R49 again, with the `Sem` of each
operation in the place of its instruction. `semOfWord` reads exactly the words that `decodeSyl` reads. -/

namespace Sys2Proof.Machine

/-- The S-class map (R45) to operations; none where the decode trap is raised. -/
def semS (op : Nat) (h : Hdr) (w : BitVec 43) : Option Sem :=
  match op with
  | 0 => (OpRR.dec w).bind (fun f => if h.ok false && h.slot == .S then some (semSAdd h f) else none)
  | 1 => (OpRR.dec w).bind (fun f => if h.ok false && h.slot == .S then some (semSSub h f) else none)
  | 2 => (OpRR.dec w).bind (fun f => if h.ok false && h.slot == .S then some (semSMul h f) else none)
  | 3 => (OpRR.dec w).bind (fun f => if h.ok false && h.slot == .S then some (semSMulh h f) else none)
  | 4 => (OpRR.dec w).bind (fun f => if h.ok false && h.slot == .S then some (semSMulhu h f) else none)
  | 5 => (OpRR.dec w).bind (fun f => if h.ok false && h.slot == .S then some (semSAnd h f) else none)
  | 6 => (OpRR.dec w).bind (fun f => if h.ok false && h.slot == .S then some (semSOr h f) else none)
  | 7 => (OpRR.dec w).bind (fun f => if h.ok false && h.slot == .S then some (semSXor h f) else none)
  | 8 => (OpRR.dec w).bind (fun f => if h.ok false && h.slot == .S then some (semSShl h f) else none)
  | 9 => (OpRR.dec w).bind (fun f => if h.ok false && h.slot == .S then some (semSShr h f) else none)
  | 10 => (OpRR.dec w).bind (fun f => if h.ok false && h.slot == .S then some (semSSra h f) else none)
  | 11 => (OpRR.dec w).bind (fun f => if h.ok false && h.slot == .S then some (semSMin h f) else none)
  | 12 => (OpRR.dec w).bind (fun f => if h.ok false && h.slot == .S then some (semSMax h f) else none)
  | 13 => (OpRR.dec w).bind (fun f => if h.ok false && h.slot == .S then some (semSMinu h f) else none)
  | 14 => (OpRR.dec w).bind (fun f => if h.ok false && h.slot == .S then some (semSMaxu h f) else none)
  | 15 => (OpRR.dec w).bind (fun f => if h.ok false && h.slot == .S then some (semSAdds h f) else none)
  | 16 => (OpRI.dec w).bind (fun f => if h.ok false && h.slot == .S then some (semSAddi h f) else none)
  | 17 => (OpRI.dec w).bind (fun f => if h.ok false && h.slot == .S then some (semSAndi h f) else none)
  | 18 => (OpRI.dec w).bind (fun f => if h.ok false && h.slot == .S then some (semSOri h f) else none)
  | 19 => (OpRI.dec w).bind (fun f => if h.ok false && h.slot == .S then some (semSXori h f) else none)
  | 20 => (OpSH.dec w).bind (fun f => if h.ok false && h.slot == .S then some (semSShli h f) else none)
  | 21 => (OpSH.dec w).bind (fun f => if h.ok false && h.slot == .S then some (semSShri h f) else none)
  | 22 => (OpSH.dec w).bind (fun f => if h.ok false && h.slot == .S then some (semSSrai h f) else none)
  | 23 => (OpLEA.dec w).bind (fun f => if h.ok false && h.slot == .S then some (semSLea h f) else none)
  | 24 => (OpPR.dec w).bind (fun f => if h.ok false && h.slot == .S then some (semSCeq h f) else none)
  | 25 => (OpPR.dec w).bind (fun f => if h.ok false && h.slot == .S then some (semSCne h f) else none)
  | 26 => (OpPR.dec w).bind (fun f => if h.ok false && h.slot == .S then some (semSClt h f) else none)
  | 27 => (OpPR.dec w).bind (fun f => if h.ok false && h.slot == .S then some (semSCle h f) else none)
  | 28 => (OpPR.dec w).bind (fun f => if h.ok false && h.slot == .S then some (semSCltu h f) else none)
  | 29 => (OpPR.dec w).bind (fun f => if h.ok false && h.slot == .S then some (semSCleu h f) else none)
  | 30 => (OpPI.dec w).bind (fun f => if h.ok false && h.slot == .S then some (semSCeqi h f) else none)
  | 31 => (OpPI.dec w).bind (fun f => if h.ok false && h.slot == .S then some (semSClti h f) else none)
  | 32 => (OpPL.dec w).bind (fun f => if h.ok false && h.slot == .S then some (semSPand h f) else none)
  | 33 => (OpPL.dec w).bind (fun f => if h.ok false && h.slot == .S then some (semSPor h f) else none)
  | 34 => (OpPL.dec w).bind (fun f => if h.ok false && h.slot == .S then some (semSPxor h f) else none)
  | 35 => (OpPB.dec w).bind (fun f => if h.ok false && h.slot == .S then some (semSPbit h f) else none)
  | 36 => (OpMOV.dec w).bind (fun f => if h.ok false && h.slot == .S then some (semSMov h f) else none)
  | 37 => (OpRSW.dec w).bind (fun f => if h.ok false && h.slot == .S && f.ok then some (semSRsw h f) else none)
  | 38 => (OpWSW.dec w).bind (fun f => if h.ok false && h.slot == .S && f.ok then some (semSWsw h f) else none)
  | 39 => (OpRTAG.dec w).bind (fun f => if h.ok false && h.slot == .S && f.ok then some (semSRtag h f) else none)
  | 40 => (OpWTAG.dec w).bind (fun f => if h.ok false && h.slot == .S && f.ok then some (semSWtag h f) else none)
  | 41 => (OpMFROM.dec w).bind (fun f => if h.ok false && h.slot == .S then some (semSMfrom h f) else none)
  | 42 => (OpMTO.dec w).bind (fun f => if h.ok false && h.slot == .S then some (semSMto h f) else none)
  | 43 => (OpPGET.dec w).bind (fun f => if h.ok false && h.slot == .S then some (semSPget h f) else none)
  | 44 => (OpLFL.dec w).bind (fun f => if h.ok false && h.slot == .S then some (semSLld h f) else none)
  | 45 => (OpLFL.dec w).bind (fun f => if h.ok false && h.slot == .S then some (semSLlw h f) else none)
  | 46 => (OpLFS.dec w).bind (fun f => if h.ok false && h.slot == .S then some (semSLst h f) else none)
  | 47 => (OpLFS.dec w).bind (fun f => if h.ok false && h.slot == .S then some (semSLstw h f) else none)
  | 48 => (OpLFL.dec w).bind (fun f => if h.ok false && h.slot == .S then some (semSLldAcq h f) else none)
  | 49 => (OpLFL.dec w).bind (fun f => if h.ok false && h.slot == .S then some (semSLlwAcq h f) else none)
  | 50 => (OpLFS.dec w).bind (fun f => if h.ok false && h.slot == .S then some (semSLstRel h f) else none)
  | 51 => (OpLFS.dec w).bind (fun f => if h.ok false && h.slot == .S then some (semSLstwRel h f) else none)
  | 52 => (OpCK.dec w).bind (fun f => if h.ok false && h.slot == .S then some (semSCkt h f) else none)
  | 53 => (OpNone.dec w).bind (fun f => if h.ok false && h.slot == .S then some (semSNxt h f) else none)
  | 54 => (OpSA.dec w).bind (fun f => if h.ok false && h.slot == .S then some (semSCtxout h f) else none)
  | 55 => (OpSA.dec w).bind (fun f => if h.ok false && h.slot == .S then some (semSCtxin h f) else none)
  | 56 => (OpNone.dec w).bind (fun f => if h.ok false && h.slot == .S then some (semSCtxskip h f) else none)
  | 57 => if bitsAt w 27 2 == 0#2 then (OpTI.dec 0#2 w).bind (fun f => if h.ok false && h.slot == .S then some (semSTlbinvAll h f) else none) else if bitsAt w 27 2 == 1#2 then (OpTI.dec 1#2 w).bind (fun f => if h.ok false && h.slot == .S then some (semSTlbinvContext h f) else none) else if bitsAt w 27 2 == 2#2 then (OpTI.dec 2#2 w).bind (fun f => if h.ok false && h.slot == .S then some (semSTlbinvPage h f) else none) else none
  | 58 => (OpNone.dec w).bind (fun f => if h.ok false && h.slot == .S then some (semSTlbsync h f) else none)
  | 59 => if bitsAt w 35 1 == 0#1 then (OpCTXD.dec 0#1 w).bind (fun f => if h.ok false && h.slot == .S then some (semSCtxdonePreempted h f) else none) else if bitsAt w 35 1 == 1#1 then (OpCTXD.dec 1#1 w).bind (fun f => if h.ok false && h.slot == .S then some (semSCtxdoneFailed h f) else none) else none
  | 60 => (OpWI.dec w).bind (fun f => if h.ok false && h.slot == .S then some (semSLil h f) else none)
  | 61 => (OpWI.dec w).bind (fun f => if h.ok false && h.slot == .S then some (semSLih h f) else none)
  | 62 => (OpWI.dec w).bind (fun f => if h.ok false && h.slot == .S then some (semSLis h f) else none)
  | 63 => (OpWI.dec w).bind (fun f => if h.ok false && h.slot == .S then some (semSLpc h f) else none)
  | _ => none

/-- The V-class map (R46) to operations; none where the decode trap is raised. -/
def semV (op : Nat) (h : Hdr) (w : BitVec 43) : Option Sem :=
  match op with
  | 0 => (OpV3.dec w).bind (fun f => if h.ok true && (h.slot == .V0 || h.slot == .V1) && f.ok then some (semVAddI32 h f) else none)
  | 1 => (OpV3.dec w).bind (fun f => if h.ok true && (h.slot == .V0 || h.slot == .V1) && f.ok then some (semVSubI32 h f) else none)
  | 2 => (OpV3.dec w).bind (fun f => if h.ok true && (h.slot == .V0 || h.slot == .V1) && f.ok then some (semVMulI32 h f) else none)
  | 3 => (OpV3.dec w).bind (fun f => if h.ok true && (h.slot == .V0 || h.slot == .V1) && f.ok then some (semVMulhI32 h f) else none)
  | 4 => (OpV3.dec w).bind (fun f => if h.ok true && (h.slot == .V0 || h.slot == .V1) && f.ok then some (semVAddsI32 h f) else none)
  | 5 => (OpV3.dec w).bind (fun f => if h.ok true && (h.slot == .V0 || h.slot == .V1) && f.ok then some (semVSubsI32 h f) else none)
  | 6 => (OpV3.dec w).bind (fun f => if h.ok true && (h.slot == .V0 || h.slot == .V1) && f.ok then some (semVAddI16 h f) else none)
  | 7 => (OpV3.dec w).bind (fun f => if h.ok true && (h.slot == .V0 || h.slot == .V1) && f.ok then some (semVAddsI16 h f) else none)
  | 8 => (OpV3.dec w).bind (fun f => if h.ok true && (h.slot == .V0 || h.slot == .V1) && f.ok then some (semVAddI8 h f) else none)
  | 9 => (OpV3.dec w).bind (fun f => if h.ok true && (h.slot == .V0 || h.slot == .V1) && f.ok then some (semVAddsI8 h f) else none)
  | 10 => (OpV3.dec w).bind (fun f => if h.ok true && (h.slot == .V0 || h.slot == .V1) && f.ok then some (semVAddsZ8 h f) else none)
  | 11 => (OpV3.dec w).bind (fun f => if h.ok true && (h.slot == .V0 || h.slot == .V1) && f.ok then some (semVMinI32 h f) else none)
  | 12 => (OpV3.dec w).bind (fun f => if h.ok true && (h.slot == .V0 || h.slot == .V1) && f.ok then some (semVMaxI32 h f) else none)
  | 13 => (OpV3.dec w).bind (fun f => if h.ok true && (h.slot == .V0 || h.slot == .V1) && f.ok then some (semVMinZ32 h f) else none)
  | 14 => (OpV3.dec w).bind (fun f => if h.ok true && (h.slot == .V0 || h.slot == .V1) && f.ok then some (semVMaxZ32 h f) else none)
  | 15 => (OpV2.dec w).bind (fun f => if h.ok true && (h.slot == .V0 || h.slot == .V1) && f.ok then some (semVAbsI32 h f) else none)
  | 16 => (OpV3.dec w).bind (fun f => if h.ok true && (h.slot == .V0 || h.slot == .V1) && f.ok then some (semVAnd h f) else none)
  | 17 => (OpV3.dec w).bind (fun f => if h.ok true && (h.slot == .V0 || h.slot == .V1) && f.ok then some (semVOr h f) else none)
  | 18 => (OpV3.dec w).bind (fun f => if h.ok true && (h.slot == .V0 || h.slot == .V1) && f.ok then some (semVXor h f) else none)
  | 19 => (OpV3.dec w).bind (fun f => if h.ok true && (h.slot == .V0 || h.slot == .V1) && f.ok then some (semVAndn h f) else none)
  | 20 => (OpV3.dec w).bind (fun f => if h.ok true && (h.slot == .V0 || h.slot == .V1) && f.ok then some (semVShlI32 h f) else none)
  | 21 => (OpV3.dec w).bind (fun f => if h.ok true && (h.slot == .V0 || h.slot == .V1) && f.ok then some (semVShrZ32 h f) else none)
  | 22 => (OpV3.dec w).bind (fun f => if h.ok true && (h.slot == .V0 || h.slot == .V1) && f.ok then some (semVSraI32 h f) else none)
  | 23 => (OpV3.dec w).bind (fun f => if h.ok true && (h.slot == .V0 || h.slot == .V1) && f.ok then some (semVDot4I8 h f) else none)
  | 24 => (OpV3R.dec w).bind (fun f => if h.ok true && (h.slot == .V0 || h.slot == .V1) && f.ok then some (semVAddF32 h f) else none)
  | 25 => (OpV3R.dec w).bind (fun f => if h.ok true && (h.slot == .V0 || h.slot == .V1) && f.ok then some (semVSubF32 h f) else none)
  | 26 => (OpV3R.dec w).bind (fun f => if h.ok true && (h.slot == .V0 || h.slot == .V1) && f.ok then some (semVMulF32 h f) else none)
  | 27 => (OpV3R.dec w).bind (fun f => if h.ok true && (h.slot == .V0 || h.slot == .V1) && f.ok then some (semVFmaF32 h f) else none)
  | 28 => (OpV3R.dec w).bind (fun f => if h.ok true && (h.slot == .V0 || h.slot == .V1) && f.ok then some (semVFmsF32 h f) else none)
  | 29 => (OpV3R.dec w).bind (fun f => if h.ok true && (h.slot == .V0 || h.slot == .V1) && f.ok then some (semVFnmaF32 h f) else none)
  | 30 => (OpV3.dec w).bind (fun f => if h.ok true && (h.slot == .V0 || h.slot == .V1) && f.ok then some (semVMinF32 h f) else none)
  | 31 => (OpV3.dec w).bind (fun f => if h.ok true && (h.slot == .V0 || h.slot == .V1) && f.ok then some (semVMaxF32 h f) else none)
  | 32 => (OpV3R.dec w).bind (fun f => if h.ok true && (h.slot == .V0 || h.slot == .V1) && f.ok then some (semVAddF16 h f) else none)
  | 33 => (OpV3R.dec w).bind (fun f => if h.ok true && (h.slot == .V0 || h.slot == .V1) && f.ok then some (semVSubF16 h f) else none)
  | 34 => (OpV3R.dec w).bind (fun f => if h.ok true && (h.slot == .V0 || h.slot == .V1) && f.ok then some (semVMulF16 h f) else none)
  | 35 => (OpV3R.dec w).bind (fun f => if h.ok true && (h.slot == .V0 || h.slot == .V1) && f.ok then some (semVFmaF16 h f) else none)
  | 36 => (OpV3.dec w).bind (fun f => if h.ok true && (h.slot == .V0 || h.slot == .V1) && f.ok then some (semVMinF16 h f) else none)
  | 37 => (OpV3.dec w).bind (fun f => if h.ok true && (h.slot == .V0 || h.slot == .V1) && f.ok then some (semVMaxF16 h f) else none)
  | 38 => (OpV3R.dec w).bind (fun f => if h.ok true && (h.slot == .V0 || h.slot == .V1) && f.ok then some (semVAddB16 h f) else none)
  | 39 => (OpV3R.dec w).bind (fun f => if h.ok true && (h.slot == .V0 || h.slot == .V1) && f.ok then some (semVSubB16 h f) else none)
  | 40 => (OpV3R.dec w).bind (fun f => if h.ok true && (h.slot == .V0 || h.slot == .V1) && f.ok then some (semVMulB16 h f) else none)
  | 41 => (OpV3R.dec w).bind (fun f => if h.ok true && (h.slot == .V0 || h.slot == .V1) && f.ok then some (semVFmaB16 h f) else none)
  | 42 => (OpV3.dec w).bind (fun f => if h.ok true && (h.slot == .V0 || h.slot == .V1) && f.ok then some (semVMinB16 h f) else none)
  | 43 => (OpV3.dec w).bind (fun f => if h.ok true && (h.slot == .V0 || h.slot == .V1) && f.ok then some (semVMaxB16 h f) else none)
  | 44 => (OpV2.dec w).bind (fun f => if h.ok true && (h.slot == .V0 || h.slot == .V1) && f.ok then some (semVRcpF32 h f) else none)
  | 45 => (OpV2.dec w).bind (fun f => if h.ok true && (h.slot == .V0 || h.slot == .V1) && f.ok then some (semVRsqF32 h f) else none)
  | 46 => (OpV2.dec w).bind (fun f => if h.ok true && (h.slot == .V0 || h.slot == .V1) && f.ok then some (semVExp2F32 h f) else none)
  | 47 => (OpV2.dec w).bind (fun f => if h.ok true && (h.slot == .V0 || h.slot == .V1) && f.ok then some (semVLog2F32 h f) else none)
  | 48 => (OpV2.dec w).bind (fun f => if h.ok true && (h.slot == .V0 || h.slot == .V1) && f.ok then some (semVRcpF16 h f) else none)
  | 49 => (OpV2.dec w).bind (fun f => if h.ok true && (h.slot == .V0 || h.slot == .V1) && f.ok then some (semVRsqF16 h f) else none)
  | 50 => (OpV2.dec w).bind (fun f => if h.ok true && (h.slot == .V0 || h.slot == .V1) && f.ok then some (semVExp2F16 h f) else none)
  | 51 => (OpV2.dec w).bind (fun f => if h.ok true && (h.slot == .V0 || h.slot == .V1) && f.ok then some (semVLog2F16 h f) else none)
  | 52 => (OpVM.dec w).bind (fun f => if h.ok true && (h.slot == .V0 || h.slot == .V1) && f.ok then some (semVCeqI32 h f) else none)
  | 53 => (OpVM.dec w).bind (fun f => if h.ok true && (h.slot == .V0 || h.slot == .V1) && f.ok then some (semVCltI32 h f) else none)
  | 54 => (OpVM.dec w).bind (fun f => if h.ok true && (h.slot == .V0 || h.slot == .V1) && f.ok then some (semVCleI32 h f) else none)
  | 55 => (OpVM.dec w).bind (fun f => if h.ok true && (h.slot == .V0 || h.slot == .V1) && f.ok then some (semVCltZ32 h f) else none)
  | 56 => (OpVM.dec w).bind (fun f => if h.ok true && (h.slot == .V0 || h.slot == .V1) && f.ok then some (semVCeqF32 h f) else none)
  | 57 => (OpVM.dec w).bind (fun f => if h.ok true && (h.slot == .V0 || h.slot == .V1) && f.ok then some (semVCltF32 h f) else none)
  | 58 => (OpVM.dec w).bind (fun f => if h.ok true && (h.slot == .V0 || h.slot == .V1) && f.ok then some (semVCleF32 h f) else none)
  | 59 => (OpVM.dec w).bind (fun f => if h.ok true && (h.slot == .V0 || h.slot == .V1) && f.ok then some (semVCunF32 h f) else none)
  | 60 => (OpVCR.dec w).bind (fun f => if h.ok true && (h.slot == .V0 || h.slot == .V1) && f.ok then some (semVCvtF32 h f) else none)
  | 61 => (OpVCR.dec w).bind (fun f => if h.ok true && (h.slot == .V0 || h.slot == .V1) && f.ok then some (semVCvtF16 h f) else none)
  | 62 => (OpVCR.dec w).bind (fun f => if h.ok true && (h.slot == .V0 || h.slot == .V1) && f.ok then some (semVCvtB16 h f) else none)
  | 63 => (OpVCR.dec w).bind (fun f => if h.ok true && (h.slot == .V0 || h.slot == .V1) && f.ok then some (semVCvtE4 h f) else none)
  | 64 => (OpVCR.dec w).bind (fun f => if h.ok true && (h.slot == .V0 || h.slot == .V1) && f.ok then some (semVCvtE5 h f) else none)
  | 65 => (OpVCR.dec w).bind (fun f => if h.ok true && (h.slot == .V0 || h.slot == .V1) && f.ok then some (semVCvtI32 h f) else none)
  | 66 => (OpVCR.dec w).bind (fun f => if h.ok true && (h.slot == .V0 || h.slot == .V1) && f.ok then some (semVCvtI16 h f) else none)
  | 67 => (OpVCR.dec w).bind (fun f => if h.ok true && (h.slot == .V0 || h.slot == .V1) && f.ok then some (semVCvtI8 h f) else none)
  | 68 => (OpVCR.dec w).bind (fun f => if h.ok true && (h.slot == .V0 || h.slot == .V1) && f.ok then some (semVCvtZ32 h f) else none)
  | 69 => (OpVCR.dec w).bind (fun f => if h.ok true && (h.slot == .V0 || h.slot == .V1) && f.ok then some (semVCvtZ16 h f) else none)
  | 70 => (OpVCR.dec w).bind (fun f => if h.ok true && (h.slot == .V0 || h.slot == .V1) && f.ok then some (semVCvtZ8 h f) else none)
  | 71 => (OpVC.dec w).bind (fun f => if h.ok true && (h.slot == .V0 || h.slot == .V1) && f.ok then some (semVCvtc h f) else none)
  | 72 => (OpV2R.dec w).bind (fun f => if h.ok true && (h.slot == .V0 || h.slot == .V1) && f.ok then some (semVRintF32 h f) else none)
  | 73 => (OpV3R.dec w).bind (fun f => if h.ok true && (h.slot == .V0 || h.slot == .V1) && f.ok then some (semVScaleF32 h f) else none)
  | 74 => (OpV2.dec w).bind (fun f => if h.ok true && (h.slot == .V0 || h.slot == .V1) && f.ok then some (semVExpoF32 h f) else none)
  | 75 => (OpVC.dec w).bind (fun f => if h.ok true && (h.slot == .V0 || h.slot == .V1) && f.ok then some (semVPackI4 h f) else none)
  | 76 => (OpVC.dec w).bind (fun f => if h.ok true && (h.slot == .V0 || h.slot == .V1) && f.ok then some (semVUnpkI4 h f) else none)
  | 77 => (OpVCR.dec w).bind (fun f => if h.ok true && (h.slot == .V0 || h.slot == .V1) && f.ok then some (semVPackX4 h f) else none)
  | 78 => (OpVC.dec w).bind (fun f => if h.ok true && (h.slot == .V0 || h.slot == .V1) && f.ok then some (semVUnpkX4 h f) else none)
  | 79 => (OpVQR.dec w).bind (fun f => if h.ok true && (h.slot == .V0 || h.slot == .V1) && f.ok then some (semVRaddF32 h f) else none)
  | 80 => (OpVQR.dec w).bind (fun f => if h.ok true && (h.slot == .V0 || h.slot == .V1) && f.ok then some (semVRaddF16 h f) else none)
  | 81 => (OpVQ.dec w).bind (fun f => if h.ok true && (h.slot == .V0 || h.slot == .V1) && f.ok then some (semVRaddI32 h f) else none)
  | 82 => (OpVQ.dec w).bind (fun f => if h.ok true && (h.slot == .V0 || h.slot == .V1) && f.ok then some (semVRmaxF32 h f) else none)
  | 83 => (OpVQ.dec w).bind (fun f => if h.ok true && (h.slot == .V0 || h.slot == .V1) && f.ok then some (semVRminF32 h f) else none)
  | 84 => (OpVQ.dec w).bind (fun f => if h.ok true && (h.slot == .V0 || h.slot == .V1) && f.ok then some (semVRmaxI32 h f) else none)
  | 85 => (OpV3.dec w).bind (fun f => if h.ok true && (h.slot == .V0 || h.slot == .V1) && f.ok then some (semVPerm h f) else none)
  | 86 => (OpV3.dec w).bind (fun f => if h.ok true && (h.slot == .V0 || h.slot == .V1) && f.ok then some (semVPerm8 h f) else none)
  | 87 => (OpVN.dec w).bind (fun f => if h.ok true && (h.slot == .V0 || h.slot == .V1) && f.ok then some (semVRot h f) else none)
  | 88 => (OpVSL.dec w).bind (fun f => if h.ok true && (h.slot == .V0 || h.slot == .V1) && f.ok then some (semVSlide h f) else none)
  | 89 => (OpVN.dec w).bind (fun f => if h.ok true && (h.slot == .V0 || h.slot == .V1) && f.ok then some (semVBcast h f) else none)
  | 90 => (OpVS.dec w).bind (fun f => if h.ok true && (h.slot == .V0 || h.slot == .V1) && f.ok then some (semVBcs h f) else none)
  | 91 => (OpVSEL.dec w).bind (fun f => if h.ok true && (h.slot == .V0 || h.slot == .V1) && f.ok then some (semVSel h f) else none)
  | 92 => (OpVI.dec w).bind (fun f => if h.ok true && (h.slot == .V0 || h.slot == .V1) && f.ok then some (semVIota h f) else none)
  | 93 => (OpVLL.dec w).bind (fun f => if h.ok false && h.slot == .V0 && f.ok then some (semV0Sld h f) else none)
  | 94 => (OpVLLX.dec w).bind (fun f => if h.ok false && h.slot == .V0 && f.ok then some (semV0Sldx h f) else none)
  | 95 => (OpVLS.dec w).bind (fun f => if h.ok false && h.slot == .V0 && f.ok then some (semV0Sst h f) else none)
  | 96 => (OpVLSX.dec w).bind (fun f => if h.ok false && h.slot == .V0 && f.ok then some (semV0Sstx h f) else none)
  | 97 => (OpVLSM.dec w).bind (fun f => if h.ok false && h.slot == .V0 && f.ok then some (semV0Sstm h f) else none)
  | 98 => (OpVLSXM.dec w).bind (fun f => if h.ok false && h.slot == .V0 && f.ok then some (semV0Sstxm h f) else none)
  | 99 => (OpVDL.dec w).bind (fun f => if h.ok false && h.slot == .V1 && f.ok then some (semV1Ld h f) else none)
  | 100 => (OpVDS.dec w).bind (fun f => if h.ok false && h.slot == .V1 && f.ok then some (semV1St h f) else none)
  | 101 => (OpVDL.dec w).bind (fun f => if h.ok false && h.slot == .V1 && f.ok then some (semV1Ldb h f) else none)
  | 102 => (OpVDSM.dec w).bind (fun f => if h.ok false && h.slot == .V1 && f.ok then some (semV1Stm h f) else none)
  | 103 => (OpVDLX.dec w).bind (fun f => if h.ok false && h.slot == .V1 && f.ok then some (semV1Gath h f) else none)
  | 104 => (OpVG.dec w).bind (fun f => if h.ok false && h.slot == .V1 && f.ok then some (semV1Gathm h f) else none)
  | 105 => (OpVDSX.dec w).bind (fun f => if h.ok false && h.slot == .V1 && f.ok then some (semV1Scat h f) else none)
  | 106 => (OpVDSXM.dec w).bind (fun f => if h.ok false && h.slot == .V1 && f.ok then some (semV1Scatm h f) else none)
  | 107 => (OpVEF.dec w).bind (fun f => if h.ok true && (h.slot == .V0 || h.slot == .V1) && f.ok then some (semVRfwd h f) else none)
  | 108 => (OpVER.dec w).bind (fun f => if h.ok true && (h.slot == .V0 || h.slot == .V1) && f.ok then some (semVRrev h f) else none)
  | 109 => (OpVEC.dec w).bind (fun f => if h.ok true && (h.slot == .V0 || h.slot == .V1) && f.ok then some (semVRchk h f) else none)
  | _ => none

/-- The M-class map (R47) to operations; none where the decode trap is raised. -/
def semM (op : Nat) (h : Hdr) (w : BitVec 43) : Option Sem :=
  match op with
  | 0 => (OpMP.dec w).bind (fun f => if h.ok false && h.slot == .M then some (semMPush h f) else none)
  | 1 => (OpMS.dec w).bind (fun f => if h.ok false && h.slot == .M then some (semMAcc h f) else none)
  | 2 => (OpMPA.dec w).bind (fun f => if h.ok false && h.slot == .M then some (semMPa h f) else none)
  | 3 => (OpMS.dec w).bind (fun f => if h.ok false && h.slot == .M then some (semMShift h f) else none)
  | 4 => (OpMD.dec w).bind (fun f => if h.ok false && h.slot == .M then some (semMDrainTile h f) else none)
  | 5 => (OpMH.dec w).bind (fun f => if h.ok false && h.slot == .M then some (semMDrainRing h f) else none)
  | 6 => (OpMZ.dec w).bind (fun f => if h.ok false && h.slot == .M then some (semMZero h f) else none)
  | 7 => (OpMI.dec w).bind (fun f => if h.ok false && h.slot == .M then some (semMCfgImm h f) else none)
  | 8 => (OpSA.dec w).bind (fun f => if h.ok false && h.slot == .M then some (semMCfgReg h f) else none)
  | 9 => (OpNone.dec w).bind (fun f => if h.ok false && h.slot == .M then some (semMFence h f) else none)
  | _ => none

/-- The C-class map (R48) to operations; none where the decode trap is raised. -/
def semC (op : Nat) (h : Hdr) (w : BitVec 43) : Option Sem :=
  match op with
  | 0 => (OpCML.dec w).bind (fun f => if h.ok false && (h.slot == .C0 || h.slot == .C1) && f.ok then some (semCLdd h f) else none)
  | 1 => (OpCML.dec w).bind (fun f => if h.ok false && (h.slot == .C0 || h.slot == .C1) && f.ok then some (semCLdw h f) else none)
  | 2 => (OpCML.dec w).bind (fun f => if h.ok false && (h.slot == .C0 || h.slot == .C1) && f.ok then some (semCLdh h f) else none)
  | 3 => (OpCML.dec w).bind (fun f => if h.ok false && (h.slot == .C0 || h.slot == .C1) && f.ok then some (semCLdb h f) else none)
  | 4 => (OpCMS.dec w).bind (fun f => if h.ok false && (h.slot == .C0 || h.slot == .C1) && f.ok then some (semCStd h f) else none)
  | 5 => (OpCMS.dec w).bind (fun f => if h.ok false && (h.slot == .C0 || h.slot == .C1) && f.ok then some (semCStw h f) else none)
  | 6 => (OpCMS.dec w).bind (fun f => if h.ok false && (h.slot == .C0 || h.slot == .C1) && f.ok then some (semCSth h f) else none)
  | 7 => (OpCMS.dec w).bind (fun f => if h.ok false && (h.slot == .C0 || h.slot == .C1) && f.ok then some (semCStb h f) else none)
  | 8 => (OpCMVL.dec w).bind (fun f => if h.ok false && (h.slot == .C0 || h.slot == .C1) && f.ok then some (semCVld h f) else none)
  | 9 => (OpCMVS.dec w).bind (fun f => if h.ok false && (h.slot == .C0 || h.slot == .C1) && f.ok then some (semCVst h f) else none)
  | 10 => (OpCMVM.dec w).bind (fun f => if h.ok false && (h.slot == .C0 || h.slot == .C1) && f.ok then some (semCVstm h f) else none)
  | 11 => (OpCMVL.dec w).bind (fun f => if h.ok false && (h.slot == .C0 || h.slot == .C1) && f.ok then some (semCVldb h f) else none)
  | 12 => (OpCML.dec w).bind (fun f => if h.ok false && (h.slot == .C0 || h.slot == .C1) && f.ok then some (semCLddAcq h f) else none)
  | 13 => (OpCML.dec w).bind (fun f => if h.ok false && (h.slot == .C0 || h.slot == .C1) && f.ok then some (semCLdwAcq h f) else none)
  | 14 => (OpCMS.dec w).bind (fun f => if h.ok false && (h.slot == .C0 || h.slot == .C1) && f.ok then some (semCStdRel h f) else none)
  | 15 => (OpCMS.dec w).bind (fun f => if h.ok false && (h.slot == .C0 || h.slot == .C1) && f.ok then some (semCStwRel h f) else none)
  | 16 => (OpTLD.dec w).bind (fun f => if h.ok false && (h.slot == .C0 || h.slot == .C1) then some (semCTld h f) else none)
  | 17 => (OpTST.dec w).bind (fun f => if h.ok false && (h.slot == .C0 || h.slot == .C1) then some (semCTst h f) else none)
  | 18 => (OpTLDP.dec w).bind (fun f => if h.ok false && (h.slot == .C0 || h.slot == .C1) then some (semCTldp h f) else none)
  | 19 => (OpTSTP.dec w).bind (fun f => if h.ok false && (h.slot == .C0 || h.slot == .C1) then some (semCTstp h f) else none)
  | 20 => (OpTLD.dec w).bind (fun f => if h.ok false && h.slot == .C1 then some (semC1TldAcq h f) else none)
  | 21 => (OpTST.dec w).bind (fun f => if h.ok false && h.slot == .C1 then some (semC1TstRel h f) else none)
  | 22 => (OpSHL.dec w).bind (fun f => if h.ok false && h.slot == .C1 then some (semCShld h f) else none)
  | 23 => (OpSHL.dec w).bind (fun f => if h.ok false && h.slot == .C1 then some (semCShev h f) else none)
  | 24 => (OpCF.dec w).bind (fun f => if h.ok false && (h.slot == .C0 || h.slot == .C1) && f.ok then some (semCFarm h f) else none)
  | 25 => (OpCFV.dec w).bind (fun f => if h.ok false && h.slot == .C0 && f.ok then some (semCFstop h f) else none)
  | 26 => (OpCFV.dec w).bind (fun f => if h.ok false && h.slot == .C0 && f.ok then some (semCFwait h f) else none)
  | 27 => (OpCFS.dec w).bind (fun f => if h.ok false && h.slot == .C0 && f.ok then some (semCFstat h f) else none)
  | 28 => (OpCR.dec w).bind (fun f => if h.ok false && h.slot == .C1 then some (semC1Rfill h f) else none)
  | 29 => (OpCR.dec w).bind (fun f => if h.ok false && h.slot == .C1 then some (semC1Rspill h f) else none)
  | 30 => (OpCGL.dec w).bind (fun f => if h.ok false && h.slot == .C1 then some (semC1Gath h f) else none)
  | 31 => (OpCGS.dec w).bind (fun f => if h.ok false && h.slot == .C1 then some (semC1Scat h f) else none)
  | 32 => (OpCAR.dec w).bind (fun f => if h.ok false && h.slot == .C1 then some (semC1AaddI32 h f) else none)
  | 33 => (OpCAR.dec w).bind (fun f => if h.ok false && h.slot == .C1 then some (semC1AaddI64 h f) else none)
  | 34 => (OpCAN.dec w).bind (fun f => if h.ok false && h.slot == .C1 then some (semC1AaddI32Nr h f) else none)
  | 35 => (OpCAN.dec w).bind (fun f => if h.ok false && h.slot == .C1 then some (semC1AaddI64Nr h f) else none)
  | 36 => (OpCAR.dec w).bind (fun f => if h.ok false && h.slot == .C1 then some (semC1AminI32 h f) else none)
  | 37 => (OpCAR.dec w).bind (fun f => if h.ok false && h.slot == .C1 then some (semC1AminI64 h f) else none)
  | 38 => (OpCAN.dec w).bind (fun f => if h.ok false && h.slot == .C1 then some (semC1AminI32Nr h f) else none)
  | 39 => (OpCAN.dec w).bind (fun f => if h.ok false && h.slot == .C1 then some (semC1AminI64Nr h f) else none)
  | 40 => (OpCAR.dec w).bind (fun f => if h.ok false && h.slot == .C1 then some (semC1AmaxI32 h f) else none)
  | 41 => (OpCAR.dec w).bind (fun f => if h.ok false && h.slot == .C1 then some (semC1AmaxI64 h f) else none)
  | 42 => (OpCAN.dec w).bind (fun f => if h.ok false && h.slot == .C1 then some (semC1AmaxI32Nr h f) else none)
  | 43 => (OpCAN.dec w).bind (fun f => if h.ok false && h.slot == .C1 then some (semC1AmaxI64Nr h f) else none)
  | 44 => (OpCAR.dec w).bind (fun f => if h.ok false && h.slot == .C1 then some (semC1AandI32 h f) else none)
  | 45 => (OpCAR.dec w).bind (fun f => if h.ok false && h.slot == .C1 then some (semC1AandI64 h f) else none)
  | 46 => (OpCAN.dec w).bind (fun f => if h.ok false && h.slot == .C1 then some (semC1AandI32Nr h f) else none)
  | 47 => (OpCAN.dec w).bind (fun f => if h.ok false && h.slot == .C1 then some (semC1AandI64Nr h f) else none)
  | 48 => (OpCAR.dec w).bind (fun f => if h.ok false && h.slot == .C1 then some (semC1AorI32 h f) else none)
  | 49 => (OpCAR.dec w).bind (fun f => if h.ok false && h.slot == .C1 then some (semC1AorI64 h f) else none)
  | 50 => (OpCAN.dec w).bind (fun f => if h.ok false && h.slot == .C1 then some (semC1AorI32Nr h f) else none)
  | 51 => (OpCAN.dec w).bind (fun f => if h.ok false && h.slot == .C1 then some (semC1AorI64Nr h f) else none)
  | 52 => (OpCAR.dec w).bind (fun f => if h.ok false && h.slot == .C1 then some (semC1AxorI32 h f) else none)
  | 53 => (OpCAR.dec w).bind (fun f => if h.ok false && h.slot == .C1 then some (semC1AxorI64 h f) else none)
  | 54 => (OpCAN.dec w).bind (fun f => if h.ok false && h.slot == .C1 then some (semC1AxorI32Nr h f) else none)
  | 55 => (OpCAN.dec w).bind (fun f => if h.ok false && h.slot == .C1 then some (semC1AxorI64Nr h f) else none)
  | 56 => (OpCAR.dec w).bind (fun f => if h.ok false && h.slot == .C1 then some (semC1AswpI32 h f) else none)
  | 57 => (OpCAR.dec w).bind (fun f => if h.ok false && h.slot == .C1 then some (semC1AswpI64 h f) else none)
  | 58 => (OpCAN.dec w).bind (fun f => if h.ok false && h.slot == .C1 then some (semC1AswpI32Nr h f) else none)
  | 59 => (OpCAN.dec w).bind (fun f => if h.ok false && h.slot == .C1 then some (semC1AswpI64Nr h f) else none)
  | 60 => (OpCACR.dec w).bind (fun f => if h.ok false && h.slot == .C1 then some (semC1AcasI32 h f) else none)
  | 61 => (OpCACR.dec w).bind (fun f => if h.ok false && h.slot == .C1 then some (semC1AcasI64 h f) else none)
  | 62 => (OpCACN.dec w).bind (fun f => if h.ok false && h.slot == .C1 then some (semC1AcasI32Nr h f) else none)
  | 63 => (OpCACN.dec w).bind (fun f => if h.ok false && h.slot == .C1 then some (semC1AcasI64Nr h f) else none)
  | 64 => if bitsAt w 38 2 == 1#2 then (OpFN.dec 1#2 w).bind (fun f => if h.ok false && (h.slot == .C0 || h.slot == .C1) && f.ok then some (semCFenceRel h f) else none) else if bitsAt w 38 2 == 2#2 then (OpFN.dec 2#2 w).bind (fun f => if h.ok false && (h.slot == .C0 || h.slot == .C1) && f.ok then some (semCFenceAcq h f) else none) else if bitsAt w 38 2 == 3#2 then (OpFN.dec 3#2 w).bind (fun f => if h.ok false && (h.slot == .C0 || h.slot == .C1) && f.ok then some (semCFenceFull h f) else none) else none
  | 65 => if bitsAt w 38 2 == 1#2 then (OpFN.dec 1#2 w).bind (fun f => if h.ok false && (h.slot == .C0 || h.slot == .C1) && f.ok then some (semCFenceWRel h f) else none) else if bitsAt w 38 2 == 2#2 then (OpFN.dec 2#2 w).bind (fun f => if h.ok false && (h.slot == .C0 || h.slot == .C1) && f.ok then some (semCFenceWAcq h f) else none) else if bitsAt w 38 2 == 3#2 then (OpFN.dec 3#2 w).bind (fun f => if h.ok false && (h.slot == .C0 || h.slot == .C1) && f.ok then some (semCFenceWFull h f) else none) else none
  | 66 => (OpLQ.dec w).bind (fun f => if h.ok false && h.slot == .C1 && f.ok then some (semC1Qapp h f) else none)
  | 67 => (OpLBI.dec w).bind (fun f => if h.ok false && h.slot == .C1 then some (semCBarm h f) else none)
  | 68 => (OpLBR.dec w).bind (fun f => if h.ok false && h.slot == .C1 then some (semCBarmr h f) else none)
  | 69 => (OpLBI.dec w).bind (fun f => if h.ok false && h.slot == .C1 && f.n != 0#16 then some (semCBsig h f) else none)
  | 70 => (OpLBR.dec w).bind (fun f => if h.ok false && h.slot == .C1 then some (semCBsigr h f) else none)
  | 71 => (OpLBW.dec w).bind (fun f => if h.ok false && h.slot == .C1 then some (semCBwait h f) else none)
  | 72 => if bitsAt w 42 1 == 0#1 then (OpBeat.dec 0#1 w).bind (fun f => if h.ok false && h.slot == .C1 then some (semC1Beat h f) else none) else if bitsAt w 42 1 == 1#1 then (OpBOff.dec 1#1 w).bind (fun f => if h.ok false && h.slot == .C1 then some (semC1BeatOff h f) else none) else none
  | 73 => (OpSA.dec w).bind (fun f => if h.ok false && h.slot == .C1 then some (semC1Beatr h f) else none)
  | 74 => (OpBQ.dec w).bind (fun f => if h.ok false && h.slot == .C1 then some (semC1Beatrd h f) else none)
  | 75 => (OpBW.dec w).bind (fun f => if h.ok false && h.slot == .C1 then some (semC1Beatw h f) else none)
  | 76 => (OpPST.dec w).bind (fun f => if h.ok false && h.slot == .C1 && f.ok then some (semC1Pst h f) else none)
  | 77 => (OpPSTM.dec w).bind (fun f => if h.ok false && h.slot == .C1 && f.ok then some (semC1Pstm h f) else none)
  | 78 => (OpPLD.dec w).bind (fun f => if h.ok false && h.slot == .C1 && f.ok then some (semC1Pld h f) else none)
  | 79 => (OpBK.dec w).bind (fun f => if h.ok false && h.slot == .C1 && f.ok then some (semC1Bkrun h f) else none)
  | 80 => (OpKL.dec w).bind (fun f => if h.ok false && h.slot == .C1 then some (semC1KvldF16 h f) else none)
  | 81 => (OpKL.dec w).bind (fun f => if h.ok false && h.slot == .C1 then some (semC1KvldI8 h f) else none)
  | 82 => (OpKS.dec w).bind (fun f => if h.ok false && h.slot == .C1 then some (semC1Kvst h f) else none)
  | 83 => (OpKX.dec w).bind (fun f => if h.ok false && h.slot == .C1 then some (semC1Kvx h f) else none)
  | 84 => (OpKX.dec w).bind (fun f => if h.ok false && h.slot == .C1 then some (semC1Kvho h f) else none)
  | 85 => (OpKF.dec w).bind (fun f => if h.ok false && h.slot == .C1 then some (semC1Kvfree h f) else none)
  | 86 => (OpCAN2.dec w).bind (fun f => if h.ok false && h.slot == .C1 then some (semC1Cancel h f) else none)
  | 87 => (OpLN.dec w).bind (fun f => if h.ok false && (h.slot == .C0 || h.slot == .C1) then some (semCLnch h f) else none)
  | _ => none

/-- The B-class map (R49) to operations; none where the decode trap is raised. -/
def semB (op : Nat) (h : Hdr) (w : BitVec 43) : Option Sem :=
  match op with
  | 0 => (OpBD.dec w).bind (fun f => if h.ok false && h.slot == .B then some (semBBr h f) else none)
  | 1 => (OpBRG.dec w).bind (fun f => if h.ok false && h.slot == .B then some (semBBri h f) else none)
  | 2 => (OpBDL.dec w).bind (fun f => if h.ok false && h.slot == .B then some (semBCall h f) else none)
  | 3 => (OpBRL.dec w).bind (fun f => if h.ok false && h.slot == .B then some (semBCalli h f) else none)
  | 4 => (OpBRG.dec w).bind (fun f => if h.ok false && h.slot == .B then some (semBRet h f) else none)
  | 5 => (OpBRD.dec w).bind (fun f => if h.ok false && h.slot == .B then some (semBBrx h f) else none)
  | 6 => (OpBRD.dec w).bind (fun f => if h.ok false && h.slot == .B then some (semBDbnz h f) else none)
  | 7 => (OpBD.dec w).bind (fun f => if h.ok false && h.slot == .B then some (semBLoop h f) else none)
  | 8 => (OpBD.dec w).bind (fun f => if h.ok false && h.slot == .B then some (semBPcnt h f) else none)
  | 9 => (OpBD.dec w).bind (fun f => if h.ok false && h.slot == .B then some (semBPcntx h f) else none)
  | 10 => (OpBWC.dec w).bind (fun f => if h.ok false && h.slot == .B then some (semBPwhl h f) else none)
  | 11 => (OpBWC.dec w).bind (fun f => if h.ok false && h.slot == .B then some (semBPwhlx h f) else none)
  | 12 => (OpNone.dec w).bind (fun f => if h.ok false && h.slot == .B then some (semBEnd h f) else none)
  | 13 => (OpBT.dec w).bind (fun f => if h.ok false && h.slot == .B then some (semBTrap h f) else none)
  | 14 => (OpBTR.dec w).bind (fun f => if h.ok false && h.slot == .B then some (semBTrapr h f) else none)
  | 15 => (OpNone.dec w).bind (fun f => if h.ok false && h.slot == .B then some (semBRft h f) else none)
  | 16 => (OpSA.dec w).bind (fun f => if h.ok false && h.slot == .B then some (semBSetlc h f) else none)
  | 17 => (OpBI.dec w).bind (fun f => if h.ok false && h.slot == .B then some (semBSetlci h f) else none)
  | 18 => (OpSA.dec w).bind (fun f => if h.ok false && h.slot == .B then some (semBSetdp h f) else none)
  | 19 => (OpBI8.dec w).bind (fun f => if h.ok false && h.slot == .B then some (semBSetdpi h f) else none)
  | 20 => (OpBM.dec w).bind (fun f => if h.ok false && h.slot == .B then some (semBRot h f) else none)
  | 21 => (OpBM.dec w).bind (fun f => if h.ok false && h.slot == .B then some (semBRotclr h f) else none)
  | 22 => (OpBI1.dec w).bind (fun f => if h.ok false && h.slot == .B then some (semBStage h f) else none)
  | 23 => (OpBL.dec w).bind (fun f => if h.ok false && h.slot == .B then some (semBLoopset h f) else none)
  | _ => none

/-- The common fields of a slot syllable (R28). -/
def hdrOf (slot : Slot) (w : BitVec 63) : Hdr :=
  { slot := slot, mask := bitsAt w 51 5, guard := bitsAt w 45 6, sense := bitAt w 44, dup := bitAt w 43 }

/-- The operation of a slot syllable without its stop bit; none where R43 raises the decode trap for it. -/
def semOfWord (slot : Slot) (w : BitVec 63) : Option Sem :=
  let h := hdrOf slot w
  let op := (bitsAt w 56 7).toNat
  let o := bitsAt w 0 43
  match slot with
  | .S => semS op h o
  | .V0 => semV op h o
  | .V1 => semV op h o
  | .M => semM op h o
  | .C0 => semC op h o
  | .C1 => semC op h o
  | .B => semB op h o

end Sys2Proof.Machine
end

