-- ==== Sys2Proof/Machine/Land.lean ====
section
/-! DEFINITION. How an access that has issued is performed and lands: the store buffer, the outbound queue, results that
return to registers, and fences (R82, R188 to R206, R221, R395, R417, R424). -/

namespace Sys2Proof.Machine

/-! ## Order among the accesses of one core -/

/-- What a C1.KVX or C1.KVHO in progress may have still to reach beside its known bytes: its descriptor until that is read,
then the table of its pool, whose entries the walk finds as it goes (R301, R304, R308). -/
def State.walkSpans (s : State) (n : Nat) (e : Engine) : List (Nat × Nat) :=
  let ctx := (s.coreAt n).ctx
  match e.kind with
  | .kvx _ _ | .kvho =>
    (match e.kv.pool with
     | some p => s.pageSpans ctx p.table (16 * p.n)
     | none =>
       s.pageSpans ctx e.virtAt.toNat 64 ++
         (match (s.kvDescriptor n e).1 with | some p => s.pageSpans ctx p.table (16 * p.n) | none => []))
  | _ => []

/-- An engine operation of core `n` reaches one of the given bytes. -/
def State.engineMeets (s : State) (n : Nat) (e : Engine) (as : List Nat) : Bool :=
  meets (s.engineBytes (s.coreAt n).ctx e) as || hitsSpan (s.walkSpans n e) as

/-- The piece of the bytes `next` that the engine operation `e` of core `n` makes meets what `x` has still to reach, so that it comes after it
(R179, R190); two walks are taken to. -/
def State.enginesMeet (s : State) (n : Nat) (x e : Engine) (next : List Nat) : Bool :=
  let walks (y : Engine) : Bool := match y.kind with | .kvx _ _ => true | .kvho => true | _ => false
  s.engineMeets n x next ||
    hitsSpan (s.walkSpans n e) (s.engineBytes (s.coreAt n).ctx x) || (walks x && walks e)

/-- A fence is complete (R203): the waits of its kind have ended, for FENCE.W those of a release and every earlier flume push with
them, and in a deterministic launch its fixed time has come (R395). -/
def State.fenceDone (s : State) (n : Nat) (f : Fence) : Bool :=
  let c := s.coreAt n
  let reads := c.loads.all (fun l => decide (f.seq ≤ l.seq) || l.taken) &&
    c.timed.all (fun x => decide (f.seq ≤ x.seq) || !x.inMemory) &&
    c.engines.all (fun e => decide (f.seq ≤ e.seq) || c.fillStuck e || e.ended || (e.stores && !f.wait)) &&
    c.sb.all (fun e => decide (f.seq ≤ e.seq) || e.dest.isNone)
  (c.untimed || decide (f.due = 0) || decide (f.due + (if f.wait then 1 else 0) ≤ c.time)) && (!f.wait || (!c.flumePushing f.seq && !c.flumePushed f.seq)) &&
    (if f.kind = 2 then reads else decide (f.scope = 0) && !f.wait || s.released n f.seq f.scope (f.wait || c.determ))

/-- Core `n` without its complete fences; a complete acquire drops the words that the core does not own (R199). One that completes in a
freeze, before its time in a deterministic launch, stays for its stalls alone (R424). -/
def State.completeFences (s : State) (n : Nat) : State :=
  let done := (s.coreAt n).fences.filter (fun f => !f.done && s.fenceDone n f)
  if done.isEmpty && !(s.coreAt n).fences.any (·.done) then s
  else
    let c := s.coreAt n
    let s0 := s.putCore n { c with fences := c.fences.filterMap (fun f =>
      if !f.done && !s.fenceDone n f then some f
      else if c.determ && decide (f.due ≠ 0) && decide (c.timeOf f.seq < f.due + (if f.wait then 1 else 0)) then some { f with done := true }
      else none) }
    let s1 := done.foldl (fun s f => if f.kind != 2 && decide (f.scope ≠ 0) then s.publish n f.seq else s) s0
    if done.any (fun f => f.kind != 1 && decide (f.scope ≠ 0)) then s1.invalidate n else s1

/-! ## What a C1 load finds (R190, R195, R199 to R201) -/

/-- The value of a pending result is still in memory. -/
def PendLoad.inMemory (l : PendLoad) : Bool := (l.kind == .bytes || l.kind == .spread) && l.arrived.isNone

/-- A pending load may take its value from memory now: what holds a read back has ended, overlapping loads and engine accesses before
it have been performed, and for an acquire at package or system scope, which reads the home L2, the core's own earlier stores to
its words have left the outbound queue of its die and no entry there covers its bytes (R179, R190, R199, R201). -/
def State.loadTakes (s : State) (n : Nat) (l : PendLoad) : Bool :=
  let c := s.coreAt n
  !l.away && l.inMemory && !s.readHeld n l.seq l.addrs &&
    c.loads.all (fun x => decide (l.seq ≤ x.seq) || x.arrived.isSome || !meets x.addrs l.addrs) &&
    c.engines.all (fun e => decide (l.seq ≤ e.seq) || e.ended || e.fault.isSome || !s.engineMeets n e l.addrs) &&
    (decide (l.acq < 3) || s.outq.all (fun e => e.1 != dieOf n || !meets (e.2.bytes.map (·.1)) l.addrs))

/-- The register that a load writes is one that its handler, or the entry of one, waits for (R355, R359). -/
def Core.awaitsLoad (c : Core) (l : PendLoad) : Bool :=
  match l.dest with
  | .scalar k => c.wants.contains (.s k) || (c.entering.isSome && decide (k < 16))
  | .vec k _ => c.wants.contains (.v k)

/-- A pending result may land: in a deterministic launch at its padded time, or for a handler that waits for it. -/
def State.loadLands (s : State) (n : Nat) (l : PendLoad) : Bool :=
  let c := s.coreAt n
  !l.away && !l.inMemory && c.comes l.seq l.due (c.awaitsLoad l)

/-- A pending result may take its value or land. -/
def State.loadReady (s : State) (n : Nat) (l : PendLoad) : Bool := s.loadTakes n l || s.loadLands n l

/-- The words that an L1 of 64 KiB holds (R18, R195). -/
def l1Size : Nat := 16384

/-- The L1 of core `n` after a load of word `w` that missed it: the word is copied unless a store of the core still stands
before it, and a word of the others leaves an L1 that is full, by a free choice (log 10). -/
def State.fillL1 (s : State) (n acq w : Nat) : State :=
  let c := s.coreAt n
  if (c.ownStores (c.seq + 1)).any (fun e => e.bytes.any (fun b => b.1 / 4 == w)) then s.putCore n { c with l1 := SMap.del c.l1 w }
  else
    let l := SMap.put c.l1 w (s.baseWord n acq w false)
    let old := if l.length ≤ l1Size then none else (l.filter (fun e => e.1 != w))[Config.cacheVictim s.free % l1Size]?
    match old with
    | none => s.putCore n { c with l1 := l }
    | some e => { s.putCore n { c with l1 := SMap.del l e.1 } with free := s.free + 1 }

/-- A write flume takes an element from an operation at place `q` whose result has landed (R183). -/
def Core.pushFlume (c : Core) (v : Nat) (x : Vec) (p : BitVec 32) (q : Nat) : Core :=
  { c with flumes := c.flumes.map (fun f =>
      if f.reg == v then
        { f with inflight := f.inflight - 1, next := f.next + 1, pops := c.time :: f.pops,
                 buf := (if f.fault.isSome then f.buf else f.buf ++ [(x, p, q)]) }
      else f) }

/-- The register of a returned result: its value, poison by lane, pending bit clear. -/
def Core.landReg (c : Core) (l : PendLoad) (v : Vec) (p : BitVec 32) : Core :=
  match l.dest with
  | .scalar k =>
    let c1 := if l.seg then c.journalS k else c
    let c2 : Core := { c1 with xfer := c1.xfer.map (fun x => if x.link == some k then { x with link := none } else x) }
    c2.putS k { val := v.setWidth 64, poison := p.getLsbD 0, pend := false }
  | .vec k tag =>
    match c.flumeOf k with
    | some f =>
      if f.shape.write then (c.putV k { c.vreg k with pend := false }).pushFlume k v p l.seq
      else c.putV k { c.vreg k with pend := false }
    | none =>
      let c1 := if l.seg then c.journalV k else c
      c1.putV k { val := v, tag := (match l.kind with | .fail _ => (c1.vreg k).tag | _ => tag), poison := p, pend := false }

/-- Planes assembled into elements (R286): plane i holds bit i of every element; the sign is extended to the element's
width. `bits` holds the planes one after another, each of 1,024 / width bits. -/
def planesValue (bits w width : Nat) (signed : Bool) : Nat :=
  let n := 1024 / max 1 width
  let one (j : Nat) : Nat :=
    let u := (List.range w).foldl (fun a i => a + bits / 2 ^ (n * i + j) % 2 * 2 ^ i) 0
    if signed && decide (w ≠ 0) && decide (2 ^ (w - 1) ≤ u) then wrap (sx u w) width else u
  ofElems width ((List.range n).map one)

/-- The poison of a list of bytes by 32-bit lane. -/
def lanePoison (l : List Bool) : BitVec 32 :=
  BitVec.ofNat 32 (((List.range 32).filter (fun j => ((l.drop (4 * j)).take 4).any (fun b => b))).foldl (fun x j => x + 2 ^ j) 0)

/-- The value and the lane poison that a result delivers, and the words that it read in the L1's place. -/
def State.loadResult (s : State) (n : Nat) (l : PendLoad) : Vec × BitVec 32 :=
  let hit : Bool := decide (l.acq = 0) && Config.l1Hit (s.free + n)
  let one (a : Nat) : Byte × Bool :=
    match l.got.find? (fun e => e.1 == a) with
    | some e => e.2
    | none =>
      let x := s.viewWord n l.seq l.acq (a / 4) hit
      (BitVec.ofNat 8 (fieldGet x.1 (8 * (a % 4)) 8), x.2)
  match l.kind with
  | .value v p => (v.setWidth 1024, if p then 1#32 else 0#32)
  | .beat die => (BitVec.ofNat 1024 ((s.dieAt die).beat % 2 ^ 48), 0)
  | .fail _ =>
    (match l.dest with
     | .scalar k => ((s.coreAt n).sreg k).val.setWidth 1024
     | .vec k _ => ((s.coreAt n).vreg k).val, BitVec.allOnes 32)
  | .planes w width signed =>
    match l.arrived with
    | some (v, p) => (BitVec.ofNat 1024 (planesValue v.toNat w width signed), p)
    | none => (0, 0)
  | .spread =>
    let bs : Nat × Bool :=
      match l.arrived with
      | some (v, p) => (v.toNat % 2 ^ 32, p != 0)
      | none => (ofElems 8 (l.addrs.map (fun a => (one a).1.toNat)), l.addrs.any (fun a => (one a).2))
    (BitVec.ofNat 1024 (ofElems 32 (List.replicate 32 bs.1)), if bs.2 then BitVec.allOnes 32 else 0)
  | .bytes =>
    match l.arrived with
    | some (v, p) => (v, p)
    | none =>
      let got := l.addrs.map one
      let v := BitVec.ofNat 1024 (ofElems 8 (got.map (·.1.toNat)))
      match l.dest with
      | .scalar _ => (v, if got.any (·.2) then 1#32 else 0#32)
      | .vec _ _ => (v, lanePoison (got.map (·.2)))

/-- The trap of a refusal (R281, R352): FAULT_ADDR is the virtual address, DATA the tag or the arrival beat. -/
def refusalTrap (late : Bool) (virt : Word) (pc : Word) (slot tag beat kind : Nat) : Trap :=
  { Trap.bare (if late then 8 else 7) pc with
    async := true, slot := slot, addr := virt, data := (if late then beat else tag) % 2 ^ 32, kind := kind }

/-- The record of a refusal (R281, R392). -/
def State.refusalRecord (s : State) (core ctx die slot : Nat) (virt pc : Word) (tag beat pa : Nat) : State :=
  s.record core {
    kind := 7, outcome := 2, ctx := ctx, die := die, slot := slot, core := core, addr := virt.toNat, pc := pc,
    detail := [(0, 8, tag), (8, 8, beat), (16, 8, pa)], beat := 0 }

/-- The refusal of an access without a beat tag to a row of a suspended command (R295): its record and its trap, whose tag is the beat
in progress (DESIGN CHOICE, log 65). -/
def State.refusal (s : State) (n slot : Nat) (pc virt : Word) (kind pa : Nat) : State × Trap :=
  let b := (s.dieAt (homeDie pa)).beat % 2 ^ 48
  (s.refusalRecord n (s.coreAt n).ctx (homeDie pa) slot virt pc b b pa, refusalTrap false virt pc slot b b kind)

/-- The bytes that a load still has to read, and those of them that its next turn reads: some elements of a vector, a scalar whole
(R163). -/
def State.loadPart (s : State) (l : PendLoad) : List Nat × List Nat :=
  let left := l.addrs.filter (fun a => !l.got.any (fun e => e.1 == a))
  match l.dest, l.kind with
  | .vec _ tag, .bytes => (left, s.pieceOf (max 4 (ewBytes tag.toNat)) left)
  | _, _ => (left, left)

/-- A pending load of core `n` takes its value from memory, or that of some of its elements (R163, R199): the L1, and for an acquire the
words that the core does not own. An access to a row of a suspended command is refused (R295). -/
def State.takeLoad (s : State) (n : Nat) (l : PendLoad) : State :=
  let put (s : State) (x : PendLoad) : State :=
    let c := s.coreAt n
    s.putCore n { c with loads := c.loads.map (fun y => if y.seq = l.seq then x else y) }
  if s.rowRefused l.addrs then
    let r := s.refusal n l.slot l.pc l.virt 0 (l.addrs.headD 0)
    put r.1 { l with kind := .fail r.2 }
  else
    let r := s.loadResult n l
    let hit : Bool := decide (l.acq = 0) && Config.l1Hit (s.free + n)
    let part := s.loadPart l
    let ws := (part.2.map (· / 4)).eraseDups
    let missed := ws.filter (fun w => !(hit && (s.coreAt n).l1.any (fun e => e.1 == w)))
    let s1 := missed.foldl (fun s w => s.fillL1 n l.acq w)
      ((s.moved n .main part.2.length).markSeen n (part.2.filter (fun a => missed.contains (a / 4))))
    let one (a : Nat) : Nat × Byte × Bool :=
      let x := s.viewWord n l.seq l.acq (a / 4) hit
      (a, BitVec.ofNat 8 (fieldGet x.1 (8 * (a % 4)) 8), x.2)
    let l1 : PendLoad := if part.2.length = part.1.length then { l with arrived := some r } else { l with got := l.got ++ part.2.map one }
    let s2 : State := { put s1 l1 with free := s1.free + 1 }
    if l.acq = 0 then s2 else s2.invalidate n

/-- A pending result of core `n` lands (R82, R206): its register, and for the acquire of an atomic the words that the core does not
own. -/
def State.landLoad (s : State) (n : Nat) (l : PendLoad) : State :=
  let r := s.loadResult n l
  let c := s.coreAt n
  let c1 := Core.landReg { c with loads := c.loads.filter (fun x => x.seq != l.seq) } l r.1 r.2
  let s1 := s.putCore n c1
  let s2 := match l.kind with | .fail t => s1.boundary n l.seq t | _ => s1
  if l.acq = 0 || l.arrived.isSome then s2 else s2.invalidate n

/-- REGISTER_RESULT_LAND: one of the results of core `n` that may take its value or land, by `pick`. One that has no time to wait for
does both at once. -/
def State.registerResultLand (s : State) (n pick : Nat) : State :=
  let ok := (s.coreAt n).loads.filter (s.loadReady n)
  match ok[pick % ok.length]? with
  | none => s
  | some l =>
    if l.inMemory then
      let s1 := s.takeLoad n l
      match (s1.coreAt n).loads.find? (fun x => x.seq == l.seq) with
      | some x => if s1.loadLands n x then s1.landLoad n x else s1
      | none => s1
    else s.landLoad n l

/-! ## The store buffer (R197, R198, R205, R221, R222, R281, R331, R333) -/

/-- The physical bytes of the slot that a publication writes; none where the entry is no publication or its slot does not translate. -/
def State.slotBytes (s : State) (n : Nat) (e : SbEntry) : List Nat :=
  match e.kind with
  | .publish base i k _ user =>
    (match access s (s.coreAt n) (s.coreAt n).ctx (base + 64 * (i % max 1 k)) (s.free + n) { rd := false, wr := true, ex := false, user := user } with
     | .ok pa _ _ => (List.range 64).map (pa + ·)
     | .fail _ _ _ => [])
  | _ => []

/-- An entry may be performed: nothing before it in program order that touches its bytes is left, no acquire or release
fence before it is incomplete, and the waits of its own release have ended. -/
def State.storeReady (s : State) (n : Nat) (e : SbEntry) : Bool :=
  let c := s.coreAt n
  e.gd.isNone && !s.rowBusy (e.addrs ++ s.slotBytes n e) && !c.acquiring e.seq && !c.fencing e.seq &&
    (e.kind == .store && decide (e.rel < 3) || !s.queuedBefore n e.seq (e.words.map (4 * ·.1))) &&
    c.sb.all (fun x => decide (e.seq ≤ x.seq) || !meets (x.words.map (·.1)) (e.words.map (·.1))) &&
    c.loads.all (fun l => decide (e.seq ≤ l.seq) || l.arrived.isSome || !meets l.addrs e.addrs) &&
    c.engines.all (fun x => decide (e.seq ≤ x.seq) || x.ended || !s.engineMeets n x e.addrs) &&
    (decide (e.rel = 0) || s.released n e.seq e.rel c.determ) &&
    (match e.kind with | .publish _ _ _ _ _ => c.claim.isNone | _ => true)

/-- The virtual address of the byte at `a` of an access that begins at `virt` and reaches two pages at most. -/
def virtOf (virt : Word) (a : Nat) : Word :=
  let v := virt.toNat
  BitVec.ofNat 64 (v / 65536 * 65536 + a % 65536 + (if v % 65536 ≤ a % 65536 then 0 else 65536))

/-- A write of core `n`, from place `seq` of its program order and at release scope `rel`, performed at its point (R188): words homed on
the own die, and every word of a release at package or system scope, at the home L2; the others in the die's outbound queue. -/
def State.coreWrite (s : State) (n seq rel : Nat) (virt pc : Word) (bytes : List (Nat × Byte)) (words : List (Nat × Bool × Bool)) : State :=
  let d := dieOf n
  let near (a : Nat) : Bool := decide (3 ≤ rel) || homeDie a == d
  let ctx := (s.coreAt n).ctx
  let bs := bytes.filter (fun b => near b.1)
  let far := bytes.filter (fun b => !near b.1)
  let s1 := (s.moved n .main bytes.length)
  let s2 := if bs.isEmpty then s1 else homeWrite s1 (some n) true ctx bs (words.filter (fun w => near (4 * w.1)))
  if far.isEmpty then s2
  else { s2 with outq := s2.outq ++ [(d, { core := n, seq := seq, ctx := ctx, bytes := far,
                                           words := words.filter (fun w => !near (4 * w.1)), seen := false,
                                           virt := virtOf virt ((far.map (·.1)).headD 0), pc := pc })] }

/-- The part of a store that its bytes `as` and their words make. -/
def SbEntry.part (e : SbEntry) (as : List Nat) : SbEntry :=
  { e with
    bytes := e.bytes.filter (fun b => as.contains b.1),
    words := e.words.filter (fun w => (List.range 4).any (fun k => as.contains (4 * w.1 + k))) }

/-- A store of the store buffer performed, or some elements of a vector, the others of which keep its place in the buffer `sb` (R163). -/
def State.performWrite (s : State) (n : Nat) (e : SbEntry) (sb : List SbEntry) : State :=
  let as := s.pieceOf e.unit (e.bytes.map (·.1))
  let y := e.part ((e.bytes.map (·.1)).filter (fun a => !as.contains a))
  let x := if y.bytes.isEmpty then e else e.part as
  let s1 := s.coreWrite n e.seq e.rel e.virt e.pc x.bytes x.words
  if y.bytes.isEmpty then s1
  else { s1.putCore n { s1.coreAt n with sb := sb.map (fun z => if z.seq = e.seq then y else z) } with free := s1.free + 1 }

/-- An atomic performed at the home L2 (R205, R206). -/
def State.performAtomic (s : State) (n : Nat) (e : SbEntry) (k : Nat) (wide : Bool) (x y : Word) : State :=
  let w := if wide then 64 else 32
  let a := e.addr
  let old := s.home.num a (w / 8)
  let c := s.coreAt n
  let answer (s : State) (kind : LoadKind) : State :=
    match e.dest with
    | none => s
    | some d =>
      let c := s.coreAt n
      let l : PendLoad := {
        seq := e.seq, dest := .scalar d, kind := kind, addrs := [], acq := e.rel, due := 0, slot := 5, pc := e.pc,
        virt := e.virt, seg := false, away := false, got := [], arrived := none }
      s.putCore n { c with loads := c.loads ++ [l] }
  if s.home.anyPois a (w / 8) then
    let t : Trap := { Trap.bare 6 e.pc with async := true, slot := 5, addr := e.virt, kind := 3, size := if wide then 3 else 2 }
    match e.dest with
    | some _ => answer s (.fail t)
    | none => s.boundary n e.seq t
  else
    let v := atomicNew k w old (x.toNat % 2 ^ w) (y.toNat % 2 ^ w)
    let s1 := homeWrite (s.moved n .main (w / 8)) (some n) false c.ctx (bytesOf v a (w / 8)) (wordsOf a (w / 8) false)
    answer s1 (.value (BitVec.ofNat 64 old) false)

/-- The publication of a claimed packet: bytes 0 to 62, then byte 63 (R213, R221). A slot that does not translate is a trap
at the next boundary. -/
def State.performPublish (s : State) (n : Nat) (e : SbEntry) (base i slots : Nat) (data : List Byte) (user : Bool) : State :=
  let c := s.coreAt n
  let va := base + 64 * (i % max 1 slots)
  let v : Byte := BitVec.ofNat 8 (1 + i / max 1 slots % 2)
  match access s c c.ctx va (s.free + n) { rd := false, wr := true, ex := false, user := user } with
  | .ok pa attr _ =>
    if isWorked attr then
      s.boundary n e.seq { Trap.bare 7 e.pc with async := true, slot := 5, addr := BitVec.ofNat 64 va, kind := 1, size := 6 }
    else
      let bs := ((List.range 64).map (pa + ·)).zip (data ++ [v])
      homeWrite (s.moved n .main 64) (some n) true c.ctx bs (wordsOf pa 64 false)
  | .fail code sub level =>
    s.boundary n e.seq { Trap.bare code e.pc with
      async := true, slot := 5, sub := sub, addr := BitVec.ofNat 64 va, kind := 1, size := 6, level := level }

/-- A cancel performed: state 0 becomes 2, and the launches of the record count the tiles never handed out (R331, R332). -/
def State.performCancel (s : State) (n : Nat) (e : SbEntry) : State :=
  if s.home.byte (e.addr + 1) = 0#8 then
    let s1 := s.engineStore (s.coreAt n).ctx (e.addr + 1) 1 2
    (s1.launches.filter (fun l => s1.recordPa l.blk.ctx l.blk.record == some e.addr)).foldl (fun s l =>
      match s.launch l.id with | some x => s.sweep x | none => s) s1
  else s

/-- A submission reaches the dispatcher, and its answer the core (R317, R333). -/
def State.performSubmit (s : State) (n : Nat) (e : SbEntry) (raw : Nat) (user : Bool) : State :=
  let c := s.coreAt n
  let r := s.submit raw e.virt .none user (c.ctx, fieldGet c.sw.ctxId 16 8)
  let c1 := r.1.coreAt n
  r.1.putCore n { c1 with loads := c1.loads.map (fun l =>
    if l.seq = e.seq + 1 then { l with kind := .value (BitVec.ofNat 64 r.2) false, away := false } else l) }

/-- An entry that is refused because its bytes lie in a row of a suspended command: it counts as performed, with nothing written (R281,
R295). A returning form's result fails with it. -/
def State.refuseStore (s : State) (n : Nat) (e : SbEntry) : State :=
  let r := s.refusal n 5 e.pc
    (match e.kind with | .publish base i k _ _ => BitVec.ofNat 64 (base + 64 * (i % max 1 k)) | _ => e.virt)
    (match e.kind with | .store => 1 | .publish _ _ _ _ _ => 1 | _ => 3) ((e.addrs ++ s.slotBytes n e).headD 0)
  match e.dest with
  | none => r.1.boundary n e.seq r.2
  | some d =>
    let c := r.1.coreAt n
    r.1.putCore n { c with loads := c.loads ++ [{
      seq := e.seq, dest := .scalar d, kind := .fail r.2, addrs := [], acq := 0, due := 0, slot := 5, pc := e.pc, virt := e.virt,
      seg := false, away := false, got := [], arrived := none }] }

/-- One entry of core `n`'s store buffer performed; a held store of a committed segment may then take its place (R342). -/
def State.performStore (s : State) (n : Nat) (e : SbEntry) : State :=
  let c := s.coreAt n
  let s1 := s.putCore n { c with sb := c.sb.filter (fun x => x.seq != e.seq) }
  let s2 :=
    if e.beat.isNone && s.rowRefused (e.addrs ++ s.slotBytes n e) then s1.refuseStore n e else
    match e.kind with
    | .store =>
      (match e.beat with
       | some t => s1.sendAccess (homeDie e.addr) {
           core := n, slot := 5, seq := e.seq, pc := e.pc, virt := e.virt, ctx := c.ctx, tag := t,
           bytes := e.bytes.map (fun (b : Nat × Byte) => (b.1, b.2, 0xFF#8)), words := e.words, addrs := [], load := false, held := false }
       | none => s1.performWrite n e c.sb)
    | .atomic k wide x y => s1.performAtomic n e k wide x y
    | .barm k => s1.barrier (some n) c.ctx e.addr (.arm k)
    | .bsig k => s1.barrier (some n) c.ctx e.addr (.arrive k)
    | .publish base i k data user => s1.performPublish n e base i k data user
    | .cancel => s1.performCancel n e
    | .submit raw user => s1.performSubmit n e raw user
  ((if e.rel = 0 then s2 else s2.publish n e.seq).refill n).settle

/-- STORE_PERFORM: one of the entries of core `n`'s store buffer that may be performed, by `pick`. -/
def State.storePerform (s : State) (n pick : Nat) : State :=
  let ok := (s.coreAt n).sb.filter (s.storeReady n)
  match ok[pick % ok.length]? with
  | some e => s.performStore n e
  | none => s

/-! ## The outbound queue and the L2 (R188, R200, R201) -/

/-- The entries of die `d`'s outbound queue that may be performed: those before which none touches the same words. -/
def State.outReady (s : State) (d : Nat) : List (Nat × OutEntry) :=
  let l : List (Nat × OutEntry) := s.outq.filter (fun (e : Nat × OutEntry) => e.1 == d)
  (List.range l.length).filterMap (fun i =>
    match l[i]? with
    | none => none
    | some e =>
      if s.rowBusy (e.2.bytes.map (·.1)) || (l.take i).any (fun x => meets (x.2.words.map (·.1)) (e.2.words.map (·.1))) then none else some e)

/-- OUTBOUND_PERFORM. A refusal names the virtual address and the bundle of the store (R281, R295, R352). -/
def State.outboundPerform (s : State) (d pick : Nat) : State :=
  let ok := s.outReady d
  match ok[pick % ok.length]? with
  | some e =>
    let s1 : State := { s with outq := s.outq.erase e }
    let as := e.2.bytes.map (·.1)
    if s.rowRefused as then
      let a := as.headD 0
      let r := s1.refusal e.2.core 5 e.2.pc e.2.virt 1 a
      (r.1.boundary e.2.core e.2.seq r.2).settle
    else
    (homeWrite s1 (some e.2.core) true e.2.ctx e.2.bytes e.2.words).settle
  | none => s

/-- L2_LINE_LEAVE: a line leaves the home L2. -/
def State.l2LineLeave (s : State) (d pick : Nat) : State :=
  let ls := s.l2Lines d
  match ls[pick % ls.length]? with
  | none => s
  | some l => s.dropLine l

end Sys2Proof.Machine
end

