-- ==== Sys2Proof/Machine/Engines.lean ====
section
/-! DEFINITION. The C1 engines, rings and flumes behind the program, timed on-chip accesses, and the landing of
fixed-latency results (R81, R84, R141, R164, R174 to R186, R232, R245, R246, R260, R338, R356, R378, R395). -/

namespace Sys2Proof.Machine

/-! ## Timed on-chip accesses (R164, R198, R199) -/

/-- The timed access of core `n` whose time has come and that may be made: the earliest, in issue order among equals. What a unit that
has gone leaves behind waits for no time. -/
def State.dueTimed (s : State) (n : Nat) : Option (Timed × List Timed) :=
  s.nextTimed n (fun x => decide (x.due ≤ (s.coreAt n).time) || !(s.coreAt n).running)

/-- A loft or cluster access cannot be made at its time, for an acquire before it or for the waits of its own release: the core holds
(R164, R165, R198, R199). One whose comparison is still being made does not hold it, nor a release behind a flume push whose
operation has not landed, for which issue time must go on. -/
def State.onChipHold (s : State) (n : Nat) : Bool :=
  let c := s.coreAt n
  c.timed.any (fun x => x.inMemory && decide (x.due ≤ c.time) && x.gd.isNone && !s.timedReady n x &&
    !(decide (x.rel ≠ 0) && c.flumePushing x.seq))

/-- The timed accesses to memory made early: what the hold of a fence, a release or a rendezvous waits for (R165, R198,
R397; log 11). -/
def State.drainMemory (s : State) (n seq fuel : Nat) : State :=
  match fuel with
  | 0 => s
  | fuel + 1 =>
    match s.nextTimed n (fun x => x.inMemory && decide (x.seq < seq)) with
    | none => s
    | some (x, rest) => (s.runTimed n x rest).drainMemory n seq fuel

/-! ## Pieces of an engine operation -/

/-- The next piece of an engine operation writes its tile: at once with a piece read, or, in a deterministic launch and for a
C1.KVLD, when every piece has been read. -/
def Engine.landing (e : Engine) : Bool :=
  match e.kind with
  | .tileLoad _ | .gather _ => decide (e.due = 0) || e.work.isEmpty
  | .kvload _ _ => e.work.isEmpty
  | _ => false

/-- An engine write into a tile may land: every earlier one into that tile has, a C0 tile load's among them (R81), and in a
deterministic launch its time has come (R395). -/
def State.landsTile (s : State) (n : Nat) (e : Engine) : Bool :=
  let c := s.coreAt n
  c.comes e.seq e.due false &&
    (List.range 32).all (fun t => !e.fills t ||
      (c.engines.all (fun x => decide (e.seq ≤ x.seq) || !x.fills t) &&
        c.timed.all (fun x => decide (e.seq ≤ x.seq) ||
          (match x.act with | .chunkRead k _ _ _ _ _ => k != t | .chunkWrite k _ _ _ _ _ => k != t | _ => true))))

/-- The next piece of a store finds its tile's bytes taken (R395). -/
def Engine.taken (e : Engine) : Bool :=
  decide (e.padEnd = 0) ||
    (match e.kind, e.work with
     | .tileStore _, (_, as) :: _ | .scatter _, (_, as) :: _ => decide (as.length ≤ e.buf.length)
     | _, _ => true)

/-- An engine operation other than a fill or spill may perform its next piece (R179, R199, R203). -/
def State.engineReady (s : State) (n : Nat) (e : Engine) : Bool :=
  let c := s.coreAt n
  let transfer (x : Engine) : Bool := match x.kind with | .tileLoad _ => true | .tileStore _ => true | _ => false
  let next : List Nat := (s.nextAccess n e).2
  !(e.stores && e.ended) && (!e.landing || s.landsTile n e) && e.taken && !s.rowBusy next &&
    (e.ended || (!c.acquiring e.seq && (!e.stores || (!c.fencing e.seq && !s.queuedBefore n e.seq next)) &&
      (decide (e.rel = 0) || s.released n e.seq e.rel c.determ) &&
      (decide (e.acq < 3) || s.outq.all (fun x => x.1 != dieOf n || !meets (x.2.bytes.map (·.1)) next)) &&
      c.engines.all (fun x => decide (e.seq ≤ x.seq) || x.ended || !(transfer x && transfer e)) &&
      c.engines.all (fun x => decide (e.seq ≤ x.seq) || x.ended || x.fault.isSome || !s.enginesMeet n x e next) &&
      c.sb.all (fun x => decide (e.seq ≤ x.seq) || (!e.stores && x.kind == .store && x.gd.isNone) || !s.engineMeets n e x.addrs) &&
      c.loads.all (fun l => decide (e.seq ≤ l.seq) || l.arrived.isSome || !s.engineMeets n e l.addrs)))

/-- The ready tag of tile `t` after an engine write into it: set when no other is left (R81). -/
def Core.readyTile (c : Core) (t seq : Nat) : Core :=
  if c.engines.any (fun e => e.seq != seq && e.fills t) then c else c.putT t { c.treg t with ready := true }

/-- An element or chunk of an engine operation that lies in a row of a suspended command is refused: its record, and the trap at the
next boundary (R295). -/
def State.refusePiece (s : State) (n : Nat) (e : Engine) : State :=
  let x := s.nextAccess n e
  let r := s.refusal n e.slot e.pc x.1 (if e.stores then 5 else 4) (x.2.headD 0)
  r.1.boundary n e.seq r.2

/-- One piece of a tile load or gather: bytes of memory into their places in the tile (R174, R177); in a deterministic launch they are
kept until its time, and all written then (R395). A refused piece leaves its bytes of the tile. -/
def State.loadPiece (s : State) (n : Nat) (e : Engine) (t : Nat) : KvPiece :=
  let put (s : State) (p : Nat) (got : List (Byte × Bool)) (first last : Bool) : State :=
    let num := (List.range got.length).zip got
    let c1 := (s.coreAt n).writeTile t (num.map (fun x => (p + x.1, x.2.1))) (groupsOf (num.map (fun x => (p + x.1, x.2.2))))
      e.tag e.rest first
    s.putCore n (if last then c1.readyTile t e.seq else c1)
  match e.work with
  | [] => (put s e.virtAt.toNat e.buf true true, none)
  | (p, as) :: rest =>
    let bad := s.rowRefused as
    let c := s.coreAt n
    let got : List (Byte × Bool) :=
      if bad then (List.range as.length).map (fun k => ((c.treg t).byte (p + k), (c.treg t).poison.getLsbD ((p + k) / 64)))
      else as.map (fun a => (s.ownByte n e.seq a e.acq, s.ownPois n e.seq (a / 4) e.acq))
    let s1 := if bad then s.refusePiece n e else (s.markSeen n as).moved n .main as.length
    let s2 := if rest.isEmpty ∧ e.acq ≠ 0 then s1.invalidate n else s1
    if e.due ≠ 0 then (s2, some { e with work := rest, done := e.done + 1, buf := e.buf ++ got })
    else (put s2 p got (decide (e.done = 0)) rest.isEmpty, some { e with work := rest, done := e.done + 1 })

/-- One piece of a tile store or scatter: bytes of the tile into memory. -/
def State.storePiece (s : State) (n : Nat) (e : Engine) (t : Nat) : KvPiece :=
  match e.work with
  | [] => (s, none)
  | (p, as) :: rest =>
    let c := s.coreAt n
    let r := c.treg t
    let got : List (Byte × Bool) :=
      if e.padEnd = 0 then (List.range as.length).map (fun k => (r.byte (p + k), r.poison.getLsbD ((p + k) / 64)))
      else e.buf.take as.length
    let bs := as.zip (got.map (·.1))
    let ws := wordsOfBytes (as.zip (got.map (·.2)))
    let e1 : Engine := { e with work := rest, done := e.done + 1, buf := (if e.padEnd = 0 then e.buf else e.buf.drop as.length) }
    if s.rowRefused as then (s.refusePiece n e, some e1)
    else (s.coreWrite n e.seq e.rel (e.vas.getD e.done 0) e.pc bs ws, some e1)

/-- One piece of C1.KVST: the tile read and packed, then 128 bytes of the block (R306). -/
def State.kvstorePiece (s : State) (n : Nat) (e : Engine) (t : Nat) : KvPiece :=
  if e.buf.isEmpty then (s, some { e with buf := ((s.coreAt n).treg t).packed e.par })
  else
    match e.work with
    | [] => (s, none)
    | (_, as) :: rest =>
      let data := (e.buf.drop (128 * e.done)).take 128
      let s1 := s.coreWrite n e.seq e.rel (e.vas.getD e.done 0) e.pc (as.zip (data.map (·.1))) (wordsOfBytes (as.zip (data.map (·.2))))
      (s1, if rest.isEmpty ∧ e.padEnd = 0 then none else some { e with work := rest, done := e.done + 1 })

/-- A piece of a key-value operation refused in a row of a suspended command (R281, R295): a load of a block keeps its tile's bits with
poison set, a part of a block or a flag is not written, and a LOOKUP ends as one that could not be read (DESIGN CHOICE, log 65). -/
def State.kvRefused (s : State) (n : Nat) (e : Engine) : KvPiece :=
  let s1 := s.refusePiece n e
  match e.kind, e.kv.pool with
  | .kvload _ _, _ => (s1, some { e with work := [], fault := some (Trap.bare 7 e.pc) })
  | .kvx d land, _ => (s1.putCore n ((s1.coreAt n).kvResult e d land (BitVec.ofNat 64 (2 ^ 63 + 3)) true), none)
  | .kvho, some p =>
    if 2 * e.kv.blocks * e.kv.heads ≤ e.kv.pos then s1.kvAnswer n e
    else (s1, some { e with kv := { e.kv.next p with other := e.kv.other + 1 } })
  | .kvstore _, _ =>
    let rest := e.work.drop 1
    (s1, if rest.isEmpty ∧ e.padEnd = 0 then none else some { e with work := rest, done := e.done + 1 })
  | _, _ => (s1, none)

/-- A key-value operation. -/
def Engine.isKv (e : Engine) : Bool :=
  match e.kind with
  | .kvload _ _ | .kvstore _ | .kvfree | .kvx _ _ | .kvho => true
  | _ => false

/-- One piece of an engine operation. -/
def State.piece (s : State) (n : Nat) (e : Engine) : KvPiece :=
  if e.isKv && s.rowRefused (s.nextAccess n e).2 then s.kvRefused n e else
  match e.kind with
  | .tileLoad t => s.loadPiece n e t
  | .gather t => s.loadPiece n e t
  | .tileStore t => s.storePiece n e t
  | .scatter t => s.storePiece n e t
  | .kvload t i8 => s.kvloadPiece n e t i8
  | .kvstore t => s.kvstorePiece n e t
  | .kvfree => s.kvfreePiece n e
  | .kvx d land => s.kvxPiece n e d land
  | .kvho => s.kvhoPiece n e
  | .fill _ => (s, some e)
  | .spill _ => (s, some e)

/-- What is left of an operation after a piece: a transfer of elements ends with its last piece; in a deterministic launch a load stays
until it lands, and a store for the stalls of later accesses and of its tile. -/
def Engine.goesOn (e : Engine) : Bool :=
  match e.kind with
  | .tileLoad _ | .gather _ => !e.work.isEmpty || decide (e.due ≠ 0)
  | .tileStore _ | .scatter _ => !e.work.isEmpty || decide (e.padEnd ≠ 0)
  | _ => true

/-- A piece performed, and its operation kept or ended. -/
def State.runPiece (s : State) (n : Nat) (e : Engine) : State :=
  let r := s.piece n e
  let c := r.1.coreAt n
  let es :=
    match r.2 with
    | some x => if x.goesOn then c.engines.map (fun y => if y.seq = e.seq then x else y) else c.engines.filter (fun y => y.seq != e.seq)
    | none => c.engines.filter (fun y => y.seq != e.seq)
  let c1 : Core := { c with engines := es }
  let c2 := match e.kind, r.2 with | .kvload t _, none => c1.readyTile t e.seq | _, _ => c1
  let s2 := r.1.putCore n c2
  (if e.rel = 0 then s2 else s2.publish n e.seq).settle

/-- The engine operations of core `n` with a piece to perform now. -/
def State.enginesReady (s : State) (n : Nat) : List Engine :=
  (s.coreAt n).engines.filter (fun e => (match e.kind with | .fill _ => false | .spill _ => false | _ => true) && s.engineReady n e)

/-- TILE_TRANSFER_LAND: one piece of an engine operation; the last byte of a load sets the ready tag. -/
def State.tileTransferLand (s : State) (n pick : Nat) : State :=
  let ok := s.enginesReady n
  match ok[pick % ok.length]? with
  | some e => s.runPiece n e
  | none => s

/-! ## Rings (R179, R180, R232, R233, R250) -/

/-- Translation of the bytes of one ring entry for core `n`, with the rights of the mode that issued the operation: the bytes, or
the trap of the first that fails, as the engine reaches it (R162; DESIGN CHOICE where it is checked, log 66). -/
def State.elemPhys (s : State) (n : Nat) (l : List Word) (rd sup : Bool) (log2 : Nat) (pc : Word) : Except Trap (List Nat) :=
  let c := s.coreAt n
  let bare (code sub level : Nat) (a : Word) : Trap :=
    { Trap.bare code pc with slot := 5, sub := sub, addr := a, kind := if rd then 4 else 5, level := level, size := log2 }
  let one (a : Word) : Except Trap Nat :=
    if 2 ^ 48 ≤ a.toNat then .error (bare 0x09 2 0 a)
    else
      match access s c c.ctx a.toNat (s.free + n) { rd := rd, wr := !rd, ex := false, user := !sup } with
      | .fail code sub level => .error (bare code sub level a)
      | .ok pa attr _ => if isWorked attr then .error (bare (if c.determ then 0x0D else 0x07) 0 0 a) else .ok pa
  let rs := l.map one
  match rs.findSome? (fun r => match r with | .error t => some t | .ok _ => none) with
  | some t => .error t
  | none => .ok (rs.filterMap (fun r => match r with | .ok a => some a | .error _ => none))

/-- A fill may append its next entry: there is room, and the accesses before it that it overlaps have been performed. A faulted one tries
again once the handler runs, which may have mapped its page (R250). -/
def State.fillReady (s : State) (n : Nat) (e : Engine) : Bool :=
  let c := s.coreAt n
  c.fillRoom e && (e.fault.isNone || c.sup) &&
    (match s.elemPhys n (e.virt.headD []) true e.sup (Nat.log2 e.ew) e.pc with
     | .error _ => e.fault.isNone
     | .ok as => !s.readHeld n e.seq as &&
       c.engines.all (fun x => decide (e.seq ≤ x.seq) || x.ended || x.fault.isSome || !s.engineMeets n x as) &&
       c.loads.all (fun l => decide (e.seq ≤ l.seq) || l.arrived.isSome || !meets l.addrs as))

/-- One entry appended, or the fault kept for the M operation that reaches it (R250). -/
def State.runFill (s : State) (n : Nat) (e : Engine) : State :=
  let put (s : State) (x : Option Engine) : State :=
    let c := s.coreAt n
    s.putCore n { c with engines := (match x with
      | some y => c.engines.map (fun z => if z.seq = e.seq then y else z)
      | none => c.engines.filter (fun z => z.seq != e.seq)) }
  match e.virt with
  | [] => put s none
  | l :: rest =>
    match s.elemPhys n l true e.sup (Nat.log2 e.ew) e.pc with
    | .error t => put s (some { e with fault := some t })
    | .ok as =>
      if s.rowRefused as then
        let r := s.refusal n e.slot e.pc (l.headD 0) 4 (as.headD 0)
        put r.1 (some { e with fault := some { r.2 with async := false } })
      else
        let c := s.coreAt n
        let r := c.ringReg e.ringNo
        let i := r.at' r.count
        let base := r.base + i * r.entryBytes
        let num := (List.range as.length).zip as
        let bs := num.map (fun x => (base + x.1, s.ownByte n e.seq x.2))
        let ws := wordsOfBytes (num.map (fun x => (base + x.1, s.ownPois n e.seq (x.2 / 4))))
        let c1 := ({ c with scratch := c.scratch.store bs ws } : Core).putRing e.ringNo
          { r with count := r.count + 1, tags := SMap.set r.tags i e.tag 0 }
        put (((s.putCore n c1).markSeen n as).moved n .main as.length)
          (if rest.isEmpty then none else some { e with virt := rest, done := e.done + 1, fault := none })

/-- RING_FILL_APPEND. -/
def State.ringFillAppend (s : State) (n pick : Nat) : State :=
  let ok := (s.coreAt n).engines.filter (s.fillReady n)
  match ok[pick % ok.length]? with
  | some e => s.runFill n e
  | none => s

/-- The entries that a spill has popped and not written. -/
def Core.spillHolds (c : Core) (e : Engine) : Nat := e.buf.length / max 1 (c.ringReg e.ringNo).entryBytes

/-- A spill may pop its next entry: the ring has one beside those that a pop in progress takes (R233), and in a deterministic launch its
time has come (R395). -/
def Core.spillPops (c : Core) (e : Engine) : Bool :=
  let r := c.ringReg e.ringNo
  e.isSpill && decide (c.spillHolds e < e.virt.length) && decide (0 < r.count) && c.pops.all (fun p => p.ring != e.ringNo) &&
    !c.ringBefore e && c.comes e.seq (e.due + c.ringStep e.ringNo * e.done) false

/-- A spill may write the entry that it popped first: the accesses before it that it overlaps have been performed. -/
def State.spillWrites (s : State) (n : Nat) (e : Engine) : Bool :=
  let c := s.coreAt n
  e.isSpill && decide (0 < c.spillHolds e) && !c.acquiring e.seq && !c.fencing e.seq &&
    (match s.elemPhys n (e.virt.headD []) false e.sup (Nat.log2 e.ew) e.pc with
     | .error _ => true
     | .ok as => !s.rowBusy as && !s.queuedBefore n e.seq as &&
       c.engines.all (fun x => decide (e.seq ≤ x.seq) || x.ended || !s.engineMeets n x as) &&
       c.sb.all (fun x => decide (e.seq ≤ x.seq) || !meets x.addrs as) &&
       c.loads.all (fun l => decide (e.seq ≤ l.seq) || l.arrived.isSome || !meets l.addrs as))

/-- A spill has an entry to pop or to write. -/
def State.spillReady (s : State) (n : Nat) (e : Engine) : Bool := (s.coreAt n).spillPops e || s.spillWrites n e

/-- A spill replaced, or ended. -/
def State.putSpill (s : State) (n seq : Nat) (x : Option Engine) : State :=
  let c := s.coreAt n
  s.putCore n { c with engines := (match x with
    | some y => c.engines.map (fun z => if z.seq = seq then y else z)
    | none => c.engines.filter (fun z => z.seq != seq)) }

/-- One entry popped; in a deterministic launch it is written PADC1 later at most. -/
def State.popSpill (s : State) (n : Nat) (e : Engine) : State :=
  let c := s.coreAt n
  let r := c.ringReg e.ringNo
  let base := r.base + r.head * r.entryBytes
  let got := (List.range r.entryBytes).map (fun i => (c.scratch.byte (base + i), c.scratch.pois ((base + i) / 4)))
  (s.putCore n (c.putRing e.ringNo { r with count := r.count - 1, head := r.at' 1 })).putSpill n e.seq
    (some { e with
      buf := e.buf ++ got, done := e.done + 1
      padEnd := (if c.determ && !e.sup then c.timeOf e.seq + c.padC1 else 0)
      padEnds := e.padEnds ++ (if c.determ && !e.sup then [c.timeOf e.seq + c.padC1] else []) })

/-- One popped entry written; a fault is an event of the next boundary, and ends the spill (R180). -/
def State.writeSpill (s : State) (n : Nat) (e : Engine) : State :=
  match e.virt with
  | [] => s.putSpill n e.seq none
  | l :: rest =>
    match s.elemPhys n l false e.sup (Nat.log2 e.ew) e.pc with
    | .error t => (s.putSpill n e.seq none).boundary n e.seq { t with data := if t.code = 9 then e.ringNo else t.data }
    | .ok as =>
      if s.rowRefused as then
        let r := s.refusal n e.slot e.pc (l.headD 0) 5 (as.headD 0)
        (r.1.putSpill n e.seq none).boundary n e.seq r.2
      else
        let got := e.buf.take as.length
        let s1 := s.coreWrite n e.seq 0 (l.headD 0) e.pc (as.zip (got.map (·.1))) (wordsOfBytes (as.zip (got.map (·.2))))
        (s1.putSpill n e.seq (if rest.isEmpty && decide (e.padEnd = 0) then none
          else some { e with virt := rest, buf := e.buf.drop as.length, padEnds := e.padEnds.drop 1 })).settle

/-- One step of a spill. -/
def State.runSpill (s : State) (n : Nat) (e : Engine) : State :=
  if s.spillWrites n e then s.writeSpill n e else if (s.coreAt n).spillPops e then s.popSpill n e else s

/-- RING_SPILL_WRITE. -/
def State.ringSpillWrite (s : State) (n pick : Nat) : State :=
  let ok := (s.coreAt n).engines.filter (s.spillReady n)
  match ok[pick % ok.length]? with
  | some e => s.runSpill n e
  | none => s

/-! ## Flumes (R181 to R186, R395) -/

/-- The virtual addresses, or cluster offsets, of the bytes of element `i`. -/
def Flume.elem (f : Flume) (i : Nat) : List Word :=
  (List.range 128).map (fun k => f.shape.addr f.disp i + BitVec.ofNat 64 k)

/-- Where the bytes of a flume's element stand: main memory, whose pages the element may cross (R163), or the cluster window (R160). An
element is checked as the unit reaches it (DESIGN CHOICE, log 66). -/
def State.flumePhys (s : State) (n : Nat) (f : Flume) (i : Nat) : Except Trap (List Nat) :=
  let c := s.coreAt n
  let va := f.shape.addr f.disp i
  let bare (code sub level : Nat) (a : Word) : Trap :=
    { Trap.bare code f.pc with
      sub := sub, addr := a, data := (if code = 9 then f.reg else 0), space := (if f.main then 0 else 2)
      kind := (if f.shape.write then 5 else 4), level := level, size := 7 }
  if f.main then
    if 2 ^ 48 < va.toNat + 128 then .error (bare 0x09 2 0 va)
    else
      match accessRange s c c.ctx va.toNat 128 (s.free + n) { rd := !f.shape.write, wr := f.shape.write, ex := false, user := !f.sup } with
      | (.ok pa at1 lg, .ok pb at2 lg2) =>
        if isWorked at1 then .error (bare (if c.determ then 0x0D else 0x07) 0 0 va)
        else .ok (physList va.toNat 128 (.ok pa at1 lg) (.ok pb at2 lg2))
      | (.fail code sub level, _) => .error (bare code sub level va)
      | (_, .fail code sub level) => .error (bare code sub level (BitVec.ofNat 64 ((va.toNat + 127) / 2 ^ 16 * 2 ^ 16)))
  else
    match (f.elem i).find? (fun a => decide (c.clusterWindow.2 ≤ a.toNat)) with
    | some a => .error (bare 0x09 2 0 a)
    | none => .ok ((f.elem i).map (fun a => c.clusterBase + a.toNat))

/-- A flume of the running code has room and time to read its next element: in a deterministic launch at its time (R395). -/
def Core.flumeRoom (c : Core) (f : Flume) : Bool :=
  !f.shape.write && f.fault.isNone && decide (f.moved < f.size) && decide (f.buf.length < 8) && (f.sup || !c.isHeld) &&
    (!c.det || decide (f.due c.padC1 f.moved ≤ c.time))

/-- A read flume may take its next element: every access before the arming that it overlaps has been performed (R179, R184). -/
def State.flumeReadReady (s : State) (n : Nat) (f : Flume) : Bool :=
  let c := s.coreAt n
  c.flumeRoom f &&
    (match s.flumePhys n f f.moved with
     | .error _ => true
     | .ok as =>
       if f.main then !s.readHeld n f.seq as &&
         c.engines.all (fun e => decide (f.seq ≤ e.seq) || e.ended || e.fault.isSome || !s.engineMeets n e as) &&
         c.loads.all (fun l => decide (f.seq ≤ l.seq) || l.arrived.isSome || !meets l.addrs as)
       else !c.acquiring f.seq && c.timed.all (fun x => decide (f.seq ≤ x.seq) || !x.inMemory || !x.stores || x.space != .cluster))

/-- A flume replaced. -/
def Core.putFlume (c : Core) (f : Flume) : Core := { c with flumes := c.flumes.map (fun x => if x.reg = f.reg then f else x) }

/-- FLUME_ELEMENT_READ: a fault is kept for the bundle that pops the element (R184). -/
def State.flumeElementRead (s : State) (n pick : Nat) : State :=
  let ok := (s.coreAt n).flumes.filter (s.flumeReadReady n)
  match ok[pick % ok.length]? with
  | none => s
  | some f =>
    let c := s.coreAt n
    match s.flumePhys n f f.moved with
    | .error t => s.putCore n (c.putFlume { f with fault := some t })
    | .ok as =>
      if f.main && s.rowRefused as then
        let r := s.refusal n 0xF f.pc (f.shape.addr f.disp f.moved) 4 (as.headD 0)
        r.1.putCore n ((r.1.coreAt n).putFlume { f with fault := some { r.2 with async := false } })
      else
        let got : List (Byte × Bool) := as.map (fun a =>
          if f.main then (s.ownByte n f.seq a, s.ownPois n f.seq (a / 4))
          else (s.spaceByte n .cluster a, s.spacePois n .cluster (a / 4)))
        let v : Vec := BitVec.ofNat 1024 (ofElems 8 (got.map (·.1.toNat)))
        let s1 := s.putCore n (c.putFlume { f with buf := f.buf ++ [(v, lanePoison (got.map (·.2)), f.seq)], moved := f.moved + 1 })
        if f.main then (s1.markSeen n as).moved n .main 128 else s1.moved n .cluster 128

/-- An element of a write flume in main memory may be written: the acquires and release fences before the operation that pushed it are
complete, and so is every access before it that it overlaps (R179, R190, R199, R203). -/
def State.flumeMayWrite (s : State) (n seq : Nat) (as : List Nat) : Bool :=
  let c := s.coreAt n
  !s.rowBusy as && !s.queuedBefore n seq as && c.sb.all (fun x => decide (seq ≤ x.seq) || !meets x.addrs as) &&
    c.engines.all (fun x => decide (seq ≤ x.seq) || x.ended || !s.engineMeets n x as) &&
    c.loads.all (fun l => decide (seq ≤ l.seq) || l.arrived.isSome || !meets l.addrs as)

/-- A write flume may perform its next element. -/
def State.flumeWriteReady (s : State) (n : Nat) (f : Flume) : Bool :=
  let c := s.coreAt n
  f.shape.write &&
    (match f.buf with
     | [] => false
     | (_, _, q) :: _ =>
       !c.acquiring q && !c.fencing q &&
         (match s.flumePhys n f f.moved with
          | .error _ => true
          | .ok as =>
            if f.main then s.flumeMayWrite n q as
            else c.timed.all (fun x => decide (q ≤ x.seq) || !x.inMemory || x.space != .cluster)))

/-- The write flume that a unit left behind goes with its last element (R86, R322, R390). -/
def Core.dropLeft (c : Core) (reg : Nat) : Core :=
  if c.unit.isSome then c else { c with flumes := c.flumes.filter (fun f => f.reg != reg || !f.buf.isEmpty) }

/-- FLUME_ELEMENT_WRITE: a fault is an event of the next boundary, and the elements after it are not written (R184). -/
def State.flumeElementWrite (s : State) (n pick : Nat) : State :=
  let ok := (s.coreAt n).flumes.filter (s.flumeWriteReady n)
  match ok[pick % ok.length]? with
  | none => s
  | some f =>
    let c := s.coreAt n
    let stop (s : State) (t : Trap) : State :=
      (s.putCore n (((s.coreAt n).putFlume { f with buf := [], fault := some t }).dropLeft f.reg)).boundary n f.seq t
    match f.buf, s.flumePhys n f f.moved with
    | [], _ => s
    | _ :: _, .error t => stop s t
    | (v, p, q) :: rest, .ok as =>
      if f.main && s.rowRefused as then
        let r := s.refusal n 0xF f.pc (f.shape.addr f.disp f.moved) 5 (as.headD 0)
        stop r.1 r.2
      else
        let num := (List.range as.length).zip as
        let bs := num.map (fun x => (x.2, v.extractLsb' (8 * x.1) 8))
        let ws := wordsOfBytes (num.map (fun x => (x.2, p.getLsbD (x.1 / 4))))
        let s1 := s.putCore n ((c.putFlume { f with buf := rest, moved := f.moved + 1 }).dropLeft f.reg)
        (if f.main then s1.coreWrite n q 0 (f.shape.addr f.disp f.moved) f.pc bs ws
         else ({ s1 with cmem := s1.cmem.store bs ws } : State).moved n .cluster 128).settle

/-! ## Fixed-latency results (R77, R84, R338, R356) -/

/-- A program's write of a status word lands after every hardware update of the same cycle (R84). -/
def Flight.program (f : Flight) : Bool :=
  match f.dest with
  | .status _ => f.tag == 1#4
  | _ => false

/-- The order of landing: by time, hardware before program, then by slot. -/
def Flight.key (f : Flight) : Nat := 32 * f.land + (if f.program then 16 else 0) + f.slot % 16

/-- The next result of core `n` whose time has come. -/
def Core.dueFlight (c : Core) : Option (Flight × List Flight) :=
  match (c.flights.filter (fun f => decide (f.land ≤ c.time))).map (·.key) with
  | [] => none
  | k :: r =>
    let m := r.foldl min k
    takeFirst (fun f => f.key == m && decide (f.land ≤ c.time)) c.flights

/-- The journal entry of a result's destination, for a result of the open segment (R381). -/
def Core.journalDest (c : Core) (d : Dest) : Core :=
  match d with
  | .scalar n => c.journalS n
  | .pred n => c.journalP n
  | .mask n => c.journalM n
  | .vec n => c.journalV n
  | .vtag n => c.journalV n
  | .status i => c.journalW i
  | .base n => c.journalB n
  | .warn k => c.journalW (0x028 + k)
  | _ => c

/-- The counts of RESPOL raised by the elements of a drain or V.RREV (R259). -/
def Core.countResidues (c : Core) (evs : List ResEvent) (seg : Bool) : Core :=
  if evs.isEmpty then c
  else
    let c1 := if seg then c.journalW 0x023 else c
    let m := (evs.filter (·.multi)).length
    { c1 with sw := { c1.sw with respol := satAdd16 (satAdd16 c1.sw.respol 16 m) 32 (evs.length - m) } }

/-- The write of a fixed-latency result into its destination; a drain's entry goes to the tail of its ring as it is then (R232). -/
def Core.writeDest (c : Core) (f : Flight) : Core :=
  let p := f.poison.getLsbD 0
  match f.dest with
  | .scalar n => c.putS n { val := f.val.setWidth 64, poison := p, pend := (c.sreg n).pend }
  | .pred n => c.putP n { val := f.val.getLsbD 0, poison := p }
  | .mask n => c.putM n { val := f.val.setWidth 32, poison := p }
  | .vec n => c.putV n { val := f.val.setWidth 1024, tag := f.tag, poison := f.poison.setWidth 32, pend := (c.vreg n).pend }
  | .vtag n => c.putV n { c.vreg n with tag := f.tag }
  | .ttag t => c.putT t { c.treg t with tag := f.tag }
  | .status i =>
    let v : Word := f.val.setWidth 64
    let c1 := c.putW i (if f.tag = 1#4 then rwWrite i c.sw.checkctl (c.sw.get i) v else v)
    if i = 0x024 then c1.relimit else c1
  | .base n => c.putB n (f.val.setWidth 20)
  | .warn k => c.putW (0x028 + k) (satAdd16 (c.sw.get (0x028 + k)) 32 (f.val.toNat))
  | .tileRow t line =>
    let bs := (List.range f.size).map (fun i => (64 * line + i, f.val.extractLsb' (8 * i) 8))
    c.writeTile t bs (groupsOf ((List.range f.size).map (fun i => (64 * line + i, f.poison.getLsbD (i / 4))))) f.tag 16385 true
  | .ringRow h _ =>
    let r := c.ringReg h
    let e := r.at' r.count
    let a := r.base + e * r.entryBytes
    let bs := (List.range f.size).map (fun i => (a + i, f.val.extractLsb' (8 * i) 8))
    let ws := wordsOfBytes ((List.range f.size).map (fun i => (a + i, f.poison.getLsbD (i / 4))))
    ({ c with scratch := c.scratch.store bs ws } : Core).putRing h { r with count := r.count + 1, tags := SMap.set r.tags e f.tag 0 }
  | .flume v => c.pushFlume v (f.val.setWidth 1024) (f.poison.setWidth 32) f.seq
  | .none => c

/-- A pending guarded branch of the result's own bundle takes the trap of its failed comparison at its transfer cycle, so
the boundary takes none (R124, R378; DEDUCED, log 70). A result of a segment rewinds it instead. -/
def Xfer.takes (x : Xfer) (f : Flight) : Bool := f.mismatch && !f.seg && x.guarded && x.pc == f.pc

/-- A pending link whose register another result writes is not written later (R127; log 12). -/
def Xfer.keepsLink (x : Xfer) (f : Flight) : Xfer :=
  if f.dest == .scalar (x.link.getD 128) && !(f.slot == 6 && f.issued == x.issued) then { x with link := none } else x

/-- A result lands: the journal, the write, then its residue events with their records, and the traps that follow at the
next boundary; a trap of the handler's own is a supervisor fault (R246, R260, R361, R378). -/
def State.landFlight (s : State) (n : Nat) (f : Flight) (rest : List Flight) : State :=
  let waits := (s.coreAt n).xfer.any (·.takes f)
  let c0 : Core := { s.coreAt n with
    flights := rest, xfer := (s.coreAt n).xfer.map (fun x => if x.takes f then { x with failed := true } else x.keepsLink f) }
  let c1 := if f.seg then c0.journalDest f.dest else c0
  let c2 := (c1.writeDest f).countResidues f.events f.seg
  let s1 := f.events.foldl (fun s e => s.record n e.record) (s.putCore n c2)
  let res : List Trap :=
    match f.events.find? (·.trap) with
    | some e => [{ Trap.bare 4 f.pc with async := true, slot := f.slot, data := e.entry, seg := f.seg }]
    | none => []
  let mis : List Trap := if f.mismatch && !waits then [{ Trap.bare 5 f.pc with async := true, seg := f.seg }] else []
  (res ++ mis).foldl (fun s t => s.boundary n f.seq t) s1

/-- A result of a slot before C0 and a chunk of a C0 tile load reach the tiles in one cycle: the result is written first (R84). -/
def State.dueFirst (s : State) (n : Nat) : Bool :=
  match s.dueTimed n, (s.coreAt n).dueFlight with
  | some (x, _), some (f, _) =>
    (match x.act with | .chunkWrite _ _ _ _ _ _ => true | _ => false) && decide (f.land ≤ x.due) && decide (f.slot < 4)
  | _, _ => false

/-- RESULT_LAND, and the rows of the status words: the next result of core `n` whose time has come. -/
def State.resultLand (s : State) (n : Nat) : State :=
  match (if s.dueFirst n then none else s.dueTimed n) with
  | some (x, rest) => s.runTimed n x rest
  | none =>
    match (s.coreAt n).dueFlight with
    | some (f, rest) => s.landFlight n f rest
    | none => s

/-- A D-pair comparison of core `n` is due (R378). -/
def Core.twinDue (c : Core) : Bool := c.flights.any (fun f => f.twin.isSome && decide (f.land ≤ c.time))

/-- DPAIR_COMPARE: the comparisons whose time has come. -/
def State.dpairCompare (s : State) (n : Nat) : State :=
  let t := (s.coreAt n).time
  s.compareTwins n (fun f => f.twin.isSome && decide (f.land ≤ t))

end Sys2Proof.Machine
end

