-- ==== Sys2Proof/Machine/Issue.lean ====
section
/-! DEFINITION. The issue of a bundle: fetch (R334 to R337), decoding (R22 to R36, R43), the checks made at issue (R353),
the actions of the header (R27), the condition trees (R38 to R41) and the end of an issue (R25, R36, R42). -/

namespace Sys2Proof.Machine

/-! ## Fetch (R334, R336) -/

/-- The slots in the order of their syllables (R22). -/
def allSlots : List Slot := [.S, .V0, .V1, .M, .C0, .C1, .B]

/-- The template code of a slot in a header (R23, R24). -/
def tmpl (hd : Word) (sl : Slot) : Nat :=
  match sl with
  | .S => fieldGet hd 61 2 | .V0 => fieldGet hd 59 2 | .V1 => fieldGet hd 57 2 | .M => fieldGet hd 55 2
  | .C0 => fieldGet hd 53 2 | .C1 => fieldGet hd 51 2 | .B => fieldGet hd 49 2

/-- The slots whose syllables follow a header, in order. -/
def presentSlots (hd : Word) : List Slot := allSlots.filter (fun sl => tmpl hd sl == 2)

/-- The line of the fetch buffer that holds code address `a`. -/
def Core.lineAt (c : Core) (a : Nat) : Option FetchLine := c.fetch.find? (fun l => l.addr == a / 64)

/-- The syllable at code address `a` in the fetch buffer; 0 where its line is missing. -/
def Core.syllable (c : Core) (a : Nat) : Word :=
  match c.lineAt a with
  | some l => BitVec.ofNat 64 (fieldGet l.data (8 * (a % 64)) 64)
  | none => 0

/-- What the fetch buffer has of the bundle at the program counter. -/
inductive Fetched where
  | missing
  /-- the first syllable in a faulted line stands at this address -/
  | faulted (a : Word)
  | whole
  deriving DecidableEq, Repr

/-- The state of the fetch of the bundle at the program counter: a bundle spans two lines at most. -/
def Core.fetched (c : Core) : Fetched :=
  let a := c.pc.toNat
  match c.lineAt a with
  | none => .missing
  | some l =>
    if l.faulted then .faulted c.pc
    else
      let e := a + bundleBytes (c.syllable a) - 8
      match c.lineAt e with
      | none => .missing
      | some k => if k.faulted then .faulted (BitVec.ofNat 64 (e / 64 * 64)) else .whole

/-- The lines that fetch keeps and reads ahead, four at most: those of the bundle, that of a pending target, and the
lines after. -/
def Core.wantLines (c : Core) : List Nat :=
  let l := c.pc.toNat / 64
  let t := match c.xfer with | some x => (match x.target with | some a => [a.toNat / 64] | none => []) | none => []
  (([l, l + 1] ++ t ++ [l + 2, l + 3]).eraseDups).take 4

/-- The next line that fetch reads; none where it has every line it keeps. -/
def Core.nextLine (c : Core) : Option Nat := c.wantLines.find? (fun l => !c.fetch.any (fun f => f.addr == l))

/-- The bundle that line `l` is read for: the one at the program counter, if the line holds part of it; else none. -/
def Core.fetching (c : Core) (l : Nat) : Word :=
  if c.pc.toNat / 64 ≤ l ∧ 64 * l < c.pc.toNat + bundleBytes (c.syllable c.pc.toNat) then c.pc else 0

/-- The beat of a worked row keeps back the next line that fetch reads (R274, R283). -/
def State.lineBusy (s : State) (n : Nat) : Bool :=
  let c := s.coreAt n
  match c.nextLine with
  | none => false
  | some l =>
    match access s c c.ctx (64 * l) (s.free + n) { rd := false, wr := false, ex := true, user := !c.sup } with
    | .ok pa _ _ => s.rowBusy [pa]
    | .fail _ _ _ => false

/-- A fetch line read for core `n` from its home L2 through its L1; a failed one is marked faulted. -/
def State.readLine (s : State) (n l : Nat) : State :=
  let c := s.coreAt n
  let keep := c.fetch.filter (fun f => c.wantLines.contains f.addr)
  let put (s : State) (f : FetchLine) : State := { s with cores := SMap.put s.cores n { s.coreAt n with fetch := keep ++ [f] } }
  let bad : FetchLine := { addr := l, data := 0, faulted := true }
  let va := 64 * l
  if 2 ^ 48 ≤ va then put s bad
  else
    match access s c c.ctx va (s.free + n) { rd := false, wr := false, ex := true, user := !c.sup } with
    | .fail code sub level =>
      put (s.recordTrap n { Trap.bare code (c.fetching l) with sub := sub, level := level, addr := BitVec.ofNat 64 va }) bad
    | .ok pa attr _ =>
      if isWorked attr || s.home.anyPois pa 64 then put s bad
      else if s.rowRefused [pa] then put (s.refusal n 0xF (c.fetching l) (BitVec.ofNat 64 va) 2 pa).1 bad
      else
        let s1 := put (s.fillTlb n c.ctx va) { addr := l, data := BitVec.ofNat 512 (s.home.num pa 64), faulted := false }
        (List.range 16).foldl (fun s i => s.fillL1 n 0 (pa / 4 + i)) s1

/-- FETCH_LINE. -/
def State.fetchLine (s : State) (n : Nat) : State :=
  match (if s.lineBusy n then none else (s.coreAt n).nextLine) with
  | some l => s.readLine n l
  | none => s

/-! ## Decoding a bundle (R43) -/

/-- The decode trap, with the header's address. -/
def Core.decodeTrap (c : Core) (slot : Nat) : Trap := { Trap.bare 0x01 c.pc with slot := slot, addr := c.pc }

/-- The bundle carries a branch-class B operation, by its opcode. -/
def Core.carriesBranch (c : Core) (hd : Word) : Bool :=
  tmpl hd .B == 2 && decide (fieldGet (c.syllable (c.pc.toNat + 8 * (presentSlots hd).length)) 56 7 < 16)

/-- The header or the bundle as a whole is illegal (R23 to R27, R37, R42, R43). `delay` says that it is a delay bundle. -/
def Core.headerBad (c : Core) (hd : Word) (delay : Bool) : Bool :=
  let tree := hd.getLsbD 48
  let rep := fieldGet hd 35 8
  let branch := c.carriesBranch hd || tree
  allSlots.any (fun sl => tmpl hd sl == 3) || tmpl hd .B == 1 || fieldGet hd 0 23 != 0 || decide (4 < fieldGet hd 32 3) ||
    (!hd.getLsbD 29 && fieldGet hd 23 6 != 0) || (hd.getLsbD 63 != ((presentSlots hd).isEmpty && !tree)) ||
    (branch && rep != 0) || (delay && (branch || hd.getLsbD 31 || hd.getLsbD 29 || rep != 0))

/-- One operation of a bundle as it issues: its syllable without the stop bit, and the displacement of its latch. -/
structure Item where
  slot : Slot
  word : BitVec 63
  disp : BitVec 32
  sem : Sem

/-- The common fields of an operation. -/
def Item.hdr (i : Item) : Hdr := hdrOf i.slot i.word

/-- The status index of a slot's step word (R166). -/
def stepIndex (sl : Slot) : Nat :=
  match sl with
  | .S => 0x010 | .V0 => 0x011 | .V1 => 0x012 | .C0 => 0x013 | .C1 => 0x014 | .M => 0 | .B => 0

/-- The low bits of the tile register fields that TSTEP steps, by C-class opcode (R166, R174, R177). -/
def tileFields (op : Nat) : List Nat :=
  if 0x10 ≤ op ∧ op ≤ 0x15 then [38] else if op = 0x1E ∨ op = 0x1F then [38, 33] else []

/-- The auto-step of a drain (R245). -/
def Core.stepDrain (c : Core) (w : BitVec 63) : BitVec 63 :=
  if fieldGet w 56 7 = 4 then
    fieldPut (fieldPut w 31 7 (fieldGet w 31 7 + 1)) 23 8 (fieldGet w 23 8 + c.rowBytes / 64)
  else fieldPut w 33 7 (fieldGet w 33 7 + 1)

/-- A latch after the auto-step of its operation (R34, R139, R166, R167, R245). -/
def Core.stepLatch (c : Core) (sl : Slot) (l : Latch) : Latch :=
  match semOfWord sl l.word with
  | none => l
  | some m =>
    if !m.steps then l
    else
      match sl with
      | .M => { l with word := c.stepDrain l.word }
      | _ =>
        let w := c.sw.get (stepIndex sl)
        let fs := if sl == .C0 || sl == .C1 then tileFields (fieldGet l.word 56 7) else []
        { l with disp := l.disp + w.setWidth 32, word := fs.foldl (fun x lo => fieldPut x lo 5 (fieldGet x lo 5 + fieldGet w 35 5)) l.word }

/-- Two syllables agree in bits 62:44 and 42:0 (R32). -/
def pairWords (a b : BitVec 63) : Bool := fieldGet a 44 19 == fieldGet b 44 19 && fieldGet a 0 43 == fieldGet b 0 43

/-- The operation of one slot as it issues, after those of the slots before it; none where the slot is idle. `rep` says that
the issue is a repetition. -/
def Core.itemOf (c : Core) (hd : Word) (rep : Bool) (before : List Item) (sl : Slot) : Except Trap (Option Item) :=
  let t := tmpl hd sl
  let bad : Except Trap (Option Item) := .error (c.decodeTrap (slotCode sl))
  if t = 0 then .ok none
  else
    let ps := presentSlots hd
    let k := ps.idxOf sl
    let w := c.syllable (c.pc.toNat + 8 * (1 + k))
    let fresh := t == 2 && (!rep || sl == .B)
    if t = 2 ∧ w.getLsbD 63 ≠ (decide (k + 1 = ps.length) && !hd.getLsbD 48) then bad
    else if !fresh && !(c.latchOf (slotCode sl)).full then bad
    else
      let l : Latch := if fresh then { word := w.setWidth 63, disp := 0, full := true } else c.stepLatch sl (c.latchOf (slotCode sl))
      match semOfWord sl l.word with
      | none => bad
      | some m =>
        let dup := l.word.getLsbD 43
        let pair (i : Item) : Bool := i.slot == .V0 && pairWords i.word l.word
        let checked (i : Item) : Bool := i.sem.ckt || (i.slot == .V1 && i.word.getLsbD 43)
        if (dup && !before.any pair) || (m.guarded && !before.any checked) then bad
        else .ok (some { slot := sl, word := l.word, disp := (if fresh then m.off else l.disp), sem := m })

/-- A bundle decoded for one issue. -/
structure Bundle where
  hd : Word
  /-- address of the next bundle in order -/
  after : Word
  items : List Item
  tree : Option (BitVec 63)
  rep : Bool
  /-- it carries a branch-class operation or a tree -/
  branch : Bool

/-- The bundle at the program counter of a core whose fetch buffer holds it, or its decode trap. -/
def Core.decode (c : Core) : Except Trap Bundle :=
  let a := c.pc.toNat
  let hd := c.syllable a
  let rep := c.sw.repc != 0
  let delay := match c.xfer with | some x => decide (0 < x.left) | none => false
  if c.headerBad hd delay then .error (c.decodeTrap 0xF)
  else
    let items := allSlots.foldl (fun (r : Except Trap (List Item)) sl =>
      match r with
      | .error t => .error t
      | .ok l =>
        match c.itemOf hd rep l sl with
        | .error t => .error t
        | .ok none => .ok l
        | .ok (some i) => .ok (l ++ [i])) (.ok [])
    match items with
    | .error t => .error t
    | .ok l =>
      let n := bundleBytes hd
      let tw := c.syllable (a + n - 8)
      let b : Bundle := {
        hd := hd, after := BitVec.ofNat 64 (a + n), items := l, tree := (if hd.getLsbD 48 then some (tw.setWidth 63) else none),
        rep := rep, branch := c.carriesBranch hd || hd.getLsbD 48 }
      if hd.getLsbD 48 && (!tw.getLsbD 63 || (decodeT (tw.setWidth 63)).isNone) then .error (c.decodeTrap 7)
      else .ok b

/-! ## Condition trees (R38 to R41) -/

/-- The tests of a tree: predicate and sense. -/
def treeTest (t : TSyl) (i : Nat) : BitVec 6 × Bool :=
  match i with
  | 0 => (t.pred0, t.sense0) | 1 => (t.pred1, t.sense1) | 2 => (t.pred2, t.sense2) | _ => (t.pred3, t.sense3)

/-- The number of tests of a shape (R39). -/
def treeTests (t : TSyl) : Nat := if t.shape.toNat < 4 then t.shape.toNat + 1 else t.shape.toNat - 1

/-- The leaf that a tree resolves to, given the truth of its tests (R39). -/
def treeLeaf (t : TSyl) (v : Nat → Bool) : Nat :=
  if t.shape.toNat < 4 then
    if v 0 then 1 else if 1 < treeTests t ∧ v 1 then 2 else if 2 < treeTests t ∧ v 2 then 3 else if 3 < treeTests t ∧ v 3 then 4 else 0
  else if v 0 then (if v 1 then 1 else 2)
  else if v 2 then 3
  else if t.shape.toNat = 5 ∧ v 3 then 4
  else 0

/-- The offset of a leaf in syllables. -/
def treeOffset (t : TSyl) (leaf : Nat) : BitVec 8 :=
  match leaf with
  | 1 => t.leaf1 | 2 => t.leaf2 | 3 => t.leaf3 | _ => t.leaf4

/-- A test predicate as the issue reads it: its value and its poison, captured or from the register (R33, R357). -/
def Core.testOf (c : Core) (t : TSyl) (i : Nat) : Bool × Bool :=
  match c.capTree with
  | some k => (k.tests.getLsbD i, k.poisons.getLsbD i)
  | none => let r := c.preg (c.physP (treeTest t i).1.toNat); (r.val, r.poison)

/-- The leaf of a tree at issue. -/
def Core.leafNow (c : Core) (t : TSyl) : Nat := treeLeaf t (fun i => (c.testOf t i).1 != (treeTest t i).2)

/-- A poisoned test of a tree (R121). -/
def Core.treeTrap (c : Core) (t : TSyl) : Option Trap :=
  ((List.range (treeTests t)).find? (fun i => (c.testOf t i).2)).map (fun i =>
    { Trap.bare 0x06 c.bundlePc with slot := 7, data := (treeTest t i).1.toNat })

/-- The captured tree of a bundle that traps (R367). -/
def Core.captureTree (c : Core) (t : TSyl) : CapTree :=
  let bits (g : Nat → Bool) : BitVec 4 := (List.range 4).foldl (fun x i => if g i then x ||| (1#4 <<< i) else x) 0
  { tests := bits (fun i => (c.testOf t i).1), poisons := bits (fun i => (c.testOf t i).2), leaf := c.leafNow t, hasTree := true }

/-- A condition tree: the leaf resolves, and the transfer after the two delay bundles goes to its target; on leaf 0 it
falls through, or goes as the bundle's branch decides. -/
def State.tree (s : State) (t : TSyl) : Host.Outcome State Fault Refusal :=
  match (if s.me.issue.isSome then none else s.me.treeTrap t) with
  | some x => .next (takeTrap x s)
  | none =>
    .next (s.onMe (fun c =>
      let l := c.leafNow t
      let target := if l = 0 then none else some (c.bundlePc + ((treeOffset t l).signExtend 64 <<< 3))
      { c.setXfer (c.xferTo .go target false) with issue := c.issue.map (fun (i : Issue) => { i with leaf := l }) }))

/-- T.CHAIN. -/
def execTChain (t : TSyl) (s : State) : Host.Outcome State Fault Refusal := s.tree t

/-- T.BAL. -/
def execTBal (t : TSyl) (s : State) : Host.Outcome State Fault Refusal := s.tree t

/-! ## The state that the checks of an issue see -/

/-- The operation is active in the issue that `s` has in progress. -/
def Item.active (i : Item) (c : Core) : Bool := c.active i.hdr i.sem.branch

/-- The latches after an issue of a bundle (R34). -/
def Core.latches (c : Core) (b : Bundle) : Core :=
  b.items.foldl (fun c i => if i.slot == .B then c else c.putLatch (slotCode i.slot) { word := i.word, disp := i.disp, full := true }) c

/-- The leaf of a bundle. -/
def Core.bundleLeaf (c : Core) (b : Bundle) : Nat :=
  match b.tree with
  | some w => c.leafNow (TSyl.dec w)
  | none => 0

/-- The repetitions that follow this issue (R36). -/
def Core.repsAfter (c : Core) (b : Bundle) : Nat := if b.rep then c.sw.repc.toNat - 1 else fieldGet b.hd 35 8

/-- The operations of a bundle in the order in which they act, so that each finds the state before the issue (R33). -/
def Bundle.inTurn (b : Bundle) : List Item :=
  b.items.filter (fun i => i.sem.turn == 0) ++ b.items.filter (fun i => i.sem.turn == 1) ++ b.items.filter (fun i => i.sem.turn == 2) ++
    b.items.filter (fun i => decide (2 < i.sem.turn))

/-- The state with the issue of a bundle begun, before any of its effects: its latches, and its operations to act. -/
def State.begun (s : State) (b : Bundle) : State :=
  s.onMe (fun c => { c.latches b with
    issue := some {
      pc := c.pc, scope := fieldGet b.hd 32 3, leaf := c.bundleLeaf b, ops := b.inTurn.map (fun i => (i.slot, i.word)),
      tree := b.tree, after := b.after, repsLeft := c.repsAfter b, branch := b.branch, pops := [], free := s.free,
      repc := c.sw.repc, segState := c.sw.segState, phaseCnt := c.sw.phaseCnt } })

/-! ## Stalls and holds of an issue (R25, R82, R124, R165, R176, R182, R183, R233, R343, R379, R395) -/

/-- The registers that an operation names to issue: what it reads, what it writes, its guard. -/
def Item.touches (i : Item) (c : Core) : List RegRef :=
  i.sem.reads c ++ i.sem.writes c ++ (if c.physP i.hdr.guard.toNat = 0 then [] else [.p (c.physP i.hdr.guard.toNat)])

/-- What an operation of a bundle names to the slip: an inactive one reads its guard alone (R29). -/
def Item.names (i : Item) (c : Core) : List RegRef :=
  if i.active c then i.touches c else if c.physP i.hdr.guard.toNat = 0 then [] else [.p (c.physP i.hdr.guard.toNat)]

/-- An operation that waits for its tile while the other slots issue, if the issue may let it (R176). -/
def State.heldItem (s : State) (b : Bundle) : Option Item :=
  b.items.find? (fun i => i.active s.me && i.sem.slip s)

/-- The rules of the slip make the bundle stall whole (R176). One operation is held at a time: a context record has a place for
one (R367). -/
def State.slipStall (s : State) (b : Bundle) : Bool :=
  let c := s.me
  let waiting := (b.items.filter (fun i => i.active c && i.sem.slip s)).length
  let special : Bool := b.branch || b.hd.getLsbD 31 || b.hd.getLsbD 30 || b.hd.getLsbD 29 || fieldGet b.hd 35 8 != 0 || b.rep
  let own : Bool := decide (waiting ≠ 0) && (c.determ || decide (1 < waiting) || fieldGet b.hd 35 8 != 0 || b.rep || c.slip.isSome)
  match c.slip with
  | none => own
  | some x =>
    match semOfWord x.slot x.word with
    | none => own
    | some m =>
      let held := Item.touches { slot := x.slot, word := x.word, disp := 0, sem := m } { c with sw := { c.sw with rot := x.rot } }
      own || decide (4 ≤ x.issued) || special || tmpl b.hd x.slot != 0 ||
        b.items.any (fun i => (i.names c).any (fun r => held.contains r))

/-- The V1 half of a D-pair, which computes its operation and writes nothing (R378). -/
def Item.half (i : Item) : Bool := i.slot == .V1 && i.word.getLsbD 43

/-- The pushes to write flume `n` that a list of operations makes. -/
def pushesTo (l : List Item) (c : Core) (n : Nat) : Nat :=
  ((l.filter (fun i => !i.half)).flatMap (fun i => i.sem.writes c)).countP (· == .v n)

/-- A read flume that has no element yet, or a write flume with no room for every push of the bundle (R182, R183). In a
deterministic launch an element counts from its time; one that is late then makes the core hold (R395). -/
def Core.flumeStall (c : Core) (act : List Item) : Bool :=
  let empty (f : Flume) : Bool :=
    !f.shape.write && f.fault.isNone && decide (f.next < f.size) &&
      (if c.det then decide (c.time < f.due c.padC1 f.next) else f.buf.isEmpty)
  let full (f : Flume) : Bool :=
    let k := pushesTo act c f.reg
    f.shape.write && decide (0 < k) && decide (8 < c.pushesHeld f + f.inflight + k) && decide (f.next + f.inflight + k ≤ f.size)
  c.flumes.any (fun f => full f || (empty f && act.any (fun i => (i.sem.reads c).contains (.v f.reg))))

/-- Fixed-latency results in flight, with those that loads in progress and look-ups will put there (R343). The count of a warning
is part of the result that it goes with. -/
def Core.inFlight (c : Core) : Nat :=
  (c.flights.filter (fun f => match f.dest with | .warn _ => false | .none => false | _ => true)).length +
    (c.timed.filter (fun x => match x.act with | .load _ _ _ _ _ => true | _ => false)).length +
    (c.engines.filter (fun e => match e.kind with | .kvx _ _ => !e.frozen | _ => false)).length

/-- The results that the active operations of a bundle put in flight. -/
def resultsOf (act : List Item) : Nat := ((act.filter (fun i => !i.half)).map (fun i => i.sem.results)).foldl (· + ·) 0

/-- A result of an earlier issue has not landed, for which a segment waits (R379). -/
def Core.unlanded (c : Core) : Bool := !c.flights.isEmpty || decide (c.inFlight ≠ 0)

/-- An access of memory that an acquire before it holds back in a deterministic launch: every C form but the flume forms that access
nothing, the fences, and C1.BEAT and C1.BEATR; and the loft forms. -/
def Item.accesses (i : Item) : Bool :=
  let op := fieldGet i.word 56 7
  ((i.slot == .C0 || i.slot == .C1) && !([25, 26, 27, 64, 65, 72, 73].contains op)) || (i.slot == .S && decide (0x2C ≤ op) && decide (op ≤ 0x33))

/-- An access of the loft or of cluster memory, or such a store alone. -/
def Item.onChip (i : Item) (store : Bool) : Bool :=
  let op := fieldGet i.word 56 7
  i.slot != .C1 && i.accesses && (!store || (if i.slot == .S then [0x2E, 0x2F, 0x32, 0x33] else [4, 5, 6, 7, 9, 10, 14, 15, 17, 19, 23]).contains op)

/-- An acquire of a deterministic launch has still to come to its padded landing (R395). -/
def Core.acquiringDet (c : Core) : Bool :=
  c.loads.any (fun l => decide (l.acq ≠ 0) && decide (c.time < l.due)) || c.flights.any (·.acq) ||
    c.timed.any (fun x => decide (x.acq ≠ 0)) || c.engines.any (fun e => decide (e.acq ≠ 0) && decide (c.time < e.due))

/-- The first issue of an SE bundle that opens a segment (R379, R384, R385). While a segment of the trapped context is open, a
handler opens none (log 39). -/
def Core.opens (c : Core) (b : Bundle) : Bool :=
  b.hd.getLsbD 31 && !b.rep && !c.rewound && !c.noOpen && !(c.sup && c.sw.segState.getLsbD 63 && !c.supSeg)

/-- A fence that issue waits for: of the running code, at a time that no longer stalls it. -/
def Core.fenceWaits (c : Core) (f : Fence) : Bool := f.wait && (!c.sup || decide (c.supFrom ≤ f.seq))

/-- A fence that stalls issue: in a deterministic launch until its time (R395), and until the pushes before it have landed, for which
issue time must go on (R184, R208). -/
def Core.fenceStalls (c : Core) (f : Fence) : Bool :=
  c.fenceWaits f && ((c.det && decide (c.time ≤ f.due)) || c.flumePushing f.seq)

/-- A release or full fence of a deterministic launch, whose access is performed at a fixed time: until then it stalls the later on-chip
accesses that it orders, whose own times are fixed (R395, R396; DEDUCED, log 77). -/
def Core.fenceBars (c : Core) (f : Fence) (act : List Item) : Bool :=
  c.det && !f.wait && f.kind != 2 && decide (c.time < f.due) && act.any (fun i => i.onChip (f.kind == 1))

/-- A bundle stalls; issue time advances. `s` has its issue begun. -/
def State.stalls (s : State) (b : Bundle) : Bool :=
  let c := s.me
  let act := b.items.filter (fun i => i.active c)
  act.any (fun i => (i.touches c).any c.refPending || i.sem.stall s || (i.slot == .C0 && c.portBusy)) || c.flumeStall act ||
    s.slipStall b || (c.opens b && c.unlanded) || decide (96 < c.inFlight + resultsOf (act.filter (fun i => !i.sem.slip s))) || c.fences.any c.fenceStalls ||
    (c.det && act.any Item.accesses && c.acquiringDet) || c.fences.any (fun f => c.fenceBars f act)

/-- A wait of the core that is not the hold of its next bundle: a claimed slot, a fence, stores of a committed segment that wait for a
place in the store buffer (R342, R380). -/
def State.keptBack (s : State) (n : Nat) : Bool :=
  let c := s.coreAt n
  (match c.claim with | some (a, i, k) => decide (s.home.num (a + 8) 8 + k ≤ i) | none => false) ||
    c.fences.any (fun f => c.fenceWaits f && !f.done && !c.fenceStalls f) || (!c.sw.segState.getLsbD 63 && !c.seg.held.isEmpty)

/-- An active operation makes the core hold before it issues. -/
def State.needsHold (s : State) (b : Bundle) : Bool := b.items.any (fun i => i.active s.me && i.sem.holds s)

/-- The hold has not been served. -/
def State.holdWaits (s : State) (b : Bundle) : Bool := b.items.any (fun i => i.active s.me && i.sem.holds s && i.sem.waits s)

/-- Every operation that the hold waits for lets it be left for an event (R221, R223, R285). -/
def State.holdBreaks (s : State) (b : Bundle) : Bool :=
  s.holdWaits b && b.items.all (fun i => !(i.active s.me && i.sem.holds s && i.sem.waits s) || i.sem.breaks s)

/-- The padded time of the oldest element that a write flume holds has come: PADC1 after it landed there (R395). -/
def Core.elementLate (c : Core) (f : Flume) : Bool :=
  f.shape.write && f.fault.isNone && !f.buf.isEmpty && (f.pops[f.buf.length - 1]?).any (fun t => decide (t + c.padC1 ≤ c.time))

/-- The padded time of an access of a deterministic launch has come, and it has not completed: the core holds, and its issue time does
not advance (R395, R396). So it does where a look-up of C1.KVX has reached its 260 cycles (R304). -/
def State.paddedHold (s : State) (n : Nat) : Bool :=
  let c := s.coreAt n
  let late (e : Engine) : Bool :=
    match e.kind with
    | .tileLoad _ | .gather _ | .kvload _ _ => decide (e.due ≤ c.time)
    | .tileStore _ | .scatter _ | .kvstore _ => decide (e.padEnd ≤ c.time) && !e.ended
    | .spill _ => decide (0 < c.spillHolds e) && e.padEnds.head?.any (fun t => decide (t ≤ c.time))
    | .fill _ => e.fault.isNone && c.fillRoom e
    | _ => false
  c.engines.any (fun e => match e.kind with | .kvx _ land => !e.frozen && decide (land ≤ c.time) | _ => false) ||
    (c.det && (c.loads.any (fun l => decide (l.due ≤ c.time)) || c.engines.any late || c.flumes.any (fun f => c.flumeRoom f || c.elementLate f) ||
      c.sb.any (fun e => decide (e.due ≠ 0) && decide (e.due ≤ c.time) && !c.flumePushing e.seq) ||
      c.fences.any (fun f => !f.wait && !f.done && decide (f.due ≠ 0) && decide (f.due ≤ c.time) && !c.flumePushing f.seq)))

/-! ## The checks made at issue (R121, R124, R187, R252, R327, R350, R351, R353, R384) -/

/-- The register that a result writes. -/
def Dest.ref (d : Dest) : Option RegRef :=
  match d with
  | .scalar n => some (.s n) | .pred n => some (.p n) | .mask n => some (.m n) | .vec n => some (.v n)
  | .vtag n => some (.v n) | .ttag n => some (.t n) | .status i => some (.w i) | .base n => some (.w (0x060 + n))
  | .warn k => some (.w (0x028 + k)) | .tileRow _ _ => Option.none | .ringRow _ _ => Option.none
  | .flume _ => Option.none | .none => Option.none

/-- The registers that a result writes: RESPOL too where it counts residue events (R259). -/
def Flight.refs (f : Flight) : List RegRef := f.dest.ref.toList ++ (if f.events.isEmpty then [] else [.w 0x023])

/-- The number of a register. -/
def RegRef.num (r : RegRef) : Nat :=
  match r with
  | .s n => n | .p n => n | .m n => n | .v n => n | .t n => n | .w n => n | .pAll => 0

/-- The results in flight, those of loads that have still to be read and of look-ups in progress among them (R304). -/
def Core.resultsDue (c : Core) : List Flight :=
  c.flights ++ c.timed.filterMap (fun x => match x.act with | .load _ _ _ _ f => some f | _ => none) ++
    c.engines.filterMap (fun e =>
      match e.kind with
      | .kvx d land => if e.frozen then none else some { c.flight .C1 (.scalar d) 0 with land := land, pc := e.pc }
      | _ => none)

/-- What an active operation reads: its operands, its guard and its base register. -/
def Item.readRefs (i : Item) (c : Core) : List RegRef :=
  i.sem.reads c ++ (if c.physP i.hdr.guard.toNat = 0 then [] else [.p (c.physP i.hdr.guard.toNat)]) ++
    (match i.sem.bn with | some r => [.w (0x060 + c.physB r.toNat)] | none => [])

/-- A result to a register has not landed. -/
def Core.due (c : Core) (r : RegRef) : Bool :=
  c.resultsDue.any (fun f => f.refs.any (fun x => match x, r with | .p _, .pAll => true | x, _ => x == r))

/-- The checking scoreboard (R350). An operation that issues again reads captured operands, no register. -/
def Core.earlyTrap (c : Core) (i : Item) : Option Trap :=
  if (c.sw.checkctl.getLsbD 0 || c.sw.checkctl.getLsbD 2) && c.cap.isEmpty then
    ((i.readRefs c).find? c.due).map (fun r => { c.trap i.slot 0x0F with data := r.num })
  else none

/-- Two runs of bytes share one. -/
def runsMeet (a n b m : Nat) : Bool := decide (a < b + m) && decide (b < a + n) && decide (0 < n) && decide (0 < m)

/-- Tile bytes that a C0 load or a drain has still to write, or that a C0 store has still to read. -/
def Core.tilePending (c : Core) (reads : Bool) (t lo n : Nat) : Bool :=
  let inside (k : Nat) : Bool := decide (lo ≤ k) && decide (k < lo + n)
  c.timed.any (fun x =>
    match x.act with
    | .chunkRead k items _ _ rest first => reads && k == t && (items.any (fun e => inside e.1) || (first && runsMeet rest (16384 - rest) lo n))
    | .chunkWrite k bs _ _ rest first => reads && k == t && (bs.any (fun e => inside e.1) || (first && runsMeet rest (16384 - rest) lo n))
    | .chunkTake k items _ => !reads && k == t && items.any (fun e => inside e.1)
    | _ => false) ||
  (reads && c.flights.any (fun f =>
    match f.dest with
    | .tileRow k line => k == t && runsMeet (64 * line) f.size lo n
    | _ => false))

/-- The ring in one of whose entries a drain has still to write a byte of the scratchpad that an operation reads (R252). A drain appends
behind what the ring holds and behind the drains that land before it, so its entry is found from the count as it stands: a C1.RFILL that
has appended since its issue has moved it on (R232). -/
def Core.ringPending (c : Core) (l : List (Nat × Nat)) : Option Nat :=
  c.flights.findSome? (fun f =>
    match f.dest with
    | .ringRow k _ =>
      let r := c.ringReg k
      let e := r.at' (r.count + (c.flights.filter (fun g => (match g.dest with | .ringRow j _ => j == k | _ => false) &&
        decide (g.land < f.land))).length)
      if l.any (fun x => runsMeet (r.base + e * r.entryBytes) f.size x.1 x.2) then some k else none
    | _ => none)

/-- The early-read checker (R187, R252). -/
def State.earlyTile (s : State) (i : Item) : Option Trap :=
  let c := s.me
  let clear := (i.sem.reads c).find? (fun r => match r with | .t n => !(c.treg n).ready | _ => false)
  let bad := ((i.sem.tileReads s).filter (fun x => c.tilePending true x.1 x.2.1 x.2.2) ++
    (i.sem.tileWrites s).filter (fun x => c.tilePending false x.1 x.2.1 x.2.2)).map (·.1)
  if c.sw.checkctl.getLsbD 1 then
    (((clear.map RegRef.num).or bad.head?).or (c.ringPending (i.sem.padReads s))).map (fun n => { c.trap i.slot 0x0F with data := n })
  else none

/-- The state after the effects of the active operations of a bundle, from the state with its issue begun. -/
def State.preview (s : State) (b : Bundle) : State :=
  let s1 := match b.tree with
    | some w => (match s.tree (TSyl.dec w) with | .next s1 => s1 | _ => s)
    | none => s
  b.inTurn.foldl (fun s' i => if i.active s.me && !i.sem.slip s then i.sem.eff s' else s') s1

/-- What one operation would put in flight: results, and the timed accesses of the loft, of cluster memory and of tiles. -/
structure Fresh where
  flights : List Flight
  timed : List Timed

/-- What the effect of an operation adds. -/
def State.adds (s : State) (m : Sem) : Fresh :=
  let c := s.me
  let d := (m.eff s).me
  let t := d.timed.drop c.timed.length
  { flights := d.flights.drop c.flights.length ++ t.filterMap (fun x => match x.act with | .load _ _ _ _ f => some f | _ => none)
    timed := t }

/-- What the issue of an operation of a bundle adds. -/
def State.fresh (s : State) (i : Item) : Fresh :=
  if i.active s.me && !i.sem.slip s then s.adds i.sem else { flights := [], timed := [] }

/-- Two results meet in a register: `at_` their common cycle, or the later issued one before the earlier. Counts that the hardware raises
together do not. -/
def clashRef (at_ : Bool) (f g : Flight) : Option RegRef :=
  let counts (f : Flight) (r : RegRef) : Bool := (match f.dest with | .warn _ => true | _ => false) || (r == .w 0x023 && !f.events.isEmpty)
  f.refs.find? (fun r => g.refs.contains r && !(counts f r && counts g r) &&
    (decide (f.land = g.land) || (!at_ && decide (f.land < g.land))))

/-- The runs of tile bytes that results and chunks of C0 tile loads will write: tile, first byte, count, and the time at which they
land. The first chunk of a whole load writes the rest of its tile. -/
def Fresh.tileLands (x : Fresh) : List (Nat × Nat × Nat × Nat) :=
  let chunk (t lo n land rest : Nat) (first : Bool) : List (Nat × Nat × Nat × Nat) :=
    (t, lo, n, land) :: (if first && decide (rest < 16384) then [(t, rest, 16384 - rest, land)] else [])
  x.flights.filterMap (fun f => match f.dest with | .tileRow t line => some (t, 64 * line, f.size, f.land) | _ => none) ++
    x.timed.flatMap (fun y =>
      match y.act with
      | .chunkRead t items land _ rest first => chunk t (items.headD (0, 0)).1 items.length land rest first
      | .chunkWrite t bs _ _ rest first => chunk t (bs.headD (0, 0)).1 bs.length y.due rest first
      | _ => [])

/-- A drain and a chunk of a C0 tile load meet in a byte of a tile: in one cycle, or the later issued one first (R84, R351). -/
def clashTile (at_ : Bool) (x y : Fresh) : Option Nat :=
  x.tileLands.findSome? (fun f => if y.tileLands.any (fun g => f.1 == g.1 && runsMeet f.2.1 f.2.2.1 g.2.1 g.2.2.1 &&
    (decide (f.2.2.2 = g.2.2.2) || (!at_ && decide (f.2.2.2 < g.2.2.2)))) then some f.1 else none)

/-- The status words and the predicate that a pending transfer updates (R128, R133). -/
def Core.updates (c : Core) (x : Xfer) : List RegRef :=
  (if x.lc.isSome then [.w 0x009] else []) ++ (if x.depth.isSome then [.w 0x00A] else []) ++ (if x.rot.isSome then [.w 0x008] else []) ++
    (if x.p32.isSome then [.p (physOf 32 32 32 (rotP (x.rot.getD c.sw.rot)))] else [])

/-- Tile bytes that a write would reach at `land` before an earlier operation has read them: a C0 store by its cycles, an engine at any
time. -/
def Core.unread (c : Core) (t lo n land : Nat) : Bool :=
  c.timed.any (fun x =>
    match x.act with
    | .chunkTake k items _ => k == t && decide (land < x.due) && items.any (fun e => decide (lo ≤ e.1) && decide (e.1 < lo + n))
    | .engineTake k items _ => k == t && decide (land < x.due) && items.any (fun e => decide (lo ≤ e) && decide (e < lo + n))
    | _ => false) ||
  (!c.det && c.engines.any (fun e => e.readsTile t))

/-- The tile that an operation's writes would change too early (R351). -/
def State.tileClash (s : State) (i : Item) (x : Fresh) : Option Nat :=
  let c := s.me
  let rows := x.flights.findSome? (fun f =>
    match f.dest with | .tileRow t line => if c.unread t (64 * line) f.size f.land then some t else none | _ => none)
  let chunks := x.timed.findSome? (fun y =>
    match y.act with
    | .chunkRead t items land _ rest first =>
      if items.any (fun e => c.unread t e.1 1 land) || (first && decide (rest < 16384) && c.unread t rest (16384 - rest) land) then some t
      else none
    | _ => none)
  let engine := if i.slot == .C1 then
      (i.sem.tileWrites s).findSome? (fun w => if c.tilePending false w.1 w.2.1 w.2.2 then some w.1 else none)
    else none
  (rows.or chunks).or engine

/-- The issue time at which the pending transfer updates its status words, once its last delay bundle issues now: the next cycle, or
that of the comparisons that a guarded one waits for (R124, R128; log 70). -/
def Core.updateTime (c : Core) (x : Xfer) : Nat :=
  if x.guarded then
    (c.flights.filter (fun f => f.twin.isSome && decide (f.issued = x.issued))).foldl (fun m f => max m f.land) (c.time + 1)
  else c.time + 1

/-- The hazard detector on one operation (R351): two results to one register in one cycle, a program write that falls with an update of
the transfer among them; a result that lands before an earlier one to its register; a write into tile bytes that an earlier operation has
still to read. A ring entry is never in question: an append takes a free one (R233). `before` holds what the operations before
it in the bundle add. -/
def State.hazardOf (s : State) (before : Fresh) (i : Item) (x : Fresh) : Option Trap :=
  let c := s.me
  let upd : List (RegRef × Nat) := match c.xfer with
    | some y => if y.left = 1 then (c.updates y).map (fun r => (r, c.updateTime y)) else []
    | none => []
  let one (f : Flight) : Option RegRef :=
    (c.resultsDue.findSome? (clashRef false f)).or ((before.flights.findSome? (clashRef true f)).or
      (f.refs.find? (fun r => upd.contains (r, f.land))))
  let own := (List.range x.flights.length).findSome? (fun k =>
    match x.flights[k]? with
    | some f => (one f).or ((x.flights.take k).findSome? (clashRef true f))
    | none => none)
  let tile := (clashTile false x { flights := c.flights, timed := c.timed }).or (clashTile true x before)
  if c.sw.checkctl.getLsbD 2 then (((own.map RegRef.num).or tile).or (s.tileClash i x)).map (fun n => { c.trap i.slot 0x10 with data := n }) else none

/-- The flumes of a core with the pushes that operations before have made counted in flight. -/
def Core.pushing (c : Core) (l : List Item) : Core :=
  { c with flumes := c.flumes.map (fun f => { f with inflight := f.inflight + (if f.shape.write then pushesTo l c f.reg else 0) }) }

/-- The first trap that the operations of a bundle raise, in slot order, each with its own checks first and then the early-read and the
hazard checks (R353). A guarded operation whose check is inactive takes the silent-mismatch trap (R124). The operation that the slip will
hold reads its registers now and makes its own checks at its own issue. -/
def State.itemsTrap (s : State) (b : Bundle) : Option Trap :=
  let c := s.me
  let idle (i : Item) : Bool := (i.sem.ckt || i.half) && !i.active c
  let one (before : List Item) (done : Fresh) (i : Item) (x : Fresh) : Option Trap :=
    if i.active c && i.sem.slip s then (c.guardTrap i.hdr i.sem.branch).or (c.earlyTrap i)
    else
      match i.sem.trapOf i.hdr (s.onMe (fun c => c.pushing before)) with
      | some t => some t
      | none =>
        if !i.active c then none
        else if i.sem.guarded && b.items.any idle then some (c.trap i.slot 0x05)
        else ((c.earlyTrap i).or (s.earlyTile i)).or (s.hazardOf done i x)
  (b.items.foldl (fun (r : Option Trap × List Item × Fresh) i =>
    match r.1 with
    | some _ => r
    | none =>
      let x := if c.sw.checkctl.getLsbD 2 then s.fresh i else { flights := [], timed := [] }
      (one r.2.1 r.2.2 i x, (if i.active c && !i.half then r.2.1 ++ [i] else r.2.1), { flights := r.2.2.flights ++ x.flights, timed := r.2.2.timed ++ x.timed })) (none, [], { flights := [], timed := [] })).1

/-- What a bundle with a branch-class operation or a tree has decided (R327): its leaf, or how its branch leaves the stream. -/
def Core.decided (c : Core) : Nat × Option Word :=
  match c.xfer with
  | some x =>
    (match x.kind with
     | .go => (c.leaf, x.target) | .unitEnd => (5, none) | .rft => (6, none) | .trap k => (7, some (BitVec.ofNat 64 k)))
  | none => (c.leaf, none)

/-- The decision of a gang member differs from the one its lead made at the same place of the stream (R327, R398). -/
def State.strays (s p : State) (b : Bundle) : Bool :=
  let c := s.me
  match c.unit with
  | none => false
  | some u =>
    if u.gang ≤ 1 ∨ u.pos = 0 ∨ !b.branch ∨ c.sup then false
    else
      match (u.decisions.drop u.reached).find? (fun d => decide (d.2.1 < 16)) with
      | none => true
      | some d => d != (c.pc, p.me.decided)

/-- The journal key of a register. -/
def JEntry.ref (e : JEntry) : RegRef × Bool :=
  match e with
  | .scalar n _ => (.s n, false) | .pred n _ => (.p n, false) | .mask n _ => (.m n, false) | .vec n _ => (.v n, false)
  | .status i _ => (.w i, false) | .latch n _ => (.w n, true)

/-- The journal entries and the lines that an open segment needs after a bundle's issue exceed its buffers (R384). -/
def State.overflows (s p : State) (b : Bundle) : Bool :=
  let c := p.me
  let landing := ((c.resultsDue.filter (·.seg)).flatMap Flight.refs).map (fun r => (r, false))
  let loads := (c.loads.filter (·.seg)).map (fun l => match l.dest with | .scalar n => (RegRef.s n, false) | .vec n _ => (RegRef.v n, false))
  let latches := (b.items.filter (fun i => i.slot != .B)).map (fun i => (RegRef.w (slotCode i.slot), true))
  let branch := (match c.xfer with | some x => c.updates x | none => []).map (fun r => (r, false))
  let named : List (RegRef × Bool) := (c.seg.journal.map JEntry.ref ++ landing ++ loads ++ latches ++ branch ++ [(RegRef.w 0x00B, false)]).eraseDups
  let keep := named.filter (fun r => r.2 || (match r.1 with | .w i => contextWord i && i != 0x047 | .p n => n != 0 | .t _ => false | _ => true))
  let lines := (s.me.seg.lines.map (fun (l : SegLine) => (l.space, l.addr)) ++
    (b.items.filter (fun i => i.active s.me && !i.sem.slip s)).flatMap (fun i => i.sem.lines s)).eraseDups
  decide (256 < keep.length) || decide (64 < lines.length)

/-- An operation takes from a read flume or pushes to a write flume, which seals a segment (R382). -/
def Item.flumes (i : Item) (c : Core) : Bool :=
  !i.half && (i.sem.reads c ++ i.sem.writes c).any (fun r => match r with | .v n => (c.flumeOf n).isSome | _ => false)

/-- A bundle carries B.END or an active sealing operation (R379, R382). `s` has its issue begun. -/
def State.sealedBy (s : State) (b : Bundle) : Bool :=
  b.items.any (fun i => i.sem.ends || (i.active s.me && (i.sem.seals s || i.flumes s.me)))

/-! ## What the next bundle of a core does -/

/-- The outcome of an attempt at the next bundle. -/
inductive Look where
  /-- nothing can issue -/
  | idle
  /-- the cycle of the bundle has not come, or a pending transfer is not complete -/
  | early
  /-- a line of the bundle is missing -/
  | missing
  | stall
  | hold
  /-- the hold of an operation has yet to begin or to be served -/
  | wait (b : Bundle)
  | trap (t : Trap) (b : Option Bundle)
  | rendezvous (b : Bundle)
  | ends (b : Bundle)
  | skip (b : Option Bundle) (size : Nat)
  | go (b : Bundle)

/-- The core takes cycles: a unit or its handler runs, no bundle is in progress, no trap is being entered, and no debug
stop holds it. -/
def Core.ticks (c : Core) : Bool :=
  c.running && c.issue.isNone && c.entering.isNone && (!c.debugStop || c.debugStep)

/-- The trap of an instruction fetch (R336, R352). -/
def Core.fetchTrap (c : Core) (a : Word) : Trap := { Trap.bare 0x0B c.pc with addr := a, space := 5, kind := 2, size := 3 }

/-- A transfer is pending whose delay bundles have issued. -/
def Core.transferDue (c : Core) : Bool := match c.xfer with | some x => decide (x.left = 0) | none => false

/-- A pending transfer's guard is still being compared. -/
def Core.guardPending (c : Core) (x : Xfer) : Bool :=
  x.guarded && !x.failed && c.flights.any (fun f => f.twin.isSome && f.issued == x.issued)

/-- The core's unit ends at the SE bundle at its program counter, for its launch is cancelling (R332). Of a gang the lead finds this out,
and its members end where it did (R327). -/
def State.unitCancelling (s : State) : Bool :=
  match s.me.unit with
  | some u =>
    if 1 < u.gang ∧ u.pos ≠ 0 then (u.decisions.drop u.reached).head? == some (s.me.pc, 8, none)
    else (match s.launch u.launch with | some l => s.launchCancelling l | none => false)
  | none => false

/-- The place behind the last acquire, release and fence of the core that is not complete; 0 where there is none, and in a deterministic
launch, whose times hold (R395). A record read waits for an acquire, or for a release whose writes it overlaps. -/
def Core.orderedTo (c : Core) : Nat :=
  let l := (c.timed.filter (fun x => decide (x.acq ≠ 0 ∨ x.rel ≠ 0))).map (·.seq) ++ (c.sb.filter (fun e => decide (e.rel ≠ 0))).map (·.seq) ++
    (c.engines.filter (fun e => decide (e.acq ≠ 0 ∨ e.rel ≠ 0))).map (·.seq) ++ (c.loads.filter (fun x => decide (x.acq ≠ 0))).map (·.seq) ++
    c.fences.map (·.seq)
  if c.det then 0 else l.foldl (fun m k => max m (k + 1)) 0

/-- A push to a write flume that an acquire, a release or a fence of the core waits for has not landed: for it, issue time goes on before a
hold begins (R183, R203; log 11). -/
def Core.pushBefore (c : Core) : Bool := !c.det && decide (c.orderedTo ≠ 0) && c.flumePushing c.orderedTo

/-- The checks of a decoded bundle, in their order: rendezvous, cancellation, stalls, holds, traps. -/
def State.lookAt (s : State) (b : Bundle) : Look :=
  let c := s.me
  let first := !b.rep && !c.rewound
  if c.skipNext then .skip (some b) (bundleBytes b.hd)
  else if first && b.hd.getLsbD 29 && !c.rvDone then (if c.det && c.flumePushing c.seq then .stall else .rendezvous b)
  else if !b.rep && b.hd.getLsbD 31 && !c.sup && s.unitCancelling then .ends b
  else
    let s1 := s.begun b
    if s1.stalls b then .stall
    else if s1.keptBack s1.coreNo then .hold
    else if s1.needsHold b && c.hold != Hold.served then (if s1.holdWaits b && s1.me.pushBefore then .stall else .wait b)
    else
      match (match b.tree with | some w => s1.me.treeTrap (TSyl.dec w) | none => none).or (s1.itemsTrap b) with
      | some t => .trap t (some b)
      | none =>
        let p := s1.preview b
        if s1.strays p b then .trap { c.trap (if b.tree.isSome then .S else .B) 0x0D with slot := if b.tree.isSome then 7 else 6 } (some b)
        else .go b

/-- The bytes of a bundle that S.CTXSKIP skips and that fetch or decoding refuses; 8 where its header cannot be read (DESIGN CHOICE,
log 67). -/
def Core.skipBytes (c : Core) : Nat :=
  match c.lineAt c.pc.toNat with
  | some l => if l.faulted then 8 else bundleBytes (c.syllable c.pc.toNat)
  | none => 8

/-- An attempt at the next bundle of the core whose turn it is. -/
def State.look (s : State) : Look :=
  let c := s.me
  if !c.ticks then .idle
  else if s.onChipHold s.coreNo || s.paddedHold s.coreNo then .hold
  else if c.time < c.next then .early
  else if c.transferDue then (match c.xfer with | some x => if c.guardPending x then .stall else .early | none => .early)
  else
    match c.fetched with
    | .missing => .missing
    | .faulted a => if c.skipNext then .skip none c.skipBytes else .trap (c.fetchTrap a) none
    | .whole =>
      match c.decode with
      | .error t => if c.skipNext then .skip none c.skipBytes else .trap t none
      | .ok b => s.lookAt b

/-! ## Gangs (R327, R398) -/

/-- The other members of a core's gang. -/
def State.mates (s : State) : List Core :=
  match s.me.unit with
  | none => []
  | some u => (s.me.gangCores.filter (· != s.me.id)).filterMap (fun k =>
      let c := s.coreAt k
      match c.unit with | some v => if v.launch = u.launch then some c else none | none => none)

/-- The state with the turn at core `k`. -/
def State.asCore (s : State) (k : Nat) : State := { s with turn := { agent := .core k, pick := 0 } }

/-- The order of the clocks of a gang. -/
def Core.before (a b : Core) : Bool :=
  decide (a.time < b.time) || (decide (a.time = b.time) && decide (fieldGet a.sw.gangPos 16 4 < fieldGet b.sw.gangPos 16 4))

/-- The phase timer has passed its limit. -/
def Core.overrun (c : Core) : Bool :=
  c.phase.running && !c.sup &&
    decide (c.phase.expected * (16 + fieldGet c.sw.phaseCnt 60 4) + 4096 < 16 * fieldGet c.sw.phaseCnt 0 48)

/-- The events that the running code takes at its boundaries: a handler its own, which are supervisor faults (R361); those of the held
context wait for its return. -/
def Core.events (c : Core) : List Trap := if c.sup then c.supAsync else c.async

/-- A member that a trap, a debug stop or the end of its unit keeps from its next bundle. -/
def Core.frozen (c : Core) : Bool := c.sup || c.entering.isSome || !c.running || (c.debugStop && !c.debugStep)

/-- An event is due at the next boundary of the unit. -/
def Core.hasEvent (c : Core) : Bool := !c.events.isEmpty || c.overrun

/-- The issues of the core's unit. -/
def Core.issues (c : Core) : Nat := match c.unit with | some u => u.issues | none => 0

/-- The phase that a PH bundle starts (R364). -/
def State.startPhase (s : State) (hd : Word) : State :=
  let c := s.me
  let ps := match s.hub.kernels.find? (fun k => k.table == c.phase.table && k.ctx == c.ctx) with | some k => k.phases | none => []
  let k := ps.findIdx (fun p => p.1 == c.pc)
  let e := ps.getD k (0, 0, 0)
  if !hd.getLsbD 30 then s
  else
    s.onMe (fun c => { c with
      phase := { c.phase with running := decide (e.2.1 ≠ 0), stopped := false, expected := e.2.1, index := if k < ps.length then k else 0 },
      sw := { c.sw with phaseCnt := BitVec.ofNat 64 (e.2.2 % 16 * 2 ^ 60) } })

/-- A segment opened by the bundle at the program counter (R379, R383). The lead of a gang passes the opening to its members, each of
which has its RETRY with it (R388). -/
def State.openSegment (s : State) (n : Nat) : State :=
  let c := s.coreAt n
  let mark := match c.unit with
    | some u => if u.gang ≤ 1 || c.sup then none
        else (u.decisions.drop u.reached).head?.filter (fun (d : Word × Nat × Option Word) => decide (16 ≤ d.2.1))
    | none => none
  let r := match mark with | some d => d.2.1 - 16 | none => 0
  let s1 := s.putCore n { c with
    sw := { c.sw with segState := BitVec.ofNat 64 (2 ^ 63 + r % 4 * 2 ^ 61 + fieldGet c.pc 3 45) },
    seg := { c.seg with opened := c.time }, supSeg := c.sup,
    unit := c.unit.map (fun (u : UnitInfo) =>
      { u with reached := if mark.isSome then u.reached + 1 else u.reached, entry := if c.sup then u.entry else u.issues }) }
  if c.sup then s1 else s1.tellGang n (fun v => { v with decisions := v.decisions ++ [(c.pc, 16, none)] })

/-- The state in which the operations of a bundle act: its phase started, and its segment open, or already committed where the bundle
itself carries what commits it (R27, R364, R379). -/
def State.opened (s : State) (b : Bundle) (seals : Bool) : State :=
  let s1 := if !b.rep && !s.me.rewound then s.startPhase b.hd else s
  if s1.me.opens b then
    let s2 := s1.openSegment s1.coreNo
    if seals then s2.onMe Core.closeSegment else s2
  else s1

/-- The buffers of the segment that the next bundle is in overflow as it issues (R384). -/
def State.tooFull (s : State) (b : Bundle) : Bool :=
  let o := s.opened b ((s.begun b).sealedBy b)
  let s2 := o.begun b
  o.me.segOpen && s2.overflows (s2.preview b) b

/-- The next bundle of the core whose turn it is commits the open segment (R379, R382, R384). -/
def State.commitsNext (s : State) : Bool :=
  s.me.segOpen &&
    (match s.look with
     | .go b => s.me.opens b || (s.begun b).sealedBy b || s.tooFull b
     | .rendezvous _ => true
     | .ends _ => true
     | _ => false)

/-- The issues of the members of the core's gang that are frozen, or pre-empted and saved. -/
def State.gangFrozen (s : State) : List Nat :=
  (s.mates.filter Core.frozen).map Core.issues ++
    (match s.me.unit with
     | none => []
     | some u => (match s.launch u.launch with
        | some l => (l.waiting.filter (fun p => p.unit.crew == u.crew)).map (fun p => p.unit.issues)
        | none => []))

/-- A gang keeps the core at its boundary (R327, R388): while another member is frozen no further on in the stream; while one has an event,
at the boundary of the member that is furthest on, which the others reach; and before it commits a segment, until the others stand
there too. What its members do meanwhile leaves their skew in issue time (DESIGN CHOICE where one traps behind others that have issued
the bundle, log 76). -/
def State.gangStops (s : State) : Bool :=
  let c := s.me
  let ms := s.mates
  match c.unit with
  | none => false
  | some u =>
    if u.gang ≤ 1 || c.sup then false
    else
      match s.gangFrozen with
      | k :: r => decide (r.foldl min k ≤ u.issues)
      | [] =>
        if (c :: ms).any Core.hasEvent then ms.all (fun m => decide (m.issues ≤ u.issues))
        else ms.any (fun m => decide (m.issues < u.issues)) && s.commitsNext

/-- What a gang lets the core do: 0 issue, 1 wait for the others, 2 stall with them, 3 stand at a common boundary. -/
def State.gangGate (s : State) : Nat :=
  let c := s.me
  let ms := s.mates
  if c.sup || ms.isEmpty then 0
  else if s.gangStops then 3
  else
    let run := ms.filter (fun m => !(m.frozen || (s.asCore m.id).gangStops))
    if run.any (fun m => !m.ticks || m.before c) then 1
    else if run.any (fun m => m.time != c.time) then 0
    else
      let looks := (c :: run).map (fun m => (s.asCore m.id).look)
      if looks.any (fun l => match l with | .missing => true | .hold => true | .wait _ => true | .rendezvous _ => true | _ => false) then 1
      else if looks.any (fun l => match l with | .stall => true | _ => false) then 2
      else 0

/-- Issue time that a member spends because another stalls or checks pages: `t` cycles now, and `d` before its next issue; those of a
frozen one count when it goes on. -/
def Core.delay (c : Core) (t d : Nat) : Core :=
  if c.sup then { c with held := c.held.map (fun h => { h with time := h.time + t, next := h.next + d }) }
  else { c with time := c.time + t, next := c.next + d }

/-! ## The attempt -/

/-- One cycle of issue time. -/
def Core.tick (c : Core) : Core := { c with time := c.time + 1 }

/-- One cycle of the phase timer (R364). -/
def Core.count (c : Core) : Core :=
  if c.phase.running && !c.sup then { c with sw := { c.sw with phaseCnt := fieldPut c.sw.phaseCnt 0 48 (fieldGet c.sw.phaseCnt 0 48 + 1) } } else c

/-- The stall field charged once, at the first attempt at a bundle whose header has been fetched (R25). -/
def Core.charge (c : Core) : Core :=
  if c.charged || c.sw.repc != 0 || c.skipNext then c
  else
    match c.lineAt c.pc.toNat with
    | some l =>
      if l.faulted || c.transferDue then c
      else { c with charged := true, next := c.next + fieldGet (c.syllable c.pc.toNat) 43 5 }
    | none => c

/-- A pending link is given as soon as the headers of the delay bundles still owed can be read, and its first value has landed (R127,
R135; log 12). -/
def State.linkNow (s : State) : State :=
  let c := s.me
  match c.xfer with
  | none => s
  | some x =>
    match x.link with
    | none => s
    | some r =>
      let first : Bool := c.flights.any (fun f => f.dest == .scalar r && f.slot == 6 && f.issued == x.issued)
      let end_ (a : Nat) : Option Nat := (s.codeAt a).map (fun w => a + bundleBytes w)
      let after := if x.left = 1 then end_ c.pc.toNat else if x.left = 2 then (end_ c.pc.toNat).bind end_ else none
      match (if first then none else after) with
      | none => s
      | some a =>
        let c1 := (if c.segOpen then c.journalS r else c).putS r { SReg.zero with val := BitVec.ofNat 64 a }
        s.putCore s.coreNo { c1 with xfer := some { x with link := none } }

/-- What the handler of a deterministic launch waits for at its next bundle, of what the frozen code has issued: registers with a pending
bit, or all of it, for S.CTXOUT, a tile or a ring (R355, R367; DEDUCED, log 77). -/
def State.noteWants (s : State) : State :=
  if !(s.me.sup && s.me.determ) then s
  else
    match s.me.decode with
    | .error _ => s
    | .ok b =>
      let t := s.begun b
      let act := b.items.filter (fun i => i.active t.me)
      s.onMe (fun c => { c with
        wants := (c.wants ++ (act.flatMap (fun i => i.touches t.me)).filter t.me.refPending).eraseDups,
        drains := c.drains || act.any (fun i => i.sem.saves || i.sem.slip t || (i.slot == .M && i.sem.stall t)) })

/-- What a core does at every attempt before it looks at its bundle: operand pops come due, a served claim ends, and engine
operations that are kept only for the stalls of later accesses go. -/
def State.settleCore (s : State) : State :=
  let n := s.coreNo
  let c0 := (s.me.popRings s.me.time)
  let c1 : Core := { c0 with
    engines := c0.engines.filter (fun e => !(e.stores && e.ended && decide (e.padEnd ≤ c0.time) && !c0.sup)),
    padStores := c0.padStores.filter (fun x => c0.sup || decide (c0.time < x.due)),
    claim := (match c0.claim with | some (a, i, k) => if s.home.num (a + 8) 8 + k ≤ i then c0.claim else none | none => none) }
  ((s.putCore n c1).completeFences n).linkNow.noteWants

/-- The operands of every slot captured, with the tree (R357). -/
def State.captureAll (s : State) (b : Bundle) : State :=
  s.onMe (fun c => { c with
    cap := b.items.map (fun i => c.captureSlot i.hdr i.sem i.disp),
    capTree := (match b.tree with | some w => some (c.captureTree (TSyl.dec w)) | none => none) })

/-- The error record of an access at issue that a row of a suspended command refuses (R281, R295). -/
def State.refusalAtIssue (s : State) (t : Trap) : State :=
  if t.code ≠ 7 then s
  else
    match walk s s.me.ctx t.addr.toNat with
    | .fail _ _ _ => s
    | .ok pa attr _ =>
      if isWorked attr || !s.rowRefused ((List.range (2 ^ t.size)).map (pa + ·)) then s
      else
        let b := (s.dieAt (homeDie pa)).beat % 2 ^ 48
        s.refusalRecord s.coreNo s.me.ctx (homeDie pa) t.slot t.addr s.me.bundlePc b b pa

/-- A trap at issue taken: the operands captured, a faulted line discarded with its fault (R336, R353, R357). -/
def State.issueTrap (s : State) (t : Trap) (b : Option Bundle) : State :=
  let s1 := (match b with | some b => s.captureAll b | none => s).refusalAtIssue t
  let s2 := s1.onMe (fun c => if t.code = 0x0B then { c with fetch := c.fetch.filter (fun l => !l.faulted) } else c)
  s2.takeTrapAt s.coreNo t true

/-- The link that a call has left pending, given by its second delay bundle before the operations of that bundle act (R127, R135;
log 12). -/
def Core.giveLink (c : Core) (after : Word) : Core :=
  match c.xfer with
  | none => c
  | some x =>
    match (if x.left = 1 then x.link else none) with
    | none => c
    | some r =>
      let c1 := (if c.segOpen then c.journalS r else c).putS r { SReg.zero with val := after }
      { c1 with xfer := some { x with link := none } }

/-- The latches and REPC that an issue of an open segment changes enter its journal (R381). -/
def Core.journalIssue (c : Core) (items : List Item) : Core :=
  if c.segOpen then (items.filter (fun i => i.slot != .B)).foldl (fun c i => c.journalL (slotCode i.slot)) (c.journalW 0x00B) else c

/-- The header of the bundle at the program counter where fetch has it; 0 where it cannot be read. -/
def Core.headerWord (c : Core) : Word :=
  match c.lineAt c.pc.toNat with
  | some l => if l.faulted then 0 else c.syllable c.pc.toNat
  | none => 0

/-- The latches after an issue of the bundle at the program counter that decoding refuses: each slot whose syllable can be read as the
issue would have left it (R34, R425; DESIGN CHOICE, log 67). -/
def Core.refusedLatches (c : Core) : Core :=
  let hd := c.headerWord
  let rep := c.sw.repc != 0
  (allSlots.filter (· != .B)).foldl (fun d sl =>
    let a := c.pc.toNat + 8 * (1 + (presentSlots hd).idxOf sl)
    let l := c.latchOf (slotCode sl)
    let put (d : Core) (l : Latch) : Core := (if d.segOpen then d.journalL (slotCode sl) else d).putLatch (slotCode sl) l
    if tmpl hd sl = 2 ∧ !rep then
      (match c.lineAt a with
       | some f =>
         if f.faulted then d
         else
           let w := (c.syllable a).setWidth 63
           put d { word := w, disp := (match semOfWord sl w with | some m => m.off | none => 0#32), full := true }
       | none => d)
    else if tmpl hd sl ≠ 0 ∧ l.full then put d (c.stepLatch sl l)
    else d) c

/-- The skip of S.CTXSKIP (R425): the issue only counts. -/
def State.skipIssue (s : State) (b : Option Bundle) (size : Nat) : State :=
  s.onMe (fun c =>
    let c1 := match b with
      | some b => ((c.giveLink b.after).journalIssue b.items).latches b
      | none => ((c.giveLink (BitVec.ofNat 64 (c.pc.toNat + size))).journalIssue []).refusedLatches
    let left := match b with
      | some b => c.repsAfter b
      | none => if c.sw.repc = 0 then fieldGet c.headerWord 35 8 else c.sw.repc.toNat - 1
    { c1 with
      sw := { c1.sw with repc := BitVec.ofNat 64 left }, skipNext := false, charged := false, rvDone := false, rewound := false,
      padDone := false, noOpen := false,
      unit := c.unit.map (fun (u : UnitInfo) => if c.sup || u.gang ≤ 1 then u else { u with issues := u.issues + 1 })
      pc := (if left = 0 then BitVec.ofNat 64 (c.pc.toNat + size) else c.pc), next := max c.next (c.time + 1),
      xfer := c1.xfer.map (fun (x : Xfer) => { x with left := x.left - 1, atTime := c.time + 1 }) })

/-- The issue cycles of the slot classes with an active operation (R417). -/
def State.countIssue (s : State) (b : Bundle) : State :=
  let c := s.me
  let act (p : Slot → Bool) : Nat := if b.items.any (fun i => p i.slot && i.active c) then 1 else 0
  (((((s.ticket c.ctx 0 (act (· == .S))).ticket c.ctx 1 (act (fun x => x == .V0 || x == .V1))).ticket c.ctx 2 (act (· == .M))).ticket
    c.ctx 3 (act (fun x => x == .C0 || x == .C1))).ticket c.ctx 4 (act (· == .B))).ticket c.ctx 5 (if b.tree.isSome then 1 else 0)

/-- The read flumes from which a bundle takes an element. -/
def Core.popsOf (c : Core) (items : List Item) : List Nat :=
  ((items.flatMap (fun i => i.sem.reads c)).filterMap (fun r =>
    match r with
    | .v n => (match c.flumeOf n with | some f => if f.shape.write then none else some n | none => none)
    | _ => none)).eraseDups

/-- The bundle issues: the actions of its header, its latches, and its operations to act; the one that the slip holds is set
aside with its operands. `s` is the state before, its open segment committed where the bundle commits it; the operations find the status
words of that state (R33). -/
def State.issueBundle (s : State) (b : Bundle) (seals : Bool) : State :=
  let s3 := ((s.opened b seals).onMe (fun c => (c.giveLink b.after).journalIssue b.items)).begun b
  let held := s3.heldItem b
  let act := b.items.filter (fun i => i.active s3.me && !i.sem.slip s3)
  let s4 := s3.onMe (fun c => { c with
    sw := { c.sw with repc := BitVec.ofNat 64 (c.repsAfter b) },
    phase := (if act.any (fun i => i.sem.ends) then { c.phase with running := false, expected := 0 } else c.phase),
    slip := (match held with
      | some i => some {
          slot := i.slot, word := i.word, pc := c.pc, scope := fieldGet b.hd 32 3, cap := c.captureSlot i.hdr i.sem i.disp, issued := 0,
          rot := c.sw.rot, k := c.k }
      | none => c.slip.map (fun (x : SlipOp) => { x with issued := x.issued + 1 })),
    issue := c.issue.map (fun (r : Issue) => { r with
      segState := s.me.sw.segState, phaseCnt := s.me.sw.phaseCnt,
      pops := c.popsOf act, ops := (match held with | some i => r.ops.filter (fun o => o.1 != i.slot) | none => r.ops) }) })
  let s5 : State := { s4.countIssue b with free := s4.free + 8 }
  if b.branch then s5.onMe (fun c => c.setXfer (c.xferTo .go none false)) else s5

/-- The core's segment, where it has one open, commits; the flag says that nothing of it is left: its comparisons agreed, and its stores
have entered the store buffer (R380). -/
def State.settled (s : State) : State × Bool :=
  let r := if s.me.segOpen then s.tryCommit s.coreNo else (s, true)
  (r.1, r.2 && (r.1.me.sw.segState.getLsbD 63 || r.1.me.seg.held.isEmpty))

/-- The bundle issues, once the segment that it commits has committed (R379, R380), unless its segment's buffers overflow (R384). -/
def State.goBundle (s : State) (b : Bundle) : State :=
  let seals := (s.begun b).sealedBy b
  let r := if s.me.segOpen && (s.me.opens b || seals) then s.settled else (s, true)
  if !r.2 then r.1
  else
    let o := r.1.opened b seals
    let s2 := o.begun b
    if o.me.segOpen && s2.overflows (s2.preview b) b then
      (r.1.onMe (fun c => { c with noOpen := true })).issueTrap (Trap.bare 0x11 s.me.pc) (some b)
    else r.1.issueBundle b seals

/-- A rendezvous bundle (R326, R379, R397): the open segment commits; a deterministic launch first makes every access of the
loft and the cluster memory; then the member waits. A gang passes as one. -/
def State.goRendezvous (s : State) (b : Bundle) : State :=
  let r := s.settled
  if !r.2 then r.1
  else
    let s1 := if s.me.det then r.1.drainMemory s.coreNo s.me.seq (4 * s.me.timed.length + 4) else r.1
    let gang := match s1.me.unit with | some u => decide (1 < u.gang) | none => true
    let ready := !s1.me.det || !(s1.me.timed.any (·.inMemory) || s1.me.flumes.any (fun f => f.shape.write && !f.main && !f.buf.isEmpty))
    s1.onMe (fun c =>
      if !ready then c
      else if gang then { c with rvDone := true }
      else { (if c.det then c else c.tick) with waiting := some (fieldGet b.hd 23 6) })

/-- A unit whose launch is cancelling ends at an SE bundle, which does not issue (R332, R386). -/
def State.goEnds (s : State) : State :=
  let r := s.settled
  if !r.2 then r.1
  else
    (r.1.tellGang s.coreNo (fun v => { v with decisions := v.decisions ++ [(s.me.pc, 8, none)] })).onMe (fun c => { c with
      xfer := some { c.xferTo .unitEnd none false with left := 0, atTime := c.time },
      unit := c.unit.map (fun (u : UnitInfo) => { u with cancelled := true }) })

/-- The early accesses that a hold waits for are made: those before a fence, before an on-chip access that is kept back, or before an
access whose padded time has come (R165, R198, R199, R396; log 11). -/
def State.drainHold (s : State) : State :=
  let c := s.me
  let blocked := c.timed.filter (fun x => x.inMemory && decide (x.due ≤ c.time) && !s.timedReady s.coreNo x)
  let late := if c.det then (c.loads.filter (fun l => decide (l.due ≤ c.time))).map (·.seq) ++
      (c.engines.filter (fun e => decide (e.due ≤ c.time))).map (·.seq) ++ (c.sb.filter (fun e => decide (e.due ≤ c.time))).map (·.seq) ++
      (c.fences.filter (fun f => decide (f.due ≤ c.time))).map (·.seq) ++
      (c.flumes.filter c.elementLate).flatMap (fun f => f.buf.map (·.2.2)) else []
  match (c.fences.filter c.fenceWaits).map (·.seq) ++ blocked.map (·.seq) ++ late with
  | [] => s
  | k :: r => s.drainMemory s.coreNo (r.foldl max k) (4 * c.timed.length + 4)

/-- The hold of an operation begins. A handler's waits for every access of its core, those of the loft and cluster memory too, which are
made early; so are those that an acquire, a release or a fence waits for which may keep a record from being read (R165, R199, R211; log
11). -/
def State.startWait (s : State) : State :=
  let c := s.me
  let k := if c.sup then c.seq else c.orderedTo
  (s.drainMemory s.coreNo k (4 * c.timed.length + 4)).onMe (fun c => if c.hold = Hold.none then { c with hold := .waiting } else c)

/-- HEADER_ISSUE: one cycle of the core, which issues its next bundle, stalls, holds or traps. -/
def State.headerIssue (s : State) : State :=
  if !s.me.ticks then s
  else
    let s1 := s.settleCore.onMe (fun c => c.charge.count)
    match s1.gangGate with
    | 1 =>
      (match s1.look with
       | .wait _ => s1.startWait
       | .hold => s1.drainHold
       | .rendezvous b => s1.goRendezvous b
       | _ => s1)
    | 2 => s1.mates.foldl (fun s m => s.putCore m.id ((s.coreAt m.id).delay 1 1)) (s1.onMe (fun c => c.delay 1 1))
    | 3 => (match s1.look with | .hold => s1.drainHold | _ => s1)
    | _ =>
      match s1.look with
      | .idle => s1
      | .early => s1.onMe Core.tick
      | .missing => s1
      | .stall => s1.onMe Core.tick
      | .hold => s1.drainHold
      | .wait _ => s1.startWait
      | .trap t b => s1.issueTrap t b
      | .rendezvous b => s1.goRendezvous b
      | .ends _ => s1.goEnds
      | .skip b n => s1.skipIssue b n
      | .go b => s1.goBundle b

/-- HEADER_ISSUE. -/
def execHeaderIssue (s : State) : Host.Outcome State Fault Refusal := .next s.headerIssue

/-- The end of an issue whose operations have all acted: the read flumes move on, the program counter goes to the next issue
in order, a delay bundle counts, and the next issue is one cycle later at the earliest (R25, R36, R42, R182). -/
def State.finishIssue (s : State) (n : Nat) : State :=
  let c := s.coreAt n
  match c.issue with
  | none => s
  | some i =>
    let gang := match c.unit with | some u => decide (1 < u.gang) && i.branch && !c.sup | none => false
    let past (u : UnitInfo) : Nat := ((u.decisions.drop u.reached).takeWhile (fun d => decide (16 ≤ d.2.1))).length + 1
    let s1 := if gang then s.tellGang n (fun v => { v with decisions := v.decisions ++ [(i.pc, c.decided)] }) else s
    s1.putCore n { c with
      issue := none, charged := false, rvDone := false, rewound := false, cap := [], capTree := none, hold := .none,
      padDone := false, noOpen := false,
      debugStep := false,
      pc := (if i.repsLeft = 0 then i.after else c.pc), next := max c.next (c.time + 1),
      flumes := c.flumes.map (fun (f : Flume) =>
        if i.pops.contains f.reg && !f.shape.write then { f with buf := f.buf.drop 1, next := f.next + 1, pops := c.time :: f.pops } else f),
      xfer := (if i.branch then c.xfer
        else c.xfer.map (fun (x : Xfer) => if x.left = 0 then x else { x with left := x.left - 1, atTime := c.time + 1 })),
      unit := c.unit.map (fun (u : UnitInfo) =>
        let v := if c.sup || u.gang ≤ 1 then u else { u with issues := u.issues + 1 }
        if !gang || u.pos = 0 then v else { v with reached := u.reached + past u }) }

/-! ## Holds and rendezvous -/

/-- HOLD_END (R165): the hold of the bundle at the program counter is served; in a deterministic launch a page check takes
PADC1 cycles of issue time in its place, which hold the other members of a gang too (R327, R395). -/
def State.holdEnd (s : State) : State :=
  let c := s.me
  match (if c.ticks && c.hold == Hold.waiting && c.fetched == Fetched.whole then c.decode else .error (Trap.bare 0 0)) with
  | .error _ => s
  | .ok b =>
    let s1 := s.begun b
    if s1.holdWaits b then s
    else
      let pad := c.det && !c.padDone && b.items.any (fun i => i.active s1.me && i.sem.holds s1 && i.sem.padHold)
      let d := if pad then c.padC1 else 0
      let s2 := s.mates.foldl (fun s m => s.putCore m.id ((s.coreAt m.id).delay 0 d)) s
      s2.onMe (fun c => { c with hold := .served, padDone := c.padDone || pad, next := if pad then c.time + d else c.next })

/-- HOLD_END. -/
def execHoldEnd (s : State) : Host.Outcome State Fault Refusal := .next s.holdEnd

/-- The member of a crew that a core serves, with its crew. -/
def State.crewOf (s : State) (n : Nat) : Option (Launch × Crew × Nat) :=
  match (s.coreAt n).unit with
  | none => none
  | some u =>
    match s.launch u.launch with
    | none => none
    | some l => (l.crews.find? (fun k => k.index == u.crew)).map (fun k => (l, k, u.pos))

/-- The passes of a rendezvous by a member. -/
def Member.count (m : Member) (r : Nat) : Nat := SMap.get m.passes r 0

/-- A member stands at rendezvous `r` with count `k`, and no trap, pre-emption or rewind takes it from there. -/
def State.standsAt (s : State) (m : Member) (r k : Nat) : Bool :=
  m.count r == k &&
    (match m.core with
     | some n => let c := s.coreAt n; c.waiting == some r && c.entering.isNone && !c.hasEvent
     | none => false)

/-- The rendezvous that core `n` waits at may be passed (R326). -/
def State.mayPass (s : State) (n : Nat) : Bool :=
  match (s.coreAt n).waiting, s.crewOf n with
  | some r, some (_, k, p) =>
    let c := match k.members[p]? with | some m => m.count r | none => 0
    (List.range k.members.length).all (fun i => i == p ||
      (match k.members[i]? with | some m => m.left || decide (c < m.count r) || s.standsAt m r c | none => true))
  | _, _ => false

/-- RENDEZVOUS_PASS: every member that waits with the same count passes. -/
def State.rendezvousPass (s : State) (n : Nat) : State :=
  match (s.coreAt n).waiting, s.crewOf n with
  | some r, some (l, k, p) =>
    if !s.mayPass n then s
    else
      let c := match k.members[p]? with | some m => m.count r | none => 0
      (List.range k.members.length).foldl (fun s' i =>
        match k.members[i]? with
        | none => s'
        | some m =>
          if s.standsAt m r c then
            match m.core with
            | none => s'
            | some q =>
              (s'.putCore q { s'.coreAt q with waiting := none, rvDone := true }).onMember l.id k.index i
                (fun x => { x with passes := SMap.put x.passes r (c + 1) })
          else s') s
  | _, _ => s

/-- RENDEZVOUS_PASS. -/
def execRendezvousPass (s : State) : Host.Outcome State Fault Refusal := .next (s.rendezvousPass s.coreNo)

/-- FETCH_LINE. -/
def execFetchLine (s : State) : Host.Outcome State Fault Refusal := .next (s.fetchLine s.coreNo)

/-! ## Transfers (R128 to R130, R133, R135, R124) -/

/-- What B.END waits for (R86, R395, R424): every result has landed, every engine that writes a register has ended, and the
write flumes are empty; in a deterministic launch every memory effect has been performed. -/
def State.unitDrained (s : State) (n : Nat) : Bool :=
  let c := s.coreAt n
  c.flights.isEmpty && c.timed.isEmpty && !c.awaits && c.pops.isEmpty && c.claim.isNone && c.slip.isNone &&
    c.seg.held.isEmpty && c.engines.all (fun e => e.stores || (e.isFill && e.fault.isSome)) &&
    c.flumes.all (fun f => !f.shape.write || (f.buf.isEmpty && f.inflight == 0)) &&
    (!c.determ || s.performedTo n c.seq)

/-- What the code of a handler has issued itself: B.RFT waits until its results have landed, from memory and engines too (R360). -/
def Core.handlerLeft (c : Core) : Bool :=
  c.loads.any (fun l => decide (c.supFrom ≤ l.seq)) ||
    c.sb.any (fun e => decide (c.supFrom ≤ e.seq) && e.dest.isSome) ||
    c.engines.any (fun e => decide (c.supFrom ≤ e.seq) && !e.stores && !(e.isFill && e.fault.isSome))

/-- The transfer of core `n` may take place. The updates of a guarded loop-branch wait with it, so a program write that has landed before
is overwritten (R133; DEDUCED, log 70). -/
def State.transferReady (s : State) (n : Nat) : Bool :=
  let c := s.coreAt n
  c.ticks &&
  match c.xfer with
  | none => false
  | some x =>
    decide (x.left = 0) && decide (x.atTime ≤ c.time) && !c.guardPending x &&
      (match x.kind with
       | .unitEnd => s.unitDrained n
       | .rft => c.flights.isEmpty && c.timed.isEmpty && !c.lowPending && !c.handlerLeft && c.supAsync.isEmpty
       | _ => true)

/-- The updates and the target of a transfer (R128). A program write of the same cycle lands after them (R84). p32 is
a result of slot B, behind a B.STAGE of the second delay bundle (DESIGN CHOICE, log 58). A transfer that is taken
discards the faulted lines that it leaves (R336). -/
def Core.transfer (c : Core) (x : Xfer) : Core :=
  let put (c : Core) (i : Nat) (v : Option Word) : Core :=
    match v with
    | some w => (if c.segOpen then c.journalW i else c).putW i w
    | none => c
  let c1 := put (put (put { c with xfer := none } 0x009 x.lc) 0x00A x.depth) 0x008 x.rot
  let c2 : Core :=
    match x.p32 with
    | some v => c1.emit { c1.flight .B (.pred (c1.physP 32)) 0 with val := if v then 1#8192 else 0#8192, pc := x.pc }
    | none => c1
  { c2 with pc := codeAddr (x.target.getD c2.pc), fetch := (if x.target.isSome then c2.fetch.filter (fun l => !l.faulted) else c2.fetch) }

/-- BRANCH_TRANSFER. -/
def State.branchTransfer (s : State) (n : Nat) : State :=
  let c := s.coreAt n
  match (if s.transferReady n then c.xfer else none) with
  | none => s
  | some x =>
    let s0 := s.putCore n { c with xfer := none }
    if x.failed then
      (s0.putCore n { c with xfer := none, async := c.async.filter (fun t => !(t.code == 5 && t.pc == x.pc)),
                              supAsync := c.supAsync.filter (fun t => !(t.code == 5 && t.pc == x.pc)) }).takeTrapAt n
        { Trap.bare 0x05 x.pc with slot := 6 } false
    else
      match x.kind with
      | .go => s.putCore n (c.transfer x)
      | .unitEnd =>
        let o := match c.unit with | some u => if u.cancelled then Outcome3.cancelled else .completed | none => .completed
        s0.endUnit n o 0
      | .trap code => s0.takeTrapAt n { Trap.bare 0x12 x.pc with slot := 6, data := code } false
      | .rft => s0.returnFromTrap n

/-- BRANCH_TRANSFER. -/
def execBranchTransfer (s : State) : Host.Outcome State Fault Refusal := .next (s.branchTransfer s.coreNo)

/-! ## The slip (R176) -/

/-- The state in which the operation that the slip holds checks and acts: its captured operands, its step, and the register names and
shape slots of its bundle (R33, R77, R173, R176). -/
def State.slipState (s : State) (x : SlipOp) : State :=
  let c := s.me
  s.putCore s.coreNo { c with
    cap := [x.cap], k := x.k, sw := { c.sw with rot := x.rot },
    issue := some {
      pc := x.pc, scope := x.scope, leaf := 0, ops := [], tree := none, after := c.pc, repsLeft := 0, branch := false, pops := [],
      free := s.free, repc := c.sw.repc, segState := c.sw.segState, phaseCnt := c.sw.phaseCnt } }

/-- The operation that the slip holds may issue: its tile is ready, and nothing else that it waits for, as its captured operands name it,
stands in its way (R77, R176). -/
def State.slipReady (s : State) : Bool :=
  let c := s.me
  c.ticks && !c.sup &&
    (match c.slip with
     | some x =>
       (match semOfWord x.slot x.word with
        | some m =>
          let s1 := s.slipState x
          !m.slip s1 && !m.stall s1 && decide (c.inFlight + m.results ≤ 96)
        | none => true)
     | none => false)

/-- SLIP_ISSUE: the held operation issues with its captured operands and the names of its bundle's ROT (R77); a trap of its own is
taken at the boundary, and the operation issues first on resumption. The checkers look at its tiles now (R187, R351). -/
def State.slipIssue (s : State) : State :=
  let c := s.me
  match (if s.slipReady then c.slip else none) with
  | none => s
  | some x =>
    match semOfWord x.slot x.word with
    | none => s.putCore s.coreNo { c with slip := none }
    | some m =>
      let s1 := s.slipState x
      let it : Item := { slot := x.slot, word := x.word, disp := x.cap.disp, sem := m }
      let clash := if c.sw.checkctl.getLsbD 2 then s1.hazardOf { flights := [], timed := [] } it (s1.adds m) else none
      match ((m.check s1).or (s1.earlyTile it)).or clash with
      | some t => s.takeTrapAt s.coreNo { t with pc := x.pc } false
      | none =>
        let s2 := m.eff s1
        let s3 : State := { s2 with free := s2.free + 8 }
        s3.onMe (fun d => { d with slip := none, cap := c.cap, k := c.k, issue := none, sw := { d.sw with rot := c.sw.rot } })

/-- SLIP_ISSUE. -/
def execSlipIssue (s : State) : Host.Outcome State Fault Refusal := .next s.slipIssue

/-! ## Boundary events (R354, R359, R361, R363, R364, R368) -/

/-- The core stands at a bundle boundary at which events are taken. -/
def Core.atBoundary (c : Core) : Bool := c.ticks && c.claim.isNone

/-- The header address of the next bundle at resumption (R362). -/
def Core.nextPc (c : Core) : Word :=
  match c.xfer with
  | some x => if x.left = 0 then x.target.getD c.pc else c.pc
  | none => c.pc

/-- The code of the event that is taken next; none where none is due (R354). One for which the open segment rewinds comes first, and the
others follow the rewind (R385). -/
def Core.dueEvent (c : Core) : Option Nat :=
  if !c.atBoundary then none
  else if c.segOpen && decide (c.retry < 2) && c.events.any (·.rewinds) then some 5
  else
    match c.events.map (·.code) ++ (if c.overrun then [0x0E] else []) with
    | [] => none
    | k :: r => some (r.foldl min k)

/-- No hold runs that has to end before an event is taken (R363): of the holds, only those of C1.QAPP before its claim, C.BWAIT and
C1.BEATW are left for one (R221, R223, R285). -/
def State.mayBreak (s : State) (n : Nat) : Bool :=
  let c := s.coreAt n
  !s.paddedHold n && !s.onChipHold n && !s.keptBack n &&
    (c.hold != .waiting ||
      (match c.decode with
       | .ok b => let t := (s.asCore n).begun b; !t.holdWaits b || t.holdBreaks b
       | .error _ => true))

/-- The gang of core `n`, if it serves one, stands at the boundary at which the event is taken (R327). -/
def State.gangLets (s : State) (n : Nat) : Bool :=
  match (s.coreAt n).unit with
  | some u => decide (u.gang ≤ 1) || (s.coreAt n).sup || (s.asCore n).gangStops
  | none => true

/-- The code of the event that core `n` takes now. -/
def State.eventDue (s : State) (n : Nat) : Option Nat := if s.mayBreak n && s.gangLets n then (s.coreAt n).dueEvent else none

/-- The event of a code taken from those that are due, and entered. -/
def State.takeEvent (s : State) (n code : Nat) : State :=
  let c := s.coreAt n
  match takeFirst (fun (t : Trap) => t.code == code) c.events with
  | none => s
  | some (t, rest) =>
    let t1 : Trap := { t with async := true, pc := if code < 0x20 then t.pc else c.nextPc }
    (s.putCore n (if c.sup then { c with supAsync := rest } else { c with async := rest, debugStep := false })).takeTrapAt n t1 false

/-- HANDLER_ENTRY: an entry whose wait has ended completes, or the next event at the boundary is
entered; a debug stop only stops the core. -/
def State.handlerEntry (s : State) (n : Nat) : State :=
  let c := s.coreAt n
  match c.entering with
  | some _ => (s.completeFences n).goEnter n
  | none =>
    match s.eventDue n with
    | some 0x21 =>
      s.putCore n { c with async := c.async.filter (fun t => t.code != 0x21), debugStop := true, debugStep := false }
    | some 0x20 => s
    | some 0x0E => s
    | some k => s.takeEvent n k
    | none => s

/-- HANDLER_ENTRY. -/
def execHandlerEntry (s : State) : Host.Outcome State Fault Refusal := .next (s.handlerEntry s.coreNo)

/-- PREEMPTION_ENTRY, with the context's pre-emption ticket (R363, R417). -/
def State.preemptionEntry (s : State) (n : Nat) : State :=
  if s.eventDue n = some 0x20 then (s.ticket (s.coreAt n).ctx 15 1).takeEvent n 0x20 else s

/-- PREEMPTION_ENTRY. -/
def execPreemptionEntry (s : State) : Host.Outcome State Fault Refusal := .next (s.preemptionEntry s.coreNo)

/-- PHASE_OVERRUN: the trap is taken once, and the timer stops. -/
def State.phaseOverrun (s : State) (n : Nat) : State :=
  let c := s.coreAt n
  if s.eventDue n = some 0x0E then
    (s.putCore n { c with phase := { c.phase with running := false, stopped := true }, debugStep := false }).takeTrapAt n
      { Trap.bare 0x0E c.nextPc with async := true, data := c.phase.index } false
  else s

/-- PHASE_OVERRUN. -/
def execPhaseOverrun (s : State) : Host.Outcome State Fault Refusal := .next (s.phaseOverrun s.coreNo)

/-- The next event of a core, where no hold keeps it. -/
theorem eventDue_eq (s : State) (n : Nat) (h : s.mayBreak n = true) (g : s.gangLets n = true) : s.eventDue n = (s.coreAt n).dueEvent := by
  simp [State.eventDue, h, g]

/-! ## Landing rows -/

/-- The next fixed-latency result of core `n` lands if it is one that `p` names; a timed access comes first. -/
def State.landIf (s : State) (n : Nat) (p : Dest → Bool) : State :=
  match (s.coreAt n).dueFlight with
  | some (f, _) => if p f.dest then s.resultLand n else s
  | none => s

/-- RESULT_LAND. -/
def execResultLand (s : State) : Host.Outcome State Fault Refusal := .next (s.resultLand s.coreNo)

/-- STATUS_WORD_WRITE: a program's write of a status word without a row of its own. -/
def execStatusWordWrite (s : State) : Host.Outcome State Fault Refusal :=
  .next (s.landIf s.coreNo (fun d => match d with | .status i => i != 0x024 | _ => false))

/-- LANEMAP_WRITE: KLIM follows (R264, R266). -/
def execLanemapWrite (s : State) : Host.Outcome State Fault Refusal :=
  .next (s.landIf s.coreNo (fun d => match d with | .status i => i == 0x024 | _ => false))

/-- BASE_REGISTER_WRITE. -/
def execBaseRegisterWrite (s : State) : Host.Outcome State Fault Refusal :=
  .next (s.landIf s.coreNo (fun d => match d with | .base _ => true | _ => false))

/-- DPAIR_COMPARE. -/
def execDpairCompare (s : State) : Host.Outcome State Fault Refusal := .next (s.dpairCompare s.coreNo)

/-- REGISTER_RESULT_LAND. -/
def execRegisterResultLand (s : State) : Host.Outcome State Fault Refusal := .next (s.registerResultLand s.coreNo s.turn.pick)

/-- TILE_TRANSFER_LAND. -/
def execTileTransferLand (s : State) : Host.Outcome State Fault Refusal := .next (s.tileTransferLand s.coreNo s.turn.pick)

/-- STORE_PERFORM. -/
def execStorePerform (s : State) : Host.Outcome State Fault Refusal := .next (s.storePerform s.coreNo s.turn.pick)

/-- FLUME_ELEMENT_READ. -/
def execFlumeElementRead (s : State) : Host.Outcome State Fault Refusal := .next (s.flumeElementRead s.coreNo s.turn.pick)

/-- FLUME_ELEMENT_WRITE. -/
def execFlumeElementWrite (s : State) : Host.Outcome State Fault Refusal := .next (s.flumeElementWrite s.coreNo s.turn.pick)

/-- RING_FILL_APPEND. -/
def execRingFillAppend (s : State) : Host.Outcome State Fault Refusal := .next (s.ringFillAppend s.coreNo s.turn.pick)

/-- RING_SPILL_WRITE. -/
def execRingSpillWrite (s : State) : Host.Outcome State Fault Refusal := .next (s.ringSpillWrite s.coreNo s.turn.pick)

/-- The die that has the turn; 0 where another agent has it. -/
def State.dieNo (s : State) : Nat :=
  match s.turn.agent with
  | .outbound d => d | .l2 d => d | .beat d => d | .bank d _ => d | .landing d => d | .orchard d => d
  | _ => 0

/-- OUTBOUND_PERFORM. -/
def execOutboundPerform (s : State) : Host.Outcome State Fault Refusal := .next (s.outboundPerform s.dieNo s.turn.pick)

/-- L2_LINE_LEAVE. -/
def execL2LineLeave (s : State) : Host.Outcome State Fault Refusal := .next (s.l2LineLeave s.dieNo s.turn.pick)

end Sys2Proof.Machine
end

