-- ==== Sys2Proof/Machine/Units.lean ====
section
/-! DEFINITION. The dispatchers: crews placed, units started, resumed and pre-empted (R159, R160, R320 to R327, R344, R359,
R361, R363). -/

namespace Sys2Proof.Machine

/-- The core has left its unit and nothing of it is in progress on the core. -/
def Core.quiet (c : Core) : Bool :=
  c.unit.isNone && c.failed.isNone && c.engines.isEmpty && c.flumes.isEmpty && !c.awaits

/-- A list taken from place `k` round to its beginning. -/
def rotated {α : Type} (l : List α) (k : Nat) : List α := l.drop (k % l.length) ++ l.take (k % l.length)

/-- The free cores of a cluster that serve a launch. -/
def State.freeCores (s : State) (l : Launch) (cl : Nat) : List Nat :=
  (coresOf cl).filter (fun n => (s.coreAt n).free && (s.serves l.blk n).isSome)

/-- The places that a cluster has for crews of a launch (R321): a gang takes aligned positions. `k` chooses among the free
cores. -/
def State.places (s : State) (l : Launch) (cl k : Nat) : List (List Nat) :=
  let b := l.blk
  if s.windowClash l cl then []
  else if 1 < b.gang then
    rotated ((List.range (16 / b.gang)).filterMap (fun j =>
      let g := (List.range b.gang).map (fun i => 16 * cl + b.gang * j + i)
      if g.all (fun n => (s.freeCores l cl).contains n) then some g else none)) k
  else
    let f := rotated (s.freeCores l cl) k
    (List.range (f.length / b.crew)).map (fun j => (f.drop (b.crew * j)).take b.crew)

/-- The launch has tiles to hand out. -/
def State.hasTiles (s : State) (l : Launch) : Bool := !s.launchCancelling l && decide (l.started < l.blk.tiles)

/-- The crews that a launch would place on the cluster whose dispatcher acts: one more, or all of a deterministic launch at
once, on whichever of the admitted clusters in `ok` have room (R321, R393). -/
def State.crewsOn (s : State) (l : Launch) (cl k : Nat) (ok : Nat → Bool) : List (Nat × List Nat) :=
  let b := l.blk
  if !s.hasTiles l || !b.clusters.contains cl then []
  else if b.determ then
    let n := b.crewLimit.getD 1
    let all := ((rotated b.clusters k).filter ok).flatMap (fun c => (s.places l c k).map (fun p => (c, p)))
    if l.crews.isEmpty && decide (n ≤ all.length) then all.take n else []
  else if (match b.crewLimit with | some n => decide (n ≤ l.crews.length) | none => false) then []
  else (((s.places l cl k).map (fun p => (cl, p))).take 1)

/-- The crews that a launch has ready for the cluster, with the free cores of every cluster. -/
def State.newCrews (s : State) (l : Launch) (cl k : Nat) : List (Nat × List Nat) := s.crewsOn l cl k (fun _ => true)

/-- One crew placed: its window granted, its cores bound to the launch. -/
def State.placeCrew (s : State) (id : Nat) (g : Nat × List Nat) : State :=
  match s.launch id with
  | none => s
  | some l0 =>
    let s1 := s.grant l0 g.1
    match s1.launch id with
    | none => s1
    | some l =>
      let i := l.crews.length
      let c : Crew := { index := i, cluster := g.1, members := g.2.map (fun n => { core := some n, left := false, passes := [] }) }
      (List.range g.2.length).foldl (fun s p =>
        match g.2[p]? with
        | some n => s.putCore n { s.coreAt n with job := some (id, i, p) }
        | none => s) (s1.putLaunch { l with crews := l.crews ++ [c] })

/-- The cores of a crew that have not left it. -/
def Crew.cores (k : Crew) : List Nat := k.members.filterMap (fun m => if m.left then none else m.core)

/-- Core `n` may be given its launch's next tile: it is quiet, and in a gang the whole gang is and the core is its lead. -/
def State.mayStart (s : State) (n : Nat) : Bool :=
  match (s.coreAt n).job with
  | none => false
  | some (id, crew, pos) =>
    match s.launch id with
    | none => (s.coreAt n).quiet
    | some l =>
      if 1 < l.blk.gang then
        pos == 0 && (match l.crews.find? (fun k => k.index == crew) with
          | some k => k.members.all (fun m => m.left || (match m.core with | some q => (s.coreAt q).quiet | none => false))
          | none => true)
      else (s.coreAt n).quiet

/-- What is left of the timed accesses of a core is made, and the unit starts on it. -/
def State.startAt (s : State) (n id crew pos t : Nat) : State :=
  (s.drainTimed n (4 * (s.coreAt n).timed.length + 4)).startUnit n id crew pos t

/-- The next tile of its launch for core `n`, or its leaving; for a gang, one tile for every member (R320, R322, R327). -/
def State.nextUnit (s : State) (n : Nat) : State :=
  match (s.coreAt n).job with
  | none => s
  | some (id, crew, pos) =>
    match s.launch id with
    | none => s.leave n
    | some l =>
      let all : List Nat :=
        if 1 < l.blk.gang then (match l.crews.find? (fun k => k.index == crew) with | some k => k.cores | none => [n]) else [n]
      let r := s.handOut id crew pos
      match r.2 with
      | some t => all.foldl (fun s q =>
          match (s.coreAt q).job with | some (_, _, p) => s.startAt q id crew p t | none => s) r.1
      | none => (all.foldl (fun s q => s.leave q) r.1).settle

/-! ### Pre-empted units (R325, R359) -/

/-- A core of a cluster may take a pre-empted unit: it is free, and R344 gives it the record's mode. -/
def State.takes (s : State) (l : Launch) (p : Preempted) (n : Nat) : Bool :=
  (s.coreAt n).free &&
    (match s.serves l.blk n with
     | some m => m == (s.engineByte l.blk.ctx (p.record.toNat + 10)).1.toNat
     | none => false)

/-- The core of a crew's member whose unit has ended, while others of its gang were pre-empted. -/
def State.endedAt (s : State) (l : Launch) (crew pos : Nat) : Option Nat :=
  (l.crews.find? (fun k => k.index == crew)).bind (fun k => (k.members[pos]?).bind (fun m =>
    m.core.bind (fun q => if !m.left && (s.coreAt q).unit.isNone then some q else none)))

/-- The cores on which a pre-empted unit of a launch may be resumed on a cluster, its whole gang with it on aligned positions. A gang
of which a member's unit has ended already resumes where that member stands (DEDUCED, log 38). `k` chooses among the cores. -/
def State.resumableFor (s : State) (l : Launch) (cl k : Nat) (p : Preempted) : List (Preempted × Nat) :=
  if 1 < l.blk.gang then
    let g := l.blk.gang
    let crew := l.waiting.filter (fun q => q.cluster == cl && q.unit.crew == p.unit.crew)
    let fits (j i : Nat) : Bool :=
      match crew.find? (fun q => q.unit.pos == i) with
      | some q => s.takes l q (16 * cl + g * j + i)
      | none => s.endedAt l p.unit.crew i == some (16 * cl + g * j + i)
    match (List.range (16 / g)).find? (fun j => (List.range g).all (fits j)) with
    | some j => crew.map (fun q => (q, 16 * cl + g * j + q.unit.pos))
    | none => []
  else
    match (rotated (coresOf cl) k).find? (fun n => s.takes l p n) with
    | some n => [(p, n)]
    | none => []

/-- The cores for the units of a launch that are resumed on a cluster together, `k` choosing among those that may be. -/
def State.resumable (s : State) (l : Launch) (cl k : Nat) : List (Preempted × Nat) :=
  let here := l.waiting.filter (fun p => p.cluster == cl && !(s.resumableFor l cl k p).isEmpty)
  match (rotated here k).head? with
  | some p => s.resumableFor l cl k p
  | none => []

/-! ### The policy of a dispatcher (R325) -/

/-- The effective priority of a launch: one more for each 16 quanta that its ready units have waited, which is timing (log 1). -/
def State.effective (s : State) (l : Launch) : Nat := if 7 ≤ l.blk.prio then 7 else min 7 (l.blk.prio + Config.waited s.tick l.id / 16)

/-- A launch has a ready unit for a free core of the cluster: a crew to place, or a pre-empted unit to resume. -/
def State.wants (s : State) (cl : Nat) (l : Launch) : Bool := !(s.newCrews l cl 0).isEmpty || !(s.resumable l cl 0).isEmpty

/-- The place of the turn among the launches of one effective priority on a cluster. -/
def servedAt (cl prio : Nat) : Nat := 8 * cl + prio

/-- Launch `l` takes a free core of the cluster before launch `x` of equal effective priority: in turn, in the order of their acceptance. -/
def State.sooner (s : State) (cl : Nat) (l x : Launch) : Bool :=
  let last := SMap.get s.served (servedAt cl (s.effective l)) 0
  if decide (last ≤ l.id) == decide (last ≤ x.id) then decide (l.id < x.id) else decide (last ≤ l.id)

/-- A free core of the cluster goes to a launch: no other of its ready launches has a higher effective priority, or an earlier turn. -/
def State.favoured (s : State) (cl : Nat) (l : Launch) : Bool :=
  s.launches.all (fun x => x.id == l.id || !s.wants cl x || decide (s.effective x < s.effective l) ||
    (s.effective x == s.effective l && s.sooner cl l x))

/-- The turn among the launches of its effective priority passes on from a launch. -/
def State.serve (s : State) (cl : Nat) (l : Launch) : State :=
  { s with served := SMap.put s.served (servedAt cl (s.effective l)) (l.id + 1) }

/-- The crews that a launch places: on a cluster of another dispatcher too, only where it is its turn for the free cores (R325). -/
def State.placeable (s : State) (l : Launch) (cl k : Nat) : List (Nat × List Nat) := s.crewsOn l cl k (fun c => c == cl || s.favoured c l)

/-- What the dispatcher of a cluster may do at its turn. -/
inductive UAct where
  /-- report the unit of a stopped core failed (R361) -/
  | report (n : Nat)
  | next (n : Nat)
  /-- read the parent chain of a launch, which an ancestor cancels (R332) -/
  | sweep (id : Nat)
  | place (id : Nat)
  deriving DecidableEq, Repr

/-- The actions open to the dispatcher of cluster `cl`. -/
def State.unitActs (s : State) (cl k : Nat) : List UAct :=
  (coresOf cl).filterMap (fun n => if (s.coreAt n).failed.isSome then some (.report n) else none) ++
    (coresOf cl).filterMap (fun n => if s.mayStart n then some (.next n) else none) ++
    (s.launches.filter (fun l => !l.swept && l.blk.clusters.contains cl && s.launchCancelling l)).map (fun l => .sweep l.id) ++
    (s.launches.filter (fun l => !(s.placeable l cl k).isEmpty && s.favoured cl l)).map (fun l => .place l.id)

/-- UNIT_START: one action of the dispatcher of cluster `cl`, by `pick`. -/
def State.unitStart (s : State) (cl pick : Nat) : State :=
  let l := s.unitActs cl (pick / 64)
  match l[pick % l.length]? with
  | none => s
  | some (.report n) =>
    (match (s.coreAt n).failed with
     | some cause => s.failUnit n cause
     | none => s)
  | some (.next n) => s.nextUnit n
  | some (.sweep id) => (match s.launch id with | some x => (s.sweep x).settle | none => s)
  | some (.place id) =>
    match s.launch id with
    | some x =>
      let g := s.placeable x cl (pick / 64)
      ((cl :: g.map (·.1)).eraseDups).foldl (fun s c => s.serve c x) (g.foldl (fun s g => s.placeCrew id g) s)
    | none => s

/-- The dispatcher that has the turn; 0 where another agent has it. -/
def State.clusterNo (s : State) : Nat :=
  match s.turn.agent with
  | .dispatcher c => c | .walker c => c
  | _ => 0

/-- UNIT_START. -/
def execUnitStart (s : State) : Host.Outcome State Fault Refusal := .next (s.unitStart s.clusterNo s.turn.pick)

/-! ## Pre-emption and resumption (R325, R359, R363) -/

/-- A saved unit placed on core `n`: the handler starts with no held context and s0 at the record (R359). -/
def State.resumeOn (s : State) (id : Nat) (p : Preempted) (n : Nat) : State :=
  match s.launch id with
  | none => s
  | some l =>
    match s.ctxInfo l.blk.ctx with
    | none => s
    | some ci =>
      let s1 := s.drainTimed n (4 * (s.coreAt n).timed.length + 4)
      let c := (s1.coreAt n).fresh
      let sw := placeWords c.sw l.blk ((s.serves l.blk n).getD 0) p.unit.pos n ci
      let t : Trap := { Trap.bare 0x23 0 with addr := p.record }
      let c1 : Core := { c with
        sw := { sw with priv := 1#64, trapCause := t.cause, trapPc := 0, faultAddr := p.record, faultInfo := t.info },
        job := some (id, p.unit.crew, p.unit.pos), unit := some { p.unit with first := c.seq }, pc := ci.handler &&& 0xFFFFFFFFFFC0#64, running := true }
      let s2 := (s1.putCore n (c1.putS 0 { SReg.zero with val := p.record })).claimCore id n
      let s3 := s2.onMember id p.unit.crew p.unit.pos (fun m => { m with core := some n })
      match s3.launch id with
      | some x => s3.putLaunch { x with waiting := x.waiting.filter (fun q => q.record != p.record || q.unit.pos != p.unit.pos) }
      | none => s3

/-- The launches with a unit that may be resumed on a cluster, and whose turn it is. -/
def State.resumes (s : State) (cl k : Nat) : List Launch :=
  s.launches.filter (fun l => !(s.resumable l cl k).isEmpty && s.favoured cl l)

/-- RESUME_ENTRY. -/
def State.resumeEntry (s : State) (cl pick : Nat) : State :=
  let k := pick / 64
  let l := s.resumes cl k
  match l[pick % l.length]? with
  | some x => ((s.resumable x cl k).foldl (fun s e => s.resumeOn x.id e.1 e.2) s).serve cl x
  | none => s

/-- RESUME_ENTRY. -/
def execResumeEntry (s : State) : Host.Outcome State Fault Refusal := .next (s.resumeEntry s.clusterNo s.turn.pick)

/-- The launches with a ready unit for the cluster: a tile to hand out there, or a pre-empted unit. -/
def State.readyFor (s : State) (cl : Nat) : List Launch :=
  s.launches.filter (fun l => l.waiting.any (fun p => p.cluster == cl) ||
    (s.hasTiles l && l.blk.clusters.contains cl && (match l.blk.crewLimit with | some n => decide (l.crews.length < n) | none => true)))

/-- The priority of a core's unit. -/
def Core.prio (c : Core) : Nat := fieldGet c.sw.ctxId 16 8

/-- The running units of a cluster below the effective priority of a ready one, while no core is free (R325). -/
def State.victims (s : State) (cl : Nat) : List Nat :=
  if (coresOf cl).any (fun n => (s.coreAt n).free) then []
  else
    let ready := s.readyFor cl
    (coresOf cl).filter (fun n =>
      let c := s.coreAt n
      c.unit.isSome && c.running && ready.any (fun l => decide (c.prio < s.effective l)) && !c.async.any (fun t => t.code == 0x20))

/-- The unit that is displaced: of those whose quantum has expired, which is timing and here taken from `pick` (log 1), the one of lowest
priority, at the lowest position on ties. -/
def State.victim (s : State) (cl pick : Nat) : Option Nat :=
  let all := s.victims cl
  let some' := all.filter (fun n => decide (pick / 2 ^ (n % 16) % 2 = 1))
  let l := if some'.isEmpty then all else some'
  let least := (l.map (fun n => (s.coreAt n).prio)).foldl min 7
  (l.find? (fun n => decide ((s.coreAt n).prio ≤ least))).or l.head?

/-- PREEMPTION_REQUEST: a pre-emption is due at the next boundary of a running unit, and of its whole gang. -/
def State.preemptionRequest (s : State) (cl pick : Nat) : State :=
  match s.victim cl pick with
  | none => s
  | some n =>
    (s.coreAt n).gangCores.foldl (fun s k =>
      let c := s.coreAt k
      if c.unit.isSome then s.putCore k (c.addAsync { Trap.bare 0x20 0 with async := true }) else s) s

/-- PREEMPTION_REQUEST. -/
def execPreemptionRequest (s : State) : Host.Outcome State Fault Refusal :=
  .next (s.preemptionRequest s.clusterNo s.turn.pick)

end Sys2Proof.Machine
end

