-- ==== Sys2Proof/Machine/Bank.lean ====
section
/-! DEFINITION. The bank units and their instructions, the beats of a die, and what reaches a die's controller (R51, R273 to
R275, R281 to R283, R285 to R296). -/

namespace Sys2Proof.Machine

/-! ## Bank rows (R277) -/

/-- The number of the bank unit of a bank row: layer and bank (R10, R277). -/
def bankOfRow (row : Nat) : Nat := row / 2 ^ 34 % 4 * 256 + row / 2 ^ 15 % 256

/-- The bank rows that a command names. -/
def BankCmd.rows (c : BankCmd) : List Nat := (List.range c.count).map (fun i => c.region + 2 ^ 15 * i)

/-- The bank row of a physical address. -/
def rowOfPa (a : Nat) : Nat := a / 2 ^ 15 * 2 ^ 15

/-- Plane `p` of a bank row. -/
def State.plane (s : State) (row p : Nat) : BitVec 2048 := BitVec.ofNat 2048 (s.home.num (row + 256 * p) 256)

/-- Plane `p` of a bank row written. -/
def State.putPlane (s : State) (row p : Nat) (v : BitVec 2048) : State :=
  { s with home := s.home.store (bytesOf v.toNat (row + 256 * p) 256) (wordsOf (row + 256 * p) 256 false) }

/-- Poison on every word of a bank row (R293). -/
def State.poisonRow (s : State) (row : Nat) : State :=
  { s with home := (List.range 8192).foldl (fun m i => m.setPois (row / 4 + i) true) s.home }

/-! ## The bank unit (R288 to R292) -/

/-- The die and the bank that have the turn. -/
def State.bankNo (s : State) : Nat × Nat :=
  match s.turn.agent with
  | .bank d b => (d, b)
  | _ => (0, 0)

/-- The running bank unit of a die and bank. -/
def State.unitOf (s : State) (d b : Nat) : Option BankUnit := ((s.dieAt d).units.find? (fun e => e.1 == b)).map (·.2)

/-- A bank unit replaced. -/
def State.putUnit (s : State) (d b : Nat) (u : BankUnit) : State :=
  s.putDie d { s.dieAt d with units := SMap.put (s.dieAt d).units b u }

/-- A loop that is not active. -/
def BankLoop.zero : BankLoop := { active := false, left := 0, start := 0, step := 0, offset := 0 }

/-- A unit at the start of a command (R288). -/
def BankUnit.start (c : BankCmd) (row : Nat) (noSpill : Bool) : BankUnit :=
  { cmd := c.id, row := row, latch := [], acc0 := [], acc1 := [], loop0 := BankLoop.zero, loop1 := BankLoop.zero,
    program := c.program, index := 0, cycle := 0, busy := [], halted := false, limited := false, stopping := false,
    noSpill := noSpill, suspensions := 0 }

/-- A plane latch. -/
def BankUnit.l (u : BankUnit) (i : Nat) : BitVec 2048 := SMap.get u.latch i 0

/-- A plane latch written. -/
def BankUnit.putL (u : BankUnit) (i : Nat) (v : BitVec 2048) : BankUnit := { u with latch := SMap.set u.latch i v 0 }

/-- Plane `i` of accumulator `k`. -/
def BankUnit.acc (u : BankUnit) (k : Bool) (i : Nat) : BitVec 2048 := SMap.get (if k then u.acc1 else u.acc0) i 0

/-- Accumulator `k` written, by its planes. -/
def BankUnit.putAcc (u : BankUnit) (k : Bool) (f : Nat → BitVec 2048) : BankUnit :=
  let m := (List.range 32).foldl (fun m i => SMap.set m i (f i) 0) ([] : SMap (BitVec 2048))
  if k then { u with acc1 := m } else { u with acc0 := m }

/-- A loop of the unit. -/
def BankUnit.loop (u : BankUnit) (c : Bool) : BankLoop := if c then u.loop1 else u.loop0

/-- A loop of the unit replaced. -/
def BankUnit.putLoop (u : BankUnit) (c : Bool) (x : BankLoop) : BankUnit :=
  if c then { u with loop1 := x } else { u with loop0 := x }

/-- The offset that the active loops add to every plane field (R292). -/
def BankUnit.offset (u : BankUnit) : Nat :=
  (if u.loop0.active then u.loop0.offset else 0) + (if u.loop1.active then u.loop1.offset else 0)

/-- The command of a unit. -/
def Die.cmd (x : Die) (id : Nat) : Option BankCmd := x.cmds.find? (fun c => c.id == id)

/-- A bank's part of a command faults (R51, R293): the row is poisoned, the unit counts as halted, and the record names the
instruction index and the cause. -/
def State.bankFault (s : State) (d b cause : Nat) : State :=
  match s.unitOf d b with
  | none => s
  | some u =>
    let s1 := (s.poisonRow u.row).putUnit d b { u with halted := true, stopping := false, busy := [] }
    match (s1.dieAt d).cmd u.cmd with
    | none => s1
    | some c =>
      s1.record c.core {
        kind := 8, outcome := 1, ctx := c.ctx, die := d, slot := 5, core := c.core, addr := c.virt.toNat, pc := c.pc,
        detail := [(0, 2, b % 256), (2, 2, u.row % 2 ^ 34 / 2 ^ 23), (4, 2, u.index), (6, 1, cause), (8, 8, c.tag)], beat := 0 }

/-- What a bank-unit instruction does: its wait field and WAIT's count, its duration, whether it is arithmetic or ARD, the
planes it reads and writes, the latches and accumulators it names, the loop and accumulator checks of R292, whether its
issue is a loop boundary or halts the unit, and its effect under the offset of the active loops. -/
structure BkOp where
  wait : BitVec 2
  more : Nat := 0
  dur : Nat := 1
  arith : Bool := false
  reads : List Nat := []
  writes : List Nat := []
  latches : List Nat := []
  accs : List Nat := []
  check : BankUnit → Option Nat := fun _ => none
  boundary : Bool := false
  halts : Bool := false
  eff : Nat → State → BankUnit → State × BankUnit

/-- `n` planes from `p`. -/
def planesFrom (p n : Nat) : List Nat := (List.range n).map (p + ·)

/-- The resume beat of a suspended command (R295): the first compute beat after the one in progress in which none of its
banks is claimed by an accepted command. -/
def Die.resumeBeat (x : Die) (c : BankCmd) (fuel t : Nat) : Nat :=
  match fuel with
  | 0 => t
  | fuel + 1 =>
    if x.cmds.any (fun y => y.id != c.id && y.arrived && y.due == t && y.rows.any (fun r => c.rows.any (fun q =>
        bankOfRow r == bankOfRow q)))
    then x.resumeBeat c fuel (t + 2) else t

/-- A unit that has reached its loop boundary past the stretch limit spills into its cellar row, and its command takes a
resume beat (R294, R295). -/
def State.spill (s : State) (d b : Nat) (u : BankUnit) : State :=
  let x := s.dieAt d
  let cmds := match x.cmd u.cmd with
    | none => x.cmds
    | some c =>
      let t := if c.due == x.beat then x.resumeBeat c (x.cmds.length + 1) (x.beat + 2) else c.due
      x.cmds.map (fun y => if y.id == c.id then { y with suspended := true, due := t } else y)
  s.putDie d { x with
    units := SMap.del x.units b, cmds := cmds,
    cellar := SMap.put x.cellar b { u with
      suspensions := u.suspensions + 1, busy := [], limited := false, stopping := false } }

/-- An instruction still in progress at the issue of another, which the unit detects (R289). -/
def BankBusy.clash (e : BankBusy) (o : BkOp) (planes : List Nat) : Bool :=
  !(e.arith && !o.arith && !planes.any (fun p => e.planes.contains p) && !o.latches.any (fun l => e.latches.contains l) &&
    !o.accs.any (fun a => e.accs.contains a))

/-- The fault of an issue, by its cause (R292, R392): loops and accumulators, planes, an overlapping issue, and an
uncorrectable plane, in this order. -/
def BkOp.fault (o : BkOp) (s : State) (u : BankUnit) : Option Nat :=
  let ps := (o.reads ++ o.writes).map (· + u.offset)
  match o.check u with
  | some c => some c
  | none =>
    if ps.any (fun p => decide (127 < p)) then some 4
    else if u.busy.any (fun e => decide (u.cycle < e.ends) && e.clash o ps) then some 2
    else if o.reads.any (fun p => s.home.anyPois (u.row + 256 * (p + u.offset)) 256) then some 7
    else none

/-- The unit after the issue of an instruction that did not fault. -/
def BkOp.issue (o : BkOp) (s : State) (u : BankUnit) : State × BankUnit :=
  let ps := (o.reads ++ o.writes).map (· + u.offset)
  let r := o.eff u.offset s { u with index := u.index + 1 }
  (r.1, { r.2 with
    busy := u.busy.filter (fun e => decide (u.cycle < e.ends)) ++
      [{ ends := u.cycle + o.dur, arith := o.arith, planes := ps, latches := o.latches, accs := o.accs }]
    cycle := u.cycle + o.wait.toNat + 1 + o.more
    halted := o.halts })

/-- One issue of an instruction by the bank unit that has the turn (R289); nothing where no unit runs there. -/
def BkOp.run (o : BkOp) (s : State) : Host.Outcome State Fault Refusal :=
  let d := s.bankNo.1
  let b := s.bankNo.2
  match s.unitOf d b with
  | none => .next s
  | some u =>
    if u.halted then .next s
    else
      match o.fault s u with
      | some cause => .next (s.bankFault d b cause)
      | none =>
        let r := o.issue s u
        if o.boundary && !o.halts && u.stopping && !u.noSpill then .next (r.1.spill d b r.2)
        else .next (r.1.putUnit d b { r.2 with stopping := r.2.stopping && !o.boundary })

/-! ## Arithmetic (R290) -/

/-- Lane by lane, the sum bit and the carry of three bits. -/
def fullAdd (a b c : BitVec 2048) : BitVec 2048 × BitVec 2048 := (a ^^^ b ^^^ c, a &&& b ||| a &&& c ||| b &&& c)

/-- The bit-serial sum of planes `pa` and `pb`, the second inverted by `inv`, written in place step by step, with a first
carry; with the last carry and the carry into the last step. -/
def State.serialAdd (s : State) (row pa pb w : Nat) (inv : BitVec 2048) (c0 : BitVec 2048) :
    State × BitVec 2048 × BitVec 2048 :=
  (List.range w).foldl (fun (e : State × BitVec 2048 × BitVec 2048) i =>
    let r := fullAdd (e.1.plane row (pa + i)) (e.1.plane row (pb + i) ^^^ inv) e.2.1
    (e.1.putPlane row (pa + i) r.1, r.2, e.2.1)) (s, c0, c0)

/-- ADD and SUB: the carry, the borrow or the signed overflow goes to L7. -/
def addOp (f : BkAr) (sub : Bool) : BkOp :=
  let w := f.w1.toNat + 1
  { wait := f.t, dur := w + 1, arith := true, reads := planesFrom f.pa.toNat w ++ planesFrom f.pb.toNat w
    writes := planesFrom f.pa.toNat w, latches := [7]
    eff := fun o s u =>
      let m : BitVec 2048 := if sub then BitVec.allOnes 2048 else 0
      let r := s.serialAdd u.row (f.pa.toNat + o) (f.pb.toNat + o) w m m
      (r.1, u.putL 7 (if f.s then r.2.1 ^^^ r.2.2 else r.2.1 ^^^ m)) }

/-- BK_ADD. -/
def execBkAdd (f : BkAr) (s : State) : Host.Outcome State Fault Refusal := (addOp f false).run s

/-- BK_SUB. -/
def execBkSub (f : BkAr) (s : State) : Host.Outcome State Fault Refusal := (addOp f true).run s

/-- The value in lane `k` of `w` planes from `p`, sign-extended or zero-extended. -/
def State.laneVal (s : State) (row p w : Nat) (signed : Bool) (k : Nat) : Int :=
  let v := (List.range w).foldl (fun n i => if (s.plane row (p + i)).getLsbD k then n + 2 ^ i else n) 0
  if signed then sx v w else (v : Int)

/-- The plane of the lanes that pass. -/
def planeOf (p : Nat → Bool) : BitVec 2048 :=
  BitVec.ofNat 2048 (ofElems 1 ((List.range 2048).map (fun k => if p k then 1 else 0)))

/-- MUL and MAC. -/
def mulOp (f : BkMul) (add : Bool) : BkOp :=
  let wa := f.wa1.toNat + 1
  let wb := f.wb1.toNat + 1
  { wait := f.t, dur := wa * wb, arith := true, reads := planesFrom f.pa.toNat wa ++ planesFrom f.pb.toNat wb
    accs := [if f.k then 1 else 0]
    eff := fun o s u =>
      let old (k : Nat) : Int :=
        (List.range 32).foldl (fun (n : Int) i => if (u.acc f.k i).getLsbD k then n + 2 ^ i else n) 0
      let vals := (List.range 2048).map (fun k =>
        wrap ((if add then old k else 0) + s.laneVal u.row (f.pa.toNat + o) wa f.s k * s.laneVal u.row (f.pb.toNat + o) wb f.s k) 32)
      (s, u.putAcc f.k (fun i => BitVec.ofNat 2048 (ofElems 1 (vals.map (fun v => v / 2 ^ i % 2))))) }

/-- BK_MUL. -/
def execBkMul (f : BkMul) (s : State) : Host.Outcome State Fault Refusal := (mulOp f false).run s

/-- BK_MAC. -/
def execBkMac (f : BkMul) (s : State) : Host.Outcome State Fault Refusal := (mulOp f true).run s

/-- The lanes in which A is below B. -/
def State.lanesLt (s : State) (row pa pb w : Nat) (signed : Bool) : BitVec 2048 :=
  planeOf (fun k => decide (s.laneVal row pa w signed k < s.laneVal row pb w signed k))

/-- BK_CMP. -/
def execBkCmp (f : BkCmp) (s : State) : Host.Outcome State Fault Refusal :=
  let w := f.w1.toNat + 1
  BkOp.run {
    wait := f.t, dur := w, arith := true, reads := planesFrom f.pa.toNat w ++ planesFrom f.pb.toNat w, latches := [f.l.toNat]
    eff := fun o s u => (s, u.putL f.l.toNat (s.lanesLt u.row (f.pa.toNat + o) (f.pb.toNat + o) w f.s)) } s

/-- MIN and MAX: both operands are compared before a result plane is written. -/
def minOp (f : BkAr) (larger : Bool) : BkOp :=
  let w := f.w1.toNat + 1
  { wait := f.t, dur := w + 1, arith := true, reads := planesFrom f.pa.toNat w ++ planesFrom f.pb.toNat w
    writes := planesFrom f.pa.toNat w
    eff := fun o s u =>
      let pa := f.pa.toNat + o
      let pb := f.pb.toNat + o
      let lt := s.lanesLt u.row pa pb w f.s
      let m := if larger then ~~~ lt else lt
      ((List.range w).foldl (fun t i =>
        t.putPlane u.row (pa + i) (s.plane u.row (pa + i) &&& m ||| s.plane u.row (pb + i) &&& ~~~ m)) s, u) }

/-- BK_MIN. -/
def execBkMin (f : BkAr) (s : State) : Host.Outcome State Fault Refusal := (minOp f false).run s

/-- BK_MAX. -/
def execBkMax (f : BkAr) (s : State) : Host.Outcome State Fault Refusal := (minOp f true).run s

/-- BK_NEG. -/
def execBkNeg (f : BkNeg) (s : State) : Host.Outcome State Fault Refusal :=
  let w := f.w1.toNat + 1
  BkOp.run {
    wait := f.t, dur := w + 1, arith := true, reads := planesFrom f.pa.toNat w, writes := planesFrom f.pa.toNat w
    eff := fun o s u =>
      let r := (List.range w).foldl (fun (e : State × BitVec 2048) i =>
        let a := ~~~ (e.1.plane u.row (f.pa.toNat + o + i))
        (e.1.putPlane u.row (f.pa.toNat + o + i) (a ^^^ e.2), a &&& e.2)) (s, BitVec.allOnes 2048)
      (r.1, u) } s

/-! ## Plane logic and rows (R291) -/

/-- A latch computed from latches. -/
def logicOp (t : BitVec 2) (d : BitVec 3) (srcs : List (BitVec 3)) (g : BankUnit → BitVec 2048) : BkOp :=
  { wait := t, latches := (d :: srcs).map (·.toNat), eff := fun _ s u => (s, u.putL d.toNat (g u)) }

/-- BK_PAND. -/
def execBkPand (f : BkP3) (s : State) : Host.Outcome State Fault Refusal :=
  (logicOp f.t f.ld [f.la, f.lb] (fun u => u.l f.la.toNat &&& u.l f.lb.toNat)).run s

/-- BK_POR. -/
def execBkPor (f : BkP3) (s : State) : Host.Outcome State Fault Refusal :=
  (logicOp f.t f.ld [f.la, f.lb] (fun u => u.l f.la.toNat ||| u.l f.lb.toNat)).run s

/-- BK_PXOR. -/
def execBkPxor (f : BkP3) (s : State) : Host.Outcome State Fault Refusal :=
  (logicOp f.t f.ld [f.la, f.lb] (fun u => u.l f.la.toNat ^^^ u.l f.lb.toNat)).run s

/-- BK_PNOT. -/
def execBkPnot (f : BkP2) (s : State) : Host.Outcome State Fault Refusal :=
  (logicOp f.t f.ld [f.la] (fun u => ~~~ (u.l f.la.toNat))).run s

/-- BK_PMOV. -/
def execBkPmov (f : BkP2) (s : State) : Host.Outcome State Fault Refusal :=
  (logicOp f.t f.ld [f.la] (fun u => u.l f.la.toNat)).run s

/-- BK_PFILL. -/
def execBkPfill (f : BkFill) (s : State) : Host.Outcome State Fault Refusal :=
  (logicOp f.t f.ld [] (fun _ => if f.v then BitVec.allOnes 2048 else 0)).run s

/-- BK_RRD. -/
def execBkRrd (f : BkRow) (s : State) : Host.Outcome State Fault Refusal :=
  BkOp.run {
    wait := f.t, dur := 2, reads := [f.p.toNat], latches := [f.l.toNat]
    eff := fun o s u => (s, u.putL f.l.toNat (s.plane u.row (f.p.toNat + o))) } s

/-- BK_RWR. -/
def execBkRwr (f : BkRow) (s : State) : Host.Outcome State Fault Refusal :=
  BkOp.run {
    wait := f.t, dur := 2, writes := [f.p.toNat], latches := [f.l.toNat]
    eff := fun o s u => (s.putPlane u.row (f.p.toNat + o) (u.l f.l.toNat), u) } s

/-- A plane written in the lanes of a mask: a word written in part keeps its poison (R374). -/
def State.maskPlane (s : State) (row p : Nat) (v m : BitVec 2048) : State :=
  let a := row + 256 * p
  let x := (v &&& m) ||| (s.plane row p &&& ~~~ m)
  let ws := ((List.range 64).filter (fun q => m.extractLsb' (32 * q) 32 != 0#32)).map (fun q =>
    (a / 4 + q, false, m.extractLsb' (32 * q) 32 == BitVec.allOnes 32))
  { s with home := s.home.store (bytesOf x.toNat a 256) ws }

/-- BK_RWRM. -/
def execBkRwrm (f : BkRowM) (s : State) : Host.Outcome State Fault Refusal :=
  BkOp.run {
    wait := f.t, dur := 2, writes := [f.p.toNat], latches := [f.l.toNat, f.m.toNat]
    eff := fun o s u => (s.maskPlane u.row (f.p.toNat + o) (u.l f.l.toNat) (u.l f.m.toNat), u) } s

/-- BK_RRDS: lane k takes lane (k + n) mod 2,048. -/
def execBkRrds (f : BkRowS) (s : State) : Host.Outcome State Fault Refusal :=
  BkOp.run {
    wait := f.t, dur := 2, reads := [f.p.toNat], latches := [f.l.toNat]
    eff := fun o s u => (s, u.putL f.l.toNat ((s.plane u.row (f.p.toNat + o)).rotateRight f.n.toNat)) } s

/-! ## Control and accumulators (R292) -/

/-- BK_LOOP. -/
def execBkLoop (f : BkLoop) (s : State) : Host.Outcome State Fault Refusal :=
  BkOp.run {
    wait := f.t
    check := fun u => if (u.loop f.c).active then some 3 else none
    eff := fun _ s u =>
      (s, u.putLoop f.c { active := true, left := f.n1.toNat + 1, start := u.index, step := f.sp.toNat, offset := 0 }) } s

/-- BK_ENDL. -/
def execBkEndl (f : BkC) (s : State) : Host.Outcome State Fault Refusal :=
  BkOp.run {
    wait := f.t, boundary := true
    check := fun u => if (u.loop f.c).active then none else some 3
    eff := fun _ s u =>
      let x := u.loop f.c
      if 1 < x.left then
        (s, { u.putLoop f.c { x with left := x.left - 1, offset := x.offset + x.step } with index := x.start })
      else (s, u.putLoop f.c BankLoop.zero) } s

/-- BK_WAIT. -/
def execBkWait (f : BkWait) (s : State) : Host.Outcome State Fault Refusal :=
  BkOp.run { wait := f.t, more := f.n.toNat, eff := fun _ s u => (s, u) } s

/-- BK_HALT. -/
def execBkHalt (f : BkNone) (s : State) : Host.Outcome State Fault Refusal :=
  BkOp.run { wait := f.t, boundary := true, halts := true, eff := fun _ s u => (s, u) } s

/-- BK_ARD. -/
def execBkArd (f : BkArd) (s : State) : Host.Outcome State Fault Refusal :=
  let w := f.w1.toNat + 1
  BkOp.run {
    wait := f.t, dur := w, arith := true, writes := planesFrom f.p.toNat w, accs := [if f.k then 1 else 0]
    check := fun _ => if 32 < f.sh.toNat + w then some 5 else none
    eff := fun o s u =>
      ((List.range w).foldl (fun t i => t.putPlane u.row (f.p.toNat + o + i) (u.acc f.k (f.sh.toNat + i))) s, u) } s

/-- BK_ACLR. -/
def execBkAclr (f : BkC) (s : State) : Host.Outcome State Fault Refusal :=
  BkOp.run { wait := f.t, accs := [if f.c then 1 else 0], eff := fun _ s u => (s, u.putAcc f.c (fun _ => 0)) } s

/-! ## The stretch limit (R294, R295) -/

/-- CLEN + STRETCH of a die (R276, R294). -/
def Die.limit (x : Die) : Nat := fieldGet x.plan 16 16 + fieldGet x.plan 48 16

/-- A unit may issue its next instruction: the stretch limit has not come before it, and it has not overrun the further
65,536 bank cycles. -/
def Die.mayIssue (x : Die) (u : BankUnit) : Bool :=
  !u.halted && (decide (u.cycle < x.limit) || u.limited) && !(u.stopping && decide (x.limit + 65536 < u.cycle))

/-- The units that the stretch limit reaches next: every running unit, once none has an issue before the limit. -/
def Die.atLimit (x : Die) : List Nat :=
  let l := x.units.filter (fun e => !e.2.halted && !e.2.limited)
  if l.all (fun e => decide (x.limit ≤ e.2.cycle)) then l.map (·.1) else []

/-- The units past the limit that have reached no loop boundary in time. -/
def Die.overrun (x : Die) : List Nat :=
  (x.units.filter (fun e => !e.2.halted && e.2.stopping && decide (x.limit + 65536 < e.2.cycle))).map (·.1)

/-- STRETCH_LIMIT: a unit suspended 64 times faults; every other one stops at its next loop boundary. -/
def State.stretchLimit (s : State) (d : Nat) : State :=
  (s.dieAt d).atLimit.foldl (fun s b =>
    match s.unitOf d b with
    | none => s
    | some u =>
      if 64 ≤ u.suspensions ∧ u.noSpill = false then s.bankFault d b 9
      else s.putUnit d b { u with limited := true, stopping := true }) s

/-- STRETCH_LIMIT. -/
def execStretchLimit (s : State) : Host.Outcome State Fault Refusal := .next (s.stretchLimit s.dieNo)

/-- NO_LOOP_BOUNDARY_REACHED (R293, R294). -/
def execNoLoopBoundaryReached (s : State) : Host.Outcome State Fault Refusal :=
  .next ((s.dieAt s.dieNo).overrun.foldl (fun s b => s.bankFault s.dieNo b 8) s)

/-- The bank that has the turn has run past its program's end, which faults (R292). -/
def State.pastEnd (s : State) : State := s.bankFault s.bankNo.1 s.bankNo.2 6

/-! ## Accesses to worked pages at the controller (R281) -/

/-- The unit that issued at place `seq` of core `n`'s program order is still on the core. -/
def State.unitStands (s : State) (n ctx seq : Nat) : Bool :=
  let c := s.coreAt n
  match c.unit with
  | some u => decide (u.first ≤ seq) && decide (c.ctx = ctx)
  | none => false

/-- The pending result of an access, changed. -/
def State.answerLoad (s : State) (n seq : Nat) (g : PendLoad → PendLoad) : State :=
  let c := s.coreAt n
  s.putCore n { c with loads := c.loads.map (fun l => if l.seq == seq then { g l with away := false } else l) }

/-- The first physical address of an access. -/
def WAccess.pa (a : WAccess) : Nat := if a.load then a.addrs.headD 0 else (a.bytes.map (·.1)).headD 0

/-- The physical bytes of an access. -/
def WAccess.span (a : WAccess) : List Nat := if a.load then a.addrs else a.bytes.map (·.1)

/-- The controller of die `d` has done with an access. -/
def State.dropAccess (s : State) (d : Nat) (a : WAccess) : State :=
  s.putDie d { s.dieAt d with
    accesses := (s.dieAt d).accesses.filter (fun x => !(x.core == a.core && x.seq == a.seq && x.load == a.load)) }

/-- An access refused: the record, and the trap at the issuing core's next boundary while its unit stands. -/
def State.refuseAccess (s : State) (d : Nat) (a : WAccess) (late : Bool) : State :=
  let b := (s.dieAt d).beat
  let t := refusalTrap late a.virt a.pc a.slot a.tag b (if a.load then 0 else 1)
  let s1 := (s.dropAccess d a).refusalRecord a.core a.ctx d a.slot a.virt a.pc a.tag b a.pa
  if a.load then s1.answerLoad a.core a.seq (fun l => { l with kind := .fail t })
  else if s1.unitStands a.core a.ctx a.seq then s1.boundary a.core a.seq t else s1

/-- The lane of each byte of a load, in order: the lane that the byte supplies bits to, or every lane it does for planes. -/
def loadPoison (k : LoadKind) (l : List Bool) : BitVec 32 :=
  match k with
  | .planes w width _ =>
    let n := 1024 / max 1 width
    lanesOf (fun j => (List.range w).any (fun i => (List.range (max 1 (32 / max 1 width))).any (fun e =>
      l.getD (i * (n / 8) + (j * (32 / max 1 width) + e) / 8) false)))
  | _ => lanePoison l

/-- An access performed in its beat at its home L2 (R281, R286); an acquire drops the words that the core does not own (R199). -/
def State.performAccess (s : State) (d : Nat) (a : WAccess) : State :=
  let s1 := (s.dropAccess d a).ticket a.ctx 10 a.span.length
  if a.load then
    let v := BitVec.ofNat 1024 (ofElems 8 (a.addrs.map (fun x => (s.home.byte x).toNat)))
    let p := a.addrs.map (fun x => s.home.pois (x / 4))
    let s2 := s1.answerLoad a.core a.seq (fun l =>
      let q : BitVec 32 := match l.dest with
        | .scalar _ => if p.any (fun b => b) then 1#32 else 0#32
        | .vec _ _ => loadPoison l.kind p
      { l with arrived := some (v, q) })
    if (s.coreAt a.core).loads.any (fun l => l.seq == a.seq && decide (l.acq ≠ 0)) then s2.invalidate a.core else s2
  else
    let bs := a.bytes.map (fun e => (e.1, (s.home.byte e.1 &&& ~~~ e.2.2) ||| (e.2.1 &&& e.2.2)))
    homeWrite s1 (some a.core) true a.ctx bs a.words

/-- A row of a command that is suspended and has not ended (R295). -/
def Die.suspendedRow (x : Die) (pa : Nat) : Bool :=
  x.cmds.any (fun c => c.suspended && c.rows.contains (rowOfPa pa))

/-- An access whose beat is open: performed, or refused on a row of a suspended command. -/
def State.openAccess (s : State) (d : Nat) (a : WAccess) : State :=
  if (s.dieAt d).suspendedRow a.pa then s.refuseAccess d a false else s.performAccess d a

/-- An access at its arrival (R281). -/
def State.arriveAccess (s : State) (d : Nat) (a : WAccess) : State :=
  let x := s.dieAt d
  if x.beat = a.tag ∧ x.opened = true then s.openAccess d a
  else if a.tag ≤ x.beat then s.refuseAccess d a true
  else if 4096 < a.tag - x.beat then s.refuseAccess d a false
  else
    let s1 := s.dropAccess d a
    s1.putDie d { s1.dieAt d with accesses := (s1.dieAt d).accesses ++ [{ a with held := true }] }

/-- The accesses that may arrive: nothing of the same core before them that touches their bytes is still on its way, in its store
buffer (R209) or behind, and no acquire or release fence before them is incomplete. -/
def State.arrivals (s : State) (d : Nat) : List WAccess :=
  let l := (s.dieAt d).accesses
  l.filter (fun a =>
    let c := s.coreAt a.core
    !a.held && !c.acquiring a.seq && (a.load || !c.fencing a.seq) &&
      c.sb.all (fun e => decide (a.seq ≤ e.seq) || e.beat.isNone || !meets e.addrs a.span) &&
      l.all (fun y => y.held || y.core != a.core || decide (a.seq ≤ y.seq) || !meets y.span a.span))

/-- Requests for the beat number on their way to die `d`: core and place (R285). -/
def State.beatAsks (s : State) (d : Nat) : List (Nat × Nat) :=
  s.cores.flatMap (fun e => (e.2.loads.filter (fun l => l.away && l.kind == .beat d)).map (fun l => (e.1, l.seq)))

/-- WORKED_ACCESS_ARRIVAL: one access, or one request for the beat number, reaches the controller, by `pick`. -/
def State.workedArrival (s : State) (d pick : Nat) : State :=
  let l := s.arrivals d
  let q := s.beatAsks d
  let k := pick % (l.length + q.length)
  match l[k]? with
  | some a => (s.arriveAccess d a).settle
  | none =>
    match q[k - l.length]? with
    | some (n, seq) =>
      s.answerLoad n seq (fun r => { r with kind := .value (BitVec.ofNat 64 ((s.dieAt d).beat % 2 ^ 48)) false })
    | none => s

/-- WORKED_ACCESS_ARRIVAL. -/
def execWorkedAccessArrival (s : State) : Host.Outcome State Fault Refusal := .next (s.workedArrival s.dieNo s.turn.pick)

/-! ## Bank commands at the controller (R287, R296) -/

/-- The entries of a page table at `base` with `n` entries that are not zero: an unlisted byte of main memory reads 0. -/
def State.tableEntries (s : State) (base n : Nat) : List Nat :=
  (((s.home.bytes.filter (fun e => decide (base ≤ e.1) && decide (e.1 < base + 8 * n))).map (fun e => e.1 / 8 * 8)).eraseDups).map
    (fun a => (pteAt s a).1)

/-- A page table maps a page homed on die `d`. -/
def State.mapsDie (s : State) (d base level : Nat) (fuel : Nat) : Bool :=
  match fuel with
  | 0 => false
  | fuel + 1 =>
    (s.tableEntries base (if level = 0 then 2 ^ 18 else if level = 1 then 2 ^ 9 else 2 ^ 5)).any (fun e =>
      pteBit e 0 && !pteMalformed e level &&
        (if pteBit e 1 then homeDie (pteAddr e) == d else s.mapsDie d (pteAddr e) (level + 1) fuel))

/-- A unit of a deterministic launch runs whose context maps a page homed on die `d` (R296). -/
def State.determOn (s : State) (d : Nat) : Bool :=
  s.cores.any (fun e => e.2.unit.isSome && e.2.determ &&
    (match s.ctxInfo e.2.ctx with | some ci => s.mapsDie d ci.root 0 3 | none => false))

/-- A command refused whole: its record, and the trap at the issuing core's next boundary while its unit stands (R287). -/
def State.refuseCommand (s : State) (d : Nat) (c : BankCmd) (late : Bool) : State :=
  let x := s.dieAt d
  let s1 := s.putDie d { x with cmds := x.cmds.filter (fun y => y.id != c.id) }
  let s2 := s1.refusalRecord c.core c.ctx d 5 c.virt c.pc c.tag x.beat c.region
  if s2.unitStands c.core c.ctx c.seq then
    s2.boundary c.core c.seq (refusalTrap late c.virt c.pc 5 c.tag x.beat 5)
  else s2

/-- A command at its arrival: accepted into the bank buffers, or refused; by a die that a deterministic launch reaches, with the
beat-kind trap (R296). -/
def State.arriveCommand (s : State) (d : Nat) (c : BankCmd) : State :=
  let x := s.dieAt d
  let late := decide (c.tag ≤ x.beat)
  let clash := x.cmds.any (fun y => y.arrived && y.due == c.tag && y.rows.any (fun r => c.rows.any (fun q =>
    bankOfRow r == bankOfRow q)))
  let det := s.determOn d
  if late || decide (4096 < c.tag - x.beat) || clash || det then s.refuseCommand d c (late && !det)
  else s.putDie d { x with cmds := x.cmds.map (fun y => if y.id == c.id then { y with arrived := true } else y) }

/-- BANK_COMMAND_ARRIVAL: one of the commands on their way, by `pick`. -/
def State.commandArrival (s : State) (d pick : Nat) : State :=
  let l := (s.dieAt d).cmds.filter (fun c => !c.arrived)
  match l[pick % l.length]? with
  | some c => s.arriveCommand d c
  | none => s

/-- BANK_COMMAND_ARRIVAL. -/
def execBankCommandArrival (s : State) : Host.Outcome State Fault Refusal := .next (s.commandArrival s.dieNo s.turn.pick)

/-! ## Beats (R273 to R275, R283) -/

/-- Beat pairs after which a refresh gap is due (R275): RINT, or half of it, rounded down, in the high band. -/
def Die.gapEvery (x : Die) : Nat :=
  let r := fieldGet x.plan 40 8
  if x.band = 1 then r / 2 else r

/-- A refresh gap stands before the next access beat. -/
def Die.gapDue (x : Die) : Bool := x.beat % 2 == 1 && !x.opened && decide (x.gapEvery ≤ x.pairs)

/-- REFRESH_GAP: it carries no number. -/
def execRefreshGap (s : State) : Host.Outcome State Fault Refusal :=
  .next (if (s.dieAt s.dieNo).gapDue then s.putDie s.dieNo { s.dieAt s.dieNo with pairs := 0 } else s)

/-- The next access beat may open: the compute beat has ended and no gap is due. -/
def Die.mayAccess (x : Die) : Bool := x.layers.getLsbD 0 && x.beat % 2 == 1 && !x.opened && !x.gapDue

/-- ACCESS_BEAT_OPEN: the accesses held for the beat are performed, in the order of their arrival. -/
def State.accessOpen (s : State) (d : Nat) : State :=
  let x := s.dieAt d
  if x.mayAccess then
    let s1 := s.putDie d { x with beat := x.beat + 1, opened := true }
    ((x.accesses.filter (fun a => a.held && a.tag == x.beat + 1)).foldl (fun s a => s.openAccess d a) s1).settle
  else s

/-- ACCESS_BEAT_OPEN. -/
def execAccessBeatOpen (s : State) : Host.Outcome State Fault Refusal := .next (s.accessOpen s.dieNo)

/-- The next compute beat may open: an access beat is in progress; every access accepted in it has been performed. -/
def Die.mayCompute (x : Die) : Bool := x.layers.getLsbD 0 && x.beat % 2 == 0 && x.opened

/-- The first instruction of a program that R51 refuses, by its index. -/
def badIndex (p : List (BitVec 32)) : Option Nat := p.findIdx? (fun w => (decodeBk w).isNone)

/-- One bank of a command begins at the opening of its beat: a suspended one restores from its cellar row and issues in bank
cycle 77, a halted one of a suspended command stays halted, and any other starts with its program. -/
def State.startBank (s : State) (d : Nat) (c : BankCmd) (row : Nat) : State :=
  let b := bankOfRow row
  let x := s.dieAt d
  let spilled := x.cellar.find? (fun e => e.1 == b)
  if c.suspended then
    match spilled with
    | some (_, u) =>
      if u.cmd = c.id then
        s.putDie d { x with cellar := SMap.del x.cellar b, units := SMap.put x.units b { u with cycle := 77, noSpill := false } }
      else s
    | none => s
  else
    let u := BankUnit.start c row spilled.isSome
    match badIndex c.program with
    | none => s.putUnit d b u
    | some i => (s.putUnit d b { u with index := i }).bankFault d b 1

/-- One command begins: the lines of its rows leave the L2, then its banks begin (R283, R288, R295, R417). -/
def State.startCommand (s : State) (d : Nat) (c : BankCmd) : State :=
  let s1 := ((s.l2Lines d).filter (fun l => c.rows.contains (rowOfPa (64 * l)))).foldl State.dropLine s
  let s2 := c.rows.foldl (fun s r => s.startBank d c r) s1
  s2.ticket c.ctx 13 ((s2.dieAt d).units.filter (fun e => e.2.cmd == c.id)).length

/-- A command accepted before a deterministic launch reached its die: its beat has length 0, so it is refused then; a suspended one takes
the next beat that it may resume in (R296; DESIGN CHOICE, log 75). -/
def State.passCommand (s : State) (d : Nat) (c : BankCmd) : State :=
  let x := s.dieAt d
  if c.suspended then
    s.putDie d { x with cmds := x.cmds.map (fun y =>
      if y.id == c.id then { y with due := x.resumeBeat c (x.cmds.length + 1) (c.due + 2) } else y) }
  else s.refuseCommand d c false

/-- COMPUTE_BEAT_OPEN: with no command accepted for it, its number passes (R274); so does it on a die that a deterministic launch reaches
(R296). -/
def State.computeOpen (s : State) (d : Nat) : State :=
  let x := s.dieAt d
  if x.mayCompute then
    let all := x.cmds.filter (fun c => c.arrived && c.due == x.beat + 1)
    let det := !all.isEmpty && s.determOn d
    let due := if det then [] else all
    let s1 := s.putDie d { x with
      beat := x.beat + 1, opened := !due.isEmpty, pairs := (if due.isEmpty then x.pairs + 1 else x.pairs) }
    if det then all.foldl (fun s c => s.passCommand d c) s1 else due.foldl (fun s c => s.startCommand d c) s1
  else s

/-- COMPUTE_BEAT_OPEN. -/
def execComputeBeatOpen (s : State) : Host.Outcome State Fault Refusal := .next (s.computeOpen s.dieNo)

/-- The compute beat may end: every bank unit has halted or spilled. -/
def Die.mayEnd (x : Die) : Bool := x.beat % 2 == 1 && x.opened && x.units.all (fun e => e.2.halted)

/-- COMPUTE_BEAT_END: the commands that are not suspended have ended. -/
def State.computeEnd (s : State) (d : Nat) : State :=
  let x := s.dieAt d
  if x.mayEnd then
    s.putDie d { x with
      opened := false, pairs := x.pairs + 1, units := [], cmds := x.cmds.filter (fun c => !c.arrived || c.due != x.beat) }
  else s

/-- COMPUTE_BEAT_END. -/
def execComputeBeatEnd (s : State) : Host.Outcome State Fault Refusal := .next (s.computeEnd s.dieNo)

end Sys2Proof.Machine
end

