-- ==== Sys2Proof/Machine/Chunks.lean ====
section
/-! DEFINITION. Packets, copy chunks, checked reductions and the seed orchard (R215 to R219, R225 to R228, R377, R401 to R404,
R409). -/

namespace Sys2Proof.Machine

/-! ## Addresses of engines -/

/-- Every page of the `n` bytes at `va` translates, has the rights and is not worked, for a party with no core mode (R371). -/
def State.spans (s : State) (ctx va n : Nat) (rd wr : Bool) : Bool :=
  (List.range ((va + n + 65535) / 65536 - va / 65536)).all (fun i =>
    let a := if i = 0 then va else (va / 65536 + i) * 65536
    match accessWalk s ctx a rd wr with
    | .ok _ attr _ => !isWorked attr && (s.tableWorked ctx a).isNone
    | .fail _ _ _ => false)

/-- The physical addresses of the `n` bytes at `va` for a party with no core mode, off worked pages; none where a page fails.
`n` is at most 64 KiB. -/
def State.enginePas (s : State) (ctx va n : Nat) (rd wr : Bool) : Option (List Nat) :=
  let cut := (va / 2 ^ 16 + 1) * 2 ^ 16
  if !s.spans ctx va n rd wr then none
  else
    match accessWalk s ctx va rd wr, accessWalk s ctx cut rd wr with
    | .ok pa _ _, .ok pb _ _ => some ((List.range n).map (fun i => if va + i < cut then pa + i else pb + (va + i - cut)))
    | .ok pa _ _, .fail _ _ _ => if va + n ≤ cut then some ((List.range n).map (pa + ·)) else none
    | .fail _ _ _, _ => none

/-- The same bytes, where none lies in a row of a suspended command, every access to which is refused (R295). -/
def State.openPas (s : State) (ctx va n : Nat) (rd wr : Bool) : Option (List Nat) :=
  (s.enginePas ctx va n rd wr).filter (fun l => !s.rowRefused l)

/-- A beat keeps an access to the `n` bytes at `va` waiting (R274, R283). -/
def State.engineBusy (s : State) (ctx va n : Nat) : Bool :=
  match s.enginePas ctx va n false false with
  | some l => s.rowBusy l
  | none => false

/-- Bytes at their homes with the poison of their words. -/
def State.homeBytes (s : State) (pas : List Nat) : List (Byte × Bool) := pas.map (fun a => (s.home.byte a, s.home.pois (a / 4)))

/-- Bytes with poison written by an engine: their words are left with no owner (R200, R210). -/
def State.engineWrite (s : State) (ctx : Nat) (pas : List Nat) (bs : List (Byte × Bool)) : State :=
  let l := pas.zip bs
  homeWrite s none false ctx (l.map (fun e => (e.1, e.2.1))) (wordsOfBytes (l.map (fun e => (e.1, e.2.2))))

/-- The physical address of a barrier field; none where it is not valid (R216). -/
def State.barrierPa (s : State) (ctx va : Nat) : Option Nat :=
  if va = 0 ∨ va % 16 ≠ 0 then none else (s.enginePas ctx va 16 true true).bind (·.head?)

/-! ## The frame of a packet (R215, R216) -/

/-- Bytes `o` to `o + n - 1` of a packet. -/
def pktField (p : List Byte) (o n : Nat) : Nat := ofElems 8 (((p.drop o).take n).map (·.toNat))

/-- Type of a packet. -/
def pktType (p : List Byte) : Nat := pktField p 0 1

/-- ORDERED. -/
def pktOrdered (p : List Byte) : Bool := pktField p 1 1 % 2 == 1

/-- PEER, in COPY and COPY_REDUCE only. -/
def pktPeer (p : List Byte) : Bool := pktField p 1 1 / 2 % 2 == 1

/-- The offsets that a type names beside type, flags, peer index, barrier and valid-phase byte. -/
def pktNamed (ty : Nat) : List (Nat × Nat) :=
  match ty with
  | 1 => [(4, 4), (8, 8), (16, 8)]
  | 2 => [(2, 1), (4, 4), (8, 8), (16, 8)]
  | 3 => [(8, 8)]
  | 4 => [(4, 2)]
  | 5 => [(8, 8), (16, 1)]
  | _ => []

/-- A reserved byte that is not zero, or a field outside the range of R215 that needs no translation. `die` is the queue's
home die; a copy node of a graph has no queue. -/
def pktMalformed (p : List Byte) (die : Nat) : Bool :=
  let ty := pktType p
  let named := pktNamed ty
  let copy := ty == 1 || ty == 2
  let bar := pktField p 24 8
  decide (5 < ty) || decide (3 < pktField p 1 1) || (pktPeer p && !copy) || (decide (pktField p 3 1 ≠ 0) && !pktPeer p) ||
    (List.range 63).any (fun o => decide (pktField p o 1 ≠ 0) &&
      !(decide (o ≤ 1) || o == 3 || (decide (24 ≤ o) && decide (o < 32)) ||
        named.any (fun e => decide (e.1 ≤ o) && decide (o < e.1 + e.2)))) ||
    decide (bar % 16 ≠ 0) || (ty == 0 && decide (bar ≠ 0)) || (copy && decide (pktField p 4 4 = 0)) ||
    (ty == 2 && (decide (5 < pktField p 2 1) || decide (pktField p 4 4 % 4096 ≠ 0) || decide (pktField p 8 8 % 8 ≠ 0) ||
      decide (pktField p 16 8 % 8 ≠ 0))) ||
    (ty == 4 && decide (pktField p 4 2 = 0)) || (ty == 3 && decide (pktField p 8 8 % 128 ≠ 0)) ||
    (ty == 5 && (decide (24 ≤ pktField p 16 1) || decide (dieOfCluster (pktField p 16 1) ≠ die)))

/-- The ranges of a COPY overlap (R216). -/
def pktOverlap (p : List Byte) : Bool :=
  let n := pktField p 4 4
  pktType p == 1 && !pktPeer p && decide (pktField p 8 8 < pktField p 16 8 + n) && decide (pktField p 16 8 < pktField p 8 8 + n)

/-- An address of a packet fails translation or lies on a worked page, or its peer is not set (R216). -/
def State.pktUnreached (s : State) (p : List Byte) (ctx : Nat) : Bool :=
  let ty := pktType p
  let n := pktField p 4 4
  (decide (pktField p 24 8 ≠ 0) && (s.barrierPa ctx (pktField p 24 8)).isNone) ||
    ((ty == 1 || ty == 2) &&
      (!s.spans ctx (pktField p 8 8) n true false ||
        (if pktPeer p then !s.hub.peers.any (fun e => e.1 == 256 * ctx + pktField p 3 1)
         else !s.spans ctx (pktField p 16 8) n (ty == 2) true))) ||
    (ty == 3 && !s.reach ctx (pktField p 8 8) 128 false) || (ty == 5 && !s.reach ctx (pktField p 8 8) 32 false)

/-- A packet fails at acceptance for a reason other than a refusal by its dispatcher or graph walker (R216). -/
def State.pktFails (s : State) (p : List Byte) (ctx die : Nat) : Bool :=
  pktMalformed p die || pktOverlap p || s.pktUnreached p ctx

/-- FAILREPORT at the barrier field of a failed packet, where it is valid (R216). -/
def State.failReport (s : State) (p : List Byte) (ctx : Nat) : State :=
  match s.barrierPa ctx (pktField p 24 8) with
  | none => s
  | some pa =>
    let n := if pktType p = 4 then pktField p 4 2 else if pktType p = 3 ∨ pktType p = 5 then 1 else 0
    s.barrier none ctx pa (.fail n)

/-- An error record that an engine or Strelino writes to Strelino alone (R391, R392). -/
def dieRec (kind outcome ctx die addr : Nat) (detail : List (Nat × Nat × Nat)) : ErrRec :=
  { kind := kind, outcome := outcome, ctx := ctx, die := die, slot := 0xF, core := 0xFFFF, addr := addr, pc := 0,
    detail := detail, beat := 0 }

/-- The counter of the barrier of a COPY, COPY_REDUCE or fill has room for `n` bytes (R219). -/
def State.barrierRoom (s : State) (pa : Option Nat) (n : Nat) : Bool :=
  match pa with
  | none => true
  | some a => decide ((barrierAt s.home a).pending + n ≤ 2 ^ 32 - 1)

/-- ACCEPT at the barrier of a packet or fill. -/
def State.acceptAt (s : State) (ctx : Nat) (pa : Option Nat) (n : Nat) : State :=
  match pa with
  | none => s
  | some a => s.barrier none ctx a (.accept n)

/-- Chunks of `n` bytes. -/
def chunksOf (n : Nat) : List Nat := List.range ((n + 4095) / 4096)

/-- A COPY or COPY_REDUCE accepted: its ACCEPT, and its chunks (R217). -/
def State.acceptCopy (s : State) (p : List Byte) (die ctx : Nat) (queue : Option (Nat × Nat)) (node : Origin) : State :=
  let bar := s.barrierPa ctx (pktField p 24 8)
  let n := pktField p 4 4
  let s1 := s.acceptAt ctx bar n
  { s1 with packets := s1.packets ++ [{
      die := die, queue := queue, node := node, ctx := ctx, reduce := if pktType p = 2 then some (pktField p 2 1) else none,
      src := pktField p 8 8, dst := pktField p 16 8, len := n, barrier := (pktField p 24 8, bar.getD 0),
      peer := if pktPeer p then some (pktField p 3 1) else none, left := chunksOf n, sent := [], failed := false }] }

/-! ## Checked collectives (R225 to R228) -/

/-- The word `i` of a chunk given as bytes. -/
def chunkWord (c : List Byte) (i : Nat) : Nat := pktField c (8 * i) 8

/-- RES_DEC of a word or pair that passes RES_OK, under the identity lane map; none where it fails (R226). -/
def resValue (ws : List Nat) (wide : Bool) : Option Int :=
  match resClass ws wide 7 7 with
  | .ok y => some y
  | _ => none

/-- The values x_i of a pair of words at even index, in the format of a checked collective (R226). -/
def chunkPair (fmt a b : Nat) : Option (Int × Int) :=
  match fmt with
  | 0 =>
    let x (w : Nat) : Int := sx w 32 + 2 ^ 32 * sx (w / 2 ^ 32) 32
    some (x a, x b)
  | 1 => some (sx a 64, sx b 64)
  | _ =>
    if resSet a = 2 then (resValue [a, b] true).map (fun y => (y, 0))
    else
      match resValue [a] false, resValue [b] false with
      | some x, some y => some (x, y)
      | _, _ => none

/-- CK of a chunk of 512 words (R226); none where a residue word is wrong. -/
def checksum (fmt : Nat) (w : List Nat) : Option Nat :=
  let p : Int := 2 ^ 61 - 1
  let step (acc : Option Int) (i : Nat) : Option Int :=
    match acc, chunkPair fmt (w.getD (2 * i) 0) (w.getD (2 * i + 1) 0) with
    | some n, some (x, y) => some (n + (2 * i + 1) * x + (2 * i + 2) * y)
    | _, _ => none
  ((List.range 256).foldl step (some 0)).map (fun n => (n % p).toNat)

/-- The sum of two words (R225, R227); none where an integer leaves its format's range. -/
def sumWord (fmt d x : Nat) : Option Nat :=
  let one (w : Nat) (a b : Int) : Option Nat :=
    if -(2 ^ (w - 1)) ≤ a + b ∧ a + b < 2 ^ (w - 1) then some (wrap (a + b) w) else none
  match fmt with
  | 0 =>
    (match one 32 (sx d 32) (sx x 32), one 32 (sx (d / 2 ^ 32) 32) (sx (x / 2 ^ 32) 32) with
     | some l, some h => some (l + 2 ^ 32 * h)
     | _, _ => none)
  | 1 => one 64 (sx d 64) (sx x 64)
  | _ =>
    let base := 6 * (resSet d % 2)
    some (d / 2 ^ 48 * 2 ^ 48 + ofElems 8 ((List.range 6).map (fun k =>
      (d / 2 ^ (8 * k) % 256 + x / 2 ^ (8 * k) % 256) % chMod (base + k))))

/-- The bytes of a floating-point sum of two chunks (R228). -/
def sumFloat (fmt : Nat) (d x : List Byte) : List Byte :=
  let t := if fmt = 3 then fpF32 else if fmt = 4 then fpF16 else fpB16
  let w := if fmt = 3 then 4 else 2
  (List.range (d.length / w)).flatMap (fun i =>
    (bytesOf (fadd t 0 (fval t (pktField d (w * i) w)) (fval t (pktField x (w * i) w))) 0 w).map (·.2))

/-- The reason for which a checked chunk fails (R227, R392): poison, a wrong residue word or a mismatch, an overflow. The new
words otherwise. Where several hold at once, the record carries the first of poison, a wrong residue word, overflow, mismatch
(DESIGN CHOICE, log 80). -/
def checkedSum (fmt : Nat) (d x : List (Byte × Bool)) : Except Nat (List Nat) :=
  let words (l : List (Byte × Bool)) : List Nat := (List.range 512).map (chunkWord (l.map (·.1)))
  let dw := words d
  let xw := words x
  if d.any (·.2) || x.any (·.2) then .error 3
  else
    match checksum fmt dw, checksum fmt xw with
    | some cd, some cs =>
      let new := (dw.zip xw).map (fun e => sumWord fmt e.1 e.2)
      if new.any (·.isNone) then .error 2
      else
        let n := new.map (·.getD 0)
        if checksum fmt n = some ((cd + cs) % (2 ^ 61 - 1)) then .ok n else .error 1
    | _, _ => .error 1

/-- The words of a checked sum; none where one leaves its format's range (R227). -/
def newWords (fmt : Nat) (d x : List Byte) : Option (List Nat) :=
  (List.range 512).foldr (fun i l => match sumWord fmt (chunkWord d i) (chunkWord x i), l with | some w, some r => some (w :: r) | _, _ => none)
    (some [])

/-- One reduction chunk performed indivisibly at its destination (R227): the state, and the reason where it failed. A chunk that fails
is poisoned throughout; its words are the new ones all the same, unless one leaves its range. -/
def State.reduceAt (s : State) (ctx fmt : Nat) (pas : List Nat) (src : List (Byte × Bool)) : State × Option Nat :=
  let d := s.homeBytes pas
  if 3 ≤ fmt then
    let bs := sumFloat fmt (d.map (·.1)) (src.map (·.1))
    (s.engineWrite ctx pas (bs.zip ((d.zip src).map (fun e => e.1.2 || e.2.2))), none)
  else
    match checkedSum fmt d src with
    | .ok n => (s.engineWrite ctx pas ((n.flatMap (fun v => (bytesOf v 0 8).map (·.2))).map (fun b => (b, false))), none)
    | .error r =>
      (match newWords fmt (d.map (·.1)) (src.map (·.1)) with
       | some n => s.engineWrite ctx pas ((n.flatMap (fun v => (bytesOf v 0 8).map (·.2))).map (fun b => (b, true)))
       | none => homeWrite s none false ctx [] (wordsOfBytes (pas.map (fun a => (a, true)))), some r)

/-! ## Chunks (R217, R227, R409) -/

/-- `s` with packet `i` of those in flight changed. -/
def State.putPacket (s : State) (i : Nat) (p : Packet) : State := { s with packets := s.packets.set i p }

/-- Length of chunk `k` of a packet. -/
def Packet.chunkLen (p : Packet) (k : Nat) : Nat := min 4096 (p.len - 4096 * k)

/-- The CHUNK change of a chunk at the packet's barrier. -/
def State.chunkDone (s : State) (p : Packet) (k : Nat) (ok : Bool) : State :=
  if p.barrier.1 = 0 then s else s.barrier none p.ctx p.barrier.2 (.chunk (p.chunkLen k) ok)

/-- The record of a failed chunk (R392). -/
def Packet.chunkRec (p : Packet) (k reason die : Nat) : ErrRec :=
  dieRec 10 (if reason ≤ 3 then 1 else 3) p.ctx die (p.dst + 4096 * k) [(0, 8, p.barrier.1), (8, 4, k), (12, 1, reason)]

/-- The packets whose last chunk has completed leave; a graph's node hears of it (R217, R329). -/
def State.endPackets (s : State) : State :=
  let ended (p : Packet) : Bool := p.left.isEmpty && p.sent.isEmpty
  let gone := s.packets.filter ended
  let s1 : State := { s with packets := s.packets.filter (fun p => !ended p) }
  (gone.foldl (fun s p => s.tell p.node p.failed false) s1).settle

/-- A device message sent to the peer of an entry, by a port of free choice (R405, R409), counted (R417). -/
def State.sendMsg (s : State) (ctx : Nat) (e : Peer) (bytes : List Byte) : State :=
  let s1 := s.ticket ctx 12 bytes.length
  let m : Sent := { port := Config.freeNat s1.free % 16, peer := some e.fabric, job := e.job, bytes := bytes }
  { s1 with free := s1.free + 1, hub := { s1.hub with sent := s1.hub.sent ++ [m] } }

/-- The 32-byte header of R407. -/
def msgHeader (kind status ctx len addr operand tag : Nat) : List Byte :=
  (bytesOf (kind + status * 2 ^ 8 + ctx * 2 ^ 16 + len * 2 ^ 32 + addr * 2 ^ 64 + operand * 2 ^ 128 + tag * 2 ^ 192) 0 32).map (·.2)

/-- A chunk bound for a peer: a message, or withheld for its poison (R377, R409). -/
def State.peerChunk (s : State) (i : Nat) (p : Packet) (k peer : Nat) (src : List (Byte × Bool)) (pas : List Nat) : State :=
  match SMap.get s.hub.peers (256 * p.ctx + peer) { fabric := 0, job := 0, ctx := 0 } with
  | e =>
    match (pas.zip src).find? (fun x => x.2.2) with
    | some x =>
      let port := Config.freeNat s.free % 16
      let s1 : State := { s.hubRecord (dieRec 14 2 p.ctx p.die (x.1 / 4 * 4) [(0, 1, port), (1, 1, 2)]) with free := s.free + 1 }
      (s1.putPacket i { p with left := p.left.filter (· != k), failed := true }).chunkDone p k false
    | none =>
      let h := msgHeader (if p.reduce.isSome then 6 else 1) 0 e.ctx src.length (p.dst + 4096 * k) (p.reduce.getD 0) s.hub.tag
      let s1 := s.sendMsg p.ctx e (h ++ src.map (·.1))
      let s2 : State := { s1 with hub := { s1.hub with tag := s1.hub.tag + 1 } }
      s2.putPacket i { p with left := p.left.filter (· != k), sent := p.sent ++ [(s.hub.tag, k)] }

/-- Chunk `k` of packet `i` in flight: translated when it is performed, under the page tables as they then stand (R217). One that reaches
a row of a suspended command fails as a translation does (R295; DESIGN CHOICE, log 65). -/
def State.runChunk (s : State) (i k : Nat) : State :=
  match s.packets[i]? with
  | none => s
  | some p =>
    let n := p.chunkLen k
    let done (s : State) (fails : Bool) : State :=
      s.putPacket i { p with left := p.left.filter (· != k), failed := p.failed || fails }
    let src := s.openPas p.ctx (p.src + 4096 * k) n true false
    let dst := if p.peer.isSome then some [] else s.openPas p.ctx (p.dst + 4096 * k) n p.reduce.isSome true
    match src, dst with
    | some a, some b =>
      let bs := s.homeBytes a
      (match p.peer with
       | some q => (s.ticket p.ctx 10 n).peerChunk i p k q bs a
       | none =>
         let s0 := s.ticket p.ctx 10 (2 * n)
         match p.reduce with
         | none => (done (s0.engineWrite p.ctx b bs) false).chunkDone p k true
         | some fmt =>
           let r := s0.reduceAt p.ctx fmt b bs
           match r.2 with
           | none => (done r.1 false).chunkDone p k true
           | some why => (done (r.1.hubRecord (p.chunkRec k why (homeDie (b.headD 0)))) true).chunkDone p k false)
    | _, _ => (done (s.hubRecord (p.chunkRec k 4 p.die)) true).chunkDone p k false

/-- A chunk waits for a beat that holds its bytes (R274, R283), and one of a floating-point reduction for those of earlier slots of its
queue that overlap it: of one peer, by the peer's addresses, whose messages it performs in their order of sending (R228, R408). -/
def State.chunkWaits (s : State) (i k : Nat) : Bool :=
  match s.packets[i]? with
  | none => true
  | some p =>
    let device (q : Packet) : Option Peer :=
      q.peer.map (fun i => SMap.get s.hub.peers (256 * q.ctx + i) { fabric := 0, job := 0, ctx := 0 })
    let at_ (q : Packet) (j : Nat) : List (Nat × Nat) :=
      if q.peer.isSome then [(q.dst + 4096 * j, q.chunkLen j)] else s.pageSpans q.ctx (q.dst + 4096 * j) (q.chunkLen j)
    let n := p.chunkLen k
    s.engineBusy p.ctx (p.src + 4096 * k) n || (p.peer.isNone && s.engineBusy p.ctx (p.dst + 4096 * k) n) ||
      (decide (3 ≤ p.reduce.getD 0) && (s.packets.take i).any (fun q =>
        decide (3 ≤ q.reduce.getD 0) && q.queue.map (·.1) == p.queue.map (·.1) && q.queue.isSome && device q == device p &&
          q.left.any (fun j => spansMeet (at_ q j) (at_ p k))))

/-- The chunks that may be performed next by the landing engine of die `d`, as (packet, chunk): those of plain copies, or
those of reductions. -/
def State.chunksReady (s : State) (d : Nat) (reduce : Bool) : List (Nat × Nat) :=
  (List.range s.packets.length).flatMap (fun i =>
    match s.packets[i]? with
    | none => []
    | some p =>
      if p.die = d ∧ p.reduce.isSome = reduce then (p.left.filter (fun k => !s.chunkWaits i k)).map (fun k => (i, k)) else [])

/-- One chunk performed, by `pick`. -/
def State.anyChunk (s : State) (d pick : Nat) (reduce : Bool) : State :=
  let l := s.chunksReady d reduce
  match l[pick % l.length]? with
  | some (i, k) => (s.runChunk i k).endPackets
  | none => s

/-- COPY_CHUNK. -/
def execCopyChunk (s : State) : Host.Outcome State Fault Refusal := .next (s.anyChunk s.dieNo s.turn.pick false)

/-- REDUCE_CHUNK. -/
def execReduceChunk (s : State) : Host.Outcome State Fault Refusal := .next (s.anyChunk s.dieNo s.turn.pick true)

/-- A peer's reply of `n` bytes to a chunk message, counted for the context of its packet (R409, R417). -/
def State.peerReply (s : State) (tag status n : Nat) : State :=
  match (List.range s.packets.length).findSome? (fun i =>
      (s.packets[i]?).bind (fun p => (p.sent.find? (fun e => e.1 == tag)).map (fun e => (i, p, e.2)))) with
  | none => s
  | some (i, p, k) =>
    let s1 := (s.ticket p.ctx 11 n).putPacket i { p with sent := p.sent.filter (fun e => e.1 != tag), failed := p.failed || status != 0 }
    let s2 := if status = 0 then s1 else s1.hubRecord (p.chunkRec k 5 p.die)
    (s2.chunkDone p k (status == 0)).endPackets

/-! ## The seed orchard (R401 to R404) -/

/-- ORCH (R401). -/
def orch (c k : Nat) : Nat :=
  let m := 2 ^ 64
  let x0 := (c + k) % m
  let x1 := x0 ^^^ (x0 / 2 ^ 31)
  let x2 := x1 * 0x9B4E6D2AC5F17E39 % m
  let x3 := x2 ^^^ (x2 / 2 ^ 29)
  let x4 := x3 * 0x5D38A1F206C7B94B % m
  (x4 ^^^ (x4 / 2 ^ 32)) / 2 ^ 32

/-- The four bytes of output `i` in formats 0 and 1, or its byte in format 2 (R403). -/
def Fill.output (f : Fill) (i : Nat) : List Byte :=
  let w := orch ((f.counter.toNat + i) % 2 ^ 64) f.key.toNat
  match f.format with
  | 0 => (bytesOf w 0 4).map (·.2)
  | 1 => (bytesOf (fround fpF32 0 false (w / 2 ^ 8) (-24) false) 0 4).map (·.2)
  | _ => [if w < f.threshold then 1#8 else 0#8]

/-- The bytes of chunk `k` of a fill. -/
def Fill.chunk (f : Fill) (k : Nat) : List Byte :=
  let n := min 4096 (f.length - 4096 * k)
  let per := if f.format = 2 then 1 else 4
  (List.range (n / per)).flatMap (fun i => f.output (4096 * k / per + i))

/-- The descriptor of a fill breaks a limit, or its buffer is not reached (R404). -/
def State.fillFails (s : State) (d : List Byte) : Bool :=
  let n := pktField d 24 4
  let ctx := pktField d 30 2
  decide (pktField d 29 1 ≠ 0) || decide (pktField d 36 4 ≠ 0) || decide (pktField d 48 16 ≠ 0) ||
    decide (pktField d 16 8 % 64 ≠ 0) || decide (n % 64 ≠ 0) || decide (n < 64) || decide (2 ^ 31 < n) ||
    decide (2 < pktField d 28 1) || (decide (pktField d 28 1 ≠ 2) && decide (pktField d 32 4 ≠ 0)) ||
    (decide (pktField d 40 8 ≠ 0) && (s.barrierPa ctx (pktField d 40 8)).isNone) || !s.spans ctx (pktField d 16 8) n false true

/-- A fill that fails at acceptance: the report at its barrier, where that is valid, and the record (R404). -/
def State.failFill (s : State) (d : List Byte) (die va : Nat) : State :=
  let ctx := pktField d 30 2
  let s1 := s.hubRecord (dieRec 9 3 ctx die va [])
  match s1.barrierPa ctx (pktField d 40 8) with
  | none => s1
  | some pa => s1.barrier none ctx pa (.fail 0)

/-- A fill as its descriptor gives it. -/
def State.fillOf (s : State) (d : List Byte) (die : Nat) : Fill :=
  let ctx := pktField d 30 2
  { die := die, key := BitVec.ofNat 64 (pktField d 0 8), counter := BitVec.ofNat 64 (pktField d 8 8), buffer := pktField d 16 8,
    length := pktField d 24 4, format := pktField d 28 1, ctx := ctx, threshold := pktField d 32 4,
    barrier := (pktField d 40 8, (s.barrierPa ctx (pktField d 40 8)).getD 0), left := chunksOf (pktField d 24 4) }

/-- The barrier of a fill; none for no barrier. -/
def Fill.bar (f : Fill) : Option Nat := if f.barrier.1 = 0 then none else some f.barrier.2

/-- The chunks that the orchard of die `d` may perform next, as (fill, chunk). -/
def State.orchardReady (s : State) (d : Nat) : List (Nat × Nat) :=
  (List.range s.fills.length).flatMap (fun i =>
    match s.fills[i]? with
    | none => []
    | some f =>
      if f.die ≠ d then []
      else (f.left.filter (fun k => !s.engineBusy f.ctx (f.buffer + 4096 * k) (min 4096 (f.length - 4096 * k)))).map (fun k => (i, k)))

/-- One chunk of a fill performed, by `pick` (R404). A chunk that no longer translates fails to its barrier. -/
def State.orchardChunk (s : State) (d pick : Nat) : State :=
  let l := s.orchardReady d
  match l[pick % l.length]? with
  | none => s
  | some (i, k) =>
    match s.fills[i]? with
    | none => s
    | some f =>
      let n := min 4096 (f.length - 4096 * k)
      let left := f.left.filter (· != k)
      let s1 : State := { s with fills := if left.isEmpty then s.fills.eraseIdx i else s.fills.set i { f with left := left } }
      let done (s : State) (ok : Bool) : State :=
        match f.bar with
        | none => s
        | some a => s.barrier none f.ctx a (.chunk n ok)
      match s.openPas f.ctx (f.buffer + 4096 * k) n false true with
      | some pas => done ((s1.ticket f.ctx 10 n).engineWrite f.ctx pas ((f.chunk k).map (fun b => (b, false)))) true
      | none =>
        done (s1.hubRecord (dieRec 10 3 f.ctx d (f.buffer + 4096 * k) [(0, 8, f.barrier.1), (8, 4, k), (12, 1, 4)])) false

/-- ORCHARD_CHUNK. -/
def execOrchardChunk (s : State) : Host.Outcome State Fault Refusal := .next (s.orchardChunk s.dieNo s.turn.pick)

end Sys2Proof.Machine
end

