-- ==== Sys2Proof/Machine/Graph.lean ====
section
/-! DEFINITION. The graph walkers (R328 to R330, R332). -/

namespace Sys2Proof.Machine

/-- Node `i` of a graph at `va`, as its 32 bytes give it. -/
def State.readNode (s : State) (ctx va : Nat) (succs : List Nat) (i : Nat) : GNode :=
  let b := s.engineNum ctx (va + 32 + 32 * i) 32
  let n := blkField b 4 2
  { kind := blkField b 0 1, preds := blkField b 2 2, succs := (succs.drop (blkField b 6 2)).take n, a := blkField b 8 8,
    b := blkField b 16 8, c := blkField b 24 8 }

/-- A malformed node (R329): its kind, a reserved byte, a successor outside the array or the graph, or a field that its kind
has zero. -/
def State.badNode (s : State) (ctx va nodes entries : Nat) (succs : List Nat) (i : Nat) : Bool :=
  let b := s.engineNum ctx (va + 32 + 32 * i) 32
  let k := blkField b 0 1
  let x := s.readNode ctx va succs i
  decide (4 < k) || decide (blkField b 1 1 ≠ 0) || decide (entries < blkField b 6 2 + blkField b 4 2) ||
    x.succs.any (fun j => decide (nodes ≤ j)) || ((k == 0 || k == 1 || k == 4) && (decide (x.b ≠ 0) || decide (x.c ≠ 0))) ||
    (k == 4 && decide (x.a ≠ 0)) || (k == 3 && decide (2 ^ 16 ≤ x.c))

/-- A graph read by a walker: its record and nodes; none where its header or a node is malformed or not reached (R328,
R330). -/
def State.readGraph (s : State) (ctx va : Nat) : Option (Nat × List GNode) :=
  if !s.reach ctx va 32 false then none
  else
    let h := s.engineNum ctx va 32
    let n := blkField h 0 2
    let e := blkField h 2 2
    let arr := blkField h 8 8
    let rec_ := blkField h 16 8
    if n = 0 ∨ 4096 < n ∨ blkField h 4 4 ≠ 0 ∨ blkField h 24 8 ≠ 0 ∨ rec_ % 64 ≠ 0 then none
    else if !s.reach ctx (va + 32) (32 * n) false || (decide (e ≠ 0) && !s.reach ctx arr (2 * e) false) ||
        (decide (rec_ ≠ 0) && (s.recordPa ctx rec_).isNone) then none
    else
      let succs := (List.range e).map (fun i => s.engineNum ctx (arr + 2 * i) 2)
      if (List.range n).any (s.badNode ctx va n e succs) then none
      else some (rec_, (List.range n).map (s.readNode ctx va succs))

/-- A graph handed to the walker of a cluster (R330): held with a copy of each predecessor count, or refused. -/
def State.acceptGraph (s : State) (ctx va cluster depth : Nat) (origin : Origin) : Option State :=
  if 4 < depth ∨ 8 ≤ (s.graphs.filter (fun g => g.cluster == cluster)).length then none
  else
    match s.readGraph ctx va with
    | none => none
    | some (rec_, nodes) =>
      some { s with
        nextId := s.nextId + 1,
        graphs := s.graphs ++ [{
          id := s.nextId, cluster := cluster, ctx := ctx, depth := depth, origin := origin, record := rec_, nodes := nodes,
          states := nodes.map (fun n => .waiting n.preds) }] }

/-- The state of node `i` of graph `id` replaced. -/
def State.putNode (s : State) (id i : Nat) (x : NodeState) : State :=
  { s with graphs := s.graphs.map (fun g => if g.id == id then { g with states := g.states.set i x } else g) }

/-- A condition word, read as an acquire at package scope (R330); none where it is not reached. -/
def State.condWord (s : State) (ctx va : Nat) : Option Nat :=
  if va % 8 = 0 ∧ s.reach ctx va 8 false then some (s.engineNum ctx va 8) else none

/-- The copy of a copy node (R329): accepted, waiting for its barrier's counter, or failed with the report of R216. -/
def State.startCopy (s : State) (g : GraphRun) (i : Nat) (n : GNode) : State :=
  let die := dieOfCluster g.cluster
  if !s.reach g.ctx n.a 64 false then s.putNode g.id i (.ended true false 0)
  else
    let p := (List.range 64).map (fun k => (s.engineByte g.ctx (n.a + k)).1)
    let ty := pktType p
    if (ty ≠ 1 ∧ ty ≠ 2) ∨ s.pktFails p g.ctx die then
      ((s.hubRecord (dieRec 9 3 g.ctx die n.a [(8, 1, ty)])).failReport p g.ctx).putNode g.id i (.ended true false 0)
    else if s.barrierRoom (s.barrierPa g.ctx (pktField p 24 8)) (pktField p 4 4) then
      (s.acceptCopy p die g.ctx none (.node g.id i)).putNode g.id i (.running 1)
    else s

/-- A nested graph begins for node `i`, which fails where the walker refuses it. -/
def State.startNested (s : State) (g : GraphRun) (i va runs : Nat) : State :=
  match s.acceptGraph g.ctx va g.cluster (g.depth + 1) (.node g.id i) with
  | some t => t.putNode g.id i (.running runs)
  | none => s.putNode g.id i (.ended true false 0)

/-- A while node reads its word and runs its body, or ends; `runs` bodies have run. Its limit counts as a failure (R330). -/
def State.turnWhile (s : State) (g : GraphRun) (i : Nat) (n : GNode) (runs : Nat) : State :=
  match s.condWord g.ctx n.a with
  | none => s.putNode g.id i (.ended true false 0)
  | some v =>
    if v = 0 then s.putNode g.id i (.ended false false 0)
    else if n.c ≠ 0 ∧ n.c ≤ runs then s.putNode g.id i (.ended true false 0)
    else s.startNested g i n.b (runs + 1)

/-- Node `i` of a graph starts (R329, R330). C of a conditional node alone may be 0, for no graph. -/
def State.startNode (s : State) (g : GraphRun) (i : Nat) (n : GNode) : State :=
  match n.kind with
  | 0 =>
    if n.a % 128 ≠ 0 ∨ !s.reach g.ctx n.a 128 false then s.putNode g.id i (.ended true false 0)
    else
      let r := s.submit (s.engineNum g.ctx n.a 128) (BitVec.ofNat 64 n.a) (.node g.id i) false (0, 0)
      r.1.putNode g.id i (if r.2 = 0 then .running 1 else .ended true false 0)
  | 1 => s.startCopy g i n
  | 2 =>
    (match s.condWord g.ctx n.a with
     | none => s.putNode g.id i (.ended true false 0)
     | some v => if v = 0 ∧ n.c = 0 then s.putNode g.id i (.ended false false 0) else s.startNested g i (if v ≠ 0 then n.b else n.c) 1)
  | 3 => s.turnWhile g i n 0
  | _ => s.putNode g.id i (.ended false false 0)

/-- The walker has work to start in a graph: the lowest node whose count is 0, or, in a cancelled graph, any node that waits. -/
def State.startable (s : State) (g : GraphRun) : Option Nat :=
  if s.graphCancelling g.id 5 then g.states.findIdx? (fun (x : NodeState) => match x with | NodeState.waiting _ => true | _ => false)
  else g.states.findIdx? (fun x => x == .waiting 0)

/-- The graphs of a walker with a node to start. -/
def State.startables (s : State) (cl : Nat) : List (GraphRun × Nat) :=
  (s.graphs.filter (fun g => g.cluster == cl)).filterMap (fun g => (s.startable g).map (fun i => (g, i)))

/-- A graph of which every node is done leaves its walker, and what submitted it hears of it. -/
def State.endGraph (s : State) (id : Nat) : State :=
  match s.graph id with
  | none => s
  | some g =>
    if g.states.all (fun x => x == .done) then
      let cancelled := s.graphCancelling id 5
      ({ s with graphs := s.graphs.filter (fun x => x.id != id) } : State).tell g.origin false cancelled
    else s

/-- A member outcome of a graph counted in its record, which may then complete. -/
def State.countNode (s : State) (g : GraphRun) (o : Outcome3) (n : Nat) : State :=
  match s.recordPa g.ctx g.record with
  | none => s
  | some pa => (s.bump g.ctx pa o.offset n).complete g.ctx g.record (2 ^ 64) 4

/-- GRAPH_NODE_START: one node, by `pick`; a node of a cancelled graph that never started counts cancelled (R332). -/
def State.graphStart (s : State) (cl pick : Nat) : State :=
  let l := s.startables cl
  match l[pick % l.length]? with
  | none => s
  | some (g, i) =>
    if s.graphCancelling g.id 5 then (((s.cancelRecord g.ctx g.record).countNode g .cancelled 1).putNode g.id i .done).endGraph g.id
    else
      match g.nodes[i]? with
      | some n => s.startNode g i n
      | none => s

/-- GRAPH_NODE_START. -/
def execGraphNodeStart (s : State) : Host.Outcome State Fault Refusal := .next (s.graphStart s.clusterNo s.turn.pick)

/-- The nodes of a walker whose work has ended. -/
def State.completables (s : State) (cl : Nat) : List (GraphRun × Nat × Bool × Bool × Nat) :=
  (s.graphs.filter (fun g => g.cluster == cl)).flatMap (fun g =>
    (List.range g.states.length).filterMap (fun i =>
      match g.states[i]? with
      | some (NodeState.ended f c r) => some (g, i, f, c, r)
      | _ => none))

/-- The counts of a node's successors lowered by 1. -/
def GraphRun.release (g : GraphRun) (succs : List Nat) : GraphRun :=
  { g with states := succs.foldl (fun l j =>
      match l[j]? with
      | some (NodeState.waiting n) => l.set j (.waiting (n - 1))
      | _ => l) g.states }

/-- A node completes or fails: its outcome in the graph's record, and its successors (R330). -/
def State.finishNode (s : State) (g : GraphRun) (i : Nat) (o : Outcome3) : State :=
  let s1 := s.countNode g o 1
  let succs := match g.nodes[i]? with | some n => n.succs | none => []
  let s2 : State := { s1 with graphs := s1.graphs.map (fun x =>
    if x.id == g.id then ({ x with states := x.states.set i .done } : GraphRun).release succs else x) }
  s2.endGraph g.id

/-- GRAPH_NODE_COMPLETE: one node whose work has ended, by `pick`. A while node whose body has run reads its word again. -/
def State.graphComplete (s : State) (cl pick : Nat) : State :=
  let l := s.completables cl
  match l[pick % l.length]? with
  | none => s
  | some (g, i, fails, cancelled, runs) =>
    let o : Outcome3 := if fails then .failed else if cancelled then .cancelled else .completed
    match g.nodes[i]? with
    | none => s
    | some n =>
      if n.kind = 3 ∧ runs ≠ 0 ∧ o = .completed then
        if s.graphCancelling g.id 5 then s.finishNode g i .cancelled else s.turnWhile g i n runs
      else s.finishNode g i o

/-- GRAPH_NODE_COMPLETE. -/
def execGraphNodeComplete (s : State) : Host.Outcome State Fault Refusal := .next (s.graphComplete s.clusterNo s.turn.pick)

end Sys2Proof.Machine
end

