-- ==== Sys2Proof/Machine/Landing.lean ====
section
/-! DEFINITION. The landing engines (R212 to R217). -/

namespace Sys2Proof.Machine

/-- V(i) of a queue of `n` slots (R213). -/
def validPhase (n i : Nat) : Nat := 1 + i / max 1 n % 2

/-- Virtual address of the slot at a queue's read index. -/
def Queue.slotVa (q : Queue) : Nat := q.base + 64 * (q.read % max 1 q.slots)

/-- `s` with queue `q` in the place of the one of its descriptor. -/
def State.putQueue (s : State) (q : Queue) : State :=
  { s with queues := s.queues.map (fun x => if x.pa == q.pa then q else x) }

/-- Bits of the state word of a queue's descriptor set (R212). -/
def State.setQueueBits (s : State) (q : Queue) (m : Nat) : State :=
  s.engineStore q.ctx (q.pa + 28) 4 (s.home.num (q.pa + 28) 4 ||| m)

/-- What the slot at the read index shows, once no beat holds its bank (R274): it faults for a reason of R392, holds a valid packet, or makes the engine wait. -/
inductive SlotView where
  | fault (reason : Nat) | valid (p : List Byte) | waits
  deriving DecidableEq, Repr

/-- The slot at the read index as the engine finds it (R212, R214). -/
def State.slotView (s : State) (q : Queue) : SlotView :=
  match s.openPas q.ctx q.slotVa 64 true false with
  | none =>
    (match accessWalk s q.ctx q.slotVa true false with
     | .ok _ attr _ => .fault (if isWorked attr || (s.tableWorked q.ctx q.slotVa).isSome then 2 else 1)
     | .fail _ _ _ => .fault 1)
  | some pas =>
    let p := pas.map s.home.byte
    if s.rowBusy pas then .waits else if pktField p 63 1 = validPhase q.slots q.read then .valid p else .waits

/-- Packets of a queue in flight. -/
def State.inFlight (s : State) (q : Queue) : Nat :=
  (s.packets.filter (fun p => match p.queue with | some (a, _) => a == q.pa | none => false)).length

/-- The packet of a queue may be accepted: 16 in flight at most, and none for an ORDERED one (R217). -/
def State.mayAccept (s : State) (q : Queue) (p : List Byte) : Bool :=
  if pktOrdered p then s.inFlight q == 0 else decide (s.inFlight q < 16)

/-- The queue past its packet: the read index is written back (R212), and a wait on its next slot is one of its own (R214). -/
def State.advanceQueue (s : State) (q : Queue) : State :=
  (s.engineStore q.ctx (q.pa + 8) 8 (q.read + 1)).putQueue { q with read := q.read + 1, packet := none, stalled := false }

/-- A failed packet (R216): counted, recorded, and reported at a valid barrier. -/
def State.failPacket (s : State) (q : Queue) (p : List Byte) (code : Nat) : State :=
  let s1 := s.engineStore q.ctx (q.pa + 32) 4 (min (2 ^ 32 - 1) (s.home.num (q.pa + 32) 4 + 1))
  let s2 := s1.hubRecord (dieRec 9 3 q.ctx (homeDie q.pa) q.va [(0, 8, q.read), (8, 1, pktType p), (9, 1, code)])
  (s2.failReport p q.ctx).advanceQueue q

/-- The queues that a die's engine serves. -/
def State.queuesOf (s : State) (d : Nat) : List Queue := s.queues.filter (fun q => homeDie q.pa == d && !q.faulted)

/-- The packet fails at acceptance without reaching a dispatcher or walker. -/
def State.queueFails (s : State) (q : Queue) (p : List Byte) : Bool := s.pktFails p q.ctx (homeDie q.pa)

/-- LANDING_SLOT_VALID has something to do for a queue: a slot to read, a slot that faults, or a packet that fails. -/
def State.slotReady (s : State) (q : Queue) : Bool :=
  match q.packet with
  | none => (match s.slotView q with | .waits => false | _ => true)
  | some p => s.mayAccept q p && s.queueFails q p

/-- LANDING_SLOT_VALID: one queue of die `d`, by `pick` (R212 takes the queues in turn). -/
def State.landingSlot (s : State) (d pick : Nat) : State :=
  let l := (s.queuesOf d).filter s.slotReady
  match l[pick % l.length]? with
  | none => s
  | some q =>
    match q.packet with
    | some p => s.failPacket q p 0
    | none =>
      match s.slotView q with
      | .waits => s
      | .valid p => s.putQueue { q with packet := some p }
      | .fault r =>
        ((s.setQueueBits q 4).hubRecord (dieRec 16 3 q.ctx d q.va [(0, 8, q.read), (8, 8, q.slotVa), (16, 1, r)])).putQueue
          { q with faulted := true }

/-- LANDING_SLOT_VALID. -/
def execLandingSlotValid (s : State) : Host.Outcome State Fault Refusal := .next (s.landingSlot s.dieNo s.turn.pick)

/-- The queues of die `d` whose packet is of a type and may be accepted. -/
def State.acceptable (s : State) (d ty : Nat) : List (Queue × List Byte) :=
  (s.queuesOf d).filterMap (fun q =>
    match q.packet with
    | some p =>
      if pktType p = ty ∧ s.mayAccept q p = true ∧ s.queueFails q p = false ∧
          (ty = 0 ∨ 2 < ty ∨ s.barrierRoom (s.barrierPa q.ctx (pktField p 24 8)) (pktField p 4 4) = true)
      then some (q, p) else none
    | none => none)

/-- One packet of a type accepted, by `pick`. -/
def State.acceptPacket (s : State) (ty : Nat) (g : State → Queue → List Byte → State) : State :=
  let l := s.acceptable s.dieNo ty
  match l[s.turn.pick % l.length]? with
  | some (q, p) => g s q p
  | none => s

/-- PKT_NOP. -/
def execPktNop (s : State) : Host.Outcome State Fault Refusal :=
  .next (s.acceptPacket 0 (fun s q _ => s.advanceQueue q))

/-- A COPY or COPY_REDUCE of a queue accepted. -/
def State.takeCopy (s : State) (q : Queue) (p : List Byte) : State :=
  (s.acceptCopy p (homeDie q.pa) q.ctx (some (q.pa, q.read)) .none).advanceQueue q

/-- PKT_COPY. -/
def execPktCopy (s : State) : Host.Outcome State Fault Refusal := .next (s.acceptPacket 1 State.takeCopy)

/-- PKT_COPY_REDUCE. -/
def execPktCopyReduce (s : State) : Host.Outcome State Fault Refusal := .next (s.acceptPacket 2 State.takeCopy)

/-- What a launch or graph of a packet reports to. -/
def State.packetOrigin (s : State) (q : Queue) (p : List Byte) : Origin :=
  match s.barrierPa q.ctx (pktField p 24 8) with
  | some pa => .barrier q.ctx pa
  | none => .none

/-- A LAUNCH packet reaches the dispatcher: accepted, or failed with the refusal's code (R217, R317). -/
def State.takeLaunch (s : State) (q : Queue) (p : List Byte) : State :=
  let a := pktField p 8 8
  let r := s.submit (s.engineNum q.ctx a 128) (BitVec.ofNat 64 a) (s.packetOrigin q p) false (0, 0)
  if r.2 = 0 then r.1.advanceQueue q else s.failPacket q p r.2

/-- PKT_LAUNCH. -/
def execPktLaunch (s : State) : Host.Outcome State Fault Refusal := .next (s.acceptPacket 3 State.takeLaunch)

/-- A SIGNAL makes its arrivals at acceptance. -/
def State.takeSignal (s : State) (q : Queue) (p : List Byte) : State :=
  (match s.barrierPa q.ctx (pktField p 24 8) with
   | some pa => s.barrier none q.ctx pa (.arrive (pktField p 4 2))
   | none => s).advanceQueue q

/-- PKT_SIGNAL. -/
def execPktSignal (s : State) : Host.Outcome State Fault Refusal := .next (s.acceptPacket 4 State.takeSignal)

/-- A GRAPH packet reaches the walker of its target cluster: accepted, or failed. -/
def State.takeGraph (s : State) (q : Queue) (p : List Byte) : State :=
  match s.acceptGraph q.ctx (pktField p 8 8) (pktField p 16 1) 1 (s.packetOrigin q p) with
  | some t => t.advanceQueue q
  | none => s.failPacket q p 0

/-- PKT_GRAPH. -/
def execPktGraph (s : State) : Host.Outcome State Fault Refusal := .next (s.acceptPacket 5 State.takeGraph)

/-- The queues of die `d` that wait on a slot. -/
def State.stallable (s : State) (d : Nat) : List Queue :=
  (s.queuesOf d).filter (fun q => q.packet.isNone && !s.engineBusy q.ctx q.slotVa 64 && (match s.slotView q with | .waits => true | _ => false))

/-- SLOT_STALL_TIMEOUT: a waiting queue is marked stalled and reported; for one already reported, Strelino writes a NOP into
the slot (R214). When 10 ms have passed is timing (log 1). -/
def State.slotStall (s : State) (d pick : Nat) : State :=
  let l := s.stallable d
  match l[pick % l.length]? with
  | none => s
  | some q =>
    if q.stalled then
      match s.enginePas q.ctx q.slotVa 64 true false with
      | some pas =>
        s.engineWrite q.ctx pas ((List.replicate 63 (0#8, false)) ++ [(BitVec.ofNat 8 (validPhase q.slots q.read), false)])
      | none => s
    else
      let s1 := (s.setQueueBits q 2).putQueue { q with stalled := true }
      { s1 with hub := { s1.hub with reports := s1.hub.reports ++ [q.va] } }

/-- SLOT_STALL_TIMEOUT. -/
def execSlotStallTimeout (s : State) : Host.Outcome State Fault Refusal := .next (s.slotStall s.dieNo s.turn.pick)

end Sys2Proof.Machine
end

