-- ==== Sys2Proof/Machine/Sha.lean ====
section
/-! DEFINITION. SHA-256, for the measurement words, and the check of an LMS signature (R415). -/

namespace Sys2Proof.Machine

/-- The round constants of SHA-256. -/
def shaK : List (BitVec 32) :=
  [0x428a2f98#32, 0x71374491#32, 0xb5c0fbcf#32, 0xe9b5dba5#32, 0x3956c25b#32, 0x59f111f1#32, 0x923f82a4#32, 0xab1c5ed5#32,
   0xd807aa98#32, 0x12835b01#32, 0x243185be#32, 0x550c7dc3#32, 0x72be5d74#32, 0x80deb1fe#32, 0x9bdc06a7#32, 0xc19bf174#32,
   0xe49b69c1#32, 0xefbe4786#32, 0x0fc19dc6#32, 0x240ca1cc#32, 0x2de92c6f#32, 0x4a7484aa#32, 0x5cb0a9dc#32, 0x76f988da#32,
   0x983e5152#32, 0xa831c66d#32, 0xb00327c8#32, 0xbf597fc7#32, 0xc6e00bf3#32, 0xd5a79147#32, 0x06ca6351#32, 0x14292967#32] ++
  [0x27b70a85#32, 0x2e1b2138#32, 0x4d2c6dfc#32, 0x53380d13#32, 0x650a7354#32, 0x766a0abb#32, 0x81c2c92e#32, 0x92722c85#32,
   0xa2bfe8a1#32, 0xa81a664b#32, 0xc24b8b70#32, 0xc76c51a3#32, 0xd192e819#32, 0xd6990624#32, 0xf40e3585#32, 0x106aa070#32,
   0x19a4c116#32, 0x1e376c08#32, 0x2748774c#32, 0x34b0bcb5#32, 0x391c0cb3#32, 0x4ed8aa4a#32, 0x5b9cca4f#32, 0x682e6ff3#32,
   0x748f82ee#32, 0x78a5636f#32, 0x84c87814#32, 0x8cc70208#32, 0x90befffa#32, 0xa4506ceb#32, 0xbef9a3f7#32, 0xc67178f2#32]

/-- The first hash value of SHA-256. -/
def shaInit : List (BitVec 32) :=
  [0x6a09e667#32, 0xbb67ae85#32, 0x3c6ef372#32, 0xa54ff53a#32, 0x510e527f#32, 0x9b05688c#32, 0x1f83d9ab#32, 0x5be0cd19#32]

/-- The message schedule: `w` holds the words so far, latest first. -/
def shaSchedule (n : Nat) (w : List (BitVec 32)) : List (BitVec 32) :=
  match n with
  | 0 => w
  | n + 1 =>
    let g (i : Nat) : BitVec 32 := w.getD i 0
    let a := g 14
    let b := g 1
    let s0 := a.rotateRight 7 ^^^ a.rotateRight 18 ^^^ a >>> 3
    let s1 := b.rotateRight 17 ^^^ b.rotateRight 19 ^^^ b >>> 10
    shaSchedule n ((g 15 + s0 + g 6 + s1) :: w)

/-- One round on the eight working variables. -/
def shaRound (v : List (BitVec 32)) (k w : BitVec 32) : List (BitVec 32) :=
  let g (i : Nat) : BitVec 32 := v.getD i 0
  let e := g 4
  let a := g 0
  let t1 := g 7 + (e.rotateRight 6 ^^^ e.rotateRight 11 ^^^ e.rotateRight 25) + (e &&& g 5 ^^^ ~~~ e &&& g 6) + k + w
  let t2 := (a.rotateRight 2 ^^^ a.rotateRight 13 ^^^ a.rotateRight 22) + (a &&& g 1 ^^^ a &&& g 2 ^^^ g 1 &&& g 2)
  [t1 + t2, a, g 1, g 2, g 3 + t1, e, g 5, g 6]

/-- One block of 16 words. -/
def shaBlock (h block : List (BitVec 32)) : List (BitVec 32) :=
  let w := (shaSchedule 48 block.reverse).reverse
  let v := (shaK.zip w).foldl (fun v e => shaRound v e.1 e.2) h
  (h.zip v).map (fun e => e.1 + e.2)

/-- The big-endian words of a list of bytes. -/
def shaWords (l : List Byte) : List (BitVec 32) :=
  (List.range (l.length / 4)).map (fun i =>
    BitVec.ofNat 32 (((l.drop (4 * i)).take 4).foldl (fun n b => 256 * n + b.toNat) 0))

/-- The `n` bytes of a number, highest first, and back. -/
def bigBytes (n v : Nat) : List Byte := (List.range n).map (fun i => BitVec.ofNat 8 (v / 256 ^ (n - 1 - i)))

/-- The number that bytes give, highest first. -/
def bigNum (l : List Byte) : Nat := l.foldl (fun n b => 256 * n + b.toNat) 0

/-- SHA-256 of a list of bytes: padded with a one bit, zeros and its length in bits to whole blocks. -/
def sha256 (l : List Byte) : List Byte :=
  let p := l ++ 0x80#8 :: (List.replicate ((119 - l.length % 64) % 64) 0#8 ++ bigBytes 8 (8 * l.length))
  ((List.range (p.length / 64)).foldl (fun h i => shaBlock h (shaWords ((p.drop (64 * i)).take 64))) shaInit).flatMap
    (fun w => (List.range 4).map (fun i => w.extractLsb' (8 * (3 - i)) 8))

/-- The bytes of a digest, byte 0 in bits 7:0. -/
def digestBytes (d : BitVec 256) : List Byte := (List.range 32).map (fun i => d.extractLsb' (8 * i) 8)

/-- A measurement word extended by a digest (R415). -/
def extendWord (m d : BitVec 256) : BitVec 256 :=
  BitVec.ofNat 256 (ofElems 8 ((sha256 (digestBytes m ++ digestBytes d)).map (·.toNat)))

/-- The digest that 32 bytes hold. -/
def digestOf (l : List Byte) : BitVec 256 := BitVec.ofNat 256 (ofElems 8 (l.map (·.toNat)))

/-! ## LMS_SHA256_M32_H15 with LMOTS_SHA256_N32_W4 (RFC 8554, which R415 names; PRESUMED, log 79) -/

/-- The 67 four-bit digits of a digest with its checksum. -/
def otsDigits (q : List Byte) : List Nat :=
  let nibbles (l : List Byte) : List Nat := l.flatMap (fun b => [b.toNat / 16, b.toNat % 16])
  let d := nibbles q
  let sum := (d.map (fun x => 15 - x)).foldl (· + ·) 0
  d ++ (nibbles (bigBytes 2 (16 * sum))).take 3

/-- One hash chain from digit `a` to its end. -/
def otsChain (pre : List Byte) (i a : Nat) (y : List Byte) : List Byte :=
  (List.range (15 - a)).foldl (fun t k => sha256 (pre ++ bigBytes 2 i ++ bigBytes 1 (a + k) ++ t)) y

/-- The candidate for a one-time public key from a message and its one-time signature; `pre` is the identifier and the leaf's number. -/
def otsKey (pre msg sig : List Byte) : List Byte :=
  let d := otsDigits (sha256 (pre ++ [0x81#8, 0x81#8] ++ (sig.drop 4).take 32 ++ msg))
  let z := ((List.range 67).zip d).flatMap (fun e => otsChain pre e.1 e.2 ((sig.drop (36 + 32 * e.1)).take 32))
  sha256 (pre ++ [0x80#8, 0x80#8] ++ z)

/-- The signature of a message holds under a public key. -/
def lmsVerify (key msg sig : List Byte) : Bool :=
  let id := (key.drop 8).take 16
  let q := bigNum (sig.take 4)
  let node (i : Nat) : Nat := (2 ^ 15 + q) / 2 ^ i
  let leaf := sha256 (id ++ bigBytes 4 (node 0) ++ [0x82#8, 0x82#8] ++ otsKey (id ++ bigBytes 4 q) msg ((sig.drop 4).take 2180))
  let root := (List.range 15).foldl (fun t i =>
    let p := (sig.drop (2188 + 32 * i)).take 32
    sha256 (id ++ bigBytes 4 (node (i + 1)) ++ [0x83#8, 0x83#8] ++ (if node i % 2 = 1 then p ++ t else t ++ p))) leaf
  decide (key.length = 56) && decide (sig.length = 2668) && decide (bigNum (key.take 4) = 7) && decide (bigNum ((key.drop 4).take 4) = 3) &&
    decide (bigNum ((sig.drop 4).take 4) = 3) && decide (bigNum ((sig.drop 2184).take 4) = 7) && decide (q < 2 ^ 15) && root == key.drop 24

end Sys2Proof.Machine
end

