-- ==== Sys2Proof/Machine/Hub.lean ====
section
/-! DEFINITION. What reaches the package from outside: device messages, service requests, bring-up, power, cooling, errors,
reconciliation and the debugger (R368, R373, R389, R405 to R421). -/

namespace Sys2Proof.Machine

/-! ## The service word and clocks (R413, R414, R420) -/

/-- The dies that satisfy a condition, as bits. -/
def State.dieBits (s : State) (f : Die → Bool) : Nat :=
  (List.range 6).foldl (fun n d => if f (s.dieAt d) then n + 2 ^ d else n) 0

/-- The service word (R413). -/
def State.serviceWord (s : State) : Nat :=
  s.dieBits (fun x => x.layers.getLsbD 0) + s.dieBits (fun x => x.layers == 0xF#4) * 2 ^ 8 +
    (if s.hub.stage = 5 then 2 ^ 16 else 0) + (if 7 ≤ s.hub.stage then 2 ^ 17 else 0)

/-- The clocks of the clusters on which no unit is placed (R414, R420). -/
def State.clocks (s : State) : State :=
  ((List.range 24).filter (fun cl => (coresOf cl).all (fun n => (s.coreAt n).unit.isNone))).foldl State.clock s

/-! ## Device messages (R407) -/

/-- The header of a message and its payload. -/
structure MsgHead where
  kind : Nat
  status : Nat
  ctx : Nat
  len : Nat
  addr : Nat
  operand : Nat
  tag : Nat
  payload : List Byte
  deriving DecidableEq, Repr

/-- The device message of an input: a frame of the management port carries its length first (R412). -/
def Msg.body (m : Msg) : List Byte := if m.port = 16 then m.bytes.drop 4 else m.bytes

/-- The header of a device message. -/
def Msg.head (m : Msg) : MsgHead :=
  let b := m.body
  { kind := pktField b 0 1, status := pktField b 1 1, ctx := pktField b 2 2, len := pktField b 4 4, addr := pktField b 8 8,
    operand := pktField b 16 8, tag := pktField b 24 8, payload := b.drop 32 }

/-- A frame whose length breaks its limits (R412). -/
def Msg.badFrame (m : Msg) : Bool :=
  let n := pktField m.bytes 0 4
  m.port == 16 && (decide (n < 32) || decide (65568 < n) || decide (m.bytes.length ≠ n + 4))

/-- The payload length and the zero bytes of a service request's code (R410); false for any other code. -/
def MsgHead.layoutOk (h : MsgHead) : Bool :=
  let n := h.payload.length
  match h.operand with
  | 1 => n == 8 | 2 => n == 8 | 3 => n == 8 | 4 => n == 32 | 5 => n == 2 | 6 => n == 2 | 7 => n == 96
  | 8 => n == 8 && pktField h.payload 6 2 == 0
  | 9 => n == 0
  | 10 => n == 32 && pktField h.payload 3 1 == 0 && pktField h.payload 10 6 == 0
  | _ => false

/-- A malformed header, a refused kind or an unknown code (R407, R410, R412). Reads and atomic adds carry no payload, and a
reply is well formed where its payload has its length. -/
def Msg.malformed (m : Msg) : Bool :=
  let h := m.head
  let n := h.payload.length
  decide (m.body.length < 32) || (m.port == 16 && h.kind != 4) || (h.kind != 5 && h.status != 0) ||
    (match h.kind with
     | 1 => decide (h.len = 0) || decide (65536 < h.len) || n != h.len
     | 2 => decide (h.len = 0) || decide (65536 < h.len) || n != 0
     | 3 => h.len != 8 || n != 0
     | 4 => n != h.len || !h.layoutOk
     | 5 => n != h.len
     | 6 => h.len != 4096 || n != h.len || decide (h.addr % 4096 ≠ 0) || decide (5 < h.operand)
     | _ => true)

/-- The rows that take an input of the hub. -/
inductive HubRow where
  | malformed | msg (kind : Nat) | svc (code : Nat) | peerReply | mgmt | powerGood | powerLoss | layer | band | reconcile
  | ecc | dirty | debugStep | other
  deriving DecidableEq, Repr

/-- Power good. -/
def Input.isPower (i : Input) : Bool := match i with | .powerGood _ => true | _ => false

/-- The row that takes an input. Without power everything but power good is lost, and after a failed verification every
message of the management port is answered with status 4 (R413, R421). -/
def State.inputRow (s : State) (i : Input) : HubRow :=
  if s.hub.stage = 0 && !i.isPower then .other
  else
  match i with
  | .powerGood _ => .powerGood
  | .message m =>
    if m.port = 16 ∧ s.hub.conns.contains m.job = false ∧ s.hub.halted = false then .other
    else if m.badFrame then .mgmt
    else if s.hub.halted || m.malformed then .malformed
    else
      match m.head.kind with
      | 4 => .svc m.head.operand
      | 5 => .peerReply
      | k => .msg k
  | .connect _ _ => .mgmt
  | .close _ => .other
  | .powerLoss => .powerLoss
  | .layer _ _ => .layer
  | .band _ _ => .band
  | .ecc _ _ _ => .ecc
  | .dirtyLine _ => .dirty
  | .reconcile _ _ _ => .reconcile
  | .debugStep _ => .debugStep
  | .corrected _ => .other
  | .debugStop _ => .other
  | .debugRun _ => .other
  | .debugHand _ => .other
  | .debugMode _ _ => .other
  | .kernel _ _ => .other
  | .extend _ _ => .other
  | .configure _ _ => .other
  | .withdraw _ => .other
  | .twinFault _ _ _ => .other
  | .residueFault _ _ _ _ => .other

/-- A message is performed behind an earlier one: of its connection on the management port, where replies come in request order, and
of its job where both are ROD messages (R408, R412). -/
def Msg.behind (m y : Msg) : Bool :=
  y.job == m.job && (if m.port = 16 then y.port == 16 else y.port != 16 && m.rod && y.rod)

/-- Item `i` of the inbox may be taken: it is the first, or only messages stand before it that it may overtake (R408, R412). -/
def mayTake (l : List Input) (i : Nat) : Bool :=
  match l[i]? with
  | some (.message m) => (l.take i).all (fun x => match x with | .message y => !m.behind y | _ => false)
  | some _ => i == 0
  | none => false

/-- A context is registered. -/
def State.registered (s : State) (ctx : Nat) : Bool := s.contexts.any (fun e => e.1 == ctx)

/-- The descriptor that a request names: 64 bytes, aligned, readable, and writable where the engine keeps its state there (R212, R402);
its physical address. -/
def State.descriptorPa (s : State) (ctx va : Nat) (wr : Bool) : Option Nat :=
  if va % 64 ≠ 0 then none else (s.enginePas ctx va 64 true wr).bind (·.head?)

/-- The 64 bytes of an orchard descriptor, and the die that homes its buffer's first page (R402). -/
def State.fillDesc (s : State) (pa : Nat) : List Byte × Nat :=
  let d := (List.range 64).map (fun i => s.home.byte (pa + i))
  (d, match walk s (pktField d 30 2) (pktField d 16 8) with
    | .ok b _ _ => homeDie b
    | .fail _ _ _ => homeDie pa)

/-- A request for a fill whose barrier has no room for its ACCEPT waits: the descriptor is read, checked and accepted at one time (R219,
R402, R404). -/
def State.fillWaits (s : State) (h : MsgHead) : Bool :=
  match s.descriptorPa h.ctx (pktField h.payload 0 8) false with
  | none => false
  | some pa =>
    let (d, die) := s.fillDesc pa
    let f := s.fillOf d die
    s.registered f.ctx && !s.fillFails d && !s.barrierRoom f.bar f.length

/-- A beat keeps a memory message waiting (R274, R283), a barrier's counter the request for a fill (R219). -/
def State.inputBusy (s : State) (i : Nat) : Bool :=
  match s.inbox[i]? with
  | some (.message m) =>
    let h := m.head
    (match h.kind with
     | 1 | 2 => s.engineBusy h.ctx h.addr h.len
     | 3 => s.engineBusy h.ctx h.addr 8
     | 6 => s.engineBusy h.ctx h.addr 4096
     | 4 => h.operand == 3 && s.fillWaits h
     | _ => false)
  | _ => false

/-- The input that the hub takes at its turn, with its place in the inbox, by `pick`. -/
def State.nextInput (s : State) (pick : Nat) : Option (Nat × Input) :=
  let l := (List.range s.inbox.length).filter (fun i => mayTake s.inbox i && !s.inputBusy i)
  (l[pick % l.length]?).bind (fun i => (s.inbox[i]?).map (fun x => (i, x)))

/-- The input of the turn, where row `r` takes it: it leaves the inbox, and `f` acts on it. -/
def State.onInput (s : State) (r : HubRow) (f : State → Input → State) : Host.Outcome State Fault Refusal :=
  match s.nextInput s.turn.pick with
  | some (i, x) => if s.inputRow x = r then .next (f { s with inbox := s.inbox.eraseIdx i } x) else .next s
  | none => .next s

/-- A row on the message of the turn. -/
def State.onMsg (s : State) (r : HubRow) (f : State → Msg → MsgHead → State) : Host.Outcome State Fault Refusal :=
  s.onInput r (fun s x => match x with | .message m => f s m m.head | _ => s)

/-- The job of a network message is bound to the context that its header names (R406); the management port has no job. -/
def State.bound (s : State) (m : Msg) (h : MsgHead) : Bool :=
  m.port == 16 || s.hub.jobs.any (fun e => e.1 == m.job && e.2 == h.ctx)

/-- The bytes of the reply to a message (R407, R412): before FULL service the operand carries the service word. -/
def State.replyBytes (s : State) (m : Msg) (h : MsgHead) (status : Nat) (payload : List Byte) : List Byte :=
  let b := msgHeader 5 status h.ctx payload.length 0 (if s.hub.stage < 7 then s.serviceWord else 0) h.tag ++ payload
  if m.port = 16 then (bytesOf b.length 0 4).map (·.2) ++ b else b

/-- A reply sent, counted for a bound context (R417). -/
def State.replyRaw (s : State) (m : Msg) (h : MsgHead) (b : List Byte) : State :=
  let s1 := if m.port ≠ 16 ∧ s.bound m h = true then (s.ticket h.ctx 11 m.bytes.length).ticket h.ctx 12 b.length else s
  { s1 with hub := { s1.hub with sent := s1.hub.sent ++ [{ port := m.port, peer := none, job := m.job, bytes := b }] } }

/-- The reply to a message. -/
def State.reply (s : State) (m : Msg) (h : MsgHead) (status : Nat) (payload : List Byte) : State :=
  s.replyRaw m h (s.replyBytes m h status payload)

/-- MALFORMED_MESSAGE: status 4 and no effect; after a failed verification only the management port answers. -/
def execMalformedMessage (s : State) : Host.Outcome State Fault Refusal :=
  s.onMsg .malformed (fun s m h => if s.hub.halted && m.port != 16 then s else s.reply m h 4 [])

/-- Requests are served from reduced service on (R413). -/
def State.serving (s : State) : Bool := decide (5 ≤ s.hub.stage)

/-- The physical addresses of a message's bytes, or the status with which it fails (R408). -/
def State.msgPas (s : State) (ctx va n : Nat) (rd wr : Bool) : Except Nat (List Nat) :=
  let one (a : Nat) : Option Nat :=
    match accessWalk s ctx a rd wr with
    | .ok _ attr _ => if isWorked attr || (s.tableWorked ctx a).isSome then some 2 else none
    | .fail code _ _ => some (if code = 0x0A then 1 else if code = 6 then 3 else 2)
  let cut := (va / 2 ^ 16 + 1) * 2 ^ 16
  match one va, (if va + n ≤ cut then none else one cut) with
  | some e, _ => .error e
  | none, some e => .error e
  | none, none =>
    match s.openPas ctx va n rd wr with
    | some l => .ok l
    | none => .error 2

/-- The record of a message that fails: type 17 (R392, R408). -/
def State.failRec (s : State) (m : Msg) (h : MsgHead) (status : Nat) : State :=
  s.hubRecord (dieRec 17 3 h.ctx 6 h.addr [(0, 1, m.port), (1, 1, h.kind), (2, 1, status), (4, 4, m.job)])

/-- A message that fails: its record and its reply. -/
def State.failMsg (s : State) (m : Msg) (h : MsgHead) (status : Nat) : State := (s.failRec m h status).reply m h status []

/-- A memory message that is served: its job is bound, and the service is up. -/
def State.onMemory (s : State) (kind : Nat) (f : State → Msg → MsgHead → State) : Host.Outcome State Fault Refusal :=
  s.onMsg (.msg kind) (fun s m h =>
    if !s.bound m h then s.reply m h 4 [] else if !s.serving then s.reply m h 5 [] else f s m h)

/-- MSG_WRITE (R408). -/
def execMsgWrite (s : State) : Host.Outcome State Fault Refusal :=
  s.onMemory 1 (fun s m h =>
    match s.msgPas h.ctx h.addr h.len false true with
    | .error e => s.failMsg m h e
    | .ok pas =>
      (((s.ticket h.ctx 10 h.len).engineWrite h.ctx pas (h.payload.map (fun b => (b, false)))).reply m h 0 []).settle)

/-- MSG_READ (R377, R408). -/
def execMsgRead (s : State) : Host.Outcome State Fault Refusal :=
  s.onMemory 2 (fun s m h =>
    match s.msgPas h.ctx h.addr h.len true false with
    | .error e => s.failMsg m h e
    | .ok pas =>
      match pas.find? (fun a => s.home.pois (a / 4)) with
      | some a => (s.hubRecord (dieRec 14 2 h.ctx 6 (a / 4 * 4) [(0, 1, m.port), (1, 1, 1)])).reply m h 3 []
      | none => (s.ticket h.ctx 10 h.len).reply m h 0 (pas.map s.home.byte))

/-- The outcome of an atomic add by a message: its status, its payload, and what it has changed (R408). -/
def State.msgAdd (s : State) (m : Msg) (h : MsgHead) : State × Nat × List Byte :=
  let fails (e : Nat) : State × Nat × List Byte := (s.failRec m h e, e, [])
  if h.addr % 8 ≠ 0 then fails 2
  else
    match s.msgPas h.ctx h.addr 8 true true with
    | .error e => fails e
    | .ok pas =>
      let a := pas.headD 0
      if s.home.anyPois a 8 then fails 3
      else
        let old := s.home.num a 8
        ((s.ticket h.ctx 10 8).engineStore h.ctx a 8 ((old + h.operand) % 2 ^ 64), 0, (bytesOf old 0 8).map (·.2))

/-- MSG_ATOMIC_ADD: performed once; a retransmission receives the recorded reply, of a failed one too (R408). -/
def execMsgAtomicAdd (s : State) : Host.Outcome State Fault Refusal :=
  s.onMemory 3 (fun s m h =>
    match s.hub.recorded.find? (fun e => e.1 == (m.job, m.uet)) with
    | some (_, b) => s.replyRaw m h b
    | none =>
      let r := s.msgAdd m h
      let b := r.1.replyBytes m h r.2.1 r.2.2
      ({ r.1 with hub := { r.1.hub with recorded := r.1.hub.recorded ++ [((m.job, m.uet), b)] } } : State).replyRaw m h b)

/-- MSG_REDUCE: one chunk by the reduction unit of the destination's home die (R409). -/
def execMsgReduce (s : State) : Host.Outcome State Fault Refusal :=
  s.onMemory 6 (fun s m h =>
    match s.msgPas h.ctx h.addr 4096 true true with
    | .error e => s.failMsg m h e
    | .ok pas =>
      let r := (s.ticket h.ctx 10 4096).reduceAt h.ctx h.operand pas (h.payload.map (fun b => (b, false)))
      match r.2 with
      | none => r.1.reply m h 0 []
      | some why => (r.1.hubRecord (dieRec 10 1 h.ctx (homeDie (pas.headD 0)) h.addr [(12, 1, why)])).reply m h 6 [])

/-- PEER_CHUNK_REPLY (R409). -/
def execPeerChunkReply (s : State) : Host.Outcome State Fault Refusal :=
  s.onMsg .peerReply (fun s m h => s.peerReply h.tag h.status m.bytes.length)

/-! ## Service requests (R410 to R412) -/

/-- A service request that is served: the service is up, its job is bound, and its code is allowed on its port. -/
def State.onService (s : State) (code : Nat) (mgmt : Bool) (f : State → Msg → MsgHead → State) : Host.Outcome State Fault Refusal :=
  s.onMsg (.svc code) (fun s m h =>
    if !s.bound m h || (mgmt && m.port != 16) then s.reply m h 4 [] else if !s.serving then s.reply m h 5 [] else f s m h)

/-- A queue descriptor breaks a limit (R212). -/
def State.badQueue (s : State) (pa : Nat) : Bool :=
  let g (o n : Nat) : Nat := s.home.num (pa + o) n
  decide (g 16 8 % 64 ≠ 0) || decide (g 24 1 < 4) || decide (16 < g 24 1) || decide (g 25 1 ≠ 0) || decide (8 ≤ g 28 4) ||
    decide (g 36 28 ≠ 0)

/-- No page of the `n` bytes at `va` that is mapped lies in a layer that may not be mapped yet (R414). -/
def State.layersOk (s : State) (ctx va n : Nat) : Bool :=
  (List.range ((va + n + 65535) / 65536 - va / 65536)).all (fun i =>
    match walk s ctx ((va / 65536 + i) * 65536) with
    | .ok pa _ _ => s.layerOk pa
    | .fail _ _ _ => true)

/-- SVC_ENABLE_QUEUE: 256 queues to an engine; under reduced service none whose slots lie in layers 1 to 3 (R212, R414). -/
def execSvcEnableQueue (s : State) : Host.Outcome State Fault Refusal :=
  s.onService 1 false (fun s m h =>
    let va := pktField h.payload 0 8
    match s.descriptorPa h.ctx va true with
    | none => s.reply m h 4 []
    | some pa =>
      let ctx := s.home.num (pa + 26) 2
      let others := s.queues.filter (fun q => q.pa != pa)
      if !s.registered ctx || s.badQueue pa || !s.layersOk ctx (s.home.num (pa + 16) 8) (64 * 2 ^ s.home.num (pa + 24) 1) || decide (256 ≤ (others.filter (fun q => homeDie q.pa == homeDie pa)).length) then
        s.reply m h 4 []
      else
        let q : Queue := {
          va := va, pa := pa, ctx := ctx, base := s.home.num (pa + 16) 8, slots := 2 ^ s.home.num (pa + 24) 1,
          read := s.home.num (pa + 8) 8, stalled := false, faulted := false, packet := none }
        let s1 := s.engineStore ctx (pa + 28) 4 1
        ({ s1 with queues := others ++ [q] } : State).reply m h 0 [])

/-- A queue disabled: its engine drops it, and the enabled bit clears (R212). -/
def State.disableQueue (s : State) (q : Queue) : State :=
  let s1 := s.engineStore q.ctx (q.pa + 28) 4 (s.home.num (q.pa + 28) 4 / 2 * 2)
  { s1 with queues := s1.queues.filter (fun x => x.pa != q.pa) }

/-- SVC_DISABLE_QUEUE. -/
def execSvcDisableQueue (s : State) : Host.Outcome State Fault Refusal :=
  s.onService 2 false (fun s m h =>
    match (s.descriptorPa h.ctx (pktField h.payload 0 8) true).bind (fun pa => s.queues.find? (fun q => q.pa == pa)) with
    | none => s.reply m h 4 []
    | some q => (s.disableQueue q).reply m h 0 [])

/-- SVC_ORCHARD_FILL: the descriptor is read once, at acceptance, which applies ACCEPT; a fill that fails there reports to its barrier (R402,
R404). One that names an unregistered context is refused (R369). -/
def execSvcOrchardFill (s : State) : Host.Outcome State Fault Refusal :=
  s.onService 3 false (fun s m h =>
    let va := pktField h.payload 0 8
    match s.descriptorPa h.ctx va false with
    | none => s.reply m h 4 []
    | some pa =>
      let (d, die) := s.fillDesc pa
      let f := s.fillOf d die
      if !s.registered f.ctx then s.reply m h 4 []
      else if s.fillFails d then (s.failFill d die va).reply m h 0 []
      else if 64 ≤ (s.fills.filter (fun f => f.die == die)).length then s.reply m h 5 []
      else (({ s with fills := s.fills ++ [f] } : State).acceptAt f.ctx f.bar f.length).reply m h 0 [])

/-- Bytes of the free signature of a report (R416, log 9). -/
def signatureBytes (free : Nat) : List Byte := (List.range 5236).map (fun i => BitVec.ofNat 8 (Config.freeNat (free + i)))

/-- SVC_ATTESTATION_REPORT: the counter advances before the signature is computed (R416). -/
def execSvcAttestationReport (s : State) : Host.Outcome State Fault Refusal :=
  s.onService 4 false (fun s m h =>
    if 2 ^ 25 ≤ s.hub.counter then s.reply m h 4 []
    else
      let s1 : State := { s with free := s.free + 5236, hub := { s.hub with counter := s.hub.counter + 1 } }
      s1.reply m h 0 (h.payload ++ s.hub.measures.flatMap digestBytes ++ (bytesOf s.serviceWord 0 8).map (·.2) ++
        (bytesOf s.hub.counter 0 8).map (·.2) ++ signatureBytes s.free))

/-- The 16 counters of a context and the hub time, as a read returns them (R419). -/
def ticketBytes (t : SMap Nat) (time : Nat) : List Byte :=
  (List.range 16).flatMap (fun i => (bytesOf (SMap.get t i 0) 0 8).map (·.2)) ++ (bytesOf time 0 8).map (·.2)

/-- The tickets of a context. -/
def State.tickets (s : State) (ctx : Nat) : Tickets := SMap.get s.hub.tickets ctx { live := [], shown := [] }

/-- SVC_READ_SCALE_TICKETS: what the last reconciliation made readable, of a registered context (R369, R419). -/
def execSvcReadScaleTickets (s : State) : Host.Outcome State Fault Refusal :=
  s.onService 5 true (fun s m h =>
    let ctx := pktField h.payload 0 2
    if !s.registered ctx then s.reply m h 4 [] else s.reply m h 0 (ticketBytes (s.tickets ctx).shown s.hub.time))

/-- A queued fill of a retired context fails: what it has still to write counts as failed chunks (R404, R411). -/
def State.retireFill (s : State) (f : Fill) : State :=
  let s1 := s.hubRecord (dieRec 9 3 f.ctx f.die f.buffer [])
  match f.bar with
  | none => s1
  | some pa => f.left.foldl (fun s k => s.barrier none f.ctx pa (.chunk (min 4096 (f.length - 4096 * k)) false)) s1

/-- SVC_RETIRE_CONTEXT: its final counters, and everything that Strelino keeps for it (R411, R419). -/
def execSvcRetireContext (s : State) : Host.Outcome State Fault Refusal :=
  s.onService 6 true (fun s m h =>
    let ctx := pktField h.payload 0 2
    if !s.registered ctx then s.reply m h 4 []
    else
      let final := ticketBytes (s.tickets ctx).live s.hub.time
      let s1 := (s.queues.filter (fun q => q.ctx == ctx)).foldl State.disableQueue s
      let s2 := (s1.fills.filter (fun f => f.ctx == ctx)).foldl State.retireFill s1
      let s3 : State := { s2 with
        fills := s2.fills.filter (fun f => f.ctx != ctx), contexts := s2.contexts.filter (fun e => e.1 != ctx),
        hub := { s2.hub with
          jobs := s2.hub.jobs.filter (fun e => e.2 != ctx), peers := s2.hub.peers.filter (fun e => e.1 / 256 != ctx),
          tickets := s2.hub.tickets.filter (fun e => e.1 != ctx) } }
      s3.reply m h 0 final)

/-- A base for a loft window of `n` bytes among those granted on a die; none where it does not fit. R161 does not place the
windows: each takes the lowest free base (DESIGN CHOICE, log 80). -/
def freeLoft (used : List (Nat × Nat)) (n fuel a : Nat) : Option Nat :=
  match fuel with
  | 0 => none
  | fuel + 1 =>
    if 2 ^ 26 < a + n then none
    else
      match used.find? (fun u => decide (a < u.1 + u.2) && decide (u.1 < a + n)) with
      | none => some a
      | some u => freeLoft used n fuel (u.1 + u.2)

/-- The loft windows of a registration record by die (R161, R411); none where one cannot be granted. -/
def State.grantLoft (s : State) (p : List Byte) : Option (List (Nat × Nat)) :=
  let ws := (List.range 6).map (fun d =>
    let n := pktField p (24 + 4 * d) 4 * 65536
    let used := s.contexts.filterMap (fun e => (e.2.loft[d]?).bind (fun w => if w.2 = 0 then none else some w))
    if n = 0 then some (0, 0) else (freeLoft used n (used.length + 1) 0).map (fun a => (a, n)))
  if ws.any (·.isNone) then none else some (ws.filterMap id)

/-- The places for the error rings of contexts: 6 MiB each, from the top of layer 0 of each die down, die by die (DESIGN CHOICE, log 55). -/
def ringBase (k : Nat) : Nat := 2 ^ 36 * (k % 6) + 0x2CAC10000 - 0x600000 * (k / 6 + 1)

/-- The first such place that no registered context has. -/
def State.freeRing (s : State) : Option Nat :=
  ((List.range (s.contexts.length + 1)).find? (fun k => s.contexts.all (fun e => e.2.rings != some (ringBase k)))).bind (fun k =>
    if k / 6 < 1911 then some (ringBase k) else none)

/-- SVC_REGISTER_CONTEXT (R411). -/
def execSvcRegisterContext (s : State) : Host.Outcome State Fault Refusal :=
  s.onService 7 true (fun s m h =>
    let p := h.payload
    let ctx := pktField p 0 2
    let root := pktField p 8 8
    let handler := pktField p 16 8
    let ring := pktField p 48 8
    if ctx = 0 ∨ s.registered ctx = true ∨ pktField p 2 6 ≠ 0 ∨ pktField p 56 40 ≠ 0 ∨ root % 2 ^ 21 ≠ 0 ∨
        populated root = false ∨ populated (root + 2 ^ 21 - 1) = false ∨ s.layerOk root = false ∨ handler % 64 ≠ 0 ∨
        2 ^ 48 ≤ handler ∨ ring % 65536 ≠ 0 ∨ 2 ^ 48 < ring + 6 * 2 ^ 20 then s.reply m h 4 []
    else
      match s.grantLoft p, s.freeRing with
      | none, _ => s.reply m h 4 []
      | _, none => s.reply m h 4 []
      | some l, some rings =>
        let ci : CtxInfo := {
          root := root, handler := BitVec.ofNat 64 handler, loft := l, errRing := BitVec.ofNat 64 ring, rings := some rings }
        ({ s with contexts := SMap.put s.contexts ctx ci } : State).reply m h 0 [])

/-- SVC_BIND_JOB (R406). -/
def execSvcBindJob (s : State) : Host.Outcome State Fault Refusal :=
  s.onService 8 true (fun s m h =>
    let job := pktField h.payload 0 4
    let ctx := pktField h.payload 4 2
    if !s.registered ctx || s.hub.jobs.any (fun e => e.1 == job) then s.reply m h 4 []
    else ({ s with hub := { s.hub with jobs := SMap.put s.hub.jobs job ctx } } : State).reply m h 0 [])

/-- SVC_READ_SERVICE_WORD (R413): answered at every stage. -/
def execSvcReadServiceWord (s : State) : Host.Outcome State Fault Refusal :=
  s.onMsg (.svc 9) (fun s m h =>
    if s.bound m h then s.reply m h 0 ((bytesOf s.serviceWord 0 8).map (·.2)) else s.reply m h 4 [])

/-- SVC_SET_PEER (R409). -/
def execSvcSetPeer (s : State) : Host.Outcome State Fault Refusal :=
  s.onService 10 true (fun s m h =>
    let p := h.payload
    let ctx := pktField p 0 2
    if !s.registered ctx then s.reply m h 4 []
    else
      let e : Peer := { fabric := pktField p 16 16, job := pktField p 4 4, ctx := pktField p 8 2 }
      ({ s with hub := { s.hub with peers := SMap.put s.hub.peers (256 * ctx + pktField p 2 1) e } } : State).reply m h 0 [])

/-- MGMT_CONNECTION: a connection is served, or closed on arrival; a bad frame closes its connection (R412). -/
def execMgmtConnection (s : State) : Host.Outcome State Fault Refusal :=
  s.onInput .mgmt (fun s x =>
    let put (l : List Nat) : State := { s with hub := { s.hub with conns := l } }
    match x with
    | .connect id ok =>
      if ok && decide (0 < s.hub.stage) && decide (s.hub.conns.length < 16) && !s.hub.conns.contains id then put (s.hub.conns ++ [id])
      else s
    | .message m => put (s.hub.conns.filter (· != m.job))
    | _ => s)

/-! ## Bring-up, power and cooling (R413 to R415, R420, R421) -/

/-- The digest of the public key that the fuses hold: those read before stay as they are (R421). -/
def Hub.keyDigest (b : Hub) (p : PowerOn) : BitVec 256 := if b.fused then b.keyHash else p.keyHash

/-- The ROM's check of Strelino's image: the public key has the fused digest, and its LMS signature holds (R415). -/
def Hub.verifies (b : Hub) (p : PowerOn) : Bool := digestOf (sha256 p.key) == b.keyDigest p && lmsVerify p.key p.image p.signature

/-- A measurement word extended (R415). -/
def Hub.extend (b : Hub) (j : Nat) (d : BitVec 256) : Hub :=
  { b with measures := b.measures.set j (extendWord (b.measures.getD j 0) d) }

/-- POWER_GOOD: the ROM reads the fuses, where they have not been read before, verifies and measures the image; a failure stops the hub
(R413, R415, R421). -/
def execPowerGood (s : State) : Host.Outcome State Fault Refusal :=
  s.onInput .powerGood (fun s x =>
    match x with
    | .powerGood p =>
      if s.hub.stage ≠ 0 then s
      else
        let ok := s.hub.verifies p
        let fuses := if s.hub.fused then [] else p.fuses
        let s0 := fuses.foldl (fun s e => s.putCore e.1 { s.coreAt e.1 with engmap := e.2.1, lanefuse := e.2.2 }) s
        let s1 := (s0.cores.map (·.1)).foldl (fun s n =>
          let c := s.coreAt n
          s.putCore n { c with sw := { c.sw with lanemap := c.lanefuse.setWidth 64 } }) s0
        { s1 with hub := { (s1.hub.extend 0 p.rom).extend 1 (digestOf (sha256 p.image)) with
            stage := if ok then 3 else 2, halted := !ok, fused := true, keyHash := s.hub.keyDigest p } }
    | _ => s)

/-- DRAM_LAYER_READY: layer 0 of each die first, whose beat count starts; then the others, in order (R273, R413, R414). -/
def execDramLayerReady (s : State) : Host.Outcome State Fault Refusal :=
  s.onInput .layer (fun s x =>
    match x with
    | .layer d l =>
      let x := s.dieAt d
      if d < 6 ∧ l < 4 ∧ x.layers.getLsbD l = false ∧
          (if l = 0 then s.hub.stage = 3 ∨ s.hub.stage = 4 else 5 ≤ s.hub.stage ∧ x.layers.getLsbD (l - 1) = true) then
        let y : Die := { x with layers := x.layers ||| BitVec.ofNat 4 (2 ^ l) }
        let s1 := s.putDie d (if l = 0 then { y with beat := 0, opened := true } else y)
        let first := s1.dieBits (fun x => x.layers.getLsbD 0) == 0x3F
        let all := s1.dieBits (fun x => x.layers == 0xF#4) == 0x3F
        let st := if all then 7 else if first then 5 else 4
        ({ s1 with hub := { s1.hub with stage := st } } : State).clocks
      else s
    | _ => s)

/-- Everything that power holds up is lost: the attestation counter and the fuses alone survive (R421). -/
def State.powerDown (s : State) : State :=
  { State.reset with
    turn := s.turn, tick := s.tick, free := s.free, inbox := s.inbox,
    cores := (s.cores.filter (fun e => e.2.engmap != 0x44#8 || e.2.lanefuse != 0x3F#6)).map
      (fun e => (e.1, { Core.reset e.1 with engmap := e.2.engmap, lanefuse := e.2.lanefuse })),
    hub := { Hub.reset with counter := s.hub.counter, fused := s.hub.fused, keyHash := s.hub.keyHash } }

/-- POWER_LOSS. -/
def execPowerLoss (s : State) : Host.Outcome State Fault Refusal := s.onInput .powerLoss (fun s _ => s.powerDown)

/-- Every unit reported failed, as a trip leaves them (R420). -/
def State.failAll (s : State) : State :=
  (s.cores.map (·.1)).foldl (fun s n => if (s.coreAt n).unit.isSome then s.endUnit n .failed 0 else s) s

/-- TEMPERATURE_BAND_CHANGE: a trip fails every unit and powers the module down (R420). -/
def execTemperatureBandChange (s : State) : Host.Outcome State Fault Refusal :=
  s.onInput .band (fun s x =>
    match x with
    | .band d b =>
      if 3 ≤ b then s.failAll.powerDown
      else (s.putDie d { s.dieAt d with band := b }).clocks
    | _ => s)

/-- The energy estimate of a context since the last reconciliation: each event that a counter counts, by its weight (R418; DESIGN CHOICE,
log 8). -/
def Tickets.estimate (t : Tickets) : Nat :=
  ((List.range 14).map (fun i => Config.eventWeight i * (SMap.get t.live i 0 - SMap.get t.shown i 0))).foldl (· + ·) 0

/-- ENERGY_RECONCILE: the estimates of the contexts and of idle time, scaled to the energy measured, are added to counter 14 (the remainder
of a division is idle time's), and a read returns the counters from now on (R418, R419). -/
def execEnergyReconcile (s : State) : Host.Outcome State Fault Refusal :=
  s.onInput .reconcile (fun s x =>
    match x with
    | .reconcile t rails idle =>
      let total := (s.hub.tickets.map (fun e => e.2.estimate)).foldl (· + ·) idle
      { s with hub := { s.hub with time := t, tickets := s.hub.tickets.map (fun e =>
          let share := rails * e.2.estimate / total
          let live := if share = 0 then e.2.live else SMap.set e.2.live 14 (SMap.get e.2.live 14 0 + share) 0
          (e.1, { live := live, shown := live })) } }
    | _ => s)

/-! ## Errors (R373, R389) -/

/-- Poison on both words of the 8-byte unit at `a`. -/
def Mem.hurt (m : Mem) (a : Nat) : Mem := (m.setPois (a / 8 * 2) true).setPois (a / 8 * 2 + 1) true

/-- A register poisoned (R83, R373): a scalar, predicate or mask whole; two lanes of a vector register; an element group of a
tile. -/
def Core.hurtReg (c : Core) (a : Nat) : Core :=
  let n := a / 2 ^ 12 % 2 ^ 12
  let u := a % 2 ^ 12
  match a / 2 ^ 24 with
  | 0 => c.putS n { c.sreg n with poison := true }
  | 1 => c.putP n { c.preg n with poison := true }
  | 2 => c.putM n { c.mreg n with poison := true }
  | 3 => c.putV n { c.vreg n with poison := (c.vreg n).poison ||| BitVec.ofNat 32 (3 * 2 ^ (2 * u)) }
  | _ => c.putT n { c.treg n with poison := (c.treg n).poison ||| BitVec.ofNat 256 (2 ^ (u / 8)) }

/-- Entry `a` / 4,096 of a buffer changed at its unit `a` mod 4,096. -/
def hurtAt {α : Type} (a : Nat) (f : α → Nat → α) (i : Nat) (x : α) : α := if i = a / 4096 then f x (a % 4096) else x

/-- The poison of the two words of a unit. -/
def unitPoison (w u : Nat) : BitVec w := BitVec.ofNat w (3 * 2 ^ (2 * u))

/-- A snapshot entry poisoned: two lanes or words of its value. -/
def Flight.hurt (f : Flight) (u : Nat) : Flight := { f with poison := f.poison ||| unitPoison 256 u }

/-- A journal entry poisoned: its register is restored so. A status word and a latch have no poison. -/
def JEntry.hurt (e : JEntry) (u : Nat) : JEntry :=
  match e with
  | .scalar n r => .scalar n { r with poison := true }
  | .pred n r => .pred n { r with poison := true }
  | .mask n r => .mask n { r with poison := true }
  | .vec n r => .vec n { r with poison := r.poison ||| unitPoison 32 u }
  | .status i w => .status i w
  | .latch n l => .latch n l

/-- Two words of a line of the segment store buffer poisoned, in the stores that it holds too. -/
def Core.hurtLine (c : Core) (a : Nat) : Core :=
  match c.seg.lines[a / 4096]? with
  | none => c
  | some l =>
    let w := 16 * l.addr + 2 * (a % 4096)
    let bad (ws : List (Nat × Bool × Bool)) : List (Nat × Bool × Bool) := ws.map (fun e => if e.1 = w ∨ e.1 = w + 1 then (e.1, true, e.2.2) else e)
    { c with seg := { c.seg with
        lines := c.seg.lines.mapIdx (hurtAt a (fun x _ => { x with words := bad x.words })),
        held := c.seg.held.map (fun e => if e.space == l.space then { e with words := bad e.words } else e) } }

/-- The storage that an uncorrectable error poisons (R373), by its structure in R392; the snapshot buffer, the journal and the segment
store buffer, which have no number there, are 8 to 10 (DESIGN CHOICE, log 56). A clean L2 line is dropped, and DRAM is read again (R389). -/
def State.hurt (s : State) (k w a : Nat) : State :=
  match k with
  | 0 => { s with home := s.home.hurt a }
  | 1 => if s.dirty.any (fun e => e.1 == a / 64) then { s with home := s.home.hurt a } else s.dropLine (a / 64)
  | 2 => { s with loft := s.loft.hurt (2 ^ 26 * w + a) }
  | 3 => { s with cmem := s.cmem.hurt (2 ^ 23 * w + a) }
  | 4 => let c := s.coreAt w; s.putCore w { c with scratch := c.scratch.hurt a }
  | 5 => let c := s.coreAt w; s.putCore w { c with slices := c.slices.hurt a }
  | 8 => let c := s.coreAt w; s.putCore w { c with held := c.held.map (fun h => { h with flights := h.flights.mapIdx (hurtAt a Flight.hurt) }) }
  | 9 => let c := s.coreAt w; s.putCore w { c with seg := { c.seg with journal := c.seg.journal.mapIdx (hurtAt a JEntry.hurt) } }
  | 10 => s.putCore w ((s.coreAt w).hurtLine a)
  | 6 =>
    let c := s.coreAt w
    s.putCore w { c with l1 := c.l1.map (fun e => if e.1 / 2 = a / 8 then (e.1, (e.2.1, true)) else e) }
  | _ => s.putCore w ((s.coreAt w).hurtReg a)

/-- The context that owns a byte of the loft of a die or of a cluster's memory: the one whose window holds it; 0 for none (R392). -/
def State.ownerOf (s : State) (k w a : Nat) : Nat :=
  let holds (x : Nat × Nat) : Bool := decide (x.1 ≤ a) && decide (a < x.1 + x.2)
  if k = 2 then ((s.contexts.find? (fun e => holds (e.2.loft.getD w (0, 0)))).map (·.1)).getD 0
  else if k = 3 then
    ((s.launches.find? (fun l => l.granted.contains w && holds (l.blk.winBase, l.blk.winSize))).map (·.blk.ctx)).getD 0
  else 0

/-- ECC_UNCORRECTABLE: the poison, and a record of type 1; a clean line of the L2 leaves no trace (R373, R389, R392). -/
def execEccUncorrectable (s : State) : Host.Outcome State Fault Refusal :=
  s.onInput .ecc (fun s x =>
    match x with
    | .ecc k w a =>
      let s1 := s.hurt k w a
      if 4 ≤ k then s1.record w ((s1.coreAt w).errRec 1 1 0xF a 0 [(0, 1, min k 7)])
      else if k = 1 && !s.dirty.any (fun e => e.1 == a / 64) then s1
      else s1.hubRecord (dieRec 1 1 (s.ownerOf k w a) (if k ≤ 1 then homeDie a else if k = 2 then w else dieOfCluster w) a [(0, 1, k)])
    | _ => s)

/-- DIRTY_LINE_EVICTION: a dirty line is written back poisoned and recorded; a clean one is dropped (R389). -/
def execDirtyLineEviction (s : State) : Host.Outcome State Fault Refusal :=
  s.onInput .dirty (fun s x =>
    match x with
    | .dirtyLine a =>
      let l := a / 64
      match s.dirty.find? (fun e => e.1 == l) with
      | none => s.dropLine l
      | some (_, ctx, who) =>
        let known := s.registered ctx
        let r (core : Nat) : ErrRec :=
          { dieRec 13 1 ctx (homeDie a) (64 * l) [(0, 1, if known then 0 else 1), (2, 2, ctx)] with core := core }
        let s1 := s.dropLine l
        let s2 : State := { s1 with
          home := (List.range 16).foldl (fun m i => m.setPois (16 * l + i) true) s1.home,
          hub := { s1.hub with bad := s1.hub.bad ++ [a / 65536] } }
        match who with
        | some n =>
          if known && (s2.coreAt n).unit.isSome && (s2.coreAt n).ctx == ctx then s2.record n (r n) else s2.hubRecord (r n)
        | none => s2.hubRecord (r 0xFFFF)
    | _ => s)

/-- The leaves of a page table that map a 64 KiB page: the address of each entry. -/
def State.leavesOf (s : State) (page base level fuel : Nat) : List Nat :=
  match fuel with
  | 0 => []
  | fuel + 1 =>
    let lg := if level = 0 then 30 else if level = 1 then 21 else 16
    (s.entriesAt base (if level = 0 then 2 ^ 18 else if level = 1 then 2 ^ 9 else 2 ^ 5)).flatMap (fun e =>
      if !pteBit e.2 0 || pteMalformed e.2 level then []
      else if pteBit e.2 1 then
        (if pteAddr e.2 ≤ 65536 * page ∧ 65536 * page < pteAddr e.2 + 2 ^ lg then [e.1] else [])
      else s.leavesOf page (pteAddr e.2) (level + 1) fuel)

/-- A TLB entry maps a 64 KiB page. -/
def TlbEntry.maps (e : TlbEntry) (page : Nat) : Bool :=
  decide (e.base ≤ 65536 * page) && decide (65536 * page < e.base + 2 ^ e.log2)

/-- A page quarantined: QT in every leaf that maps it, and their translations invalidated (R389). -/
def State.quarantine (s : State) (page : Nat) : State :=
  let leaves := s.contexts.flatMap (fun e => s.leavesOf page e.2.root 0 3)
  let s1 := leaves.foldl (fun s a => s.engineStore 0 a 1 ((s.home.byte a).toNat ||| 128)) s
  { s1 with
    cores := s1.cores.map (fun e => (e.1, { e.2 with tlb := e.2.tlb.filter (fun t => !t.maps page) })),
    clusterTlb := s1.clusterTlb.map (fun (e : Nat × List TlbEntry) => (e.1, e.2.filter (fun t => !t.maps page))) }

/-- PAGE_QUARANTINE: the first page that awaits it; within 10 ms is timing (log 1). -/
def execPageQuarantine (s : State) : Host.Outcome State Fault Refusal :=
  match s.hub.bad with
  | [] => .next s
  | p :: r => .next (({ s with hub := { s.hub with bad := r } } : State).quarantine p)

/-! ## The debugger, and inputs without a row (R346, R349, R368, R373, R412, R415) -/

/-- DEBUG_STEP: a core held by the debugger may issue one bundle or repetition. -/
def execDebugStep (s : State) : Host.Outcome State Fault Refusal :=
  s.onInput .debugStep (fun s x =>
    match x with
    | .debugStep n => if (s.coreAt n).debugStop then s.putCore n { s.coreAt n with debugStep := true } else s
    | _ => s)

/-- Strelino hands the debug stop of a core on to its handler, which the core enters with code 0x21 (R359). -/
def State.handOn (s : State) (n : Nat) : State :=
  let c : Core := { s.coreAt n with debugStop := false, debugStep := false }
  if (s.coreAt n).debugStop && c.atBoundary then (s.putCore n c).takeTrapAt n { Trap.bare 0x21 c.nextPc with async := true } false
  else s

/-- The V1 result of flight `k` differs from what it was (R378). -/
def Core.twinFault (c : Core) (k : Nat) (flips : Vec) : Core :=
  { c with flights := c.flights.mapIdx (fun i f =>
      if i = k then { f with twin := f.twin.map (fun x => (x.1 ^^^ flips, x.2)) } else f) }

/-- The residues of a position of a set differ from what they were (R257); set 2 is the drain stage. -/
def Core.residueFault (c : Core) (set_ cell : Nat) (flips : BitVec 48) : Core :=
  let hit (a : ASet) : ASet :=
    let p := SMap.get a.cells cell (Pos.zero a.zneg)
    { a with cells := SMap.set a.cells cell { p with res := p.res ^^^ flips } (Pos.zero a.zneg) }
  { c with arr := match set_ with
      | 0 => { c.arr with set0 := hit c.arr.set0 }
      | 1 => { c.arr with set1 := hit c.arr.set1 }
      | _ => { c.arr with drain := hit c.arr.drain } }

/-- An input that no row of the table names: a correction counted, a stop requested, a core run on, handed on or placed in debug
mode, a connection closed, a kernel registered, a measurement word extended, a beat plan written before full service, a core withdrawn, a
transient fault of a core's engines; a message that nothing answers is dropped, and everything without power (R413, R421). -/
def State.otherInput (s : State) (x : Input) : State :=
  if s.hub.stage = 0 || s.hub.halted then s
  else
  match x with
  | .corrected d => s.putDie d { s.dieAt d with corrections := (s.dieAt d).corrections + 1 }
  | .debugStop n =>
    let c := s.coreAt n
    if c.sw.checkctl.getLsbD 8 then s.putCore n (c.addAsync (Trap.bare 0x21 0)) else s
  | .debugRun n => s.putCore n { s.coreAt n with debugStop := false, debugStep := false }
  | .debugHand n => s.handOn n
  | .debugMode n on =>
    let c := s.coreAt n
    let sw : StatusWords := { c.sw with checkctl := fieldPut c.sw.checkctl 8 1 (if on then 1 else 0) }
    s.putCore n { c with sw := sw, debugStop := c.debugStop && on, debugStep := false }
  | .close id => { s with hub := { s.hub with conns := s.hub.conns.filter (· != id) } }
  | .kernel k d =>
    { s with hub := { s.hub.extend 3 d with kernels := s.hub.kernels.filter (fun y => !(y.ctx == k.ctx && y.code == k.code)) ++ [k] } }
  | .extend j d => if 4 ≤ j ∧ j < 8 then { s with hub := s.hub.extend j d } else s
  | .configure d plans =>
    plans.foldl (fun s e =>
      let w := e.2
      if e.1 < 6 ∧ s.hub.stage < 7 ∧ 2 ≤ fieldGet w 40 8 ∧ 1 ≤ fieldGet w 16 16 ∧ 1 ≤ fieldGet w 0 16 ∧ fieldGet w 32 8 = 0 then
        s.putDie e.1 { s.dieAt e.1 with plan := w }
      else s) { s with hub := s.hub.extend 2 d }
  | .withdraw n => s.putCore n { s.coreAt n with withdrawn := true }
  | .twinFault n k x => s.putCore n ((s.coreAt n).twinFault k x)
  | .residueFault n set_ k x => s.putCore n ((s.coreAt n).residueFault set_ k x)
  | _ => s

/-- The hub takes an input that no row names. -/
def State.takeOther (s : State) : Host.Outcome State Fault Refusal := s.onInput .other State.otherInput

end Sys2Proof.Machine
end

