-- ==== Sys2Proof/Machine/Dispatch.lean ====
section
/-! DEFINITION. The meaning of every row of the opcode table: one direct call for each constructor of `Instr`. -/

namespace Sys2Proof.Machine

def exec (i : Instr) (s : State) : Host.Outcome State Fault Refusal :=
  match i with
  | .tChain t => Sys2Proof.Machine.execTChain t s
  | .tBal t => Sys2Proof.Machine.execTBal t s
  | .bkAdd f => Sys2Proof.Machine.execBkAdd f s
  | .bkSub f => Sys2Proof.Machine.execBkSub f s
  | .bkMul f => Sys2Proof.Machine.execBkMul f s
  | .bkMac f => Sys2Proof.Machine.execBkMac f s
  | .bkCmp f => Sys2Proof.Machine.execBkCmp f s
  | .bkMin f => Sys2Proof.Machine.execBkMin f s
  | .bkMax f => Sys2Proof.Machine.execBkMax f s
  | .bkNeg f => Sys2Proof.Machine.execBkNeg f s
  | .bkPand f => Sys2Proof.Machine.execBkPand f s
  | .bkPor f => Sys2Proof.Machine.execBkPor f s
  | .bkPxor f => Sys2Proof.Machine.execBkPxor f s
  | .bkPnot f => Sys2Proof.Machine.execBkPnot f s
  | .bkPmov f => Sys2Proof.Machine.execBkPmov f s
  | .bkPfill f => Sys2Proof.Machine.execBkPfill f s
  | .bkRrd f => Sys2Proof.Machine.execBkRrd f s
  | .bkRwr f => Sys2Proof.Machine.execBkRwr f s
  | .bkRwrm f => Sys2Proof.Machine.execBkRwrm f s
  | .bkRrds f => Sys2Proof.Machine.execBkRrds f s
  | .bkLoop f => Sys2Proof.Machine.execBkLoop f s
  | .bkEndl f => Sys2Proof.Machine.execBkEndl f s
  | .bkWait f => Sys2Proof.Machine.execBkWait f s
  | .bkHalt f => Sys2Proof.Machine.execBkHalt f s
  | .bkArd f => Sys2Proof.Machine.execBkArd f s
  | .bkAclr f => Sys2Proof.Machine.execBkAclr f s
  | .headerIssue => Sys2Proof.Machine.execHeaderIssue s
  | .rendezvousPass => Sys2Proof.Machine.execRendezvousPass s
  | .branchTransfer => Sys2Proof.Machine.execBranchTransfer s
  | .resultLand => Sys2Proof.Machine.execResultLand s
  | .registerResultLand => Sys2Proof.Machine.execRegisterResultLand s
  | .tileTransferLand => Sys2Proof.Machine.execTileTransferLand s
  | .slipIssue => Sys2Proof.Machine.execSlipIssue s
  | .fetchLine => Sys2Proof.Machine.execFetchLine s
  | .storePerform => Sys2Proof.Machine.execStorePerform s
  | .outboundPerform => Sys2Proof.Machine.execOutboundPerform s
  | .l2LineLeave => Sys2Proof.Machine.execL2LineLeave s
  | .flumeElementRead => Sys2Proof.Machine.execFlumeElementRead s
  | .flumeElementWrite => Sys2Proof.Machine.execFlumeElementWrite s
  | .ringFillAppend => Sys2Proof.Machine.execRingFillAppend s
  | .ringSpillWrite => Sys2Proof.Machine.execRingSpillWrite s
  | .dpairCompare => Sys2Proof.Machine.execDpairCompare s
  | .handlerEntry => Sys2Proof.Machine.execHandlerEntry s
  | .preemptionRequest => Sys2Proof.Machine.execPreemptionRequest s
  | .preemptionEntry => Sys2Proof.Machine.execPreemptionEntry s
  | .resumeEntry => Sys2Proof.Machine.execResumeEntry s
  | .phaseOverrun => Sys2Proof.Machine.execPhaseOverrun s
  | .debugStep => Sys2Proof.Machine.execDebugStep s
  | .unitStart => Sys2Proof.Machine.execUnitStart s
  | .graphNodeStart => Sys2Proof.Machine.execGraphNodeStart s
  | .graphNodeComplete => Sys2Proof.Machine.execGraphNodeComplete s
  | .landingSlotValid => Sys2Proof.Machine.execLandingSlotValid s
  | .pktNop => Sys2Proof.Machine.execPktNop s
  | .pktCopy => Sys2Proof.Machine.execPktCopy s
  | .pktCopyReduce => Sys2Proof.Machine.execPktCopyReduce s
  | .pktLaunch => Sys2Proof.Machine.execPktLaunch s
  | .pktSignal => Sys2Proof.Machine.execPktSignal s
  | .pktGraph => Sys2Proof.Machine.execPktGraph s
  | .copyChunk => Sys2Proof.Machine.execCopyChunk s
  | .reduceChunk => Sys2Proof.Machine.execReduceChunk s
  | .slotStallTimeout => Sys2Proof.Machine.execSlotStallTimeout s
  | .orchardChunk => Sys2Proof.Machine.execOrchardChunk s
  | .accessBeatOpen => Sys2Proof.Machine.execAccessBeatOpen s
  | .computeBeatOpen => Sys2Proof.Machine.execComputeBeatOpen s
  | .computeBeatEnd => Sys2Proof.Machine.execComputeBeatEnd s
  | .refreshGap => Sys2Proof.Machine.execRefreshGap s
  | .stretchLimit => Sys2Proof.Machine.execStretchLimit s
  | .workedAccessArrival => Sys2Proof.Machine.execWorkedAccessArrival s
  | .bankCommandArrival => Sys2Proof.Machine.execBankCommandArrival s
  | .eccUncorrectable => Sys2Proof.Machine.execEccUncorrectable s
  | .dirtyLineEviction => Sys2Proof.Machine.execDirtyLineEviction s
  | .pageQuarantine => Sys2Proof.Machine.execPageQuarantine s
  | .powerGood => Sys2Proof.Machine.execPowerGood s
  | .dramLayerReady => Sys2Proof.Machine.execDramLayerReady s
  | .temperatureBandChange => Sys2Proof.Machine.execTemperatureBandChange s
  | .powerLoss => Sys2Proof.Machine.execPowerLoss s
  | .energyReconcile => Sys2Proof.Machine.execEnergyReconcile s
  | .mgmtConnection => Sys2Proof.Machine.execMgmtConnection s
  | .msgWrite => Sys2Proof.Machine.execMsgWrite s
  | .msgRead => Sys2Proof.Machine.execMsgRead s
  | .msgAtomicAdd => Sys2Proof.Machine.execMsgAtomicAdd s
  | .msgReduce => Sys2Proof.Machine.execMsgReduce s
  | .peerChunkReply => Sys2Proof.Machine.execPeerChunkReply s
  | .svcEnableQueue => Sys2Proof.Machine.execSvcEnableQueue s
  | .svcDisableQueue => Sys2Proof.Machine.execSvcDisableQueue s
  | .svcOrchardFill => Sys2Proof.Machine.execSvcOrchardFill s
  | .svcAttestationReport => Sys2Proof.Machine.execSvcAttestationReport s
  | .svcReadScaleTickets => Sys2Proof.Machine.execSvcReadScaleTickets s
  | .svcRetireContext => Sys2Proof.Machine.execSvcRetireContext s
  | .svcRegisterContext => Sys2Proof.Machine.execSvcRegisterContext s
  | .svcBindJob => Sys2Proof.Machine.execSvcBindJob s
  | .svcReadServiceWord => Sys2Proof.Machine.execSvcReadServiceWord s
  | .svcSetPeer => Sys2Proof.Machine.execSvcSetPeer s
  | .lanemapWrite => Sys2Proof.Machine.execLanemapWrite s
  | .baseRegisterWrite => Sys2Proof.Machine.execBaseRegisterWrite s
  | .statusWordWrite => Sys2Proof.Machine.execStatusWordWrite s
  | .sAdd h f => Sys2Proof.Machine.execSAdd h f s
  | .sSub h f => Sys2Proof.Machine.execSSub h f s
  | .sMul h f => Sys2Proof.Machine.execSMul h f s
  | .sMulh h f => Sys2Proof.Machine.execSMulh h f s
  | .sMulhu h f => Sys2Proof.Machine.execSMulhu h f s
  | .sAnd h f => Sys2Proof.Machine.execSAnd h f s
  | .sOr h f => Sys2Proof.Machine.execSOr h f s
  | .sXor h f => Sys2Proof.Machine.execSXor h f s
  | .sShl h f => Sys2Proof.Machine.execSShl h f s
  | .sShr h f => Sys2Proof.Machine.execSShr h f s
  | .sSra h f => Sys2Proof.Machine.execSSra h f s
  | .sMin h f => Sys2Proof.Machine.execSMin h f s
  | .sMax h f => Sys2Proof.Machine.execSMax h f s
  | .sMinu h f => Sys2Proof.Machine.execSMinu h f s
  | .sMaxu h f => Sys2Proof.Machine.execSMaxu h f s
  | .sAdds h f => Sys2Proof.Machine.execSAdds h f s
  | .sAddi h f => Sys2Proof.Machine.execSAddi h f s
  | .sAndi h f => Sys2Proof.Machine.execSAndi h f s
  | .sOri h f => Sys2Proof.Machine.execSOri h f s
  | .sXori h f => Sys2Proof.Machine.execSXori h f s
  | .sShli h f => Sys2Proof.Machine.execSShli h f s
  | .sShri h f => Sys2Proof.Machine.execSShri h f s
  | .sSrai h f => Sys2Proof.Machine.execSSrai h f s
  | .sLea h f => Sys2Proof.Machine.execSLea h f s
  | .sCeq h f => Sys2Proof.Machine.execSCeq h f s
  | .sCne h f => Sys2Proof.Machine.execSCne h f s
  | .sClt h f => Sys2Proof.Machine.execSClt h f s
  | .sCle h f => Sys2Proof.Machine.execSCle h f s
  | .sCltu h f => Sys2Proof.Machine.execSCltu h f s
  | .sCleu h f => Sys2Proof.Machine.execSCleu h f s
  | .sCeqi h f => Sys2Proof.Machine.execSCeqi h f s
  | .sClti h f => Sys2Proof.Machine.execSClti h f s
  | .sPand h f => Sys2Proof.Machine.execSPand h f s
  | .sPor h f => Sys2Proof.Machine.execSPor h f s
  | .sPxor h f => Sys2Proof.Machine.execSPxor h f s
  | .sPbit h f => Sys2Proof.Machine.execSPbit h f s
  | .sMov h f => Sys2Proof.Machine.execSMov h f s
  | .sRsw h f => Sys2Proof.Machine.execSRsw h f s
  | .sWsw h f => Sys2Proof.Machine.execSWsw h f s
  | .sRtag h f => Sys2Proof.Machine.execSRtag h f s
  | .sWtag h f => Sys2Proof.Machine.execSWtag h f s
  | .sMfrom h f => Sys2Proof.Machine.execSMfrom h f s
  | .sMto h f => Sys2Proof.Machine.execSMto h f s
  | .sPget h f => Sys2Proof.Machine.execSPget h f s
  | .sLld h f => Sys2Proof.Machine.execSLld h f s
  | .sLlw h f => Sys2Proof.Machine.execSLlw h f s
  | .sLst h f => Sys2Proof.Machine.execSLst h f s
  | .sLstw h f => Sys2Proof.Machine.execSLstw h f s
  | .sLldAcq h f => Sys2Proof.Machine.execSLldAcq h f s
  | .sLlwAcq h f => Sys2Proof.Machine.execSLlwAcq h f s
  | .sLstRel h f => Sys2Proof.Machine.execSLstRel h f s
  | .sLstwRel h f => Sys2Proof.Machine.execSLstwRel h f s
  | .sCkt h f => Sys2Proof.Machine.execSCkt h f s
  | .sNxt h f => Sys2Proof.Machine.execSNxt h f s
  | .sCtxout h f => Sys2Proof.Machine.execSCtxout h f s
  | .sCtxin h f => Sys2Proof.Machine.execSCtxin h f s
  | .sCtxskip h f => Sys2Proof.Machine.execSCtxskip h f s
  | .sTlbinvAll h f => Sys2Proof.Machine.execSTlbinvAll h f s
  | .sTlbinvContext h f => Sys2Proof.Machine.execSTlbinvContext h f s
  | .sTlbinvPage h f => Sys2Proof.Machine.execSTlbinvPage h f s
  | .sTlbsync h f => Sys2Proof.Machine.execSTlbsync h f s
  | .sCtxdonePreempted h f => Sys2Proof.Machine.execSCtxdonePreempted h f s
  | .sCtxdoneFailed h f => Sys2Proof.Machine.execSCtxdoneFailed h f s
  | .sLil h f => Sys2Proof.Machine.execSLil h f s
  | .sLih h f => Sys2Proof.Machine.execSLih h f s
  | .sLis h f => Sys2Proof.Machine.execSLis h f s
  | .sLpc h f => Sys2Proof.Machine.execSLpc h f s
  | .vAddI32 h f => Sys2Proof.Machine.execVAddI32 h f s
  | .vSubI32 h f => Sys2Proof.Machine.execVSubI32 h f s
  | .vMulI32 h f => Sys2Proof.Machine.execVMulI32 h f s
  | .vMulhI32 h f => Sys2Proof.Machine.execVMulhI32 h f s
  | .vAddsI32 h f => Sys2Proof.Machine.execVAddsI32 h f s
  | .vSubsI32 h f => Sys2Proof.Machine.execVSubsI32 h f s
  | .vAddI16 h f => Sys2Proof.Machine.execVAddI16 h f s
  | .vAddsI16 h f => Sys2Proof.Machine.execVAddsI16 h f s
  | .vAddI8 h f => Sys2Proof.Machine.execVAddI8 h f s
  | .vAddsI8 h f => Sys2Proof.Machine.execVAddsI8 h f s
  | .vAddsZ8 h f => Sys2Proof.Machine.execVAddsZ8 h f s
  | .vMinI32 h f => Sys2Proof.Machine.execVMinI32 h f s
  | .vMaxI32 h f => Sys2Proof.Machine.execVMaxI32 h f s
  | .vMinZ32 h f => Sys2Proof.Machine.execVMinZ32 h f s
  | .vMaxZ32 h f => Sys2Proof.Machine.execVMaxZ32 h f s
  | .vAbsI32 h f => Sys2Proof.Machine.execVAbsI32 h f s
  | .vAnd h f => Sys2Proof.Machine.execVAnd h f s
  | .vOr h f => Sys2Proof.Machine.execVOr h f s
  | .vXor h f => Sys2Proof.Machine.execVXor h f s
  | .vAndn h f => Sys2Proof.Machine.execVAndn h f s
  | .vShlI32 h f => Sys2Proof.Machine.execVShlI32 h f s
  | .vShrZ32 h f => Sys2Proof.Machine.execVShrZ32 h f s
  | .vSraI32 h f => Sys2Proof.Machine.execVSraI32 h f s
  | .vDot4I8 h f => Sys2Proof.Machine.execVDot4I8 h f s
  | .vAddF32 h f => Sys2Proof.Machine.execVAddF32 h f s
  | .vSubF32 h f => Sys2Proof.Machine.execVSubF32 h f s
  | .vMulF32 h f => Sys2Proof.Machine.execVMulF32 h f s
  | .vFmaF32 h f => Sys2Proof.Machine.execVFmaF32 h f s
  | .vFmsF32 h f => Sys2Proof.Machine.execVFmsF32 h f s
  | .vFnmaF32 h f => Sys2Proof.Machine.execVFnmaF32 h f s
  | .vMinF32 h f => Sys2Proof.Machine.execVMinF32 h f s
  | .vMaxF32 h f => Sys2Proof.Machine.execVMaxF32 h f s
  | .vAddF16 h f => Sys2Proof.Machine.execVAddF16 h f s
  | .vSubF16 h f => Sys2Proof.Machine.execVSubF16 h f s
  | .vMulF16 h f => Sys2Proof.Machine.execVMulF16 h f s
  | .vFmaF16 h f => Sys2Proof.Machine.execVFmaF16 h f s
  | .vMinF16 h f => Sys2Proof.Machine.execVMinF16 h f s
  | .vMaxF16 h f => Sys2Proof.Machine.execVMaxF16 h f s
  | .vAddB16 h f => Sys2Proof.Machine.execVAddB16 h f s
  | .vSubB16 h f => Sys2Proof.Machine.execVSubB16 h f s
  | .vMulB16 h f => Sys2Proof.Machine.execVMulB16 h f s
  | .vFmaB16 h f => Sys2Proof.Machine.execVFmaB16 h f s
  | .vMinB16 h f => Sys2Proof.Machine.execVMinB16 h f s
  | .vMaxB16 h f => Sys2Proof.Machine.execVMaxB16 h f s
  | .vRcpF32 h f => Sys2Proof.Machine.execVRcpF32 h f s
  | .vRsqF32 h f => Sys2Proof.Machine.execVRsqF32 h f s
  | .vExp2F32 h f => Sys2Proof.Machine.execVExp2F32 h f s
  | .vLog2F32 h f => Sys2Proof.Machine.execVLog2F32 h f s
  | .vRcpF16 h f => Sys2Proof.Machine.execVRcpF16 h f s
  | .vRsqF16 h f => Sys2Proof.Machine.execVRsqF16 h f s
  | .vExp2F16 h f => Sys2Proof.Machine.execVExp2F16 h f s
  | .vLog2F16 h f => Sys2Proof.Machine.execVLog2F16 h f s
  | .vCeqI32 h f => Sys2Proof.Machine.execVCeqI32 h f s
  | .vCltI32 h f => Sys2Proof.Machine.execVCltI32 h f s
  | .vCleI32 h f => Sys2Proof.Machine.execVCleI32 h f s
  | .vCltZ32 h f => Sys2Proof.Machine.execVCltZ32 h f s
  | .vCeqF32 h f => Sys2Proof.Machine.execVCeqF32 h f s
  | .vCltF32 h f => Sys2Proof.Machine.execVCltF32 h f s
  | .vCleF32 h f => Sys2Proof.Machine.execVCleF32 h f s
  | .vCunF32 h f => Sys2Proof.Machine.execVCunF32 h f s
  | .vCvtF32 h f => Sys2Proof.Machine.execVCvtF32 h f s
  | .vCvtF16 h f => Sys2Proof.Machine.execVCvtF16 h f s
  | .vCvtB16 h f => Sys2Proof.Machine.execVCvtB16 h f s
  | .vCvtE4 h f => Sys2Proof.Machine.execVCvtE4 h f s
  | .vCvtE5 h f => Sys2Proof.Machine.execVCvtE5 h f s
  | .vCvtI32 h f => Sys2Proof.Machine.execVCvtI32 h f s
  | .vCvtI16 h f => Sys2Proof.Machine.execVCvtI16 h f s
  | .vCvtI8 h f => Sys2Proof.Machine.execVCvtI8 h f s
  | .vCvtZ32 h f => Sys2Proof.Machine.execVCvtZ32 h f s
  | .vCvtZ16 h f => Sys2Proof.Machine.execVCvtZ16 h f s
  | .vCvtZ8 h f => Sys2Proof.Machine.execVCvtZ8 h f s
  | .vCvtc h f => Sys2Proof.Machine.execVCvtc h f s
  | .vRintF32 h f => Sys2Proof.Machine.execVRintF32 h f s
  | .vScaleF32 h f => Sys2Proof.Machine.execVScaleF32 h f s
  | .vExpoF32 h f => Sys2Proof.Machine.execVExpoF32 h f s
  | .vPackI4 h f => Sys2Proof.Machine.execVPackI4 h f s
  | .vUnpkI4 h f => Sys2Proof.Machine.execVUnpkI4 h f s
  | .vPackX4 h f => Sys2Proof.Machine.execVPackX4 h f s
  | .vUnpkX4 h f => Sys2Proof.Machine.execVUnpkX4 h f s
  | .vRaddF32 h f => Sys2Proof.Machine.execVRaddF32 h f s
  | .vRaddF16 h f => Sys2Proof.Machine.execVRaddF16 h f s
  | .vRaddI32 h f => Sys2Proof.Machine.execVRaddI32 h f s
  | .vRmaxF32 h f => Sys2Proof.Machine.execVRmaxF32 h f s
  | .vRminF32 h f => Sys2Proof.Machine.execVRminF32 h f s
  | .vRmaxI32 h f => Sys2Proof.Machine.execVRmaxI32 h f s
  | .vPerm h f => Sys2Proof.Machine.execVPerm h f s
  | .vPerm8 h f => Sys2Proof.Machine.execVPerm8 h f s
  | .vRot h f => Sys2Proof.Machine.execVRot h f s
  | .vSlide h f => Sys2Proof.Machine.execVSlide h f s
  | .vBcast h f => Sys2Proof.Machine.execVBcast h f s
  | .vBcs h f => Sys2Proof.Machine.execVBcs h f s
  | .vSel h f => Sys2Proof.Machine.execVSel h f s
  | .vIota h f => Sys2Proof.Machine.execVIota h f s
  | .v0Sld h f => Sys2Proof.Machine.execV0Sld h f s
  | .v0Sldx h f => Sys2Proof.Machine.execV0Sldx h f s
  | .v0Sst h f => Sys2Proof.Machine.execV0Sst h f s
  | .v0Sstx h f => Sys2Proof.Machine.execV0Sstx h f s
  | .v0Sstm h f => Sys2Proof.Machine.execV0Sstm h f s
  | .v0Sstxm h f => Sys2Proof.Machine.execV0Sstxm h f s
  | .v1Ld h f => Sys2Proof.Machine.execV1Ld h f s
  | .v1St h f => Sys2Proof.Machine.execV1St h f s
  | .v1Ldb h f => Sys2Proof.Machine.execV1Ldb h f s
  | .v1Stm h f => Sys2Proof.Machine.execV1Stm h f s
  | .v1Gath h f => Sys2Proof.Machine.execV1Gath h f s
  | .v1Gathm h f => Sys2Proof.Machine.execV1Gathm h f s
  | .v1Scat h f => Sys2Proof.Machine.execV1Scat h f s
  | .v1Scatm h f => Sys2Proof.Machine.execV1Scatm h f s
  | .vRfwd h f => Sys2Proof.Machine.execVRfwd h f s
  | .vRrev h f => Sys2Proof.Machine.execVRrev h f s
  | .vRchk h f => Sys2Proof.Machine.execVRchk h f s
  | .mPush h f => Sys2Proof.Machine.execMPush h f s
  | .mAcc h f => Sys2Proof.Machine.execMAcc h f s
  | .mPa h f => Sys2Proof.Machine.execMPa h f s
  | .mShift h f => Sys2Proof.Machine.execMShift h f s
  | .mDrainTile h f => Sys2Proof.Machine.execMDrainTile h f s
  | .mDrainRing h f => Sys2Proof.Machine.execMDrainRing h f s
  | .mZero h f => Sys2Proof.Machine.execMZero h f s
  | .mCfgImm h f => Sys2Proof.Machine.execMCfgImm h f s
  | .mCfgReg h f => Sys2Proof.Machine.execMCfgReg h f s
  | .mFence h f => Sys2Proof.Machine.execMFence h f s
  | .cLdd h f => Sys2Proof.Machine.execCLdd h f s
  | .cLdw h f => Sys2Proof.Machine.execCLdw h f s
  | .cLdh h f => Sys2Proof.Machine.execCLdh h f s
  | .cLdb h f => Sys2Proof.Machine.execCLdb h f s
  | .cStd h f => Sys2Proof.Machine.execCStd h f s
  | .cStw h f => Sys2Proof.Machine.execCStw h f s
  | .cSth h f => Sys2Proof.Machine.execCSth h f s
  | .cStb h f => Sys2Proof.Machine.execCStb h f s
  | .cVld h f => Sys2Proof.Machine.execCVld h f s
  | .cVst h f => Sys2Proof.Machine.execCVst h f s
  | .cVstm h f => Sys2Proof.Machine.execCVstm h f s
  | .cVldb h f => Sys2Proof.Machine.execCVldb h f s
  | .cLddAcq h f => Sys2Proof.Machine.execCLddAcq h f s
  | .cLdwAcq h f => Sys2Proof.Machine.execCLdwAcq h f s
  | .cStdRel h f => Sys2Proof.Machine.execCStdRel h f s
  | .cStwRel h f => Sys2Proof.Machine.execCStwRel h f s
  | .cTld h f => Sys2Proof.Machine.execCTld h f s
  | .cTst h f => Sys2Proof.Machine.execCTst h f s
  | .cTldp h f => Sys2Proof.Machine.execCTldp h f s
  | .cTstp h f => Sys2Proof.Machine.execCTstp h f s
  | .c1TldAcq h f => Sys2Proof.Machine.execC1TldAcq h f s
  | .c1TstRel h f => Sys2Proof.Machine.execC1TstRel h f s
  | .cShld h f => Sys2Proof.Machine.execCShld h f s
  | .cShev h f => Sys2Proof.Machine.execCShev h f s
  | .cFarm h f => Sys2Proof.Machine.execCFarm h f s
  | .cFstop h f => Sys2Proof.Machine.execCFstop h f s
  | .cFwait h f => Sys2Proof.Machine.execCFwait h f s
  | .cFstat h f => Sys2Proof.Machine.execCFstat h f s
  | .c1Rfill h f => Sys2Proof.Machine.execC1Rfill h f s
  | .c1Rspill h f => Sys2Proof.Machine.execC1Rspill h f s
  | .c1Gath h f => Sys2Proof.Machine.execC1Gath h f s
  | .c1Scat h f => Sys2Proof.Machine.execC1Scat h f s
  | .c1AaddI32 h f => Sys2Proof.Machine.execC1AaddI32 h f s
  | .c1AaddI64 h f => Sys2Proof.Machine.execC1AaddI64 h f s
  | .c1AaddI32Nr h f => Sys2Proof.Machine.execC1AaddI32Nr h f s
  | .c1AaddI64Nr h f => Sys2Proof.Machine.execC1AaddI64Nr h f s
  | .c1AminI32 h f => Sys2Proof.Machine.execC1AminI32 h f s
  | .c1AminI64 h f => Sys2Proof.Machine.execC1AminI64 h f s
  | .c1AminI32Nr h f => Sys2Proof.Machine.execC1AminI32Nr h f s
  | .c1AminI64Nr h f => Sys2Proof.Machine.execC1AminI64Nr h f s
  | .c1AmaxI32 h f => Sys2Proof.Machine.execC1AmaxI32 h f s
  | .c1AmaxI64 h f => Sys2Proof.Machine.execC1AmaxI64 h f s
  | .c1AmaxI32Nr h f => Sys2Proof.Machine.execC1AmaxI32Nr h f s
  | .c1AmaxI64Nr h f => Sys2Proof.Machine.execC1AmaxI64Nr h f s
  | .c1AandI32 h f => Sys2Proof.Machine.execC1AandI32 h f s
  | .c1AandI64 h f => Sys2Proof.Machine.execC1AandI64 h f s
  | .c1AandI32Nr h f => Sys2Proof.Machine.execC1AandI32Nr h f s
  | .c1AandI64Nr h f => Sys2Proof.Machine.execC1AandI64Nr h f s
  | .c1AorI32 h f => Sys2Proof.Machine.execC1AorI32 h f s
  | .c1AorI64 h f => Sys2Proof.Machine.execC1AorI64 h f s
  | .c1AorI32Nr h f => Sys2Proof.Machine.execC1AorI32Nr h f s
  | .c1AorI64Nr h f => Sys2Proof.Machine.execC1AorI64Nr h f s
  | .c1AxorI32 h f => Sys2Proof.Machine.execC1AxorI32 h f s
  | .c1AxorI64 h f => Sys2Proof.Machine.execC1AxorI64 h f s
  | .c1AxorI32Nr h f => Sys2Proof.Machine.execC1AxorI32Nr h f s
  | .c1AxorI64Nr h f => Sys2Proof.Machine.execC1AxorI64Nr h f s
  | .c1AswpI32 h f => Sys2Proof.Machine.execC1AswpI32 h f s
  | .c1AswpI64 h f => Sys2Proof.Machine.execC1AswpI64 h f s
  | .c1AswpI32Nr h f => Sys2Proof.Machine.execC1AswpI32Nr h f s
  | .c1AswpI64Nr h f => Sys2Proof.Machine.execC1AswpI64Nr h f s
  | .c1AcasI32 h f => Sys2Proof.Machine.execC1AcasI32 h f s
  | .c1AcasI64 h f => Sys2Proof.Machine.execC1AcasI64 h f s
  | .c1AcasI32Nr h f => Sys2Proof.Machine.execC1AcasI32Nr h f s
  | .c1AcasI64Nr h f => Sys2Proof.Machine.execC1AcasI64Nr h f s
  | .cFenceRel h f => Sys2Proof.Machine.execCFenceRel h f s
  | .cFenceAcq h f => Sys2Proof.Machine.execCFenceAcq h f s
  | .cFenceFull h f => Sys2Proof.Machine.execCFenceFull h f s
  | .cFenceWRel h f => Sys2Proof.Machine.execCFenceWRel h f s
  | .cFenceWAcq h f => Sys2Proof.Machine.execCFenceWAcq h f s
  | .cFenceWFull h f => Sys2Proof.Machine.execCFenceWFull h f s
  | .c1Qapp h f => Sys2Proof.Machine.execC1Qapp h f s
  | .cBarm h f => Sys2Proof.Machine.execCBarm h f s
  | .cBarmr h f => Sys2Proof.Machine.execCBarmr h f s
  | .cBsig h f => Sys2Proof.Machine.execCBsig h f s
  | .cBsigr h f => Sys2Proof.Machine.execCBsigr h f s
  | .cBwait h f => Sys2Proof.Machine.execCBwait h f s
  | .c1Beat h f => Sys2Proof.Machine.execC1Beat h f s
  | .c1BeatOff h f => Sys2Proof.Machine.execC1BeatOff h f s
  | .c1Beatr h f => Sys2Proof.Machine.execC1Beatr h f s
  | .c1Beatrd h f => Sys2Proof.Machine.execC1Beatrd h f s
  | .c1Beatw h f => Sys2Proof.Machine.execC1Beatw h f s
  | .c1Pst h f => Sys2Proof.Machine.execC1Pst h f s
  | .c1Pstm h f => Sys2Proof.Machine.execC1Pstm h f s
  | .c1Pld h f => Sys2Proof.Machine.execC1Pld h f s
  | .c1Bkrun h f => Sys2Proof.Machine.execC1Bkrun h f s
  | .c1KvldF16 h f => Sys2Proof.Machine.execC1KvldF16 h f s
  | .c1KvldI8 h f => Sys2Proof.Machine.execC1KvldI8 h f s
  | .c1Kvst h f => Sys2Proof.Machine.execC1Kvst h f s
  | .c1Kvx h f => Sys2Proof.Machine.execC1Kvx h f s
  | .c1Kvho h f => Sys2Proof.Machine.execC1Kvho h f s
  | .c1Kvfree h f => Sys2Proof.Machine.execC1Kvfree h f s
  | .c1Cancel h f => Sys2Proof.Machine.execC1Cancel h f s
  | .cLnch h f => Sys2Proof.Machine.execCLnch h f s
  | .bBr h f => Sys2Proof.Machine.execBBr h f s
  | .bBri h f => Sys2Proof.Machine.execBBri h f s
  | .bCall h f => Sys2Proof.Machine.execBCall h f s
  | .bCalli h f => Sys2Proof.Machine.execBCalli h f s
  | .bRet h f => Sys2Proof.Machine.execBRet h f s
  | .bBrx h f => Sys2Proof.Machine.execBBrx h f s
  | .bDbnz h f => Sys2Proof.Machine.execBDbnz h f s
  | .bLoop h f => Sys2Proof.Machine.execBLoop h f s
  | .bPcnt h f => Sys2Proof.Machine.execBPcnt h f s
  | .bPcntx h f => Sys2Proof.Machine.execBPcntx h f s
  | .bPwhl h f => Sys2Proof.Machine.execBPwhl h f s
  | .bPwhlx h f => Sys2Proof.Machine.execBPwhlx h f s
  | .bEnd h f => Sys2Proof.Machine.execBEnd h f s
  | .bTrap h f => Sys2Proof.Machine.execBTrap h f s
  | .bTrapr h f => Sys2Proof.Machine.execBTrapr h f s
  | .bRft h f => Sys2Proof.Machine.execBRft h f s
  | .bSetlc h f => Sys2Proof.Machine.execBSetlc h f s
  | .bSetlci h f => Sys2Proof.Machine.execBSetlci h f s
  | .bSetdp h f => Sys2Proof.Machine.execBSetdp h f s
  | .bSetdpi h f => Sys2Proof.Machine.execBSetdpi h f s
  | .bRot h f => Sys2Proof.Machine.execBRot h f s
  | .bRotclr h f => Sys2Proof.Machine.execBRotclr h f s
  | .bStage h f => Sys2Proof.Machine.execBStage h f s
  | .bLoopset h f => Sys2Proof.Machine.execBLoopset h f s
  | .noLoopBoundaryReached => Sys2Proof.Machine.execNoLoopBoundaryReached s
  | .holdEnd => Sys2Proof.Machine.execHoldEnd s
  | .malformedMessage => Sys2Proof.Machine.execMalformedMessage s

end Sys2Proof.Machine
end

