-- ==== Sys2Proof/Machine/Schedule.lean ====
section
/-! DEFINITION. What the agent that has the turn does with it: the rows of the opcode table open to each agent, and the
choice among them (log 1). The order that the spec fixes among the steps of one core is fixed here; steps whose order it
leaves open are chosen by `pick`. -/

namespace Sys2Proof.Machine

/-- What one turn does. -/
inductive Act where
  /-- nothing is open to the agent -/
  | idle
  /-- a row of the table that is no slot syllable, with the number for its own choices -/
  | row (i : Instr) (pick : Nat)
  /-- the first operation left of the bundle that a core issues -/
  | op (sl : Slot) (w : BitVec 63)
  /-- the condition tree of the bundle that a core issues -/
  | tree (i : Instr)
  /-- a bank unit stops: past its program's end (R292), or at a word that R51 refuses -/
  | bankStop (cause : Nat)
  /-- the hub takes an input that no row names -/
  | input (pick : Nat)

/-- One of several open rows, by `pick`: the remainder chooses the row, and the quotient is left for the row's own choices. -/
def chooseRow (l : List Instr) (pick : Nat) : Act :=
  match l[pick % l.length]? with
  | some i => .row i (pick / l.length)
  | none => .idle

/-- A row that is open where a condition holds. -/
def rowIf (b : Bool) (i : Instr) : List Instr := if b then [i] else []

/-! ## Cores -/

/-- The row in which a fixed-latency result lands (R84, R264, R338). -/
def landRow (f : Flight) : Instr :=
  match f.dest with
  | .status i => if i = 0x024 then .lanemapWrite else if f.program then .statusWordWrite else .resultLand
  | .base _ => .baseRegisterWrite
  | _ => .resultLand

/-- The pending transfer takes a trap or ends the unit, and writes no status word. -/
def Core.leaves (c : Core) : Bool := match c.xfer with | some x => x.kind != .go | none => false

/-- What is due at the core's present issue time, and so comes before its next bundle: a transfer, a D-pair comparison, an
on-chip access, a fixed-latency result. A transfer that takes a trap finds the results of its own cycle written (R338). -/
def State.dueRow (s : State) (n : Nat) : Option Instr :=
  let c := s.coreAt n
  if s.transferReady n && !c.leaves then some .branchTransfer
  else if c.twinDue then some .dpairCompare
  else if (s.dueTimed n).isSome && !s.dueFirst n then some .resultLand
  else if c.det && !c.sup && c.engines.any c.spillPops then some .ringSpillWrite
  else
    match c.dueFlight with
    | some e => some (landRow e.1)
    | none => if s.transferReady n then some .branchTransfer else none

/-- The rows of memory accesses that may take place at any time. In a deterministic launch an access that returns something
to the core takes place at its padded time (R395), and each of these readiness tests waits for that time. -/
def State.memoryRows (s : State) (n : Nat) : List Instr :=
  let c := s.coreAt n
  rowIf (c.loads.any (s.loadReady n)) .registerResultLand ++ rowIf (!(s.enginesReady n).isEmpty) .tileTransferLand ++
    rowIf (c.engines.any (s.fillReady n)) .ringFillAppend ++ rowIf (c.engines.any (s.spillReady n)) .ringSpillWrite ++
    rowIf (c.flumes.any (s.flumeReadReady n)) .flumeElementRead ++
    rowIf (c.flumes.any (s.flumeWriteReady n)) .flumeElementWrite ++ rowIf (c.sb.any (s.storeReady n)) .storePerform

/-- The row of an event at a bundle boundary, lowest code first (R354). -/
def eventRow (code : Nat) : Instr :=
  if code = 0x20 then .preemptionEntry else if code = 0x0E then .phaseOverrun else .handlerEntry

/-- The fetch buffer is without a line of the bundle whose cycle has come (R334). -/
def Core.starved (c : Core) : Bool :=
  decide (c.next ≤ c.time) && !c.transferDue && (match c.fetched with | .missing => true | _ => false)

/-- What a core with no bundle in progress and nothing due does next with its issue: the entry of a trap, a boundary event, a
rendezvous, a hold, the slip, a fetch, an attempt at its next bundle. -/
def State.issueRow (s : State) (n : Nat) : Option Instr :=
  let c := s.coreAt n
  if c.entering.isSome then (if s.entryWaits n && c.fences.all (fun f => f.done || !s.fenceDone n f) then none else some .handlerEntry)
  else if !c.ticks then none
  else
    match s.eventDue n with
    | some k => some (eventRow k)
    | none =>
      if s.paddedHold n || s.onChipHold n then some .headerIssue
      else if c.waiting.isSome && s.mayPass n then some .rendezvousPass
      else if s.slipReady then some .slipIssue
      else if c.starved then rowIf (!s.lineBusy n) .fetchLine |>.head?
      else
        match c.hold, c.decode with
        | .waiting, .ok b => if (s.begun b).holdWaits b then some .headerIssue else some .holdEnd
        | _, _ => some .headerIssue

/-- The turn of a core. The operations of a bundle in progress come first, its tree before them; then what is due; then its
issue and its memory accesses in any order. -/
def State.coreAct (s : State) (n pick : Nat) : Act :=
  let c := s.coreAt n
  match c.issue with
  | some i =>
    (match i.tree, i.ops with
     | some w, _ => (match decodeT w with | some t => .tree t | none => .idle)
     | none, (sl, w) :: _ => .op sl w
     | none, [] => .idle)
  | none =>
    match s.dueRow n with
    | some r => chooseRow (r :: s.memoryRows n) pick
    | none =>
      let early := rowIf (c.running && c.nextLine.isSome && !s.lineBusy n) .fetchLine
      let main := match s.issueRow n with | some r => [r] | none => []
      chooseRow (main ++ s.memoryRows n ++ early) pick

/-! ## The other agents -/

/-- The turn of a die's outbound queue. -/
def State.outboundAct (s : State) (d pick : Nat) : Act := chooseRow (rowIf (!(s.outReady d).isEmpty) .outboundPerform) pick

/-- The turn of a die's L2. -/
def State.l2Act (s : State) (d pick : Nat) : Act := chooseRow (rowIf (!(s.l2Lines d).isEmpty) .l2LineLeave) pick

/-- The turn of a die's controller and beat counter. -/
def State.beatAct (s : State) (d pick : Nat) : Act :=
  let x := s.dieAt d
  chooseRow
    (rowIf (!(s.arrivals d).isEmpty || !(s.beatAsks d).isEmpty) .workedAccessArrival ++
      rowIf (x.cmds.any (fun c => !c.arrived)) .bankCommandArrival ++ rowIf x.gapDue .refreshGap ++
      rowIf x.mayAccess .accessBeatOpen ++ rowIf x.mayCompute .computeBeatOpen ++ rowIf x.mayEnd .computeBeatEnd ++
      rowIf (!x.atLimit.isEmpty) .stretchLimit ++ rowIf (!x.overrun.isEmpty) .noLoopBoundaryReached) pick

/-- The turn of a bank unit: its next instruction (R288, R289). -/
def State.bankAct (s : State) (d b : Nat) : Act :=
  match s.unitOf d b with
  | none => .idle
  | some u =>
    if !(s.dieAt d).mayIssue u then .idle
    else
      match u.program[u.index]? with
      | none => .bankStop 6
      | some w => match decodeBk w with | some i => .row i 0 | none => .bankStop 1

/-- The row in which a packet of a type is accepted (R215). -/
def packetRow (ty : Nat) : Instr :=
  match ty with
  | 0 => .pktNop | 1 => .pktCopy | 2 => .pktCopyReduce | 3 => .pktLaunch | 4 => .pktSignal | _ => .pktGraph

/-- The turn of a landing engine. -/
def State.landingAct (s : State) (d pick : Nat) : Act :=
  chooseRow
    (rowIf ((s.queuesOf d).any s.slotReady) .landingSlotValid ++
      (List.range 6).flatMap (fun ty => rowIf (!(s.acceptable d ty).isEmpty) (packetRow ty)) ++
      rowIf (!(s.chunksReady d false).isEmpty) .copyChunk ++ rowIf (!(s.chunksReady d true).isEmpty) .reduceChunk ++
      rowIf (!(s.stallable d).isEmpty) .slotStallTimeout) pick

/-- The turn of a seed orchard. -/
def State.orchardAct (s : State) (d pick : Nat) : Act := chooseRow (rowIf (!(s.orchardReady d).isEmpty) .orchardChunk) pick

/-- The turn of a dispatcher. -/
def State.dispatcherAct (s : State) (cl pick : Nat) : Act :=
  let k := pick / 64
  chooseRow
    (rowIf (!(s.unitActs cl k).isEmpty) .unitStart ++ rowIf (!(s.resumes cl k).isEmpty) .resumeEntry ++
      rowIf (!(s.victims cl).isEmpty) .preemptionRequest) pick

/-- The turn of a walker. -/
def State.walkerAct (s : State) (cl pick : Nat) : Act :=
  chooseRow (rowIf (!(s.startables cl).isEmpty) .graphNodeStart ++ rowIf (!(s.completables cl).isEmpty) .graphNodeComplete) pick

/-- The row of the table in which the hub takes an input; none for an input without a row. -/
def hubInstr (r : HubRow) : Option Instr :=
  match r with
  | .malformed => some .malformedMessage
  | .msg k => if k = 1 then some .msgWrite else if k = 2 then some .msgRead else if k = 3 then some .msgAtomicAdd else some .msgReduce
  | .svc c =>
    (match c with
     | 1 => some .svcEnableQueue | 2 => some .svcDisableQueue | 3 => some .svcOrchardFill
     | 4 => some .svcAttestationReport | 5 => some .svcReadScaleTickets | 6 => some .svcRetireContext
     | 7 => some .svcRegisterContext | 8 => some .svcBindJob | 9 => some .svcReadServiceWord | _ => some .svcSetPeer)
  | .peerReply => some .peerChunkReply
  | .mgmt => some .mgmtConnection
  | .powerGood => some .powerGood
  | .powerLoss => some .powerLoss
  | .layer => some .dramLayerReady
  | .band => some .temperatureBandChange
  | .reconcile => some .energyReconcile
  | .ecc => some .eccUncorrectable
  | .dirty => some .dirtyLineEviction
  | .debugStep => some .debugStep
  | .other => none

/-- The turn of the hub: a page to quarantine, or the next input. -/
def State.hubAct (s : State) (pick : Nat) : Act :=
  let q := !s.hub.bad.isEmpty
  if q && pick % 2 == 0 then .row .pageQuarantine 0
  else
    let p := if q then pick / 2 else pick
    match s.nextInput p with
    | none => .idle
    | some (_, x) => match hubInstr (s.inputRow x) with | some i => .row i p | none => .input p

/-- What the turn does. -/
def State.schedule (s : State) : Act :=
  let p := s.turn.pick
  match s.turn.agent with
  | .core n => s.coreAct n p
  | .outbound d => s.outboundAct d p
  | .l2 d => s.l2Act d p
  | .beat d => s.beatAct d p
  | .bank d b => s.bankAct d b
  | .landing d => s.landingAct d p
  | .orchard d => s.orchardAct d p
  | .dispatcher cl => s.dispatcherAct cl p
  | .walker cl => s.walkerAct cl p
  | .hub => s.hubAct p

/-! ## From one turn to the next -/

/-- The agents by number: 384 cores, 6 dies with 1,024 banks each and their engines, 24 clusters, the hub. -/
def agentOf (k : Nat) : Agent :=
  let m := k % 6613
  if m < 384 then .core m
  else if m < 390 then .outbound (m - 384)
  else if m < 396 then .l2 (m - 390)
  else if m < 402 then .beat (m - 396)
  else if m < 408 then .landing (m - 402)
  else if m < 414 then .orchard (m - 408)
  else if m < 438 then .dispatcher (m - 414)
  else if m < 462 then .walker (m - 438)
  else if m < 6606 then .bank ((m - 462) / 1024) ((m - 462) % 1024)
  else .hub

/-- The next turn: that of the core which issues a bundle, until its operations have acted; otherwise any (log 1). -/
def State.nextTurn (s : State) : Turn :=
  let any_ : Turn := { agent := agentOf (Config.nextTurn s.tick).1, pick := (Config.nextTurn s.tick).2 }
  match s.turn.agent with
  | .core n => if (s.coreAt n).issue.isSome then { agent := .core n, pick := 0 } else any_
  | _ => any_

/-- A turn counted, and the next one chosen. -/
def State.advance (s : State) : State := { s with turn := s.nextTurn, tick := s.tick + 1 }

/-- The issue of core `n` ends once its tree and its operations have acted. -/
def State.wrapUp (s : State) (n : Nat) : State :=
  match (s.coreAt n).issue with
  | some i => if i.tree.isNone && i.ops.isEmpty then s.finishIssue n else s
  | none => s

/-- `s` with the choices of a row. -/
def State.withPick (s : State) (p : Nat) : State := { s with turn := { s.turn with pick := p } }

/-- The core that issues, without the first of the operations left. -/
def State.popOp (s : State) : State :=
  s.onMe (fun c => { c with issue := c.issue.map (fun (i : Issue) => { i with ops := i.ops.drop 1 }) })

/-- The core that issues, without its tree. -/
def State.popTree (s : State) : State :=
  s.onMe (fun c => { c with issue := c.issue.map (fun (i : Issue) => { i with tree := none }) })

/-- What follows every turn: the end of an issue that is complete, and the next turn. -/
def State.afterTurn (s : State) : State :=
  (match s.turn.agent with | .core n => s.wrapUp n | _ => s).advance

/-- The operation of a syllable, on a core that issues it. -/
def runSyllable (sl : Slot) (w : BitVec 63) (s : State) : Host.Outcome State Fault Refusal :=
  match semOfWord sl w with
  | some m => m.run (hdrOf sl w) s
  | none => .next s

/-- `s` with bank 0 of die 0 about to issue a word, and the turn there. -/
def State.withBankWord (s : State) (w : BitVec 32) : State :=
  let u : BankUnit := {
    cmd := 0, row := 0, latch := [], acc0 := [], acc1 := [], loop0 := BankLoop.zero, loop1 := BankLoop.zero, program := [w],
    index := 0, cycle := 0, busy := [], halted := false, limited := true, stopping := false, noSpill := false, suspensions := 0 }
  { s.putUnit 0 0 u with turn := { agent := .bank 0 0, pick := 0 } }

/-- The slot in which a syllable is an operation; none for a condition tree. -/
def slotFor (w : BitVec 63) : Option Slot := allSlots.find? (fun sl => (semOfWord sl w).isSome)

/-- `s` with core 0 about to act on one syllable of a bundle, and the turn there. -/
def State.withSyllable (s : State) (w : BitVec 63) : State :=
  let c := s.coreAt 0
  let ops : List (Slot × BitVec 63) := match slotFor w with | some sl => [(sl, w)] | none => []
  let i : Issue := {
    pc := c.pc, scope := 0, leaf := 0, ops := ops, tree := (if ops.isEmpty then some w else none), after := c.pc + 16, repsLeft := 0,
    branch := false, pops := [], free := s.free, repc := c.sw.repc, segState := c.sw.segState, phaseCnt := c.sw.phaseCnt }
  { s.putCore 0 { c with issue := some i } with turn := { agent := .core 0, pick := 0 } }

/-- A next state changed; a stop stays. -/
def andThen (o : Host.Outcome State Fault Refusal) (f : State → State) : Host.Outcome State Fault Refusal :=
  match o with
  | .next s => .next (f s)
  | .fault r => .fault r
  | .refused r => .refused r

end Sys2Proof.Machine
end

