-- ==== Sys2Proof/Machine/Step.lean ====
section
/-! DEFINITION. One step of the package: the agent that has the turn does what Machine/Schedule.lean finds open to it, and
the next turn is chosen. -/

namespace Sys2Proof.Machine

/-- One step. -/
def step (s : State) : Host.Outcome State Fault Refusal :=
  match s.schedule with
  | .idle => .next s.afterTurn
  | .row i p => andThen (exec i (s.withPick p)) State.afterTurn
  | .op sl w => andThen (runSyllable sl w s.popOp) State.afterTurn
  | .tree i => andThen (exec i s.popTree) State.afterTurn
  | .bankStop cause => .next (s.bankFault s.bankNo.1 s.bankNo.2 cause).afterTurn
  | .input p => andThen (s.withPick p).takeOther State.afterTurn

/-- `s` with a bank-unit instruction, or the syllable of an operation, where the next step fetches it (log 19): bank 0 of
die 0 runs a program of the one word, or core 0 issues a bundle of the one syllable; and the turn is there. -/
def State.withFetchWord (s : State) (nbits w : Nat) : State :=
  if nbits ≤ 32 then s.withBankWord (BitVec.ofNat 32 w) else s.withSyllable (BitVec.ofNat 63 w)

end Sys2Proof.Machine
end

