-- ==== Sys2Proof/Laws/Encoding.lean ====
section
/-! SUPPORT. Each layout's fields read back from its encoding. -/

set_option linter.unusedSimpArgs false

namespace Sys2Proof

set_option Elab.async false

theorem bitsAt_append_high {a b k n : Nat} (x : BitVec a) (y : BitVec b) (h : b ≤ k) :
    bitsAt (x ++ y) k n = bitsAt x (k - b) n := by
  apply BitVec.eq_of_getLsbD_eq
  intro i hi
  simp only [bitsAt, BitVec.getLsbD_extractLsb', BitVec.getLsbD_append, hi, decide_true, Bool.true_and]
  rw [if_neg (by omega)]
  congr 1; omega

theorem bitsAt_append_low {a b k n : Nat} (x : BitVec a) (y : BitVec b) (h : k + n ≤ b) :
    bitsAt (x ++ y) k n = bitsAt y k n := by
  apply BitVec.eq_of_getLsbD_eq
  intro i hi
  simp only [bitsAt, BitVec.getLsbD_extractLsb', BitVec.getLsbD_append, hi, decide_true, Bool.true_and]
  rw [if_pos (by omega)]

theorem bitsAt_setWidth {a b k n : Nat} (x : BitVec a) (h : k + n ≤ b) : bitsAt (x.setWidth b) k n = bitsAt x k n := by
  apply BitVec.eq_of_getLsbD_eq
  intro i hi
  simp only [bitsAt, BitVec.getLsbD_extractLsb', BitVec.getLsbD_setWidth, hi, decide_true, Bool.true_and]
  have : k + i < b := by omega
  simp [this]

theorem bitsAt_all {a : Nat} (x : BitVec a) : bitsAt x 0 a = x := by simp [bitsAt]

theorem bitAt_append_high {a b k : Nat} (x : BitVec a) (y : BitVec b) (h : b ≤ k) : bitAt (x ++ y) k = bitAt x (k - b) := by
  simp only [bitAt, BitVec.getLsbD_append]; rw [if_neg (by omega)]

theorem bitAt_append_low {a b k : Nat} (x : BitVec a) (y : BitVec b) (h : k < b) : bitAt (x ++ y) k = bitAt y k := by
  simp only [bitAt, BitVec.getLsbD_append]; rw [if_pos h]

theorem bitAt_setWidth {a b k : Nat} (x : BitVec a) (h : k < b) : bitAt (x.setWidth b) k = bitAt x k := by
  simp [bitAt, BitVec.getLsbD_setWidth, h]

@[simp] theorem bitAt_bitOf (b : Bool) : bitAt (bitOf b) 0 = b := by cases b <;> rfl

@[simp] theorem bitsAt_zero {a k n : Nat} : bitsAt (0#a) k n = 0#n := by
  apply BitVec.eq_of_getLsbD_eq
  intro i hi
  simp [bitsAt]

/-! ## Layouts -/

theorem OpNone.dec_enc (f : OpNone) : OpNone.dec (OpNone.enc f) = some f := by
  simp (disch := omega) only [OpNone.dec, OpNone.enc, bitsAt_setWidth, bitsAt_append_high, bitsAt_append_low, bitsAt_all,
    bitAt_setWidth, bitAt_append_high, bitAt_append_low, bitAt_bitOf, bitsAt_zero, -Nat.reduceAdd, -Nat.reduceSub]
  simp (disch := omega) [bitsAt_all]

theorem OpRR.dec_enc (f : OpRR) : OpRR.dec (OpRR.enc f) = some f := by
  simp (disch := omega) only [OpRR.dec, OpRR.enc, bitsAt_setWidth, bitsAt_append_high, bitsAt_append_low, bitsAt_all,
    bitAt_setWidth, bitAt_append_high, bitAt_append_low, bitAt_bitOf, bitsAt_zero, -Nat.reduceAdd, -Nat.reduceSub]
  simp (disch := omega) [bitsAt_all]

theorem OpRI.dec_enc (f : OpRI) : OpRI.dec (OpRI.enc f) = some f := by
  simp (disch := omega) only [OpRI.dec, OpRI.enc, bitsAt_setWidth, bitsAt_append_high, bitsAt_append_low, bitsAt_all,
    bitAt_setWidth, bitAt_append_high, bitAt_append_low, bitAt_bitOf, bitsAt_zero, -Nat.reduceAdd, -Nat.reduceSub]
  simp (disch := omega) [bitsAt_all]

theorem OpSH.dec_enc (f : OpSH) : OpSH.dec (OpSH.enc f) = some f := by
  simp (disch := omega) only [OpSH.dec, OpSH.enc, bitsAt_setWidth, bitsAt_append_high, bitsAt_append_low, bitsAt_all,
    bitAt_setWidth, bitAt_append_high, bitAt_append_low, bitAt_bitOf, bitsAt_zero, -Nat.reduceAdd, -Nat.reduceSub]
  simp (disch := omega) [bitsAt_all]

theorem OpLEA.dec_enc (f : OpLEA) : OpLEA.dec (OpLEA.enc f) = some f := by
  simp (disch := omega) only [OpLEA.dec, OpLEA.enc, bitsAt_setWidth, bitsAt_append_high, bitsAt_append_low, bitsAt_all,
    bitAt_setWidth, bitAt_append_high, bitAt_append_low, bitAt_bitOf, bitsAt_zero, -Nat.reduceAdd, -Nat.reduceSub]
  simp (disch := omega) [bitsAt_all]

theorem OpPR.dec_enc (f : OpPR) : OpPR.dec (OpPR.enc f) = some f := by
  simp (disch := omega) only [OpPR.dec, OpPR.enc, bitsAt_setWidth, bitsAt_append_high, bitsAt_append_low, bitsAt_all,
    bitAt_setWidth, bitAt_append_high, bitAt_append_low, bitAt_bitOf, bitsAt_zero, -Nat.reduceAdd, -Nat.reduceSub]
  simp (disch := omega) [bitsAt_all]

theorem OpPI.dec_enc (f : OpPI) : OpPI.dec (OpPI.enc f) = some f := by
  simp (disch := omega) only [OpPI.dec, OpPI.enc, bitsAt_setWidth, bitsAt_append_high, bitsAt_append_low, bitsAt_all,
    bitAt_setWidth, bitAt_append_high, bitAt_append_low, bitAt_bitOf, bitsAt_zero, -Nat.reduceAdd, -Nat.reduceSub]
  simp (disch := omega) [bitsAt_all]

theorem OpPL.dec_enc (f : OpPL) : OpPL.dec (OpPL.enc f) = some f := by
  simp (disch := omega) only [OpPL.dec, OpPL.enc, bitsAt_setWidth, bitsAt_append_high, bitsAt_append_low, bitsAt_all,
    bitAt_setWidth, bitAt_append_high, bitAt_append_low, bitAt_bitOf, bitsAt_zero, -Nat.reduceAdd, -Nat.reduceSub]
  simp (disch := omega) [bitsAt_all]

theorem OpPB.dec_enc (f : OpPB) : OpPB.dec (OpPB.enc f) = some f := by
  simp (disch := omega) only [OpPB.dec, OpPB.enc, bitsAt_setWidth, bitsAt_append_high, bitsAt_append_low, bitsAt_all,
    bitAt_setWidth, bitAt_append_high, bitAt_append_low, bitAt_bitOf, bitsAt_zero, -Nat.reduceAdd, -Nat.reduceSub]
  simp (disch := omega) [bitsAt_all]

theorem OpWI.dec_enc (f : OpWI) : OpWI.dec (OpWI.enc f) = some f := by
  simp (disch := omega) only [OpWI.dec, OpWI.enc, bitsAt_setWidth, bitsAt_append_high, bitsAt_append_low, bitsAt_all,
    bitAt_setWidth, bitAt_append_high, bitAt_append_low, bitAt_bitOf, bitsAt_zero, -Nat.reduceAdd, -Nat.reduceSub]
  simp (disch := omega) [bitsAt_all]

theorem OpCK.dec_enc (f : OpCK) : OpCK.dec (OpCK.enc f) = some f := by
  simp (disch := omega) only [OpCK.dec, OpCK.enc, bitsAt_setWidth, bitsAt_append_high, bitsAt_append_low, bitsAt_all,
    bitAt_setWidth, bitAt_append_high, bitAt_append_low, bitAt_bitOf, bitsAt_zero, -Nat.reduceAdd, -Nat.reduceSub]
  simp (disch := omega) [bitsAt_all]

theorem OpMOV.dec_enc (f : OpMOV) : OpMOV.dec (OpMOV.enc f) = some f := by
  simp (disch := omega) only [OpMOV.dec, OpMOV.enc, bitsAt_setWidth, bitsAt_append_high, bitsAt_append_low, bitsAt_all,
    bitAt_setWidth, bitAt_append_high, bitAt_append_low, bitAt_bitOf, bitsAt_zero, -Nat.reduceAdd, -Nat.reduceSub]
  simp (disch := omega) [bitsAt_all]

theorem OpRSW.dec_enc (f : OpRSW) : OpRSW.dec (OpRSW.enc f) = some f := by
  simp (disch := omega) only [OpRSW.dec, OpRSW.enc, bitsAt_setWidth, bitsAt_append_high, bitsAt_append_low, bitsAt_all,
    bitAt_setWidth, bitAt_append_high, bitAt_append_low, bitAt_bitOf, bitsAt_zero, -Nat.reduceAdd, -Nat.reduceSub]
  simp (disch := omega) [bitsAt_all]

theorem OpWSW.dec_enc (f : OpWSW) : OpWSW.dec (OpWSW.enc f) = some f := by
  simp (disch := omega) only [OpWSW.dec, OpWSW.enc, bitsAt_setWidth, bitsAt_append_high, bitsAt_append_low, bitsAt_all,
    bitAt_setWidth, bitAt_append_high, bitAt_append_low, bitAt_bitOf, bitsAt_zero, -Nat.reduceAdd, -Nat.reduceSub]
  simp (disch := omega) [bitsAt_all]

theorem OpRTAG.dec_enc (f : OpRTAG) : OpRTAG.dec (OpRTAG.enc f) = some f := by
  simp (disch := omega) only [OpRTAG.dec, OpRTAG.enc, bitsAt_setWidth, bitsAt_append_high, bitsAt_append_low, bitsAt_all,
    bitAt_setWidth, bitAt_append_high, bitAt_append_low, bitAt_bitOf, bitsAt_zero, -Nat.reduceAdd, -Nat.reduceSub]
  simp (disch := omega) [bitsAt_all]

theorem OpWTAG.dec_enc (f : OpWTAG) : OpWTAG.dec (OpWTAG.enc f) = some f := by
  simp (disch := omega) only [OpWTAG.dec, OpWTAG.enc, bitsAt_setWidth, bitsAt_append_high, bitsAt_append_low, bitsAt_all,
    bitAt_setWidth, bitAt_append_high, bitAt_append_low, bitAt_bitOf, bitsAt_zero, -Nat.reduceAdd, -Nat.reduceSub]
  simp (disch := omega) [bitsAt_all]

theorem OpMFROM.dec_enc (f : OpMFROM) : OpMFROM.dec (OpMFROM.enc f) = some f := by
  simp (disch := omega) only [OpMFROM.dec, OpMFROM.enc, bitsAt_setWidth, bitsAt_append_high, bitsAt_append_low, bitsAt_all,
    bitAt_setWidth, bitAt_append_high, bitAt_append_low, bitAt_bitOf, bitsAt_zero, -Nat.reduceAdd, -Nat.reduceSub]
  simp (disch := omega) [bitsAt_all]

theorem OpMTO.dec_enc (f : OpMTO) : OpMTO.dec (OpMTO.enc f) = some f := by
  simp (disch := omega) only [OpMTO.dec, OpMTO.enc, bitsAt_setWidth, bitsAt_append_high, bitsAt_append_low, bitsAt_all,
    bitAt_setWidth, bitAt_append_high, bitAt_append_low, bitAt_bitOf, bitsAt_zero, -Nat.reduceAdd, -Nat.reduceSub]
  simp (disch := omega) [bitsAt_all]

theorem OpPGET.dec_enc (f : OpPGET) : OpPGET.dec (OpPGET.enc f) = some f := by
  simp (disch := omega) only [OpPGET.dec, OpPGET.enc, bitsAt_setWidth, bitsAt_append_high, bitsAt_append_low, bitsAt_all,
    bitAt_setWidth, bitAt_append_high, bitAt_append_low, bitAt_bitOf, bitsAt_zero, -Nat.reduceAdd, -Nat.reduceSub]
  simp (disch := omega) [bitsAt_all]

theorem OpLFL.dec_enc (f : OpLFL) : OpLFL.dec (OpLFL.enc f) = some f := by
  simp (disch := omega) only [OpLFL.dec, OpLFL.enc, bitsAt_setWidth, bitsAt_append_high, bitsAt_append_low, bitsAt_all,
    bitAt_setWidth, bitAt_append_high, bitAt_append_low, bitAt_bitOf, bitsAt_zero, -Nat.reduceAdd, -Nat.reduceSub]
  simp (disch := omega) [bitsAt_all]

theorem OpLFS.dec_enc (f : OpLFS) : OpLFS.dec (OpLFS.enc f) = some f := by
  simp (disch := omega) only [OpLFS.dec, OpLFS.enc, bitsAt_setWidth, bitsAt_append_high, bitsAt_append_low, bitsAt_all,
    bitAt_setWidth, bitAt_append_high, bitAt_append_low, bitAt_bitOf, bitsAt_zero, -Nat.reduceAdd, -Nat.reduceSub]
  simp (disch := omega) [bitsAt_all]

theorem OpSA.dec_enc (f : OpSA) : OpSA.dec (OpSA.enc f) = some f := by
  simp (disch := omega) only [OpSA.dec, OpSA.enc, bitsAt_setWidth, bitsAt_append_high, bitsAt_append_low, bitsAt_all,
    bitAt_setWidth, bitAt_append_high, bitAt_append_low, bitAt_bitOf, bitsAt_zero, -Nat.reduceAdd, -Nat.reduceSub]
  simp (disch := omega) [bitsAt_all]

theorem OpTI.dec_enc (k : BitVec 2) (f : OpTI) : OpTI.dec k (OpTI.enc k f) = some f := by
  simp (disch := omega) only [OpTI.dec, OpTI.enc, bitsAt_setWidth, bitsAt_append_high, bitsAt_append_low, bitsAt_all,
    bitAt_setWidth, bitAt_append_high, bitAt_append_low, bitAt_bitOf, bitsAt_zero, -Nat.reduceAdd, -Nat.reduceSub]
  simp (disch := omega) [bitsAt_all]

theorem OpCTXD.dec_enc (k : BitVec 1) (f : OpCTXD) : OpCTXD.dec k (OpCTXD.enc k f) = some f := by
  simp (disch := omega) only [OpCTXD.dec, OpCTXD.enc, bitsAt_setWidth, bitsAt_append_high, bitsAt_append_low, bitsAt_all,
    bitAt_setWidth, bitAt_append_high, bitAt_append_low, bitAt_bitOf, bitsAt_zero, -Nat.reduceAdd, -Nat.reduceSub]
  simp (disch := omega) [bitsAt_all]

theorem OpBD.dec_enc (f : OpBD) : OpBD.dec (OpBD.enc f) = some f := by
  simp (disch := omega) only [OpBD.dec, OpBD.enc, bitsAt_setWidth, bitsAt_append_high, bitsAt_append_low, bitsAt_all,
    bitAt_setWidth, bitAt_append_high, bitAt_append_low, bitAt_bitOf, bitsAt_zero, -Nat.reduceAdd, -Nat.reduceSub]
  simp (disch := omega) [bitsAt_all]

theorem OpBDL.dec_enc (f : OpBDL) : OpBDL.dec (OpBDL.enc f) = some f := by
  simp (disch := omega) only [OpBDL.dec, OpBDL.enc, bitsAt_setWidth, bitsAt_append_high, bitsAt_append_low, bitsAt_all,
    bitAt_setWidth, bitAt_append_high, bitAt_append_low, bitAt_bitOf, bitsAt_zero, -Nat.reduceAdd, -Nat.reduceSub]
  simp (disch := omega) [bitsAt_all]

theorem OpBRG.dec_enc (f : OpBRG) : OpBRG.dec (OpBRG.enc f) = some f := by
  simp (disch := omega) only [OpBRG.dec, OpBRG.enc, bitsAt_setWidth, bitsAt_append_high, bitsAt_append_low, bitsAt_all,
    bitAt_setWidth, bitAt_append_high, bitAt_append_low, bitAt_bitOf, bitsAt_zero, -Nat.reduceAdd, -Nat.reduceSub]
  simp (disch := omega) [bitsAt_all]

theorem OpBRL.dec_enc (f : OpBRL) : OpBRL.dec (OpBRL.enc f) = some f := by
  simp (disch := omega) only [OpBRL.dec, OpBRL.enc, bitsAt_setWidth, bitsAt_append_high, bitsAt_append_low, bitsAt_all,
    bitAt_setWidth, bitAt_append_high, bitAt_append_low, bitAt_bitOf, bitsAt_zero, -Nat.reduceAdd, -Nat.reduceSub]
  simp (disch := omega) [bitsAt_all]

theorem OpBRD.dec_enc (f : OpBRD) : OpBRD.dec (OpBRD.enc f) = some f := by
  simp (disch := omega) only [OpBRD.dec, OpBRD.enc, bitsAt_setWidth, bitsAt_append_high, bitsAt_append_low, bitsAt_all,
    bitAt_setWidth, bitAt_append_high, bitAt_append_low, bitAt_bitOf, bitsAt_zero, -Nat.reduceAdd, -Nat.reduceSub]
  simp (disch := omega) [bitsAt_all]

theorem OpBWC.dec_enc (f : OpBWC) : OpBWC.dec (OpBWC.enc f) = some f := by
  simp (disch := omega) only [OpBWC.dec, OpBWC.enc, bitsAt_setWidth, bitsAt_append_high, bitsAt_append_low, bitsAt_all,
    bitAt_setWidth, bitAt_append_high, bitAt_append_low, bitAt_bitOf, bitsAt_zero, -Nat.reduceAdd, -Nat.reduceSub]
  simp (disch := omega) [bitsAt_all]

theorem OpBT.dec_enc (f : OpBT) : OpBT.dec (OpBT.enc f) = some f := by
  simp (disch := omega) only [OpBT.dec, OpBT.enc, bitsAt_setWidth, bitsAt_append_high, bitsAt_append_low, bitsAt_all,
    bitAt_setWidth, bitAt_append_high, bitAt_append_low, bitAt_bitOf, bitsAt_zero, -Nat.reduceAdd, -Nat.reduceSub]
  simp (disch := omega) [bitsAt_all]

theorem OpBTR.dec_enc (f : OpBTR) : OpBTR.dec (OpBTR.enc f) = some f := by
  simp (disch := omega) only [OpBTR.dec, OpBTR.enc, bitsAt_setWidth, bitsAt_append_high, bitsAt_append_low, bitsAt_all,
    bitAt_setWidth, bitAt_append_high, bitAt_append_low, bitAt_bitOf, bitsAt_zero, -Nat.reduceAdd, -Nat.reduceSub]
  simp (disch := omega) [bitsAt_all]

theorem OpBI.dec_enc (f : OpBI) : OpBI.dec (OpBI.enc f) = some f := by
  simp (disch := omega) only [OpBI.dec, OpBI.enc, bitsAt_setWidth, bitsAt_append_high, bitsAt_append_low, bitsAt_all,
    bitAt_setWidth, bitAt_append_high, bitAt_append_low, bitAt_bitOf, bitsAt_zero, -Nat.reduceAdd, -Nat.reduceSub]
  simp (disch := omega) [bitsAt_all]

theorem OpBI8.dec_enc (f : OpBI8) : OpBI8.dec (OpBI8.enc f) = some f := by
  simp (disch := omega) only [OpBI8.dec, OpBI8.enc, bitsAt_setWidth, bitsAt_append_high, bitsAt_append_low, bitsAt_all,
    bitAt_setWidth, bitAt_append_high, bitAt_append_low, bitAt_bitOf, bitsAt_zero, -Nat.reduceAdd, -Nat.reduceSub]
  simp (disch := omega) [bitsAt_all]

theorem OpBI1.dec_enc (f : OpBI1) : OpBI1.dec (OpBI1.enc f) = some f := by
  simp (disch := omega) only [OpBI1.dec, OpBI1.enc, bitsAt_setWidth, bitsAt_append_high, bitsAt_append_low, bitsAt_all,
    bitAt_setWidth, bitAt_append_high, bitAt_append_low, bitAt_bitOf, bitsAt_zero, -Nat.reduceAdd, -Nat.reduceSub]
  simp (disch := omega) [bitsAt_all]

theorem OpBM.dec_enc (f : OpBM) : OpBM.dec (OpBM.enc f) = some f := by
  simp (disch := omega) only [OpBM.dec, OpBM.enc, bitsAt_setWidth, bitsAt_append_high, bitsAt_append_low, bitsAt_all,
    bitAt_setWidth, bitAt_append_high, bitAt_append_low, bitAt_bitOf, bitsAt_zero, -Nat.reduceAdd, -Nat.reduceSub]
  simp (disch := omega) [bitsAt_all]

theorem OpBL.dec_enc (f : OpBL) : OpBL.dec (OpBL.enc f) = some f := by
  simp (disch := omega) only [OpBL.dec, OpBL.enc, bitsAt_setWidth, bitsAt_append_high, bitsAt_append_low, bitsAt_all,
    bitAt_setWidth, bitAt_append_high, bitAt_append_low, bitAt_bitOf, bitsAt_zero, -Nat.reduceAdd, -Nat.reduceSub]
  simp (disch := omega) [bitsAt_all]

theorem OpV3.dec_enc (f : OpV3) : OpV3.dec (OpV3.enc f) = some f := by
  simp (disch := omega) only [OpV3.dec, OpV3.enc, bitsAt_setWidth, bitsAt_append_high, bitsAt_append_low, bitsAt_all,
    bitAt_setWidth, bitAt_append_high, bitAt_append_low, bitAt_bitOf, bitsAt_zero, -Nat.reduceAdd, -Nat.reduceSub]
  simp (disch := omega) [bitsAt_all]

theorem OpV2.dec_enc (f : OpV2) : OpV2.dec (OpV2.enc f) = some f := by
  simp (disch := omega) only [OpV2.dec, OpV2.enc, bitsAt_setWidth, bitsAt_append_high, bitsAt_append_low, bitsAt_all,
    bitAt_setWidth, bitAt_append_high, bitAt_append_low, bitAt_bitOf, bitsAt_zero, -Nat.reduceAdd, -Nat.reduceSub]
  simp (disch := omega) [bitsAt_all]

theorem OpV3R.dec_enc (f : OpV3R) : OpV3R.dec (OpV3R.enc f) = some f := by
  simp (disch := omega) only [OpV3R.dec, OpV3R.enc, bitsAt_setWidth, bitsAt_append_high, bitsAt_append_low, bitsAt_all,
    bitAt_setWidth, bitAt_append_high, bitAt_append_low, bitAt_bitOf, bitsAt_zero, -Nat.reduceAdd, -Nat.reduceSub]
  simp (disch := omega) [bitsAt_all]

theorem OpV2R.dec_enc (f : OpV2R) : OpV2R.dec (OpV2R.enc f) = some f := by
  simp (disch := omega) only [OpV2R.dec, OpV2R.enc, bitsAt_setWidth, bitsAt_append_high, bitsAt_append_low, bitsAt_all,
    bitAt_setWidth, bitAt_append_high, bitAt_append_low, bitAt_bitOf, bitsAt_zero, -Nat.reduceAdd, -Nat.reduceSub]
  simp (disch := omega) [bitsAt_all]

theorem OpVM.dec_enc (f : OpVM) : OpVM.dec (OpVM.enc f) = some f := by
  simp (disch := omega) only [OpVM.dec, OpVM.enc, bitsAt_setWidth, bitsAt_append_high, bitsAt_append_low, bitsAt_all,
    bitAt_setWidth, bitAt_append_high, bitAt_append_low, bitAt_bitOf, bitsAt_zero, -Nat.reduceAdd, -Nat.reduceSub]
  simp (disch := omega) [bitsAt_all]

theorem OpVCR.dec_enc (f : OpVCR) : OpVCR.dec (OpVCR.enc f) = some f := by
  simp (disch := omega) only [OpVCR.dec, OpVCR.enc, bitsAt_setWidth, bitsAt_append_high, bitsAt_append_low, bitsAt_all,
    bitAt_setWidth, bitAt_append_high, bitAt_append_low, bitAt_bitOf, bitsAt_zero, -Nat.reduceAdd, -Nat.reduceSub]
  simp (disch := omega) [bitsAt_all]

theorem OpVC.dec_enc (f : OpVC) : OpVC.dec (OpVC.enc f) = some f := by
  simp (disch := omega) only [OpVC.dec, OpVC.enc, bitsAt_setWidth, bitsAt_append_high, bitsAt_append_low, bitsAt_all,
    bitAt_setWidth, bitAt_append_high, bitAt_append_low, bitAt_bitOf, bitsAt_zero, -Nat.reduceAdd, -Nat.reduceSub]
  simp (disch := omega) [bitsAt_all]

theorem OpVQR.dec_enc (f : OpVQR) : OpVQR.dec (OpVQR.enc f) = some f := by
  simp (disch := omega) only [OpVQR.dec, OpVQR.enc, bitsAt_setWidth, bitsAt_append_high, bitsAt_append_low, bitsAt_all,
    bitAt_setWidth, bitAt_append_high, bitAt_append_low, bitAt_bitOf, bitsAt_zero, -Nat.reduceAdd, -Nat.reduceSub]
  simp (disch := omega) [bitsAt_all]

theorem OpVQ.dec_enc (f : OpVQ) : OpVQ.dec (OpVQ.enc f) = some f := by
  simp (disch := omega) only [OpVQ.dec, OpVQ.enc, bitsAt_setWidth, bitsAt_append_high, bitsAt_append_low, bitsAt_all,
    bitAt_setWidth, bitAt_append_high, bitAt_append_low, bitAt_bitOf, bitsAt_zero, -Nat.reduceAdd, -Nat.reduceSub]
  simp (disch := omega) [bitsAt_all]

theorem OpVN.dec_enc (f : OpVN) : OpVN.dec (OpVN.enc f) = some f := by
  simp (disch := omega) only [OpVN.dec, OpVN.enc, bitsAt_setWidth, bitsAt_append_high, bitsAt_append_low, bitsAt_all,
    bitAt_setWidth, bitAt_append_high, bitAt_append_low, bitAt_bitOf, bitsAt_zero, -Nat.reduceAdd, -Nat.reduceSub]
  simp (disch := omega) [bitsAt_all]

theorem OpVSL.dec_enc (f : OpVSL) : OpVSL.dec (OpVSL.enc f) = some f := by
  simp (disch := omega) only [OpVSL.dec, OpVSL.enc, bitsAt_setWidth, bitsAt_append_high, bitsAt_append_low, bitsAt_all,
    bitAt_setWidth, bitAt_append_high, bitAt_append_low, bitAt_bitOf, bitsAt_zero, -Nat.reduceAdd, -Nat.reduceSub]
  simp (disch := omega) [bitsAt_all]

theorem OpVSEL.dec_enc (f : OpVSEL) : OpVSEL.dec (OpVSEL.enc f) = some f := by
  simp (disch := omega) only [OpVSEL.dec, OpVSEL.enc, bitsAt_setWidth, bitsAt_append_high, bitsAt_append_low, bitsAt_all,
    bitAt_setWidth, bitAt_append_high, bitAt_append_low, bitAt_bitOf, bitsAt_zero, -Nat.reduceAdd, -Nat.reduceSub]
  simp (disch := omega) [bitsAt_all]

theorem OpVS.dec_enc (f : OpVS) : OpVS.dec (OpVS.enc f) = some f := by
  simp (disch := omega) only [OpVS.dec, OpVS.enc, bitsAt_setWidth, bitsAt_append_high, bitsAt_append_low, bitsAt_all,
    bitAt_setWidth, bitAt_append_high, bitAt_append_low, bitAt_bitOf, bitsAt_zero, -Nat.reduceAdd, -Nat.reduceSub]
  simp (disch := omega) [bitsAt_all]

theorem OpVI.dec_enc (f : OpVI) : OpVI.dec (OpVI.enc f) = some f := by
  simp (disch := omega) only [OpVI.dec, OpVI.enc, bitsAt_setWidth, bitsAt_append_high, bitsAt_append_low, bitsAt_all,
    bitAt_setWidth, bitAt_append_high, bitAt_append_low, bitAt_bitOf, bitsAt_zero, -Nat.reduceAdd, -Nat.reduceSub]
  simp (disch := omega) [bitsAt_all]

theorem OpVLL.dec_enc (f : OpVLL) : OpVLL.dec (OpVLL.enc f) = some f := by
  simp (disch := omega) only [OpVLL.dec, OpVLL.enc, bitsAt_setWidth, bitsAt_append_high, bitsAt_append_low, bitsAt_all,
    bitAt_setWidth, bitAt_append_high, bitAt_append_low, bitAt_bitOf, bitsAt_zero, -Nat.reduceAdd, -Nat.reduceSub]
  simp (disch := omega) [bitsAt_all]

theorem OpVLLX.dec_enc (f : OpVLLX) : OpVLLX.dec (OpVLLX.enc f) = some f := by
  simp (disch := omega) only [OpVLLX.dec, OpVLLX.enc, bitsAt_setWidth, bitsAt_append_high, bitsAt_append_low, bitsAt_all,
    bitAt_setWidth, bitAt_append_high, bitAt_append_low, bitAt_bitOf, bitsAt_zero, -Nat.reduceAdd, -Nat.reduceSub]
  simp (disch := omega) [bitsAt_all]

theorem OpVLS.dec_enc (f : OpVLS) : OpVLS.dec (OpVLS.enc f) = some f := by
  simp (disch := omega) only [OpVLS.dec, OpVLS.enc, bitsAt_setWidth, bitsAt_append_high, bitsAt_append_low, bitsAt_all,
    bitAt_setWidth, bitAt_append_high, bitAt_append_low, bitAt_bitOf, bitsAt_zero, -Nat.reduceAdd, -Nat.reduceSub]
  simp (disch := omega) [bitsAt_all]

theorem OpVLSX.dec_enc (f : OpVLSX) : OpVLSX.dec (OpVLSX.enc f) = some f := by
  simp (disch := omega) only [OpVLSX.dec, OpVLSX.enc, bitsAt_setWidth, bitsAt_append_high, bitsAt_append_low, bitsAt_all,
    bitAt_setWidth, bitAt_append_high, bitAt_append_low, bitAt_bitOf, bitsAt_zero, -Nat.reduceAdd, -Nat.reduceSub]
  simp (disch := omega) [bitsAt_all]

theorem OpVLSM.dec_enc (f : OpVLSM) : OpVLSM.dec (OpVLSM.enc f) = some f := by
  simp (disch := omega) only [OpVLSM.dec, OpVLSM.enc, bitsAt_setWidth, bitsAt_append_high, bitsAt_append_low, bitsAt_all,
    bitAt_setWidth, bitAt_append_high, bitAt_append_low, bitAt_bitOf, bitsAt_zero, -Nat.reduceAdd, -Nat.reduceSub]
  simp (disch := omega) [bitsAt_all]

theorem OpVLSXM.dec_enc (f : OpVLSXM) : OpVLSXM.dec (OpVLSXM.enc f) = some f := by
  simp (disch := omega) only [OpVLSXM.dec, OpVLSXM.enc, bitsAt_setWidth, bitsAt_append_high, bitsAt_append_low, bitsAt_all,
    bitAt_setWidth, bitAt_append_high, bitAt_append_low, bitAt_bitOf, bitsAt_zero, -Nat.reduceAdd, -Nat.reduceSub]
  simp (disch := omega) [bitsAt_all]

theorem OpVDL.dec_enc (f : OpVDL) : OpVDL.dec (OpVDL.enc f) = some f := by
  simp (disch := omega) only [OpVDL.dec, OpVDL.enc, bitsAt_setWidth, bitsAt_append_high, bitsAt_append_low, bitsAt_all,
    bitAt_setWidth, bitAt_append_high, bitAt_append_low, bitAt_bitOf, bitsAt_zero, -Nat.reduceAdd, -Nat.reduceSub]
  simp (disch := omega) [bitsAt_all]

theorem OpVDS.dec_enc (f : OpVDS) : OpVDS.dec (OpVDS.enc f) = some f := by
  simp (disch := omega) only [OpVDS.dec, OpVDS.enc, bitsAt_setWidth, bitsAt_append_high, bitsAt_append_low, bitsAt_all,
    bitAt_setWidth, bitAt_append_high, bitAt_append_low, bitAt_bitOf, bitsAt_zero, -Nat.reduceAdd, -Nat.reduceSub]
  simp (disch := omega) [bitsAt_all]

theorem OpVDSM.dec_enc (f : OpVDSM) : OpVDSM.dec (OpVDSM.enc f) = some f := by
  simp (disch := omega) only [OpVDSM.dec, OpVDSM.enc, bitsAt_setWidth, bitsAt_append_high, bitsAt_append_low, bitsAt_all,
    bitAt_setWidth, bitAt_append_high, bitAt_append_low, bitAt_bitOf, bitsAt_zero, -Nat.reduceAdd, -Nat.reduceSub]
  simp (disch := omega) [bitsAt_all]

theorem OpVDLX.dec_enc (f : OpVDLX) : OpVDLX.dec (OpVDLX.enc f) = some f := by
  simp (disch := omega) only [OpVDLX.dec, OpVDLX.enc, bitsAt_setWidth, bitsAt_append_high, bitsAt_append_low, bitsAt_all,
    bitAt_setWidth, bitAt_append_high, bitAt_append_low, bitAt_bitOf, bitsAt_zero, -Nat.reduceAdd, -Nat.reduceSub]
  simp (disch := omega) [bitsAt_all]

theorem OpVDSX.dec_enc (f : OpVDSX) : OpVDSX.dec (OpVDSX.enc f) = some f := by
  simp (disch := omega) only [OpVDSX.dec, OpVDSX.enc, bitsAt_setWidth, bitsAt_append_high, bitsAt_append_low, bitsAt_all,
    bitAt_setWidth, bitAt_append_high, bitAt_append_low, bitAt_bitOf, bitsAt_zero, -Nat.reduceAdd, -Nat.reduceSub]
  simp (disch := omega) [bitsAt_all]

theorem OpVDSXM.dec_enc (f : OpVDSXM) : OpVDSXM.dec (OpVDSXM.enc f) = some f := by
  simp (disch := omega) only [OpVDSXM.dec, OpVDSXM.enc, bitsAt_setWidth, bitsAt_append_high, bitsAt_append_low, bitsAt_all,
    bitAt_setWidth, bitAt_append_high, bitAt_append_low, bitAt_bitOf, bitsAt_zero, -Nat.reduceAdd, -Nat.reduceSub]
  simp (disch := omega) [bitsAt_all]

theorem OpVG.dec_enc (f : OpVG) : OpVG.dec (OpVG.enc f) = some f := by
  simp (disch := omega) only [OpVG.dec, OpVG.enc, bitsAt_setWidth, bitsAt_append_high, bitsAt_append_low, bitsAt_all,
    bitAt_setWidth, bitAt_append_high, bitAt_append_low, bitAt_bitOf, bitsAt_zero, -Nat.reduceAdd, -Nat.reduceSub]
  simp (disch := omega) [bitsAt_all]

theorem OpVEF.dec_enc (f : OpVEF) : OpVEF.dec (OpVEF.enc f) = some f := by
  simp (disch := omega) only [OpVEF.dec, OpVEF.enc, bitsAt_setWidth, bitsAt_append_high, bitsAt_append_low, bitsAt_all,
    bitAt_setWidth, bitAt_append_high, bitAt_append_low, bitAt_bitOf, bitsAt_zero, -Nat.reduceAdd, -Nat.reduceSub]
  simp (disch := omega) [bitsAt_all]

theorem OpVER.dec_enc (f : OpVER) : OpVER.dec (OpVER.enc f) = some f := by
  simp (disch := omega) only [OpVER.dec, OpVER.enc, bitsAt_setWidth, bitsAt_append_high, bitsAt_append_low, bitsAt_all,
    bitAt_setWidth, bitAt_append_high, bitAt_append_low, bitAt_bitOf, bitsAt_zero, -Nat.reduceAdd, -Nat.reduceSub]
  simp (disch := omega) [bitsAt_all]

theorem OpVEC.dec_enc (f : OpVEC) : OpVEC.dec (OpVEC.enc f) = some f := by
  simp (disch := omega) only [OpVEC.dec, OpVEC.enc, bitsAt_setWidth, bitsAt_append_high, bitsAt_append_low, bitsAt_all,
    bitAt_setWidth, bitAt_append_high, bitAt_append_low, bitAt_bitOf, bitsAt_zero, -Nat.reduceAdd, -Nat.reduceSub]
  simp (disch := omega) [bitsAt_all]

theorem OpMP.dec_enc (f : OpMP) : OpMP.dec (OpMP.enc f) = some f := by
  simp (disch := omega) only [OpMP.dec, OpMP.enc, bitsAt_setWidth, bitsAt_append_high, bitsAt_append_low, bitsAt_all,
    bitAt_setWidth, bitAt_append_high, bitAt_append_low, bitAt_bitOf, bitsAt_zero, -Nat.reduceAdd, -Nat.reduceSub]
  simp (disch := omega) [bitsAt_all]

theorem OpMS.dec_enc (f : OpMS) : OpMS.dec (OpMS.enc f) = some f := by
  simp (disch := omega) only [OpMS.dec, OpMS.enc, bitsAt_setWidth, bitsAt_append_high, bitsAt_append_low, bitsAt_all,
    bitAt_setWidth, bitAt_append_high, bitAt_append_low, bitAt_bitOf, bitsAt_zero, -Nat.reduceAdd, -Nat.reduceSub]
  simp (disch := omega) [bitsAt_all]

theorem OpMPA.dec_enc (f : OpMPA) : OpMPA.dec (OpMPA.enc f) = some f := by
  simp (disch := omega) only [OpMPA.dec, OpMPA.enc, bitsAt_setWidth, bitsAt_append_high, bitsAt_append_low, bitsAt_all,
    bitAt_setWidth, bitAt_append_high, bitAt_append_low, bitAt_bitOf, bitsAt_zero, -Nat.reduceAdd, -Nat.reduceSub]
  simp (disch := omega) [bitsAt_all]

theorem OpMD.dec_enc (f : OpMD) : OpMD.dec (OpMD.enc f) = some f := by
  simp (disch := omega) only [OpMD.dec, OpMD.enc, bitsAt_setWidth, bitsAt_append_high, bitsAt_append_low, bitsAt_all,
    bitAt_setWidth, bitAt_append_high, bitAt_append_low, bitAt_bitOf, bitsAt_zero, -Nat.reduceAdd, -Nat.reduceSub]
  simp (disch := omega) [bitsAt_all]

theorem OpMH.dec_enc (f : OpMH) : OpMH.dec (OpMH.enc f) = some f := by
  simp (disch := omega) only [OpMH.dec, OpMH.enc, bitsAt_setWidth, bitsAt_append_high, bitsAt_append_low, bitsAt_all,
    bitAt_setWidth, bitAt_append_high, bitAt_append_low, bitAt_bitOf, bitsAt_zero, -Nat.reduceAdd, -Nat.reduceSub]
  simp (disch := omega) [bitsAt_all]

theorem OpMZ.dec_enc (f : OpMZ) : OpMZ.dec (OpMZ.enc f) = some f := by
  simp (disch := omega) only [OpMZ.dec, OpMZ.enc, bitsAt_setWidth, bitsAt_append_high, bitsAt_append_low, bitsAt_all,
    bitAt_setWidth, bitAt_append_high, bitAt_append_low, bitAt_bitOf, bitsAt_zero, -Nat.reduceAdd, -Nat.reduceSub]
  simp (disch := omega) [bitsAt_all]

theorem OpMI.dec_enc (f : OpMI) : OpMI.dec (OpMI.enc f) = some f := by
  simp (disch := omega) only [OpMI.dec, OpMI.enc, bitsAt_setWidth, bitsAt_append_high, bitsAt_append_low, bitsAt_all,
    bitAt_setWidth, bitAt_append_high, bitAt_append_low, bitAt_bitOf, bitsAt_zero, -Nat.reduceAdd, -Nat.reduceSub]
  simp (disch := omega) [bitsAt_all]

theorem OpCML.dec_enc (f : OpCML) : OpCML.dec (OpCML.enc f) = some f := by
  simp (disch := omega) only [OpCML.dec, OpCML.enc, bitsAt_setWidth, bitsAt_append_high, bitsAt_append_low, bitsAt_all,
    bitAt_setWidth, bitAt_append_high, bitAt_append_low, bitAt_bitOf, bitsAt_zero, -Nat.reduceAdd, -Nat.reduceSub]
  simp (disch := omega) [bitsAt_all]

theorem OpCMS.dec_enc (f : OpCMS) : OpCMS.dec (OpCMS.enc f) = some f := by
  simp (disch := omega) only [OpCMS.dec, OpCMS.enc, bitsAt_setWidth, bitsAt_append_high, bitsAt_append_low, bitsAt_all,
    bitAt_setWidth, bitAt_append_high, bitAt_append_low, bitAt_bitOf, bitsAt_zero, -Nat.reduceAdd, -Nat.reduceSub]
  simp (disch := omega) [bitsAt_all]

theorem OpCMVL.dec_enc (f : OpCMVL) : OpCMVL.dec (OpCMVL.enc f) = some f := by
  simp (disch := omega) only [OpCMVL.dec, OpCMVL.enc, bitsAt_setWidth, bitsAt_append_high, bitsAt_append_low, bitsAt_all,
    bitAt_setWidth, bitAt_append_high, bitAt_append_low, bitAt_bitOf, bitsAt_zero, -Nat.reduceAdd, -Nat.reduceSub]
  simp (disch := omega) [bitsAt_all]

theorem OpCMVS.dec_enc (f : OpCMVS) : OpCMVS.dec (OpCMVS.enc f) = some f := by
  simp (disch := omega) only [OpCMVS.dec, OpCMVS.enc, bitsAt_setWidth, bitsAt_append_high, bitsAt_append_low, bitsAt_all,
    bitAt_setWidth, bitAt_append_high, bitAt_append_low, bitAt_bitOf, bitsAt_zero, -Nat.reduceAdd, -Nat.reduceSub]
  simp (disch := omega) [bitsAt_all]

theorem OpCMVM.dec_enc (f : OpCMVM) : OpCMVM.dec (OpCMVM.enc f) = some f := by
  simp (disch := omega) only [OpCMVM.dec, OpCMVM.enc, bitsAt_setWidth, bitsAt_append_high, bitsAt_append_low, bitsAt_all,
    bitAt_setWidth, bitAt_append_high, bitAt_append_low, bitAt_bitOf, bitsAt_zero, -Nat.reduceAdd, -Nat.reduceSub]
  simp (disch := omega) [bitsAt_all]

theorem OpSHL.dec_enc (f : OpSHL) : OpSHL.dec (OpSHL.enc f) = some f := by
  simp (disch := omega) only [OpSHL.dec, OpSHL.enc, bitsAt_setWidth, bitsAt_append_high, bitsAt_append_low, bitsAt_all,
    bitAt_setWidth, bitAt_append_high, bitAt_append_low, bitAt_bitOf, bitsAt_zero, -Nat.reduceAdd, -Nat.reduceSub]
  simp (disch := omega) [bitsAt_all]

theorem OpTLD.dec_enc (f : OpTLD) : OpTLD.dec (OpTLD.enc f) = some f := by
  simp (disch := omega) only [OpTLD.dec, OpTLD.enc, bitsAt_setWidth, bitsAt_append_high, bitsAt_append_low, bitsAt_all,
    bitAt_setWidth, bitAt_append_high, bitAt_append_low, bitAt_bitOf, bitsAt_zero, -Nat.reduceAdd, -Nat.reduceSub]
  simp (disch := omega) [bitsAt_all]

theorem OpTST.dec_enc (f : OpTST) : OpTST.dec (OpTST.enc f) = some f := by
  simp (disch := omega) only [OpTST.dec, OpTST.enc, bitsAt_setWidth, bitsAt_append_high, bitsAt_append_low, bitsAt_all,
    bitAt_setWidth, bitAt_append_high, bitAt_append_low, bitAt_bitOf, bitsAt_zero, -Nat.reduceAdd, -Nat.reduceSub]
  simp (disch := omega) [bitsAt_all]

theorem OpTLDP.dec_enc (f : OpTLDP) : OpTLDP.dec (OpTLDP.enc f) = some f := by
  simp (disch := omega) only [OpTLDP.dec, OpTLDP.enc, bitsAt_setWidth, bitsAt_append_high, bitsAt_append_low, bitsAt_all,
    bitAt_setWidth, bitAt_append_high, bitAt_append_low, bitAt_bitOf, bitsAt_zero, -Nat.reduceAdd, -Nat.reduceSub]
  simp (disch := omega) [bitsAt_all]

theorem OpTSTP.dec_enc (f : OpTSTP) : OpTSTP.dec (OpTSTP.enc f) = some f := by
  simp (disch := omega) only [OpTSTP.dec, OpTSTP.enc, bitsAt_setWidth, bitsAt_append_high, bitsAt_append_low, bitsAt_all,
    bitAt_setWidth, bitAt_append_high, bitAt_append_low, bitAt_bitOf, bitsAt_zero, -Nat.reduceAdd, -Nat.reduceSub]
  simp (disch := omega) [bitsAt_all]

theorem OpCGL.dec_enc (f : OpCGL) : OpCGL.dec (OpCGL.enc f) = some f := by
  simp (disch := omega) only [OpCGL.dec, OpCGL.enc, bitsAt_setWidth, bitsAt_append_high, bitsAt_append_low, bitsAt_all,
    bitAt_setWidth, bitAt_append_high, bitAt_append_low, bitAt_bitOf, bitsAt_zero, -Nat.reduceAdd, -Nat.reduceSub]
  simp (disch := omega) [bitsAt_all]

theorem OpCGS.dec_enc (f : OpCGS) : OpCGS.dec (OpCGS.enc f) = some f := by
  simp (disch := omega) only [OpCGS.dec, OpCGS.enc, bitsAt_setWidth, bitsAt_append_high, bitsAt_append_low, bitsAt_all,
    bitAt_setWidth, bitAt_append_high, bitAt_append_low, bitAt_bitOf, bitsAt_zero, -Nat.reduceAdd, -Nat.reduceSub]
  simp (disch := omega) [bitsAt_all]

theorem OpCR.dec_enc (f : OpCR) : OpCR.dec (OpCR.enc f) = some f := by
  simp (disch := omega) only [OpCR.dec, OpCR.enc, bitsAt_setWidth, bitsAt_append_high, bitsAt_append_low, bitsAt_all,
    bitAt_setWidth, bitAt_append_high, bitAt_append_low, bitAt_bitOf, bitsAt_zero, -Nat.reduceAdd, -Nat.reduceSub]
  simp (disch := omega) [bitsAt_all]

theorem OpCF.dec_enc (f : OpCF) : OpCF.dec (OpCF.enc f) = some f := by
  simp (disch := omega) only [OpCF.dec, OpCF.enc, bitsAt_setWidth, bitsAt_append_high, bitsAt_append_low, bitsAt_all,
    bitAt_setWidth, bitAt_append_high, bitAt_append_low, bitAt_bitOf, bitsAt_zero, -Nat.reduceAdd, -Nat.reduceSub]
  simp (disch := omega) [bitsAt_all]

theorem OpCFV.dec_enc (f : OpCFV) : OpCFV.dec (OpCFV.enc f) = some f := by
  simp (disch := omega) only [OpCFV.dec, OpCFV.enc, bitsAt_setWidth, bitsAt_append_high, bitsAt_append_low, bitsAt_all,
    bitAt_setWidth, bitAt_append_high, bitAt_append_low, bitAt_bitOf, bitsAt_zero, -Nat.reduceAdd, -Nat.reduceSub]
  simp (disch := omega) [bitsAt_all]

theorem OpCFS.dec_enc (f : OpCFS) : OpCFS.dec (OpCFS.enc f) = some f := by
  simp (disch := omega) only [OpCFS.dec, OpCFS.enc, bitsAt_setWidth, bitsAt_append_high, bitsAt_append_low, bitsAt_all,
    bitAt_setWidth, bitAt_append_high, bitAt_append_low, bitAt_bitOf, bitsAt_zero, -Nat.reduceAdd, -Nat.reduceSub]
  simp (disch := omega) [bitsAt_all]

theorem OpFN.dec_enc (k : BitVec 2) (f : OpFN) : OpFN.dec k (OpFN.enc k f) = some f := by
  simp (disch := omega) only [OpFN.dec, OpFN.enc, bitsAt_setWidth, bitsAt_append_high, bitsAt_append_low, bitsAt_all,
    bitAt_setWidth, bitAt_append_high, bitAt_append_low, bitAt_bitOf, bitsAt_zero, -Nat.reduceAdd, -Nat.reduceSub]
  simp (disch := omega) [bitsAt_all]

theorem OpCAR.dec_enc (f : OpCAR) : OpCAR.dec (OpCAR.enc f) = some f := by
  simp (disch := omega) only [OpCAR.dec, OpCAR.enc, bitsAt_setWidth, bitsAt_append_high, bitsAt_append_low, bitsAt_all,
    bitAt_setWidth, bitAt_append_high, bitAt_append_low, bitAt_bitOf, bitsAt_zero, -Nat.reduceAdd, -Nat.reduceSub]
  simp (disch := omega) [bitsAt_all]

theorem OpCAN.dec_enc (f : OpCAN) : OpCAN.dec (OpCAN.enc f) = some f := by
  simp (disch := omega) only [OpCAN.dec, OpCAN.enc, bitsAt_setWidth, bitsAt_append_high, bitsAt_append_low, bitsAt_all,
    bitAt_setWidth, bitAt_append_high, bitAt_append_low, bitAt_bitOf, bitsAt_zero, -Nat.reduceAdd, -Nat.reduceSub]
  simp (disch := omega) [bitsAt_all]

theorem OpCACR.dec_enc (f : OpCACR) : OpCACR.dec (OpCACR.enc f) = some f := by
  simp (disch := omega) only [OpCACR.dec, OpCACR.enc, bitsAt_setWidth, bitsAt_append_high, bitsAt_append_low, bitsAt_all,
    bitAt_setWidth, bitAt_append_high, bitAt_append_low, bitAt_bitOf, bitsAt_zero, -Nat.reduceAdd, -Nat.reduceSub]
  simp (disch := omega) [bitsAt_all]

theorem OpCACN.dec_enc (f : OpCACN) : OpCACN.dec (OpCACN.enc f) = some f := by
  simp (disch := omega) only [OpCACN.dec, OpCACN.enc, bitsAt_setWidth, bitsAt_append_high, bitsAt_append_low, bitsAt_all,
    bitAt_setWidth, bitAt_append_high, bitAt_append_low, bitAt_bitOf, bitsAt_zero, -Nat.reduceAdd, -Nat.reduceSub]
  simp (disch := omega) [bitsAt_all]

theorem OpLQ.dec_enc (f : OpLQ) : OpLQ.dec (OpLQ.enc f) = some f := by
  simp (disch := omega) only [OpLQ.dec, OpLQ.enc, bitsAt_setWidth, bitsAt_append_high, bitsAt_append_low, bitsAt_all,
    bitAt_setWidth, bitAt_append_high, bitAt_append_low, bitAt_bitOf, bitsAt_zero, -Nat.reduceAdd, -Nat.reduceSub]
  simp (disch := omega) [bitsAt_all]

theorem OpLBI.dec_enc (f : OpLBI) : OpLBI.dec (OpLBI.enc f) = some f := by
  simp (disch := omega) only [OpLBI.dec, OpLBI.enc, bitsAt_setWidth, bitsAt_append_high, bitsAt_append_low, bitsAt_all,
    bitAt_setWidth, bitAt_append_high, bitAt_append_low, bitAt_bitOf, bitsAt_zero, -Nat.reduceAdd, -Nat.reduceSub]
  simp (disch := omega) [bitsAt_all]

theorem OpLBR.dec_enc (f : OpLBR) : OpLBR.dec (OpLBR.enc f) = some f := by
  simp (disch := omega) only [OpLBR.dec, OpLBR.enc, bitsAt_setWidth, bitsAt_append_high, bitsAt_append_low, bitsAt_all,
    bitAt_setWidth, bitAt_append_high, bitAt_append_low, bitAt_bitOf, bitsAt_zero, -Nat.reduceAdd, -Nat.reduceSub]
  simp (disch := omega) [bitsAt_all]

theorem OpLBW.dec_enc (f : OpLBW) : OpLBW.dec (OpLBW.enc f) = some f := by
  simp (disch := omega) only [OpLBW.dec, OpLBW.enc, bitsAt_setWidth, bitsAt_append_high, bitsAt_append_low, bitsAt_all,
    bitAt_setWidth, bitAt_append_high, bitAt_append_low, bitAt_bitOf, bitsAt_zero, -Nat.reduceAdd, -Nat.reduceSub]
  simp (disch := omega) [bitsAt_all]

theorem OpBeat.dec_enc (k : BitVec 1) (f : OpBeat) : OpBeat.dec k (OpBeat.enc k f) = some f := by
  simp (disch := omega) only [OpBeat.dec, OpBeat.enc, bitsAt_setWidth, bitsAt_append_high, bitsAt_append_low, bitsAt_all,
    bitAt_setWidth, bitAt_append_high, bitAt_append_low, bitAt_bitOf, bitsAt_zero, -Nat.reduceAdd, -Nat.reduceSub]
  simp (disch := omega) [bitsAt_all]

theorem OpBOff.dec_enc (k : BitVec 1) (f : OpBOff) : OpBOff.dec k (OpBOff.enc k f) = some f := by
  simp (disch := omega) only [OpBOff.dec, OpBOff.enc, bitsAt_setWidth, bitsAt_append_high, bitsAt_append_low, bitsAt_all,
    bitAt_setWidth, bitAt_append_high, bitAt_append_low, bitAt_bitOf, bitsAt_zero, -Nat.reduceAdd, -Nat.reduceSub]
  simp (disch := omega) [bitsAt_all]

theorem OpBQ.dec_enc (f : OpBQ) : OpBQ.dec (OpBQ.enc f) = some f := by
  simp (disch := omega) only [OpBQ.dec, OpBQ.enc, bitsAt_setWidth, bitsAt_append_high, bitsAt_append_low, bitsAt_all,
    bitAt_setWidth, bitAt_append_high, bitAt_append_low, bitAt_bitOf, bitsAt_zero, -Nat.reduceAdd, -Nat.reduceSub]
  simp (disch := omega) [bitsAt_all]

theorem OpBW.dec_enc (f : OpBW) : OpBW.dec (OpBW.enc f) = some f := by
  simp (disch := omega) only [OpBW.dec, OpBW.enc, bitsAt_setWidth, bitsAt_append_high, bitsAt_append_low, bitsAt_all,
    bitAt_setWidth, bitAt_append_high, bitAt_append_low, bitAt_bitOf, bitsAt_zero, -Nat.reduceAdd, -Nat.reduceSub]
  simp (disch := omega) [bitsAt_all]

theorem OpPST.dec_enc (f : OpPST) : OpPST.dec (OpPST.enc f) = some f := by
  simp (disch := omega) only [OpPST.dec, OpPST.enc, bitsAt_setWidth, bitsAt_append_high, bitsAt_append_low, bitsAt_all,
    bitAt_setWidth, bitAt_append_high, bitAt_append_low, bitAt_bitOf, bitsAt_zero, -Nat.reduceAdd, -Nat.reduceSub]
  simp (disch := omega) [bitsAt_all]

theorem OpPSTM.dec_enc (f : OpPSTM) : OpPSTM.dec (OpPSTM.enc f) = some f := by
  simp (disch := omega) only [OpPSTM.dec, OpPSTM.enc, bitsAt_setWidth, bitsAt_append_high, bitsAt_append_low, bitsAt_all,
    bitAt_setWidth, bitAt_append_high, bitAt_append_low, bitAt_bitOf, bitsAt_zero, -Nat.reduceAdd, -Nat.reduceSub]
  simp (disch := omega) [bitsAt_all]

theorem OpPLD.dec_enc (f : OpPLD) : OpPLD.dec (OpPLD.enc f) = some f := by
  simp (disch := omega) only [OpPLD.dec, OpPLD.enc, bitsAt_setWidth, bitsAt_append_high, bitsAt_append_low, bitsAt_all,
    bitAt_setWidth, bitAt_append_high, bitAt_append_low, bitAt_bitOf, bitsAt_zero, -Nat.reduceAdd, -Nat.reduceSub]
  simp (disch := omega) [bitsAt_all]

theorem OpBK.dec_enc (f : OpBK) : OpBK.dec (OpBK.enc f) = some f := by
  simp (disch := omega) only [OpBK.dec, OpBK.enc, bitsAt_setWidth, bitsAt_append_high, bitsAt_append_low, bitsAt_all,
    bitAt_setWidth, bitAt_append_high, bitAt_append_low, bitAt_bitOf, bitsAt_zero, -Nat.reduceAdd, -Nat.reduceSub]
  simp (disch := omega) [bitsAt_all]

theorem OpKL.dec_enc (f : OpKL) : OpKL.dec (OpKL.enc f) = some f := by
  simp (disch := omega) only [OpKL.dec, OpKL.enc, bitsAt_setWidth, bitsAt_append_high, bitsAt_append_low, bitsAt_all,
    bitAt_setWidth, bitAt_append_high, bitAt_append_low, bitAt_bitOf, bitsAt_zero, -Nat.reduceAdd, -Nat.reduceSub]
  simp (disch := omega) [bitsAt_all]

theorem OpKS.dec_enc (f : OpKS) : OpKS.dec (OpKS.enc f) = some f := by
  simp (disch := omega) only [OpKS.dec, OpKS.enc, bitsAt_setWidth, bitsAt_append_high, bitsAt_append_low, bitsAt_all,
    bitAt_setWidth, bitAt_append_high, bitAt_append_low, bitAt_bitOf, bitsAt_zero, -Nat.reduceAdd, -Nat.reduceSub]
  simp (disch := omega) [bitsAt_all]

theorem OpKX.dec_enc (f : OpKX) : OpKX.dec (OpKX.enc f) = some f := by
  simp (disch := omega) only [OpKX.dec, OpKX.enc, bitsAt_setWidth, bitsAt_append_high, bitsAt_append_low, bitsAt_all,
    bitAt_setWidth, bitAt_append_high, bitAt_append_low, bitAt_bitOf, bitsAt_zero, -Nat.reduceAdd, -Nat.reduceSub]
  simp (disch := omega) [bitsAt_all]

theorem OpKF.dec_enc (f : OpKF) : OpKF.dec (OpKF.enc f) = some f := by
  simp (disch := omega) only [OpKF.dec, OpKF.enc, bitsAt_setWidth, bitsAt_append_high, bitsAt_append_low, bitsAt_all,
    bitAt_setWidth, bitAt_append_high, bitAt_append_low, bitAt_bitOf, bitsAt_zero, -Nat.reduceAdd, -Nat.reduceSub]
  simp (disch := omega) [bitsAt_all]

theorem OpCAN2.dec_enc (f : OpCAN2) : OpCAN2.dec (OpCAN2.enc f) = some f := by
  simp (disch := omega) only [OpCAN2.dec, OpCAN2.enc, bitsAt_setWidth, bitsAt_append_high, bitsAt_append_low, bitsAt_all,
    bitAt_setWidth, bitAt_append_high, bitAt_append_low, bitAt_bitOf, bitsAt_zero, -Nat.reduceAdd, -Nat.reduceSub]
  simp (disch := omega) [bitsAt_all]

theorem OpLN.dec_enc (f : OpLN) : OpLN.dec (OpLN.enc f) = some f := by
  simp (disch := omega) only [OpLN.dec, OpLN.enc, bitsAt_setWidth, bitsAt_append_high, bitsAt_append_low, bitsAt_all,
    bitAt_setWidth, bitAt_append_high, bitAt_append_low, bitAt_bitOf, bitsAt_zero, -Nat.reduceAdd, -Nat.reduceSub]
  simp (disch := omega) [bitsAt_all]

theorem BkAr.dec_enc (f : BkAr) : BkAr.dec (BkAr.enc f) = some f := by
  simp (disch := omega) only [BkAr.dec, BkAr.enc, bitsAt_setWidth, bitsAt_append_high, bitsAt_append_low, bitsAt_all,
    bitAt_setWidth, bitAt_append_high, bitAt_append_low, bitAt_bitOf, bitsAt_zero, -Nat.reduceAdd, -Nat.reduceSub]
  simp (disch := omega) [bitsAt_all]

theorem BkMul.dec_enc (f : BkMul) : BkMul.dec (BkMul.enc f) = some f := by
  simp (disch := omega) only [BkMul.dec, BkMul.enc, bitsAt_setWidth, bitsAt_append_high, bitsAt_append_low, bitsAt_all,
    bitAt_setWidth, bitAt_append_high, bitAt_append_low, bitAt_bitOf, bitsAt_zero, -Nat.reduceAdd, -Nat.reduceSub]
  simp (disch := omega) [bitsAt_all]

theorem BkCmp.dec_enc (f : BkCmp) : BkCmp.dec (BkCmp.enc f) = some f := by
  simp (disch := omega) only [BkCmp.dec, BkCmp.enc, bitsAt_setWidth, bitsAt_append_high, bitsAt_append_low, bitsAt_all,
    bitAt_setWidth, bitAt_append_high, bitAt_append_low, bitAt_bitOf, bitsAt_zero, -Nat.reduceAdd, -Nat.reduceSub]
  simp (disch := omega) [bitsAt_all]

theorem BkNeg.dec_enc (f : BkNeg) : BkNeg.dec (BkNeg.enc f) = some f := by
  simp (disch := omega) only [BkNeg.dec, BkNeg.enc, bitsAt_setWidth, bitsAt_append_high, bitsAt_append_low, bitsAt_all,
    bitAt_setWidth, bitAt_append_high, bitAt_append_low, bitAt_bitOf, bitsAt_zero, -Nat.reduceAdd, -Nat.reduceSub]
  simp (disch := omega) [bitsAt_all]

theorem BkP3.dec_enc (f : BkP3) : BkP3.dec (BkP3.enc f) = some f := by
  simp (disch := omega) only [BkP3.dec, BkP3.enc, bitsAt_setWidth, bitsAt_append_high, bitsAt_append_low, bitsAt_all,
    bitAt_setWidth, bitAt_append_high, bitAt_append_low, bitAt_bitOf, bitsAt_zero, -Nat.reduceAdd, -Nat.reduceSub]
  simp (disch := omega) [bitsAt_all]

theorem BkP2.dec_enc (f : BkP2) : BkP2.dec (BkP2.enc f) = some f := by
  simp (disch := omega) only [BkP2.dec, BkP2.enc, bitsAt_setWidth, bitsAt_append_high, bitsAt_append_low, bitsAt_all,
    bitAt_setWidth, bitAt_append_high, bitAt_append_low, bitAt_bitOf, bitsAt_zero, -Nat.reduceAdd, -Nat.reduceSub]
  simp (disch := omega) [bitsAt_all]

theorem BkFill.dec_enc (f : BkFill) : BkFill.dec (BkFill.enc f) = some f := by
  simp (disch := omega) only [BkFill.dec, BkFill.enc, bitsAt_setWidth, bitsAt_append_high, bitsAt_append_low, bitsAt_all,
    bitAt_setWidth, bitAt_append_high, bitAt_append_low, bitAt_bitOf, bitsAt_zero, -Nat.reduceAdd, -Nat.reduceSub]
  simp (disch := omega) [bitsAt_all]

theorem BkRow.dec_enc (f : BkRow) : BkRow.dec (BkRow.enc f) = some f := by
  simp (disch := omega) only [BkRow.dec, BkRow.enc, bitsAt_setWidth, bitsAt_append_high, bitsAt_append_low, bitsAt_all,
    bitAt_setWidth, bitAt_append_high, bitAt_append_low, bitAt_bitOf, bitsAt_zero, -Nat.reduceAdd, -Nat.reduceSub]
  simp (disch := omega) [bitsAt_all]

theorem BkRowM.dec_enc (f : BkRowM) : BkRowM.dec (BkRowM.enc f) = some f := by
  simp (disch := omega) only [BkRowM.dec, BkRowM.enc, bitsAt_setWidth, bitsAt_append_high, bitsAt_append_low, bitsAt_all,
    bitAt_setWidth, bitAt_append_high, bitAt_append_low, bitAt_bitOf, bitsAt_zero, -Nat.reduceAdd, -Nat.reduceSub]
  simp (disch := omega) [bitsAt_all]

theorem BkRowS.dec_enc (f : BkRowS) : BkRowS.dec (BkRowS.enc f) = some f := by
  simp (disch := omega) only [BkRowS.dec, BkRowS.enc, bitsAt_setWidth, bitsAt_append_high, bitsAt_append_low, bitsAt_all,
    bitAt_setWidth, bitAt_append_high, bitAt_append_low, bitAt_bitOf, bitsAt_zero, -Nat.reduceAdd, -Nat.reduceSub]
  simp (disch := omega) [bitsAt_all]

theorem BkLoop.dec_enc (f : BkLoop) : BkLoop.dec (BkLoop.enc f) = some f := by
  simp (disch := omega) only [BkLoop.dec, BkLoop.enc, bitsAt_setWidth, bitsAt_append_high, bitsAt_append_low, bitsAt_all,
    bitAt_setWidth, bitAt_append_high, bitAt_append_low, bitAt_bitOf, bitsAt_zero, -Nat.reduceAdd, -Nat.reduceSub]
  simp (disch := omega) [bitsAt_all]

theorem BkC.dec_enc (f : BkC) : BkC.dec (BkC.enc f) = some f := by
  simp (disch := omega) only [BkC.dec, BkC.enc, bitsAt_setWidth, bitsAt_append_high, bitsAt_append_low, bitsAt_all,
    bitAt_setWidth, bitAt_append_high, bitAt_append_low, bitAt_bitOf, bitsAt_zero, -Nat.reduceAdd, -Nat.reduceSub]
  simp (disch := omega) [bitsAt_all]

theorem BkWait.dec_enc (f : BkWait) : BkWait.dec (BkWait.enc f) = some f := by
  simp (disch := omega) only [BkWait.dec, BkWait.enc, bitsAt_setWidth, bitsAt_append_high, bitsAt_append_low, bitsAt_all,
    bitAt_setWidth, bitAt_append_high, bitAt_append_low, bitAt_bitOf, bitsAt_zero, -Nat.reduceAdd, -Nat.reduceSub]
  simp (disch := omega) [bitsAt_all]

theorem BkNone.dec_enc (f : BkNone) : BkNone.dec (BkNone.enc f) = some f := by
  simp (disch := omega) only [BkNone.dec, BkNone.enc, bitsAt_setWidth, bitsAt_append_high, bitsAt_append_low, bitsAt_all,
    bitAt_setWidth, bitAt_append_high, bitAt_append_low, bitAt_bitOf, bitsAt_zero, -Nat.reduceAdd, -Nat.reduceSub]
  simp (disch := omega) [bitsAt_all]

theorem BkArd.dec_enc (f : BkArd) : BkArd.dec (BkArd.enc f) = some f := by
  simp (disch := omega) only [BkArd.dec, BkArd.enc, bitsAt_setWidth, bitsAt_append_high, bitsAt_append_low, bitsAt_all,
    bitAt_setWidth, bitAt_append_high, bitAt_append_low, bitAt_bitOf, bitsAt_zero, -Nat.reduceAdd, -Nat.reduceSub]
  simp (disch := omega) [bitsAt_all]

/-! ## The header of a syllable -/

/-- The class map of a slot. -/
noncomputable def decodeIn (sl : Slot) (n : Nat) (h : Hdr) (x : BitVec 43) : Option Instr :=
  match sl with
  | .S => decodeS n h x
  | .V0 => decodeV n h x
  | .V1 => decodeV n h x
  | .M => decodeM n h x
  | .C0 => decodeC n h x
  | .C1 => decodeC n h x
  | .B => decodeB n h x

theorem decodeFields_slotWord (sl : Slot) (op : BitVec 7) (h : Hdr) (x : BitVec 43) (e : h.slot = sl) :
    decodeFields sl (slotWord op h x) = decodeIn sl op.toNat h x := by
  have a : bitsAt (slotWord op h x) 56 7 = op := by
    simp (disch := omega) only [slotWord, bitsAt_setWidth, bitsAt_append_high, bitsAt_append_low, bitsAt_all,
    bitAt_setWidth, bitAt_append_high, bitAt_append_low, bitAt_bitOf, bitsAt_zero, -Nat.reduceAdd, -Nat.reduceSub]
    simp [bitsAt_all]
  have b : bitsAt (slotWord op h x) 51 5 = h.mask := by
    simp (disch := omega) only [slotWord, bitsAt_setWidth, bitsAt_append_high, bitsAt_append_low, bitsAt_all,
    bitAt_setWidth, bitAt_append_high, bitAt_append_low, bitAt_bitOf, bitsAt_zero, -Nat.reduceAdd, -Nat.reduceSub]
    simp [bitsAt_all]
  have c : bitsAt (slotWord op h x) 45 6 = h.guard := by
    simp (disch := omega) only [slotWord, bitsAt_setWidth, bitsAt_append_high, bitsAt_append_low, bitsAt_all,
    bitAt_setWidth, bitAt_append_high, bitAt_append_low, bitAt_bitOf, bitsAt_zero, -Nat.reduceAdd, -Nat.reduceSub]
    simp [bitsAt_all]
  have d : bitAt (slotWord op h x) 44 = h.sense := by
    simp (disch := omega) only [slotWord, bitsAt_setWidth, bitsAt_append_high, bitsAt_append_low, bitsAt_all,
    bitAt_setWidth, bitAt_append_high, bitAt_append_low, bitAt_bitOf, bitsAt_zero, -Nat.reduceAdd, -Nat.reduceSub]
    simp [bitsAt_all]
  have f : bitAt (slotWord op h x) 43 = h.dup := by
    simp (disch := omega) only [slotWord, bitsAt_setWidth, bitsAt_append_high, bitsAt_append_low, bitsAt_all,
    bitAt_setWidth, bitAt_append_high, bitAt_append_low, bitAt_bitOf, bitsAt_zero, -Nat.reduceAdd, -Nat.reduceSub]
    simp [bitsAt_all]
  have g : bitsAt (slotWord op h x) 0 43 = x := by
    simp (disch := omega) only [slotWord, bitsAt_setWidth, bitsAt_append_high, bitsAt_append_low, bitsAt_all,
    bitAt_setWidth, bitAt_append_high, bitAt_append_low, bitAt_bitOf, bitsAt_zero, -Nat.reduceAdd, -Nat.reduceSub]
  subst e
  simp only [decodeFields, a, b, c, d, f, g]
  cases h; rfl

theorem decodeSyl_slotWord (i : Instr) (op : BitVec 7) (h : Hdr) (x : BitVec 43) (sl : Slot) (e : h.slot = sl) (w : i.wf = true)
    (d : decodeIn sl op.toNat h x = some i) : decodeSyl sl (slotWord op h x) = some i := by
  unfold decodeSyl
  rw [decodeFields_slotWord sl op h x e, d]
  simp [w]

theorem TSyl.dec_enc (t : TSyl) : TSyl.dec t.enc = t := by
  simp (disch := omega) only [TSyl.dec, TSyl.enc, bitsAt_setWidth, bitsAt_append_high, bitsAt_append_low, bitsAt_all,
    bitAt_setWidth, bitAt_append_high, bitAt_append_low, bitAt_bitOf, bitsAt_zero, -Nat.reduceAdd, -Nat.reduceSub]
  simp [bitsAt_all]

theorem decodeT_enc (t : TSyl) (i : Instr) (e : (if t.shape.toNat < 4 then Instr.tChain t else .tBal t) = i) (w : i.wf = true) :
    decodeT t.enc = some i := by
  simp [decodeT, TSyl.dec_enc, e, w]

theorem decodeBk_word (op : BitVec 6) (x : BitVec 26) :
    bitsAt ((op ++ x).setWidth 32) 26 6 = op ∧ bitsAt ((op ++ x).setWidth 32) 0 26 = x := by
  constructor
  · simp (disch := omega) only [bitsAt_setWidth, bitsAt_append_high, bitsAt_append_low, bitsAt_all,
    bitAt_setWidth, bitAt_append_high, bitAt_append_low, bitAt_bitOf, bitsAt_zero, -Nat.reduceAdd, -Nat.reduceSub]
    simp [bitsAt_all]
  · simp (disch := omega) only [bitsAt_setWidth, bitsAt_append_high, bitsAt_append_low, bitsAt_all,
    bitAt_setWidth, bitAt_append_high, bitAt_append_low, bitAt_bitOf, bitsAt_zero, -Nat.reduceAdd, -Nat.reduceSub]

end Sys2Proof
end

