-- ==== Sys2Proof/Laws/PerInstr.lean ====
section
/-! SUPPORT. For each instruction: its word reads back as itself, with every operand at every value that its encoding
admits. -/

namespace Sys2Proof.Laws.RoundTrip

set_option Elab.async false
set_option linter.unusedSimpArgs false

/-- The decoder reads `w` as `i` where it meets a word of its kind: a condition tree, or a syllable of some slot. -/
def readsAs (w : BitVec 63) (i : Instr) : Prop :=
  match i with
  | .tChain _ => decodeT w = some i
  | .tBal _ => decodeT w = some i
  | _ => ∃ sl, decodeSyl sl w = some i

/-- The word that the encoder gives a well-formed instruction decodes to that instruction. -/
def Statement (i : Instr) : Prop :=
  i.wf = true → (∀ w, encodeSyl i = some w → readsAs w i) ∧ ∀ w, encodeBk i = some w → decodeBk w = some i


theorem tChain (t : TSyl) : Statement (.tChain t) := by
  intro hw
  refine ⟨fun w e => ?_, fun w e => nomatch e⟩
  injection e with e
  subst e
  have h : t.shape.toNat < 4 := by
    simp only [Instr.wf, Bool.and_eq_true, decide_eq_true_eq] at hw
    omega
  exact decodeT_enc t _ (by simp [h]) hw

theorem tBal (t : TSyl) : Statement (.tBal t) := by
  intro hw
  refine ⟨fun w e => ?_, fun w e => nomatch e⟩
  injection e with e
  subst e
  have h : ¬ t.shape.toNat < 4 := by
    simp only [Instr.wf, Bool.and_eq_true, decide_eq_true_eq] at hw
    omega
  exact decodeT_enc t _ (by simp [h]) hw

theorem bkAdd (f : BkAr) : Statement (.bkAdd f) := by
  intro _
  refine ⟨fun w e => (nomatch e), fun w e => ?_⟩
  injection e with e
  subst e
  have b := decodeBk_word 0#6 f.enc
  unfold decodeBk
  rw [b.1, b.2]
  show (BkAr.dec f.enc).map Instr.bkAdd = _
  rw [BkAr.dec_enc]
  rfl

theorem bkSub (f : BkAr) : Statement (.bkSub f) := by
  intro _
  refine ⟨fun w e => (nomatch e), fun w e => ?_⟩
  injection e with e
  subst e
  have b := decodeBk_word 1#6 f.enc
  unfold decodeBk
  rw [b.1, b.2]
  show (BkAr.dec f.enc).map Instr.bkSub = _
  rw [BkAr.dec_enc]
  rfl

theorem bkMul (f : BkMul) : Statement (.bkMul f) := by
  intro _
  refine ⟨fun w e => (nomatch e), fun w e => ?_⟩
  injection e with e
  subst e
  have b := decodeBk_word 2#6 f.enc
  unfold decodeBk
  rw [b.1, b.2]
  show (BkMul.dec f.enc).map Instr.bkMul = _
  rw [BkMul.dec_enc]
  rfl

theorem bkMac (f : BkMul) : Statement (.bkMac f) := by
  intro _
  refine ⟨fun w e => (nomatch e), fun w e => ?_⟩
  injection e with e
  subst e
  have b := decodeBk_word 3#6 f.enc
  unfold decodeBk
  rw [b.1, b.2]
  show (BkMul.dec f.enc).map Instr.bkMac = _
  rw [BkMul.dec_enc]
  rfl

theorem bkCmp (f : BkCmp) : Statement (.bkCmp f) := by
  intro _
  refine ⟨fun w e => (nomatch e), fun w e => ?_⟩
  injection e with e
  subst e
  have b := decodeBk_word 4#6 f.enc
  unfold decodeBk
  rw [b.1, b.2]
  show (BkCmp.dec f.enc).map Instr.bkCmp = _
  rw [BkCmp.dec_enc]
  rfl

theorem bkMin (f : BkAr) : Statement (.bkMin f) := by
  intro _
  refine ⟨fun w e => (nomatch e), fun w e => ?_⟩
  injection e with e
  subst e
  have b := decodeBk_word 5#6 f.enc
  unfold decodeBk
  rw [b.1, b.2]
  show (BkAr.dec f.enc).map Instr.bkMin = _
  rw [BkAr.dec_enc]
  rfl

theorem bkMax (f : BkAr) : Statement (.bkMax f) := by
  intro _
  refine ⟨fun w e => (nomatch e), fun w e => ?_⟩
  injection e with e
  subst e
  have b := decodeBk_word 6#6 f.enc
  unfold decodeBk
  rw [b.1, b.2]
  show (BkAr.dec f.enc).map Instr.bkMax = _
  rw [BkAr.dec_enc]
  rfl

theorem bkNeg (f : BkNeg) : Statement (.bkNeg f) := by
  intro _
  refine ⟨fun w e => (nomatch e), fun w e => ?_⟩
  injection e with e
  subst e
  have b := decodeBk_word 7#6 f.enc
  unfold decodeBk
  rw [b.1, b.2]
  show (BkNeg.dec f.enc).map Instr.bkNeg = _
  rw [BkNeg.dec_enc]
  rfl

theorem bkPand (f : BkP3) : Statement (.bkPand f) := by
  intro _
  refine ⟨fun w e => (nomatch e), fun w e => ?_⟩
  injection e with e
  subst e
  have b := decodeBk_word 8#6 f.enc
  unfold decodeBk
  rw [b.1, b.2]
  show (BkP3.dec f.enc).map Instr.bkPand = _
  rw [BkP3.dec_enc]
  rfl

theorem bkPor (f : BkP3) : Statement (.bkPor f) := by
  intro _
  refine ⟨fun w e => (nomatch e), fun w e => ?_⟩
  injection e with e
  subst e
  have b := decodeBk_word 9#6 f.enc
  unfold decodeBk
  rw [b.1, b.2]
  show (BkP3.dec f.enc).map Instr.bkPor = _
  rw [BkP3.dec_enc]
  rfl

theorem bkPxor (f : BkP3) : Statement (.bkPxor f) := by
  intro _
  refine ⟨fun w e => (nomatch e), fun w e => ?_⟩
  injection e with e
  subst e
  have b := decodeBk_word 10#6 f.enc
  unfold decodeBk
  rw [b.1, b.2]
  show (BkP3.dec f.enc).map Instr.bkPxor = _
  rw [BkP3.dec_enc]
  rfl

theorem bkPnot (f : BkP2) : Statement (.bkPnot f) := by
  intro _
  refine ⟨fun w e => (nomatch e), fun w e => ?_⟩
  injection e with e
  subst e
  have b := decodeBk_word 11#6 f.enc
  unfold decodeBk
  rw [b.1, b.2]
  show (BkP2.dec f.enc).map Instr.bkPnot = _
  rw [BkP2.dec_enc]
  rfl

theorem bkPmov (f : BkP2) : Statement (.bkPmov f) := by
  intro _
  refine ⟨fun w e => (nomatch e), fun w e => ?_⟩
  injection e with e
  subst e
  have b := decodeBk_word 12#6 f.enc
  unfold decodeBk
  rw [b.1, b.2]
  show (BkP2.dec f.enc).map Instr.bkPmov = _
  rw [BkP2.dec_enc]
  rfl

theorem bkPfill (f : BkFill) : Statement (.bkPfill f) := by
  intro _
  refine ⟨fun w e => (nomatch e), fun w e => ?_⟩
  injection e with e
  subst e
  have b := decodeBk_word 13#6 f.enc
  unfold decodeBk
  rw [b.1, b.2]
  show (BkFill.dec f.enc).map Instr.bkPfill = _
  rw [BkFill.dec_enc]
  rfl

theorem bkRrd (f : BkRow) : Statement (.bkRrd f) := by
  intro _
  refine ⟨fun w e => (nomatch e), fun w e => ?_⟩
  injection e with e
  subst e
  have b := decodeBk_word 14#6 f.enc
  unfold decodeBk
  rw [b.1, b.2]
  show (BkRow.dec f.enc).map Instr.bkRrd = _
  rw [BkRow.dec_enc]
  rfl

theorem bkRwr (f : BkRow) : Statement (.bkRwr f) := by
  intro _
  refine ⟨fun w e => (nomatch e), fun w e => ?_⟩
  injection e with e
  subst e
  have b := decodeBk_word 15#6 f.enc
  unfold decodeBk
  rw [b.1, b.2]
  show (BkRow.dec f.enc).map Instr.bkRwr = _
  rw [BkRow.dec_enc]
  rfl

theorem bkRwrm (f : BkRowM) : Statement (.bkRwrm f) := by
  intro _
  refine ⟨fun w e => (nomatch e), fun w e => ?_⟩
  injection e with e
  subst e
  have b := decodeBk_word 16#6 f.enc
  unfold decodeBk
  rw [b.1, b.2]
  show (BkRowM.dec f.enc).map Instr.bkRwrm = _
  rw [BkRowM.dec_enc]
  rfl

theorem bkRrds (f : BkRowS) : Statement (.bkRrds f) := by
  intro _
  refine ⟨fun w e => (nomatch e), fun w e => ?_⟩
  injection e with e
  subst e
  have b := decodeBk_word 17#6 f.enc
  unfold decodeBk
  rw [b.1, b.2]
  show (BkRowS.dec f.enc).map Instr.bkRrds = _
  rw [BkRowS.dec_enc]
  rfl

theorem bkLoop (f : BkLoop) : Statement (.bkLoop f) := by
  intro _
  refine ⟨fun w e => (nomatch e), fun w e => ?_⟩
  injection e with e
  subst e
  have b := decodeBk_word 18#6 f.enc
  unfold decodeBk
  rw [b.1, b.2]
  show (BkLoop.dec f.enc).map Instr.bkLoop = _
  rw [BkLoop.dec_enc]
  rfl

theorem bkEndl (f : BkC) : Statement (.bkEndl f) := by
  intro _
  refine ⟨fun w e => (nomatch e), fun w e => ?_⟩
  injection e with e
  subst e
  have b := decodeBk_word 19#6 f.enc
  unfold decodeBk
  rw [b.1, b.2]
  show (BkC.dec f.enc).map Instr.bkEndl = _
  rw [BkC.dec_enc]
  rfl

theorem bkWait (f : BkWait) : Statement (.bkWait f) := by
  intro _
  refine ⟨fun w e => (nomatch e), fun w e => ?_⟩
  injection e with e
  subst e
  have b := decodeBk_word 20#6 f.enc
  unfold decodeBk
  rw [b.1, b.2]
  show (BkWait.dec f.enc).map Instr.bkWait = _
  rw [BkWait.dec_enc]
  rfl

theorem bkHalt (f : BkNone) : Statement (.bkHalt f) := by
  intro _
  refine ⟨fun w e => (nomatch e), fun w e => ?_⟩
  injection e with e
  subst e
  have b := decodeBk_word 21#6 f.enc
  unfold decodeBk
  rw [b.1, b.2]
  show (BkNone.dec f.enc).map Instr.bkHalt = _
  rw [BkNone.dec_enc]
  rfl

theorem bkArd (f : BkArd) : Statement (.bkArd f) := by
  intro _
  refine ⟨fun w e => (nomatch e), fun w e => ?_⟩
  injection e with e
  subst e
  have b := decodeBk_word 22#6 f.enc
  unfold decodeBk
  rw [b.1, b.2]
  show (BkArd.dec f.enc).map Instr.bkArd = _
  rw [BkArd.dec_enc]
  rfl

theorem bkAclr (f : BkC) : Statement (.bkAclr f) := by
  intro _
  refine ⟨fun w e => (nomatch e), fun w e => ?_⟩
  injection e with e
  subst e
  have b := decodeBk_word 23#6 f.enc
  unfold decodeBk
  rw [b.1, b.2]
  show (BkC.dec f.enc).map Instr.bkAclr = _
  rw [BkC.dec_enc]
  rfl

theorem headerIssue : Statement .headerIssue := fun _ => ⟨fun _ e => (nomatch e), fun _ e => nomatch e⟩

theorem rendezvousPass : Statement .rendezvousPass := fun _ => ⟨fun _ e => (nomatch e), fun _ e => nomatch e⟩

theorem branchTransfer : Statement .branchTransfer := fun _ => ⟨fun _ e => (nomatch e), fun _ e => nomatch e⟩

theorem resultLand : Statement .resultLand := fun _ => ⟨fun _ e => (nomatch e), fun _ e => nomatch e⟩

theorem registerResultLand : Statement .registerResultLand := fun _ => ⟨fun _ e => (nomatch e), fun _ e => nomatch e⟩

theorem tileTransferLand : Statement .tileTransferLand := fun _ => ⟨fun _ e => (nomatch e), fun _ e => nomatch e⟩

theorem slipIssue : Statement .slipIssue := fun _ => ⟨fun _ e => (nomatch e), fun _ e => nomatch e⟩

theorem fetchLine : Statement .fetchLine := fun _ => ⟨fun _ e => (nomatch e), fun _ e => nomatch e⟩

theorem storePerform : Statement .storePerform := fun _ => ⟨fun _ e => (nomatch e), fun _ e => nomatch e⟩

theorem outboundPerform : Statement .outboundPerform := fun _ => ⟨fun _ e => (nomatch e), fun _ e => nomatch e⟩

theorem l2LineLeave : Statement .l2LineLeave := fun _ => ⟨fun _ e => (nomatch e), fun _ e => nomatch e⟩

theorem flumeElementRead : Statement .flumeElementRead := fun _ => ⟨fun _ e => (nomatch e), fun _ e => nomatch e⟩

theorem flumeElementWrite : Statement .flumeElementWrite := fun _ => ⟨fun _ e => (nomatch e), fun _ e => nomatch e⟩

theorem ringFillAppend : Statement .ringFillAppend := fun _ => ⟨fun _ e => (nomatch e), fun _ e => nomatch e⟩

theorem ringSpillWrite : Statement .ringSpillWrite := fun _ => ⟨fun _ e => (nomatch e), fun _ e => nomatch e⟩

theorem dpairCompare : Statement .dpairCompare := fun _ => ⟨fun _ e => (nomatch e), fun _ e => nomatch e⟩

theorem handlerEntry : Statement .handlerEntry := fun _ => ⟨fun _ e => (nomatch e), fun _ e => nomatch e⟩

theorem preemptionRequest : Statement .preemptionRequest := fun _ => ⟨fun _ e => (nomatch e), fun _ e => nomatch e⟩

theorem preemptionEntry : Statement .preemptionEntry := fun _ => ⟨fun _ e => (nomatch e), fun _ e => nomatch e⟩

theorem resumeEntry : Statement .resumeEntry := fun _ => ⟨fun _ e => (nomatch e), fun _ e => nomatch e⟩

theorem phaseOverrun : Statement .phaseOverrun := fun _ => ⟨fun _ e => (nomatch e), fun _ e => nomatch e⟩

theorem debugStep : Statement .debugStep := fun _ => ⟨fun _ e => (nomatch e), fun _ e => nomatch e⟩

theorem unitStart : Statement .unitStart := fun _ => ⟨fun _ e => (nomatch e), fun _ e => nomatch e⟩

theorem graphNodeStart : Statement .graphNodeStart := fun _ => ⟨fun _ e => (nomatch e), fun _ e => nomatch e⟩

theorem graphNodeComplete : Statement .graphNodeComplete := fun _ => ⟨fun _ e => (nomatch e), fun _ e => nomatch e⟩

theorem landingSlotValid : Statement .landingSlotValid := fun _ => ⟨fun _ e => (nomatch e), fun _ e => nomatch e⟩

theorem pktNop : Statement .pktNop := fun _ => ⟨fun _ e => (nomatch e), fun _ e => nomatch e⟩

theorem pktCopy : Statement .pktCopy := fun _ => ⟨fun _ e => (nomatch e), fun _ e => nomatch e⟩

theorem pktCopyReduce : Statement .pktCopyReduce := fun _ => ⟨fun _ e => (nomatch e), fun _ e => nomatch e⟩

theorem pktLaunch : Statement .pktLaunch := fun _ => ⟨fun _ e => (nomatch e), fun _ e => nomatch e⟩

theorem pktSignal : Statement .pktSignal := fun _ => ⟨fun _ e => (nomatch e), fun _ e => nomatch e⟩

theorem pktGraph : Statement .pktGraph := fun _ => ⟨fun _ e => (nomatch e), fun _ e => nomatch e⟩

theorem copyChunk : Statement .copyChunk := fun _ => ⟨fun _ e => (nomatch e), fun _ e => nomatch e⟩

theorem reduceChunk : Statement .reduceChunk := fun _ => ⟨fun _ e => (nomatch e), fun _ e => nomatch e⟩

theorem slotStallTimeout : Statement .slotStallTimeout := fun _ => ⟨fun _ e => (nomatch e), fun _ e => nomatch e⟩

theorem orchardChunk : Statement .orchardChunk := fun _ => ⟨fun _ e => (nomatch e), fun _ e => nomatch e⟩

theorem accessBeatOpen : Statement .accessBeatOpen := fun _ => ⟨fun _ e => (nomatch e), fun _ e => nomatch e⟩

theorem computeBeatOpen : Statement .computeBeatOpen := fun _ => ⟨fun _ e => (nomatch e), fun _ e => nomatch e⟩

theorem computeBeatEnd : Statement .computeBeatEnd := fun _ => ⟨fun _ e => (nomatch e), fun _ e => nomatch e⟩

theorem refreshGap : Statement .refreshGap := fun _ => ⟨fun _ e => (nomatch e), fun _ e => nomatch e⟩

theorem stretchLimit : Statement .stretchLimit := fun _ => ⟨fun _ e => (nomatch e), fun _ e => nomatch e⟩

theorem workedAccessArrival : Statement .workedAccessArrival := fun _ => ⟨fun _ e => (nomatch e), fun _ e => nomatch e⟩

theorem bankCommandArrival : Statement .bankCommandArrival := fun _ => ⟨fun _ e => (nomatch e), fun _ e => nomatch e⟩

theorem eccUncorrectable : Statement .eccUncorrectable := fun _ => ⟨fun _ e => (nomatch e), fun _ e => nomatch e⟩

theorem dirtyLineEviction : Statement .dirtyLineEviction := fun _ => ⟨fun _ e => (nomatch e), fun _ e => nomatch e⟩

theorem pageQuarantine : Statement .pageQuarantine := fun _ => ⟨fun _ e => (nomatch e), fun _ e => nomatch e⟩

theorem powerGood : Statement .powerGood := fun _ => ⟨fun _ e => (nomatch e), fun _ e => nomatch e⟩

theorem dramLayerReady : Statement .dramLayerReady := fun _ => ⟨fun _ e => (nomatch e), fun _ e => nomatch e⟩

theorem temperatureBandChange : Statement .temperatureBandChange := fun _ => ⟨fun _ e => (nomatch e), fun _ e => nomatch e⟩

theorem powerLoss : Statement .powerLoss := fun _ => ⟨fun _ e => (nomatch e), fun _ e => nomatch e⟩

theorem energyReconcile : Statement .energyReconcile := fun _ => ⟨fun _ e => (nomatch e), fun _ e => nomatch e⟩

theorem mgmtConnection : Statement .mgmtConnection := fun _ => ⟨fun _ e => (nomatch e), fun _ e => nomatch e⟩

theorem msgWrite : Statement .msgWrite := fun _ => ⟨fun _ e => (nomatch e), fun _ e => nomatch e⟩

theorem msgRead : Statement .msgRead := fun _ => ⟨fun _ e => (nomatch e), fun _ e => nomatch e⟩

theorem msgAtomicAdd : Statement .msgAtomicAdd := fun _ => ⟨fun _ e => (nomatch e), fun _ e => nomatch e⟩

theorem msgReduce : Statement .msgReduce := fun _ => ⟨fun _ e => (nomatch e), fun _ e => nomatch e⟩

theorem peerChunkReply : Statement .peerChunkReply := fun _ => ⟨fun _ e => (nomatch e), fun _ e => nomatch e⟩

theorem svcEnableQueue : Statement .svcEnableQueue := fun _ => ⟨fun _ e => (nomatch e), fun _ e => nomatch e⟩

theorem svcDisableQueue : Statement .svcDisableQueue := fun _ => ⟨fun _ e => (nomatch e), fun _ e => nomatch e⟩

theorem svcOrchardFill : Statement .svcOrchardFill := fun _ => ⟨fun _ e => (nomatch e), fun _ e => nomatch e⟩

theorem svcAttestationReport : Statement .svcAttestationReport := fun _ => ⟨fun _ e => (nomatch e), fun _ e => nomatch e⟩

theorem svcReadScaleTickets : Statement .svcReadScaleTickets := fun _ => ⟨fun _ e => (nomatch e), fun _ e => nomatch e⟩

theorem svcRetireContext : Statement .svcRetireContext := fun _ => ⟨fun _ e => (nomatch e), fun _ e => nomatch e⟩

theorem svcRegisterContext : Statement .svcRegisterContext := fun _ => ⟨fun _ e => (nomatch e), fun _ e => nomatch e⟩

theorem svcBindJob : Statement .svcBindJob := fun _ => ⟨fun _ e => (nomatch e), fun _ e => nomatch e⟩

theorem svcReadServiceWord : Statement .svcReadServiceWord := fun _ => ⟨fun _ e => (nomatch e), fun _ e => nomatch e⟩

theorem svcSetPeer : Statement .svcSetPeer := fun _ => ⟨fun _ e => (nomatch e), fun _ e => nomatch e⟩

theorem lanemapWrite : Statement .lanemapWrite := fun _ => ⟨fun _ e => (nomatch e), fun _ e => nomatch e⟩

theorem baseRegisterWrite : Statement .baseRegisterWrite := fun _ => ⟨fun _ e => (nomatch e), fun _ e => nomatch e⟩

theorem statusWordWrite : Statement .statusWordWrite := fun _ => ⟨fun _ e => (nomatch e), fun _ e => nomatch e⟩

theorem sAdd (h : Hdr) (f : OpRR) : Statement (.sAdd h f) := by
  intro hw
  refine ⟨fun w e => ?_, fun w e => nomatch e⟩
  injection e with e
  subst e
  have d : decodeS (0#7).toNat h f.enc = some (.sAdd h f) := by
    show (OpRR.dec f.enc).map (Instr.sAdd h) = _
    rw [OpRR.dec_enc]
    rfl
  have s : h.slot = .S := by
    simp only [Instr.wf, Bool.and_eq_true, Bool.or_eq_true, beq_iff_eq] at hw
    first | exact hw.2 | exact hw.1.2 | exact hw.2.1 | exact hw.1.1.2 | simp_all
  exact ⟨.S, decodeSyl_slotWord _ _ h _ _ s hw d⟩

theorem sSub (h : Hdr) (f : OpRR) : Statement (.sSub h f) := by
  intro hw
  refine ⟨fun w e => ?_, fun w e => nomatch e⟩
  injection e with e
  subst e
  have d : decodeS (1#7).toNat h f.enc = some (.sSub h f) := by
    show (OpRR.dec f.enc).map (Instr.sSub h) = _
    rw [OpRR.dec_enc]
    rfl
  have s : h.slot = .S := by
    simp only [Instr.wf, Bool.and_eq_true, Bool.or_eq_true, beq_iff_eq] at hw
    first | exact hw.2 | exact hw.1.2 | exact hw.2.1 | exact hw.1.1.2 | simp_all
  exact ⟨.S, decodeSyl_slotWord _ _ h _ _ s hw d⟩

theorem sMul (h : Hdr) (f : OpRR) : Statement (.sMul h f) := by
  intro hw
  refine ⟨fun w e => ?_, fun w e => nomatch e⟩
  injection e with e
  subst e
  have d : decodeS (2#7).toNat h f.enc = some (.sMul h f) := by
    show (OpRR.dec f.enc).map (Instr.sMul h) = _
    rw [OpRR.dec_enc]
    rfl
  have s : h.slot = .S := by
    simp only [Instr.wf, Bool.and_eq_true, Bool.or_eq_true, beq_iff_eq] at hw
    first | exact hw.2 | exact hw.1.2 | exact hw.2.1 | exact hw.1.1.2 | simp_all
  exact ⟨.S, decodeSyl_slotWord _ _ h _ _ s hw d⟩

theorem sMulh (h : Hdr) (f : OpRR) : Statement (.sMulh h f) := by
  intro hw
  refine ⟨fun w e => ?_, fun w e => nomatch e⟩
  injection e with e
  subst e
  have d : decodeS (3#7).toNat h f.enc = some (.sMulh h f) := by
    show (OpRR.dec f.enc).map (Instr.sMulh h) = _
    rw [OpRR.dec_enc]
    rfl
  have s : h.slot = .S := by
    simp only [Instr.wf, Bool.and_eq_true, Bool.or_eq_true, beq_iff_eq] at hw
    first | exact hw.2 | exact hw.1.2 | exact hw.2.1 | exact hw.1.1.2 | simp_all
  exact ⟨.S, decodeSyl_slotWord _ _ h _ _ s hw d⟩

theorem sMulhu (h : Hdr) (f : OpRR) : Statement (.sMulhu h f) := by
  intro hw
  refine ⟨fun w e => ?_, fun w e => nomatch e⟩
  injection e with e
  subst e
  have d : decodeS (4#7).toNat h f.enc = some (.sMulhu h f) := by
    show (OpRR.dec f.enc).map (Instr.sMulhu h) = _
    rw [OpRR.dec_enc]
    rfl
  have s : h.slot = .S := by
    simp only [Instr.wf, Bool.and_eq_true, Bool.or_eq_true, beq_iff_eq] at hw
    first | exact hw.2 | exact hw.1.2 | exact hw.2.1 | exact hw.1.1.2 | simp_all
  exact ⟨.S, decodeSyl_slotWord _ _ h _ _ s hw d⟩

theorem sAnd (h : Hdr) (f : OpRR) : Statement (.sAnd h f) := by
  intro hw
  refine ⟨fun w e => ?_, fun w e => nomatch e⟩
  injection e with e
  subst e
  have d : decodeS (5#7).toNat h f.enc = some (.sAnd h f) := by
    show (OpRR.dec f.enc).map (Instr.sAnd h) = _
    rw [OpRR.dec_enc]
    rfl
  have s : h.slot = .S := by
    simp only [Instr.wf, Bool.and_eq_true, Bool.or_eq_true, beq_iff_eq] at hw
    first | exact hw.2 | exact hw.1.2 | exact hw.2.1 | exact hw.1.1.2 | simp_all
  exact ⟨.S, decodeSyl_slotWord _ _ h _ _ s hw d⟩

theorem sOr (h : Hdr) (f : OpRR) : Statement (.sOr h f) := by
  intro hw
  refine ⟨fun w e => ?_, fun w e => nomatch e⟩
  injection e with e
  subst e
  have d : decodeS (6#7).toNat h f.enc = some (.sOr h f) := by
    show (OpRR.dec f.enc).map (Instr.sOr h) = _
    rw [OpRR.dec_enc]
    rfl
  have s : h.slot = .S := by
    simp only [Instr.wf, Bool.and_eq_true, Bool.or_eq_true, beq_iff_eq] at hw
    first | exact hw.2 | exact hw.1.2 | exact hw.2.1 | exact hw.1.1.2 | simp_all
  exact ⟨.S, decodeSyl_slotWord _ _ h _ _ s hw d⟩

theorem sXor (h : Hdr) (f : OpRR) : Statement (.sXor h f) := by
  intro hw
  refine ⟨fun w e => ?_, fun w e => nomatch e⟩
  injection e with e
  subst e
  have d : decodeS (7#7).toNat h f.enc = some (.sXor h f) := by
    show (OpRR.dec f.enc).map (Instr.sXor h) = _
    rw [OpRR.dec_enc]
    rfl
  have s : h.slot = .S := by
    simp only [Instr.wf, Bool.and_eq_true, Bool.or_eq_true, beq_iff_eq] at hw
    first | exact hw.2 | exact hw.1.2 | exact hw.2.1 | exact hw.1.1.2 | simp_all
  exact ⟨.S, decodeSyl_slotWord _ _ h _ _ s hw d⟩

theorem sShl (h : Hdr) (f : OpRR) : Statement (.sShl h f) := by
  intro hw
  refine ⟨fun w e => ?_, fun w e => nomatch e⟩
  injection e with e
  subst e
  have d : decodeS (8#7).toNat h f.enc = some (.sShl h f) := by
    show (OpRR.dec f.enc).map (Instr.sShl h) = _
    rw [OpRR.dec_enc]
    rfl
  have s : h.slot = .S := by
    simp only [Instr.wf, Bool.and_eq_true, Bool.or_eq_true, beq_iff_eq] at hw
    first | exact hw.2 | exact hw.1.2 | exact hw.2.1 | exact hw.1.1.2 | simp_all
  exact ⟨.S, decodeSyl_slotWord _ _ h _ _ s hw d⟩

theorem sShr (h : Hdr) (f : OpRR) : Statement (.sShr h f) := by
  intro hw
  refine ⟨fun w e => ?_, fun w e => nomatch e⟩
  injection e with e
  subst e
  have d : decodeS (9#7).toNat h f.enc = some (.sShr h f) := by
    show (OpRR.dec f.enc).map (Instr.sShr h) = _
    rw [OpRR.dec_enc]
    rfl
  have s : h.slot = .S := by
    simp only [Instr.wf, Bool.and_eq_true, Bool.or_eq_true, beq_iff_eq] at hw
    first | exact hw.2 | exact hw.1.2 | exact hw.2.1 | exact hw.1.1.2 | simp_all
  exact ⟨.S, decodeSyl_slotWord _ _ h _ _ s hw d⟩

theorem sSra (h : Hdr) (f : OpRR) : Statement (.sSra h f) := by
  intro hw
  refine ⟨fun w e => ?_, fun w e => nomatch e⟩
  injection e with e
  subst e
  have d : decodeS (10#7).toNat h f.enc = some (.sSra h f) := by
    show (OpRR.dec f.enc).map (Instr.sSra h) = _
    rw [OpRR.dec_enc]
    rfl
  have s : h.slot = .S := by
    simp only [Instr.wf, Bool.and_eq_true, Bool.or_eq_true, beq_iff_eq] at hw
    first | exact hw.2 | exact hw.1.2 | exact hw.2.1 | exact hw.1.1.2 | simp_all
  exact ⟨.S, decodeSyl_slotWord _ _ h _ _ s hw d⟩

theorem sMin (h : Hdr) (f : OpRR) : Statement (.sMin h f) := by
  intro hw
  refine ⟨fun w e => ?_, fun w e => nomatch e⟩
  injection e with e
  subst e
  have d : decodeS (11#7).toNat h f.enc = some (.sMin h f) := by
    show (OpRR.dec f.enc).map (Instr.sMin h) = _
    rw [OpRR.dec_enc]
    rfl
  have s : h.slot = .S := by
    simp only [Instr.wf, Bool.and_eq_true, Bool.or_eq_true, beq_iff_eq] at hw
    first | exact hw.2 | exact hw.1.2 | exact hw.2.1 | exact hw.1.1.2 | simp_all
  exact ⟨.S, decodeSyl_slotWord _ _ h _ _ s hw d⟩

theorem sMax (h : Hdr) (f : OpRR) : Statement (.sMax h f) := by
  intro hw
  refine ⟨fun w e => ?_, fun w e => nomatch e⟩
  injection e with e
  subst e
  have d : decodeS (12#7).toNat h f.enc = some (.sMax h f) := by
    show (OpRR.dec f.enc).map (Instr.sMax h) = _
    rw [OpRR.dec_enc]
    rfl
  have s : h.slot = .S := by
    simp only [Instr.wf, Bool.and_eq_true, Bool.or_eq_true, beq_iff_eq] at hw
    first | exact hw.2 | exact hw.1.2 | exact hw.2.1 | exact hw.1.1.2 | simp_all
  exact ⟨.S, decodeSyl_slotWord _ _ h _ _ s hw d⟩

theorem sMinu (h : Hdr) (f : OpRR) : Statement (.sMinu h f) := by
  intro hw
  refine ⟨fun w e => ?_, fun w e => nomatch e⟩
  injection e with e
  subst e
  have d : decodeS (13#7).toNat h f.enc = some (.sMinu h f) := by
    show (OpRR.dec f.enc).map (Instr.sMinu h) = _
    rw [OpRR.dec_enc]
    rfl
  have s : h.slot = .S := by
    simp only [Instr.wf, Bool.and_eq_true, Bool.or_eq_true, beq_iff_eq] at hw
    first | exact hw.2 | exact hw.1.2 | exact hw.2.1 | exact hw.1.1.2 | simp_all
  exact ⟨.S, decodeSyl_slotWord _ _ h _ _ s hw d⟩

theorem sMaxu (h : Hdr) (f : OpRR) : Statement (.sMaxu h f) := by
  intro hw
  refine ⟨fun w e => ?_, fun w e => nomatch e⟩
  injection e with e
  subst e
  have d : decodeS (14#7).toNat h f.enc = some (.sMaxu h f) := by
    show (OpRR.dec f.enc).map (Instr.sMaxu h) = _
    rw [OpRR.dec_enc]
    rfl
  have s : h.slot = .S := by
    simp only [Instr.wf, Bool.and_eq_true, Bool.or_eq_true, beq_iff_eq] at hw
    first | exact hw.2 | exact hw.1.2 | exact hw.2.1 | exact hw.1.1.2 | simp_all
  exact ⟨.S, decodeSyl_slotWord _ _ h _ _ s hw d⟩

theorem sAdds (h : Hdr) (f : OpRR) : Statement (.sAdds h f) := by
  intro hw
  refine ⟨fun w e => ?_, fun w e => nomatch e⟩
  injection e with e
  subst e
  have d : decodeS (15#7).toNat h f.enc = some (.sAdds h f) := by
    show (OpRR.dec f.enc).map (Instr.sAdds h) = _
    rw [OpRR.dec_enc]
    rfl
  have s : h.slot = .S := by
    simp only [Instr.wf, Bool.and_eq_true, Bool.or_eq_true, beq_iff_eq] at hw
    first | exact hw.2 | exact hw.1.2 | exact hw.2.1 | exact hw.1.1.2 | simp_all
  exact ⟨.S, decodeSyl_slotWord _ _ h _ _ s hw d⟩

theorem sAddi (h : Hdr) (f : OpRI) : Statement (.sAddi h f) := by
  intro hw
  refine ⟨fun w e => ?_, fun w e => nomatch e⟩
  injection e with e
  subst e
  have d : decodeS (16#7).toNat h f.enc = some (.sAddi h f) := by
    show (OpRI.dec f.enc).map (Instr.sAddi h) = _
    rw [OpRI.dec_enc]
    rfl
  have s : h.slot = .S := by
    simp only [Instr.wf, Bool.and_eq_true, Bool.or_eq_true, beq_iff_eq] at hw
    first | exact hw.2 | exact hw.1.2 | exact hw.2.1 | exact hw.1.1.2 | simp_all
  exact ⟨.S, decodeSyl_slotWord _ _ h _ _ s hw d⟩

theorem sAndi (h : Hdr) (f : OpRI) : Statement (.sAndi h f) := by
  intro hw
  refine ⟨fun w e => ?_, fun w e => nomatch e⟩
  injection e with e
  subst e
  have d : decodeS (17#7).toNat h f.enc = some (.sAndi h f) := by
    show (OpRI.dec f.enc).map (Instr.sAndi h) = _
    rw [OpRI.dec_enc]
    rfl
  have s : h.slot = .S := by
    simp only [Instr.wf, Bool.and_eq_true, Bool.or_eq_true, beq_iff_eq] at hw
    first | exact hw.2 | exact hw.1.2 | exact hw.2.1 | exact hw.1.1.2 | simp_all
  exact ⟨.S, decodeSyl_slotWord _ _ h _ _ s hw d⟩

theorem sOri (h : Hdr) (f : OpRI) : Statement (.sOri h f) := by
  intro hw
  refine ⟨fun w e => ?_, fun w e => nomatch e⟩
  injection e with e
  subst e
  have d : decodeS (18#7).toNat h f.enc = some (.sOri h f) := by
    show (OpRI.dec f.enc).map (Instr.sOri h) = _
    rw [OpRI.dec_enc]
    rfl
  have s : h.slot = .S := by
    simp only [Instr.wf, Bool.and_eq_true, Bool.or_eq_true, beq_iff_eq] at hw
    first | exact hw.2 | exact hw.1.2 | exact hw.2.1 | exact hw.1.1.2 | simp_all
  exact ⟨.S, decodeSyl_slotWord _ _ h _ _ s hw d⟩

theorem sXori (h : Hdr) (f : OpRI) : Statement (.sXori h f) := by
  intro hw
  refine ⟨fun w e => ?_, fun w e => nomatch e⟩
  injection e with e
  subst e
  have d : decodeS (19#7).toNat h f.enc = some (.sXori h f) := by
    show (OpRI.dec f.enc).map (Instr.sXori h) = _
    rw [OpRI.dec_enc]
    rfl
  have s : h.slot = .S := by
    simp only [Instr.wf, Bool.and_eq_true, Bool.or_eq_true, beq_iff_eq] at hw
    first | exact hw.2 | exact hw.1.2 | exact hw.2.1 | exact hw.1.1.2 | simp_all
  exact ⟨.S, decodeSyl_slotWord _ _ h _ _ s hw d⟩

theorem sShli (h : Hdr) (f : OpSH) : Statement (.sShli h f) := by
  intro hw
  refine ⟨fun w e => ?_, fun w e => nomatch e⟩
  injection e with e
  subst e
  have d : decodeS (20#7).toNat h f.enc = some (.sShli h f) := by
    show (OpSH.dec f.enc).map (Instr.sShli h) = _
    rw [OpSH.dec_enc]
    rfl
  have s : h.slot = .S := by
    simp only [Instr.wf, Bool.and_eq_true, Bool.or_eq_true, beq_iff_eq] at hw
    first | exact hw.2 | exact hw.1.2 | exact hw.2.1 | exact hw.1.1.2 | simp_all
  exact ⟨.S, decodeSyl_slotWord _ _ h _ _ s hw d⟩

theorem sShri (h : Hdr) (f : OpSH) : Statement (.sShri h f) := by
  intro hw
  refine ⟨fun w e => ?_, fun w e => nomatch e⟩
  injection e with e
  subst e
  have d : decodeS (21#7).toNat h f.enc = some (.sShri h f) := by
    show (OpSH.dec f.enc).map (Instr.sShri h) = _
    rw [OpSH.dec_enc]
    rfl
  have s : h.slot = .S := by
    simp only [Instr.wf, Bool.and_eq_true, Bool.or_eq_true, beq_iff_eq] at hw
    first | exact hw.2 | exact hw.1.2 | exact hw.2.1 | exact hw.1.1.2 | simp_all
  exact ⟨.S, decodeSyl_slotWord _ _ h _ _ s hw d⟩

theorem sSrai (h : Hdr) (f : OpSH) : Statement (.sSrai h f) := by
  intro hw
  refine ⟨fun w e => ?_, fun w e => nomatch e⟩
  injection e with e
  subst e
  have d : decodeS (22#7).toNat h f.enc = some (.sSrai h f) := by
    show (OpSH.dec f.enc).map (Instr.sSrai h) = _
    rw [OpSH.dec_enc]
    rfl
  have s : h.slot = .S := by
    simp only [Instr.wf, Bool.and_eq_true, Bool.or_eq_true, beq_iff_eq] at hw
    first | exact hw.2 | exact hw.1.2 | exact hw.2.1 | exact hw.1.1.2 | simp_all
  exact ⟨.S, decodeSyl_slotWord _ _ h _ _ s hw d⟩

theorem sLea (h : Hdr) (f : OpLEA) : Statement (.sLea h f) := by
  intro hw
  refine ⟨fun w e => ?_, fun w e => nomatch e⟩
  injection e with e
  subst e
  have d : decodeS (23#7).toNat h f.enc = some (.sLea h f) := by
    show (OpLEA.dec f.enc).map (Instr.sLea h) = _
    rw [OpLEA.dec_enc]
    rfl
  have s : h.slot = .S := by
    simp only [Instr.wf, Bool.and_eq_true, Bool.or_eq_true, beq_iff_eq] at hw
    first | exact hw.2 | exact hw.1.2 | exact hw.2.1 | exact hw.1.1.2 | simp_all
  exact ⟨.S, decodeSyl_slotWord _ _ h _ _ s hw d⟩

theorem sCeq (h : Hdr) (f : OpPR) : Statement (.sCeq h f) := by
  intro hw
  refine ⟨fun w e => ?_, fun w e => nomatch e⟩
  injection e with e
  subst e
  have d : decodeS (24#7).toNat h f.enc = some (.sCeq h f) := by
    show (OpPR.dec f.enc).map (Instr.sCeq h) = _
    rw [OpPR.dec_enc]
    rfl
  have s : h.slot = .S := by
    simp only [Instr.wf, Bool.and_eq_true, Bool.or_eq_true, beq_iff_eq] at hw
    first | exact hw.2 | exact hw.1.2 | exact hw.2.1 | exact hw.1.1.2 | simp_all
  exact ⟨.S, decodeSyl_slotWord _ _ h _ _ s hw d⟩

theorem sCne (h : Hdr) (f : OpPR) : Statement (.sCne h f) := by
  intro hw
  refine ⟨fun w e => ?_, fun w e => nomatch e⟩
  injection e with e
  subst e
  have d : decodeS (25#7).toNat h f.enc = some (.sCne h f) := by
    show (OpPR.dec f.enc).map (Instr.sCne h) = _
    rw [OpPR.dec_enc]
    rfl
  have s : h.slot = .S := by
    simp only [Instr.wf, Bool.and_eq_true, Bool.or_eq_true, beq_iff_eq] at hw
    first | exact hw.2 | exact hw.1.2 | exact hw.2.1 | exact hw.1.1.2 | simp_all
  exact ⟨.S, decodeSyl_slotWord _ _ h _ _ s hw d⟩

theorem sClt (h : Hdr) (f : OpPR) : Statement (.sClt h f) := by
  intro hw
  refine ⟨fun w e => ?_, fun w e => nomatch e⟩
  injection e with e
  subst e
  have d : decodeS (26#7).toNat h f.enc = some (.sClt h f) := by
    show (OpPR.dec f.enc).map (Instr.sClt h) = _
    rw [OpPR.dec_enc]
    rfl
  have s : h.slot = .S := by
    simp only [Instr.wf, Bool.and_eq_true, Bool.or_eq_true, beq_iff_eq] at hw
    first | exact hw.2 | exact hw.1.2 | exact hw.2.1 | exact hw.1.1.2 | simp_all
  exact ⟨.S, decodeSyl_slotWord _ _ h _ _ s hw d⟩

theorem sCle (h : Hdr) (f : OpPR) : Statement (.sCle h f) := by
  intro hw
  refine ⟨fun w e => ?_, fun w e => nomatch e⟩
  injection e with e
  subst e
  have d : decodeS (27#7).toNat h f.enc = some (.sCle h f) := by
    show (OpPR.dec f.enc).map (Instr.sCle h) = _
    rw [OpPR.dec_enc]
    rfl
  have s : h.slot = .S := by
    simp only [Instr.wf, Bool.and_eq_true, Bool.or_eq_true, beq_iff_eq] at hw
    first | exact hw.2 | exact hw.1.2 | exact hw.2.1 | exact hw.1.1.2 | simp_all
  exact ⟨.S, decodeSyl_slotWord _ _ h _ _ s hw d⟩

theorem sCltu (h : Hdr) (f : OpPR) : Statement (.sCltu h f) := by
  intro hw
  refine ⟨fun w e => ?_, fun w e => nomatch e⟩
  injection e with e
  subst e
  have d : decodeS (28#7).toNat h f.enc = some (.sCltu h f) := by
    show (OpPR.dec f.enc).map (Instr.sCltu h) = _
    rw [OpPR.dec_enc]
    rfl
  have s : h.slot = .S := by
    simp only [Instr.wf, Bool.and_eq_true, Bool.or_eq_true, beq_iff_eq] at hw
    first | exact hw.2 | exact hw.1.2 | exact hw.2.1 | exact hw.1.1.2 | simp_all
  exact ⟨.S, decodeSyl_slotWord _ _ h _ _ s hw d⟩

theorem sCleu (h : Hdr) (f : OpPR) : Statement (.sCleu h f) := by
  intro hw
  refine ⟨fun w e => ?_, fun w e => nomatch e⟩
  injection e with e
  subst e
  have d : decodeS (29#7).toNat h f.enc = some (.sCleu h f) := by
    show (OpPR.dec f.enc).map (Instr.sCleu h) = _
    rw [OpPR.dec_enc]
    rfl
  have s : h.slot = .S := by
    simp only [Instr.wf, Bool.and_eq_true, Bool.or_eq_true, beq_iff_eq] at hw
    first | exact hw.2 | exact hw.1.2 | exact hw.2.1 | exact hw.1.1.2 | simp_all
  exact ⟨.S, decodeSyl_slotWord _ _ h _ _ s hw d⟩

theorem sCeqi (h : Hdr) (f : OpPI) : Statement (.sCeqi h f) := by
  intro hw
  refine ⟨fun w e => ?_, fun w e => nomatch e⟩
  injection e with e
  subst e
  have d : decodeS (30#7).toNat h f.enc = some (.sCeqi h f) := by
    show (OpPI.dec f.enc).map (Instr.sCeqi h) = _
    rw [OpPI.dec_enc]
    rfl
  have s : h.slot = .S := by
    simp only [Instr.wf, Bool.and_eq_true, Bool.or_eq_true, beq_iff_eq] at hw
    first | exact hw.2 | exact hw.1.2 | exact hw.2.1 | exact hw.1.1.2 | simp_all
  exact ⟨.S, decodeSyl_slotWord _ _ h _ _ s hw d⟩

theorem sClti (h : Hdr) (f : OpPI) : Statement (.sClti h f) := by
  intro hw
  refine ⟨fun w e => ?_, fun w e => nomatch e⟩
  injection e with e
  subst e
  have d : decodeS (31#7).toNat h f.enc = some (.sClti h f) := by
    show (OpPI.dec f.enc).map (Instr.sClti h) = _
    rw [OpPI.dec_enc]
    rfl
  have s : h.slot = .S := by
    simp only [Instr.wf, Bool.and_eq_true, Bool.or_eq_true, beq_iff_eq] at hw
    first | exact hw.2 | exact hw.1.2 | exact hw.2.1 | exact hw.1.1.2 | simp_all
  exact ⟨.S, decodeSyl_slotWord _ _ h _ _ s hw d⟩

theorem sPand (h : Hdr) (f : OpPL) : Statement (.sPand h f) := by
  intro hw
  refine ⟨fun w e => ?_, fun w e => nomatch e⟩
  injection e with e
  subst e
  have d : decodeS (32#7).toNat h f.enc = some (.sPand h f) := by
    show (OpPL.dec f.enc).map (Instr.sPand h) = _
    rw [OpPL.dec_enc]
    rfl
  have s : h.slot = .S := by
    simp only [Instr.wf, Bool.and_eq_true, Bool.or_eq_true, beq_iff_eq] at hw
    first | exact hw.2 | exact hw.1.2 | exact hw.2.1 | exact hw.1.1.2 | simp_all
  exact ⟨.S, decodeSyl_slotWord _ _ h _ _ s hw d⟩

theorem sPor (h : Hdr) (f : OpPL) : Statement (.sPor h f) := by
  intro hw
  refine ⟨fun w e => ?_, fun w e => nomatch e⟩
  injection e with e
  subst e
  have d : decodeS (33#7).toNat h f.enc = some (.sPor h f) := by
    show (OpPL.dec f.enc).map (Instr.sPor h) = _
    rw [OpPL.dec_enc]
    rfl
  have s : h.slot = .S := by
    simp only [Instr.wf, Bool.and_eq_true, Bool.or_eq_true, beq_iff_eq] at hw
    first | exact hw.2 | exact hw.1.2 | exact hw.2.1 | exact hw.1.1.2 | simp_all
  exact ⟨.S, decodeSyl_slotWord _ _ h _ _ s hw d⟩

theorem sPxor (h : Hdr) (f : OpPL) : Statement (.sPxor h f) := by
  intro hw
  refine ⟨fun w e => ?_, fun w e => nomatch e⟩
  injection e with e
  subst e
  have d : decodeS (34#7).toNat h f.enc = some (.sPxor h f) := by
    show (OpPL.dec f.enc).map (Instr.sPxor h) = _
    rw [OpPL.dec_enc]
    rfl
  have s : h.slot = .S := by
    simp only [Instr.wf, Bool.and_eq_true, Bool.or_eq_true, beq_iff_eq] at hw
    first | exact hw.2 | exact hw.1.2 | exact hw.2.1 | exact hw.1.1.2 | simp_all
  exact ⟨.S, decodeSyl_slotWord _ _ h _ _ s hw d⟩

theorem sPbit (h : Hdr) (f : OpPB) : Statement (.sPbit h f) := by
  intro hw
  refine ⟨fun w e => ?_, fun w e => nomatch e⟩
  injection e with e
  subst e
  have d : decodeS (35#7).toNat h f.enc = some (.sPbit h f) := by
    show (OpPB.dec f.enc).map (Instr.sPbit h) = _
    rw [OpPB.dec_enc]
    rfl
  have s : h.slot = .S := by
    simp only [Instr.wf, Bool.and_eq_true, Bool.or_eq_true, beq_iff_eq] at hw
    first | exact hw.2 | exact hw.1.2 | exact hw.2.1 | exact hw.1.1.2 | simp_all
  exact ⟨.S, decodeSyl_slotWord _ _ h _ _ s hw d⟩

theorem sMov (h : Hdr) (f : OpMOV) : Statement (.sMov h f) := by
  intro hw
  refine ⟨fun w e => ?_, fun w e => nomatch e⟩
  injection e with e
  subst e
  have d : decodeS (36#7).toNat h f.enc = some (.sMov h f) := by
    show (OpMOV.dec f.enc).map (Instr.sMov h) = _
    rw [OpMOV.dec_enc]
    rfl
  have s : h.slot = .S := by
    simp only [Instr.wf, Bool.and_eq_true, Bool.or_eq_true, beq_iff_eq] at hw
    first | exact hw.2 | exact hw.1.2 | exact hw.2.1 | exact hw.1.1.2 | simp_all
  exact ⟨.S, decodeSyl_slotWord _ _ h _ _ s hw d⟩

theorem sRsw (h : Hdr) (f : OpRSW) : Statement (.sRsw h f) := by
  intro hw
  refine ⟨fun w e => ?_, fun w e => nomatch e⟩
  injection e with e
  subst e
  have d : decodeS (37#7).toNat h f.enc = some (.sRsw h f) := by
    show (OpRSW.dec f.enc).map (Instr.sRsw h) = _
    rw [OpRSW.dec_enc]
    rfl
  have s : h.slot = .S := by
    simp only [Instr.wf, Bool.and_eq_true, Bool.or_eq_true, beq_iff_eq] at hw
    first | exact hw.2 | exact hw.1.2 | exact hw.2.1 | exact hw.1.1.2 | simp_all
  exact ⟨.S, decodeSyl_slotWord _ _ h _ _ s hw d⟩

theorem sWsw (h : Hdr) (f : OpWSW) : Statement (.sWsw h f) := by
  intro hw
  refine ⟨fun w e => ?_, fun w e => nomatch e⟩
  injection e with e
  subst e
  have d : decodeS (38#7).toNat h f.enc = some (.sWsw h f) := by
    show (OpWSW.dec f.enc).map (Instr.sWsw h) = _
    rw [OpWSW.dec_enc]
    rfl
  have s : h.slot = .S := by
    simp only [Instr.wf, Bool.and_eq_true, Bool.or_eq_true, beq_iff_eq] at hw
    first | exact hw.2 | exact hw.1.2 | exact hw.2.1 | exact hw.1.1.2 | simp_all
  exact ⟨.S, decodeSyl_slotWord _ _ h _ _ s hw d⟩

theorem sRtag (h : Hdr) (f : OpRTAG) : Statement (.sRtag h f) := by
  intro hw
  refine ⟨fun w e => ?_, fun w e => nomatch e⟩
  injection e with e
  subst e
  have d : decodeS (39#7).toNat h f.enc = some (.sRtag h f) := by
    show (OpRTAG.dec f.enc).map (Instr.sRtag h) = _
    rw [OpRTAG.dec_enc]
    rfl
  have s : h.slot = .S := by
    simp only [Instr.wf, Bool.and_eq_true, Bool.or_eq_true, beq_iff_eq] at hw
    first | exact hw.2 | exact hw.1.2 | exact hw.2.1 | exact hw.1.1.2 | simp_all
  exact ⟨.S, decodeSyl_slotWord _ _ h _ _ s hw d⟩

theorem sWtag (h : Hdr) (f : OpWTAG) : Statement (.sWtag h f) := by
  intro hw
  refine ⟨fun w e => ?_, fun w e => nomatch e⟩
  injection e with e
  subst e
  have d : decodeS (40#7).toNat h f.enc = some (.sWtag h f) := by
    show (OpWTAG.dec f.enc).map (Instr.sWtag h) = _
    rw [OpWTAG.dec_enc]
    rfl
  have s : h.slot = .S := by
    simp only [Instr.wf, Bool.and_eq_true, Bool.or_eq_true, beq_iff_eq] at hw
    first | exact hw.2 | exact hw.1.2 | exact hw.2.1 | exact hw.1.1.2 | simp_all
  exact ⟨.S, decodeSyl_slotWord _ _ h _ _ s hw d⟩

theorem sMfrom (h : Hdr) (f : OpMFROM) : Statement (.sMfrom h f) := by
  intro hw
  refine ⟨fun w e => ?_, fun w e => nomatch e⟩
  injection e with e
  subst e
  have d : decodeS (41#7).toNat h f.enc = some (.sMfrom h f) := by
    show (OpMFROM.dec f.enc).map (Instr.sMfrom h) = _
    rw [OpMFROM.dec_enc]
    rfl
  have s : h.slot = .S := by
    simp only [Instr.wf, Bool.and_eq_true, Bool.or_eq_true, beq_iff_eq] at hw
    first | exact hw.2 | exact hw.1.2 | exact hw.2.1 | exact hw.1.1.2 | simp_all
  exact ⟨.S, decodeSyl_slotWord _ _ h _ _ s hw d⟩

theorem sMto (h : Hdr) (f : OpMTO) : Statement (.sMto h f) := by
  intro hw
  refine ⟨fun w e => ?_, fun w e => nomatch e⟩
  injection e with e
  subst e
  have d : decodeS (42#7).toNat h f.enc = some (.sMto h f) := by
    show (OpMTO.dec f.enc).map (Instr.sMto h) = _
    rw [OpMTO.dec_enc]
    rfl
  have s : h.slot = .S := by
    simp only [Instr.wf, Bool.and_eq_true, Bool.or_eq_true, beq_iff_eq] at hw
    first | exact hw.2 | exact hw.1.2 | exact hw.2.1 | exact hw.1.1.2 | simp_all
  exact ⟨.S, decodeSyl_slotWord _ _ h _ _ s hw d⟩

theorem sPget (h : Hdr) (f : OpPGET) : Statement (.sPget h f) := by
  intro hw
  refine ⟨fun w e => ?_, fun w e => nomatch e⟩
  injection e with e
  subst e
  have d : decodeS (43#7).toNat h f.enc = some (.sPget h f) := by
    show (OpPGET.dec f.enc).map (Instr.sPget h) = _
    rw [OpPGET.dec_enc]
    rfl
  have s : h.slot = .S := by
    simp only [Instr.wf, Bool.and_eq_true, Bool.or_eq_true, beq_iff_eq] at hw
    first | exact hw.2 | exact hw.1.2 | exact hw.2.1 | exact hw.1.1.2 | simp_all
  exact ⟨.S, decodeSyl_slotWord _ _ h _ _ s hw d⟩

theorem sLld (h : Hdr) (f : OpLFL) : Statement (.sLld h f) := by
  intro hw
  refine ⟨fun w e => ?_, fun w e => nomatch e⟩
  injection e with e
  subst e
  have d : decodeS (44#7).toNat h f.enc = some (.sLld h f) := by
    show (OpLFL.dec f.enc).map (Instr.sLld h) = _
    rw [OpLFL.dec_enc]
    rfl
  have s : h.slot = .S := by
    simp only [Instr.wf, Bool.and_eq_true, Bool.or_eq_true, beq_iff_eq] at hw
    first | exact hw.2 | exact hw.1.2 | exact hw.2.1 | exact hw.1.1.2 | simp_all
  exact ⟨.S, decodeSyl_slotWord _ _ h _ _ s hw d⟩

theorem sLlw (h : Hdr) (f : OpLFL) : Statement (.sLlw h f) := by
  intro hw
  refine ⟨fun w e => ?_, fun w e => nomatch e⟩
  injection e with e
  subst e
  have d : decodeS (45#7).toNat h f.enc = some (.sLlw h f) := by
    show (OpLFL.dec f.enc).map (Instr.sLlw h) = _
    rw [OpLFL.dec_enc]
    rfl
  have s : h.slot = .S := by
    simp only [Instr.wf, Bool.and_eq_true, Bool.or_eq_true, beq_iff_eq] at hw
    first | exact hw.2 | exact hw.1.2 | exact hw.2.1 | exact hw.1.1.2 | simp_all
  exact ⟨.S, decodeSyl_slotWord _ _ h _ _ s hw d⟩

theorem sLst (h : Hdr) (f : OpLFS) : Statement (.sLst h f) := by
  intro hw
  refine ⟨fun w e => ?_, fun w e => nomatch e⟩
  injection e with e
  subst e
  have d : decodeS (46#7).toNat h f.enc = some (.sLst h f) := by
    show (OpLFS.dec f.enc).map (Instr.sLst h) = _
    rw [OpLFS.dec_enc]
    rfl
  have s : h.slot = .S := by
    simp only [Instr.wf, Bool.and_eq_true, Bool.or_eq_true, beq_iff_eq] at hw
    first | exact hw.2 | exact hw.1.2 | exact hw.2.1 | exact hw.1.1.2 | simp_all
  exact ⟨.S, decodeSyl_slotWord _ _ h _ _ s hw d⟩

theorem sLstw (h : Hdr) (f : OpLFS) : Statement (.sLstw h f) := by
  intro hw
  refine ⟨fun w e => ?_, fun w e => nomatch e⟩
  injection e with e
  subst e
  have d : decodeS (47#7).toNat h f.enc = some (.sLstw h f) := by
    show (OpLFS.dec f.enc).map (Instr.sLstw h) = _
    rw [OpLFS.dec_enc]
    rfl
  have s : h.slot = .S := by
    simp only [Instr.wf, Bool.and_eq_true, Bool.or_eq_true, beq_iff_eq] at hw
    first | exact hw.2 | exact hw.1.2 | exact hw.2.1 | exact hw.1.1.2 | simp_all
  exact ⟨.S, decodeSyl_slotWord _ _ h _ _ s hw d⟩

theorem sLldAcq (h : Hdr) (f : OpLFL) : Statement (.sLldAcq h f) := by
  intro hw
  refine ⟨fun w e => ?_, fun w e => nomatch e⟩
  injection e with e
  subst e
  have d : decodeS (48#7).toNat h f.enc = some (.sLldAcq h f) := by
    show (OpLFL.dec f.enc).map (Instr.sLldAcq h) = _
    rw [OpLFL.dec_enc]
    rfl
  have s : h.slot = .S := by
    simp only [Instr.wf, Bool.and_eq_true, Bool.or_eq_true, beq_iff_eq] at hw
    first | exact hw.2 | exact hw.1.2 | exact hw.2.1 | exact hw.1.1.2 | simp_all
  exact ⟨.S, decodeSyl_slotWord _ _ h _ _ s hw d⟩

theorem sLlwAcq (h : Hdr) (f : OpLFL) : Statement (.sLlwAcq h f) := by
  intro hw
  refine ⟨fun w e => ?_, fun w e => nomatch e⟩
  injection e with e
  subst e
  have d : decodeS (49#7).toNat h f.enc = some (.sLlwAcq h f) := by
    show (OpLFL.dec f.enc).map (Instr.sLlwAcq h) = _
    rw [OpLFL.dec_enc]
    rfl
  have s : h.slot = .S := by
    simp only [Instr.wf, Bool.and_eq_true, Bool.or_eq_true, beq_iff_eq] at hw
    first | exact hw.2 | exact hw.1.2 | exact hw.2.1 | exact hw.1.1.2 | simp_all
  exact ⟨.S, decodeSyl_slotWord _ _ h _ _ s hw d⟩

theorem sLstRel (h : Hdr) (f : OpLFS) : Statement (.sLstRel h f) := by
  intro hw
  refine ⟨fun w e => ?_, fun w e => nomatch e⟩
  injection e with e
  subst e
  have d : decodeS (50#7).toNat h f.enc = some (.sLstRel h f) := by
    show (OpLFS.dec f.enc).map (Instr.sLstRel h) = _
    rw [OpLFS.dec_enc]
    rfl
  have s : h.slot = .S := by
    simp only [Instr.wf, Bool.and_eq_true, Bool.or_eq_true, beq_iff_eq] at hw
    first | exact hw.2 | exact hw.1.2 | exact hw.2.1 | exact hw.1.1.2 | simp_all
  exact ⟨.S, decodeSyl_slotWord _ _ h _ _ s hw d⟩

theorem sLstwRel (h : Hdr) (f : OpLFS) : Statement (.sLstwRel h f) := by
  intro hw
  refine ⟨fun w e => ?_, fun w e => nomatch e⟩
  injection e with e
  subst e
  have d : decodeS (51#7).toNat h f.enc = some (.sLstwRel h f) := by
    show (OpLFS.dec f.enc).map (Instr.sLstwRel h) = _
    rw [OpLFS.dec_enc]
    rfl
  have s : h.slot = .S := by
    simp only [Instr.wf, Bool.and_eq_true, Bool.or_eq_true, beq_iff_eq] at hw
    first | exact hw.2 | exact hw.1.2 | exact hw.2.1 | exact hw.1.1.2 | simp_all
  exact ⟨.S, decodeSyl_slotWord _ _ h _ _ s hw d⟩

theorem sCkt (h : Hdr) (f : OpCK) : Statement (.sCkt h f) := by
  intro hw
  refine ⟨fun w e => ?_, fun w e => nomatch e⟩
  injection e with e
  subst e
  have d : decodeS (52#7).toNat h f.enc = some (.sCkt h f) := by
    show (OpCK.dec f.enc).map (Instr.sCkt h) = _
    rw [OpCK.dec_enc]
    rfl
  have s : h.slot = .S := by
    simp only [Instr.wf, Bool.and_eq_true, Bool.or_eq_true, beq_iff_eq] at hw
    first | exact hw.2 | exact hw.1.2 | exact hw.2.1 | exact hw.1.1.2 | simp_all
  exact ⟨.S, decodeSyl_slotWord _ _ h _ _ s hw d⟩

theorem sNxt (h : Hdr) (f : OpNone) : Statement (.sNxt h f) := by
  intro hw
  refine ⟨fun w e => ?_, fun w e => nomatch e⟩
  injection e with e
  subst e
  have d : decodeS (53#7).toNat h f.enc = some (.sNxt h f) := by
    show (OpNone.dec f.enc).map (Instr.sNxt h) = _
    rw [OpNone.dec_enc]
    rfl
  have s : h.slot = .S := by
    simp only [Instr.wf, Bool.and_eq_true, Bool.or_eq_true, beq_iff_eq] at hw
    first | exact hw.2 | exact hw.1.2 | exact hw.2.1 | exact hw.1.1.2 | simp_all
  exact ⟨.S, decodeSyl_slotWord _ _ h _ _ s hw d⟩

theorem sCtxout (h : Hdr) (f : OpSA) : Statement (.sCtxout h f) := by
  intro hw
  refine ⟨fun w e => ?_, fun w e => nomatch e⟩
  injection e with e
  subst e
  have d : decodeS (54#7).toNat h f.enc = some (.sCtxout h f) := by
    show (OpSA.dec f.enc).map (Instr.sCtxout h) = _
    rw [OpSA.dec_enc]
    rfl
  have s : h.slot = .S := by
    simp only [Instr.wf, Bool.and_eq_true, Bool.or_eq_true, beq_iff_eq] at hw
    first | exact hw.2 | exact hw.1.2 | exact hw.2.1 | exact hw.1.1.2 | simp_all
  exact ⟨.S, decodeSyl_slotWord _ _ h _ _ s hw d⟩

theorem sCtxin (h : Hdr) (f : OpSA) : Statement (.sCtxin h f) := by
  intro hw
  refine ⟨fun w e => ?_, fun w e => nomatch e⟩
  injection e with e
  subst e
  have d : decodeS (55#7).toNat h f.enc = some (.sCtxin h f) := by
    show (OpSA.dec f.enc).map (Instr.sCtxin h) = _
    rw [OpSA.dec_enc]
    rfl
  have s : h.slot = .S := by
    simp only [Instr.wf, Bool.and_eq_true, Bool.or_eq_true, beq_iff_eq] at hw
    first | exact hw.2 | exact hw.1.2 | exact hw.2.1 | exact hw.1.1.2 | simp_all
  exact ⟨.S, decodeSyl_slotWord _ _ h _ _ s hw d⟩

theorem sCtxskip (h : Hdr) (f : OpNone) : Statement (.sCtxskip h f) := by
  intro hw
  refine ⟨fun w e => ?_, fun w e => nomatch e⟩
  injection e with e
  subst e
  have d : decodeS (56#7).toNat h f.enc = some (.sCtxskip h f) := by
    show (OpNone.dec f.enc).map (Instr.sCtxskip h) = _
    rw [OpNone.dec_enc]
    rfl
  have s : h.slot = .S := by
    simp only [Instr.wf, Bool.and_eq_true, Bool.or_eq_true, beq_iff_eq] at hw
    first | exact hw.2 | exact hw.1.2 | exact hw.2.1 | exact hw.1.1.2 | simp_all
  exact ⟨.S, decodeSyl_slotWord _ _ h _ _ s hw d⟩

theorem sTlbinvAll (h : Hdr) (f : OpTI) : Statement (.sTlbinvAll h f) := by
  intro hw
  refine ⟨fun w e => ?_, fun w e => nomatch e⟩
  injection e with e
  subst e
  have d : decodeS (57#7).toNat h (OpTI.enc 0#2 f) = some (.sTlbinvAll h f) := by
    show (if bitsAt (OpTI.enc 0#2 f) 27 2 == 0#2 then (OpTI.dec 0#2 (OpTI.enc 0#2 f)).map (Instr.sTlbinvAll h) else if bitsAt (OpTI.enc 0#2 f) 27 2 == 1#2 then (OpTI.dec 1#2 (OpTI.enc 0#2 f)).map (Instr.sTlbinvContext h) else if bitsAt (OpTI.enc 0#2 f) 27 2 == 2#2 then (OpTI.dec 2#2 (OpTI.enc 0#2 f)).map (Instr.sTlbinvPage h) else none) = _
    have x : OpTI.dec 0#2 (OpTI.enc 0#2 f) = some f := OpTI.dec_enc 0#2 f
    rw [x]
    have y : bitsAt (OpTI.enc 0#2 f) 27 2 = 0#2 := by
      simp (disch := omega) only [OpTI.enc, bitsAt_setWidth, bitsAt_append_high, bitsAt_append_low, bitsAt_all, -Nat.reduceAdd,
        -Nat.reduceSub]
      try simp [bitsAt_all]
    rw [y]
    rfl
  have s : h.slot = .S := by
    simp only [Instr.wf, Bool.and_eq_true, Bool.or_eq_true, beq_iff_eq] at hw
    first | exact hw.2 | exact hw.1.2 | exact hw.2.1 | exact hw.1.1.2 | simp_all
  exact ⟨.S, decodeSyl_slotWord _ _ h _ _ s hw d⟩

theorem sTlbinvContext (h : Hdr) (f : OpTI) : Statement (.sTlbinvContext h f) := by
  intro hw
  refine ⟨fun w e => ?_, fun w e => nomatch e⟩
  injection e with e
  subst e
  have d : decodeS (57#7).toNat h (OpTI.enc 1#2 f) = some (.sTlbinvContext h f) := by
    show (if bitsAt (OpTI.enc 1#2 f) 27 2 == 0#2 then (OpTI.dec 0#2 (OpTI.enc 1#2 f)).map (Instr.sTlbinvAll h) else if bitsAt (OpTI.enc 1#2 f) 27 2 == 1#2 then (OpTI.dec 1#2 (OpTI.enc 1#2 f)).map (Instr.sTlbinvContext h) else if bitsAt (OpTI.enc 1#2 f) 27 2 == 2#2 then (OpTI.dec 2#2 (OpTI.enc 1#2 f)).map (Instr.sTlbinvPage h) else none) = _
    have x : OpTI.dec 1#2 (OpTI.enc 1#2 f) = some f := OpTI.dec_enc 1#2 f
    rw [x]
    have y : bitsAt (OpTI.enc 1#2 f) 27 2 = 1#2 := by
      simp (disch := omega) only [OpTI.enc, bitsAt_setWidth, bitsAt_append_high, bitsAt_append_low, bitsAt_all, -Nat.reduceAdd,
        -Nat.reduceSub]
      try simp [bitsAt_all]
    rw [y]
    rfl
  have s : h.slot = .S := by
    simp only [Instr.wf, Bool.and_eq_true, Bool.or_eq_true, beq_iff_eq] at hw
    first | exact hw.2 | exact hw.1.2 | exact hw.2.1 | exact hw.1.1.2 | simp_all
  exact ⟨.S, decodeSyl_slotWord _ _ h _ _ s hw d⟩

theorem sTlbinvPage (h : Hdr) (f : OpTI) : Statement (.sTlbinvPage h f) := by
  intro hw
  refine ⟨fun w e => ?_, fun w e => nomatch e⟩
  injection e with e
  subst e
  have d : decodeS (57#7).toNat h (OpTI.enc 2#2 f) = some (.sTlbinvPage h f) := by
    show (if bitsAt (OpTI.enc 2#2 f) 27 2 == 0#2 then (OpTI.dec 0#2 (OpTI.enc 2#2 f)).map (Instr.sTlbinvAll h) else if bitsAt (OpTI.enc 2#2 f) 27 2 == 1#2 then (OpTI.dec 1#2 (OpTI.enc 2#2 f)).map (Instr.sTlbinvContext h) else if bitsAt (OpTI.enc 2#2 f) 27 2 == 2#2 then (OpTI.dec 2#2 (OpTI.enc 2#2 f)).map (Instr.sTlbinvPage h) else none) = _
    have x : OpTI.dec 2#2 (OpTI.enc 2#2 f) = some f := OpTI.dec_enc 2#2 f
    rw [x]
    have y : bitsAt (OpTI.enc 2#2 f) 27 2 = 2#2 := by
      simp (disch := omega) only [OpTI.enc, bitsAt_setWidth, bitsAt_append_high, bitsAt_append_low, bitsAt_all, -Nat.reduceAdd,
        -Nat.reduceSub]
      try simp [bitsAt_all]
    rw [y]
    rfl
  have s : h.slot = .S := by
    simp only [Instr.wf, Bool.and_eq_true, Bool.or_eq_true, beq_iff_eq] at hw
    first | exact hw.2 | exact hw.1.2 | exact hw.2.1 | exact hw.1.1.2 | simp_all
  exact ⟨.S, decodeSyl_slotWord _ _ h _ _ s hw d⟩

theorem sTlbsync (h : Hdr) (f : OpNone) : Statement (.sTlbsync h f) := by
  intro hw
  refine ⟨fun w e => ?_, fun w e => nomatch e⟩
  injection e with e
  subst e
  have d : decodeS (58#7).toNat h f.enc = some (.sTlbsync h f) := by
    show (OpNone.dec f.enc).map (Instr.sTlbsync h) = _
    rw [OpNone.dec_enc]
    rfl
  have s : h.slot = .S := by
    simp only [Instr.wf, Bool.and_eq_true, Bool.or_eq_true, beq_iff_eq] at hw
    first | exact hw.2 | exact hw.1.2 | exact hw.2.1 | exact hw.1.1.2 | simp_all
  exact ⟨.S, decodeSyl_slotWord _ _ h _ _ s hw d⟩

theorem sCtxdonePreempted (h : Hdr) (f : OpCTXD) : Statement (.sCtxdonePreempted h f) := by
  intro hw
  refine ⟨fun w e => ?_, fun w e => nomatch e⟩
  injection e with e
  subst e
  have d : decodeS (59#7).toNat h (OpCTXD.enc 0#1 f) = some (.sCtxdonePreempted h f) := by
    show (if bitsAt (OpCTXD.enc 0#1 f) 35 1 == 0#1 then (OpCTXD.dec 0#1 (OpCTXD.enc 0#1 f)).map (Instr.sCtxdonePreempted h) else if bitsAt (OpCTXD.enc 0#1 f) 35 1 == 1#1 then (OpCTXD.dec 1#1 (OpCTXD.enc 0#1 f)).map (Instr.sCtxdoneFailed h) else none) = _
    have x : OpCTXD.dec 0#1 (OpCTXD.enc 0#1 f) = some f := OpCTXD.dec_enc 0#1 f
    rw [x]
    have y : bitsAt (OpCTXD.enc 0#1 f) 35 1 = 0#1 := by
      simp (disch := omega) only [OpCTXD.enc, bitsAt_setWidth, bitsAt_append_high, bitsAt_append_low, bitsAt_all, -Nat.reduceAdd,
        -Nat.reduceSub]
      try simp [bitsAt_all]
    rw [y]
    rfl
  have s : h.slot = .S := by
    simp only [Instr.wf, Bool.and_eq_true, Bool.or_eq_true, beq_iff_eq] at hw
    first | exact hw.2 | exact hw.1.2 | exact hw.2.1 | exact hw.1.1.2 | simp_all
  exact ⟨.S, decodeSyl_slotWord _ _ h _ _ s hw d⟩

theorem sCtxdoneFailed (h : Hdr) (f : OpCTXD) : Statement (.sCtxdoneFailed h f) := by
  intro hw
  refine ⟨fun w e => ?_, fun w e => nomatch e⟩
  injection e with e
  subst e
  have d : decodeS (59#7).toNat h (OpCTXD.enc 1#1 f) = some (.sCtxdoneFailed h f) := by
    show (if bitsAt (OpCTXD.enc 1#1 f) 35 1 == 0#1 then (OpCTXD.dec 0#1 (OpCTXD.enc 1#1 f)).map (Instr.sCtxdonePreempted h) else if bitsAt (OpCTXD.enc 1#1 f) 35 1 == 1#1 then (OpCTXD.dec 1#1 (OpCTXD.enc 1#1 f)).map (Instr.sCtxdoneFailed h) else none) = _
    have x : OpCTXD.dec 1#1 (OpCTXD.enc 1#1 f) = some f := OpCTXD.dec_enc 1#1 f
    rw [x]
    have y : bitsAt (OpCTXD.enc 1#1 f) 35 1 = 1#1 := by
      simp (disch := omega) only [OpCTXD.enc, bitsAt_setWidth, bitsAt_append_high, bitsAt_append_low, bitsAt_all, -Nat.reduceAdd,
        -Nat.reduceSub]
      try simp [bitsAt_all]
    rw [y]
    rfl
  have s : h.slot = .S := by
    simp only [Instr.wf, Bool.and_eq_true, Bool.or_eq_true, beq_iff_eq] at hw
    first | exact hw.2 | exact hw.1.2 | exact hw.2.1 | exact hw.1.1.2 | simp_all
  exact ⟨.S, decodeSyl_slotWord _ _ h _ _ s hw d⟩

theorem sLil (h : Hdr) (f : OpWI) : Statement (.sLil h f) := by
  intro hw
  refine ⟨fun w e => ?_, fun w e => nomatch e⟩
  injection e with e
  subst e
  have d : decodeS (60#7).toNat h f.enc = some (.sLil h f) := by
    show (OpWI.dec f.enc).map (Instr.sLil h) = _
    rw [OpWI.dec_enc]
    rfl
  have s : h.slot = .S := by
    simp only [Instr.wf, Bool.and_eq_true, Bool.or_eq_true, beq_iff_eq] at hw
    first | exact hw.2 | exact hw.1.2 | exact hw.2.1 | exact hw.1.1.2 | simp_all
  exact ⟨.S, decodeSyl_slotWord _ _ h _ _ s hw d⟩

theorem sLih (h : Hdr) (f : OpWI) : Statement (.sLih h f) := by
  intro hw
  refine ⟨fun w e => ?_, fun w e => nomatch e⟩
  injection e with e
  subst e
  have d : decodeS (61#7).toNat h f.enc = some (.sLih h f) := by
    show (OpWI.dec f.enc).map (Instr.sLih h) = _
    rw [OpWI.dec_enc]
    rfl
  have s : h.slot = .S := by
    simp only [Instr.wf, Bool.and_eq_true, Bool.or_eq_true, beq_iff_eq] at hw
    first | exact hw.2 | exact hw.1.2 | exact hw.2.1 | exact hw.1.1.2 | simp_all
  exact ⟨.S, decodeSyl_slotWord _ _ h _ _ s hw d⟩

theorem sLis (h : Hdr) (f : OpWI) : Statement (.sLis h f) := by
  intro hw
  refine ⟨fun w e => ?_, fun w e => nomatch e⟩
  injection e with e
  subst e
  have d : decodeS (62#7).toNat h f.enc = some (.sLis h f) := by
    show (OpWI.dec f.enc).map (Instr.sLis h) = _
    rw [OpWI.dec_enc]
    rfl
  have s : h.slot = .S := by
    simp only [Instr.wf, Bool.and_eq_true, Bool.or_eq_true, beq_iff_eq] at hw
    first | exact hw.2 | exact hw.1.2 | exact hw.2.1 | exact hw.1.1.2 | simp_all
  exact ⟨.S, decodeSyl_slotWord _ _ h _ _ s hw d⟩

theorem sLpc (h : Hdr) (f : OpWI) : Statement (.sLpc h f) := by
  intro hw
  refine ⟨fun w e => ?_, fun w e => nomatch e⟩
  injection e with e
  subst e
  have d : decodeS (63#7).toNat h f.enc = some (.sLpc h f) := by
    show (OpWI.dec f.enc).map (Instr.sLpc h) = _
    rw [OpWI.dec_enc]
    rfl
  have s : h.slot = .S := by
    simp only [Instr.wf, Bool.and_eq_true, Bool.or_eq_true, beq_iff_eq] at hw
    first | exact hw.2 | exact hw.1.2 | exact hw.2.1 | exact hw.1.1.2 | simp_all
  exact ⟨.S, decodeSyl_slotWord _ _ h _ _ s hw d⟩

theorem vAddI32 (h : Hdr) (f : OpV3) : Statement (.vAddI32 h f) := by
  intro hw
  refine ⟨fun w e => ?_, fun w e => nomatch e⟩
  injection e with e
  subst e
  have d : decodeV (0#7).toNat h f.enc = some (.vAddI32 h f) := by
    show (OpV3.dec f.enc).map (Instr.vAddI32 h) = _
    rw [OpV3.dec_enc]
    rfl
  have s : h.slot = .V0 ∨ h.slot = .V1 := by
    simp only [Instr.wf, Bool.and_eq_true, Bool.or_eq_true, beq_iff_eq] at hw
    first | exact hw.2 | exact hw.1.2 | exact hw.2.1 | exact hw.1.1.2 | simp_all
  rcases s with s | s
  · exact ⟨.V0, decodeSyl_slotWord _ _ h _ _ s hw d⟩
  · exact ⟨.V1, decodeSyl_slotWord _ _ h _ _ s hw d⟩

theorem vSubI32 (h : Hdr) (f : OpV3) : Statement (.vSubI32 h f) := by
  intro hw
  refine ⟨fun w e => ?_, fun w e => nomatch e⟩
  injection e with e
  subst e
  have d : decodeV (1#7).toNat h f.enc = some (.vSubI32 h f) := by
    show (OpV3.dec f.enc).map (Instr.vSubI32 h) = _
    rw [OpV3.dec_enc]
    rfl
  have s : h.slot = .V0 ∨ h.slot = .V1 := by
    simp only [Instr.wf, Bool.and_eq_true, Bool.or_eq_true, beq_iff_eq] at hw
    first | exact hw.2 | exact hw.1.2 | exact hw.2.1 | exact hw.1.1.2 | simp_all
  rcases s with s | s
  · exact ⟨.V0, decodeSyl_slotWord _ _ h _ _ s hw d⟩
  · exact ⟨.V1, decodeSyl_slotWord _ _ h _ _ s hw d⟩

theorem vMulI32 (h : Hdr) (f : OpV3) : Statement (.vMulI32 h f) := by
  intro hw
  refine ⟨fun w e => ?_, fun w e => nomatch e⟩
  injection e with e
  subst e
  have d : decodeV (2#7).toNat h f.enc = some (.vMulI32 h f) := by
    show (OpV3.dec f.enc).map (Instr.vMulI32 h) = _
    rw [OpV3.dec_enc]
    rfl
  have s : h.slot = .V0 ∨ h.slot = .V1 := by
    simp only [Instr.wf, Bool.and_eq_true, Bool.or_eq_true, beq_iff_eq] at hw
    first | exact hw.2 | exact hw.1.2 | exact hw.2.1 | exact hw.1.1.2 | simp_all
  rcases s with s | s
  · exact ⟨.V0, decodeSyl_slotWord _ _ h _ _ s hw d⟩
  · exact ⟨.V1, decodeSyl_slotWord _ _ h _ _ s hw d⟩

theorem vMulhI32 (h : Hdr) (f : OpV3) : Statement (.vMulhI32 h f) := by
  intro hw
  refine ⟨fun w e => ?_, fun w e => nomatch e⟩
  injection e with e
  subst e
  have d : decodeV (3#7).toNat h f.enc = some (.vMulhI32 h f) := by
    show (OpV3.dec f.enc).map (Instr.vMulhI32 h) = _
    rw [OpV3.dec_enc]
    rfl
  have s : h.slot = .V0 ∨ h.slot = .V1 := by
    simp only [Instr.wf, Bool.and_eq_true, Bool.or_eq_true, beq_iff_eq] at hw
    first | exact hw.2 | exact hw.1.2 | exact hw.2.1 | exact hw.1.1.2 | simp_all
  rcases s with s | s
  · exact ⟨.V0, decodeSyl_slotWord _ _ h _ _ s hw d⟩
  · exact ⟨.V1, decodeSyl_slotWord _ _ h _ _ s hw d⟩

theorem vAddsI32 (h : Hdr) (f : OpV3) : Statement (.vAddsI32 h f) := by
  intro hw
  refine ⟨fun w e => ?_, fun w e => nomatch e⟩
  injection e with e
  subst e
  have d : decodeV (4#7).toNat h f.enc = some (.vAddsI32 h f) := by
    show (OpV3.dec f.enc).map (Instr.vAddsI32 h) = _
    rw [OpV3.dec_enc]
    rfl
  have s : h.slot = .V0 ∨ h.slot = .V1 := by
    simp only [Instr.wf, Bool.and_eq_true, Bool.or_eq_true, beq_iff_eq] at hw
    first | exact hw.2 | exact hw.1.2 | exact hw.2.1 | exact hw.1.1.2 | simp_all
  rcases s with s | s
  · exact ⟨.V0, decodeSyl_slotWord _ _ h _ _ s hw d⟩
  · exact ⟨.V1, decodeSyl_slotWord _ _ h _ _ s hw d⟩

theorem vSubsI32 (h : Hdr) (f : OpV3) : Statement (.vSubsI32 h f) := by
  intro hw
  refine ⟨fun w e => ?_, fun w e => nomatch e⟩
  injection e with e
  subst e
  have d : decodeV (5#7).toNat h f.enc = some (.vSubsI32 h f) := by
    show (OpV3.dec f.enc).map (Instr.vSubsI32 h) = _
    rw [OpV3.dec_enc]
    rfl
  have s : h.slot = .V0 ∨ h.slot = .V1 := by
    simp only [Instr.wf, Bool.and_eq_true, Bool.or_eq_true, beq_iff_eq] at hw
    first | exact hw.2 | exact hw.1.2 | exact hw.2.1 | exact hw.1.1.2 | simp_all
  rcases s with s | s
  · exact ⟨.V0, decodeSyl_slotWord _ _ h _ _ s hw d⟩
  · exact ⟨.V1, decodeSyl_slotWord _ _ h _ _ s hw d⟩

theorem vAddI16 (h : Hdr) (f : OpV3) : Statement (.vAddI16 h f) := by
  intro hw
  refine ⟨fun w e => ?_, fun w e => nomatch e⟩
  injection e with e
  subst e
  have d : decodeV (6#7).toNat h f.enc = some (.vAddI16 h f) := by
    show (OpV3.dec f.enc).map (Instr.vAddI16 h) = _
    rw [OpV3.dec_enc]
    rfl
  have s : h.slot = .V0 ∨ h.slot = .V1 := by
    simp only [Instr.wf, Bool.and_eq_true, Bool.or_eq_true, beq_iff_eq] at hw
    first | exact hw.2 | exact hw.1.2 | exact hw.2.1 | exact hw.1.1.2 | simp_all
  rcases s with s | s
  · exact ⟨.V0, decodeSyl_slotWord _ _ h _ _ s hw d⟩
  · exact ⟨.V1, decodeSyl_slotWord _ _ h _ _ s hw d⟩

theorem vAddsI16 (h : Hdr) (f : OpV3) : Statement (.vAddsI16 h f) := by
  intro hw
  refine ⟨fun w e => ?_, fun w e => nomatch e⟩
  injection e with e
  subst e
  have d : decodeV (7#7).toNat h f.enc = some (.vAddsI16 h f) := by
    show (OpV3.dec f.enc).map (Instr.vAddsI16 h) = _
    rw [OpV3.dec_enc]
    rfl
  have s : h.slot = .V0 ∨ h.slot = .V1 := by
    simp only [Instr.wf, Bool.and_eq_true, Bool.or_eq_true, beq_iff_eq] at hw
    first | exact hw.2 | exact hw.1.2 | exact hw.2.1 | exact hw.1.1.2 | simp_all
  rcases s with s | s
  · exact ⟨.V0, decodeSyl_slotWord _ _ h _ _ s hw d⟩
  · exact ⟨.V1, decodeSyl_slotWord _ _ h _ _ s hw d⟩

theorem vAddI8 (h : Hdr) (f : OpV3) : Statement (.vAddI8 h f) := by
  intro hw
  refine ⟨fun w e => ?_, fun w e => nomatch e⟩
  injection e with e
  subst e
  have d : decodeV (8#7).toNat h f.enc = some (.vAddI8 h f) := by
    show (OpV3.dec f.enc).map (Instr.vAddI8 h) = _
    rw [OpV3.dec_enc]
    rfl
  have s : h.slot = .V0 ∨ h.slot = .V1 := by
    simp only [Instr.wf, Bool.and_eq_true, Bool.or_eq_true, beq_iff_eq] at hw
    first | exact hw.2 | exact hw.1.2 | exact hw.2.1 | exact hw.1.1.2 | simp_all
  rcases s with s | s
  · exact ⟨.V0, decodeSyl_slotWord _ _ h _ _ s hw d⟩
  · exact ⟨.V1, decodeSyl_slotWord _ _ h _ _ s hw d⟩

theorem vAddsI8 (h : Hdr) (f : OpV3) : Statement (.vAddsI8 h f) := by
  intro hw
  refine ⟨fun w e => ?_, fun w e => nomatch e⟩
  injection e with e
  subst e
  have d : decodeV (9#7).toNat h f.enc = some (.vAddsI8 h f) := by
    show (OpV3.dec f.enc).map (Instr.vAddsI8 h) = _
    rw [OpV3.dec_enc]
    rfl
  have s : h.slot = .V0 ∨ h.slot = .V1 := by
    simp only [Instr.wf, Bool.and_eq_true, Bool.or_eq_true, beq_iff_eq] at hw
    first | exact hw.2 | exact hw.1.2 | exact hw.2.1 | exact hw.1.1.2 | simp_all
  rcases s with s | s
  · exact ⟨.V0, decodeSyl_slotWord _ _ h _ _ s hw d⟩
  · exact ⟨.V1, decodeSyl_slotWord _ _ h _ _ s hw d⟩

theorem vAddsZ8 (h : Hdr) (f : OpV3) : Statement (.vAddsZ8 h f) := by
  intro hw
  refine ⟨fun w e => ?_, fun w e => nomatch e⟩
  injection e with e
  subst e
  have d : decodeV (10#7).toNat h f.enc = some (.vAddsZ8 h f) := by
    show (OpV3.dec f.enc).map (Instr.vAddsZ8 h) = _
    rw [OpV3.dec_enc]
    rfl
  have s : h.slot = .V0 ∨ h.slot = .V1 := by
    simp only [Instr.wf, Bool.and_eq_true, Bool.or_eq_true, beq_iff_eq] at hw
    first | exact hw.2 | exact hw.1.2 | exact hw.2.1 | exact hw.1.1.2 | simp_all
  rcases s with s | s
  · exact ⟨.V0, decodeSyl_slotWord _ _ h _ _ s hw d⟩
  · exact ⟨.V1, decodeSyl_slotWord _ _ h _ _ s hw d⟩

theorem vMinI32 (h : Hdr) (f : OpV3) : Statement (.vMinI32 h f) := by
  intro hw
  refine ⟨fun w e => ?_, fun w e => nomatch e⟩
  injection e with e
  subst e
  have d : decodeV (11#7).toNat h f.enc = some (.vMinI32 h f) := by
    show (OpV3.dec f.enc).map (Instr.vMinI32 h) = _
    rw [OpV3.dec_enc]
    rfl
  have s : h.slot = .V0 ∨ h.slot = .V1 := by
    simp only [Instr.wf, Bool.and_eq_true, Bool.or_eq_true, beq_iff_eq] at hw
    first | exact hw.2 | exact hw.1.2 | exact hw.2.1 | exact hw.1.1.2 | simp_all
  rcases s with s | s
  · exact ⟨.V0, decodeSyl_slotWord _ _ h _ _ s hw d⟩
  · exact ⟨.V1, decodeSyl_slotWord _ _ h _ _ s hw d⟩

theorem vMaxI32 (h : Hdr) (f : OpV3) : Statement (.vMaxI32 h f) := by
  intro hw
  refine ⟨fun w e => ?_, fun w e => nomatch e⟩
  injection e with e
  subst e
  have d : decodeV (12#7).toNat h f.enc = some (.vMaxI32 h f) := by
    show (OpV3.dec f.enc).map (Instr.vMaxI32 h) = _
    rw [OpV3.dec_enc]
    rfl
  have s : h.slot = .V0 ∨ h.slot = .V1 := by
    simp only [Instr.wf, Bool.and_eq_true, Bool.or_eq_true, beq_iff_eq] at hw
    first | exact hw.2 | exact hw.1.2 | exact hw.2.1 | exact hw.1.1.2 | simp_all
  rcases s with s | s
  · exact ⟨.V0, decodeSyl_slotWord _ _ h _ _ s hw d⟩
  · exact ⟨.V1, decodeSyl_slotWord _ _ h _ _ s hw d⟩

theorem vMinZ32 (h : Hdr) (f : OpV3) : Statement (.vMinZ32 h f) := by
  intro hw
  refine ⟨fun w e => ?_, fun w e => nomatch e⟩
  injection e with e
  subst e
  have d : decodeV (13#7).toNat h f.enc = some (.vMinZ32 h f) := by
    show (OpV3.dec f.enc).map (Instr.vMinZ32 h) = _
    rw [OpV3.dec_enc]
    rfl
  have s : h.slot = .V0 ∨ h.slot = .V1 := by
    simp only [Instr.wf, Bool.and_eq_true, Bool.or_eq_true, beq_iff_eq] at hw
    first | exact hw.2 | exact hw.1.2 | exact hw.2.1 | exact hw.1.1.2 | simp_all
  rcases s with s | s
  · exact ⟨.V0, decodeSyl_slotWord _ _ h _ _ s hw d⟩
  · exact ⟨.V1, decodeSyl_slotWord _ _ h _ _ s hw d⟩

theorem vMaxZ32 (h : Hdr) (f : OpV3) : Statement (.vMaxZ32 h f) := by
  intro hw
  refine ⟨fun w e => ?_, fun w e => nomatch e⟩
  injection e with e
  subst e
  have d : decodeV (14#7).toNat h f.enc = some (.vMaxZ32 h f) := by
    show (OpV3.dec f.enc).map (Instr.vMaxZ32 h) = _
    rw [OpV3.dec_enc]
    rfl
  have s : h.slot = .V0 ∨ h.slot = .V1 := by
    simp only [Instr.wf, Bool.and_eq_true, Bool.or_eq_true, beq_iff_eq] at hw
    first | exact hw.2 | exact hw.1.2 | exact hw.2.1 | exact hw.1.1.2 | simp_all
  rcases s with s | s
  · exact ⟨.V0, decodeSyl_slotWord _ _ h _ _ s hw d⟩
  · exact ⟨.V1, decodeSyl_slotWord _ _ h _ _ s hw d⟩

theorem vAbsI32 (h : Hdr) (f : OpV2) : Statement (.vAbsI32 h f) := by
  intro hw
  refine ⟨fun w e => ?_, fun w e => nomatch e⟩
  injection e with e
  subst e
  have d : decodeV (15#7).toNat h f.enc = some (.vAbsI32 h f) := by
    show (OpV2.dec f.enc).map (Instr.vAbsI32 h) = _
    rw [OpV2.dec_enc]
    rfl
  have s : h.slot = .V0 ∨ h.slot = .V1 := by
    simp only [Instr.wf, Bool.and_eq_true, Bool.or_eq_true, beq_iff_eq] at hw
    first | exact hw.2 | exact hw.1.2 | exact hw.2.1 | exact hw.1.1.2 | simp_all
  rcases s with s | s
  · exact ⟨.V0, decodeSyl_slotWord _ _ h _ _ s hw d⟩
  · exact ⟨.V1, decodeSyl_slotWord _ _ h _ _ s hw d⟩

theorem vAnd (h : Hdr) (f : OpV3) : Statement (.vAnd h f) := by
  intro hw
  refine ⟨fun w e => ?_, fun w e => nomatch e⟩
  injection e with e
  subst e
  have d : decodeV (16#7).toNat h f.enc = some (.vAnd h f) := by
    show (OpV3.dec f.enc).map (Instr.vAnd h) = _
    rw [OpV3.dec_enc]
    rfl
  have s : h.slot = .V0 ∨ h.slot = .V1 := by
    simp only [Instr.wf, Bool.and_eq_true, Bool.or_eq_true, beq_iff_eq] at hw
    first | exact hw.2 | exact hw.1.2 | exact hw.2.1 | exact hw.1.1.2 | simp_all
  rcases s with s | s
  · exact ⟨.V0, decodeSyl_slotWord _ _ h _ _ s hw d⟩
  · exact ⟨.V1, decodeSyl_slotWord _ _ h _ _ s hw d⟩

theorem vOr (h : Hdr) (f : OpV3) : Statement (.vOr h f) := by
  intro hw
  refine ⟨fun w e => ?_, fun w e => nomatch e⟩
  injection e with e
  subst e
  have d : decodeV (17#7).toNat h f.enc = some (.vOr h f) := by
    show (OpV3.dec f.enc).map (Instr.vOr h) = _
    rw [OpV3.dec_enc]
    rfl
  have s : h.slot = .V0 ∨ h.slot = .V1 := by
    simp only [Instr.wf, Bool.and_eq_true, Bool.or_eq_true, beq_iff_eq] at hw
    first | exact hw.2 | exact hw.1.2 | exact hw.2.1 | exact hw.1.1.2 | simp_all
  rcases s with s | s
  · exact ⟨.V0, decodeSyl_slotWord _ _ h _ _ s hw d⟩
  · exact ⟨.V1, decodeSyl_slotWord _ _ h _ _ s hw d⟩

theorem vXor (h : Hdr) (f : OpV3) : Statement (.vXor h f) := by
  intro hw
  refine ⟨fun w e => ?_, fun w e => nomatch e⟩
  injection e with e
  subst e
  have d : decodeV (18#7).toNat h f.enc = some (.vXor h f) := by
    show (OpV3.dec f.enc).map (Instr.vXor h) = _
    rw [OpV3.dec_enc]
    rfl
  have s : h.slot = .V0 ∨ h.slot = .V1 := by
    simp only [Instr.wf, Bool.and_eq_true, Bool.or_eq_true, beq_iff_eq] at hw
    first | exact hw.2 | exact hw.1.2 | exact hw.2.1 | exact hw.1.1.2 | simp_all
  rcases s with s | s
  · exact ⟨.V0, decodeSyl_slotWord _ _ h _ _ s hw d⟩
  · exact ⟨.V1, decodeSyl_slotWord _ _ h _ _ s hw d⟩

theorem vAndn (h : Hdr) (f : OpV3) : Statement (.vAndn h f) := by
  intro hw
  refine ⟨fun w e => ?_, fun w e => nomatch e⟩
  injection e with e
  subst e
  have d : decodeV (19#7).toNat h f.enc = some (.vAndn h f) := by
    show (OpV3.dec f.enc).map (Instr.vAndn h) = _
    rw [OpV3.dec_enc]
    rfl
  have s : h.slot = .V0 ∨ h.slot = .V1 := by
    simp only [Instr.wf, Bool.and_eq_true, Bool.or_eq_true, beq_iff_eq] at hw
    first | exact hw.2 | exact hw.1.2 | exact hw.2.1 | exact hw.1.1.2 | simp_all
  rcases s with s | s
  · exact ⟨.V0, decodeSyl_slotWord _ _ h _ _ s hw d⟩
  · exact ⟨.V1, decodeSyl_slotWord _ _ h _ _ s hw d⟩

theorem vShlI32 (h : Hdr) (f : OpV3) : Statement (.vShlI32 h f) := by
  intro hw
  refine ⟨fun w e => ?_, fun w e => nomatch e⟩
  injection e with e
  subst e
  have d : decodeV (20#7).toNat h f.enc = some (.vShlI32 h f) := by
    show (OpV3.dec f.enc).map (Instr.vShlI32 h) = _
    rw [OpV3.dec_enc]
    rfl
  have s : h.slot = .V0 ∨ h.slot = .V1 := by
    simp only [Instr.wf, Bool.and_eq_true, Bool.or_eq_true, beq_iff_eq] at hw
    first | exact hw.2 | exact hw.1.2 | exact hw.2.1 | exact hw.1.1.2 | simp_all
  rcases s with s | s
  · exact ⟨.V0, decodeSyl_slotWord _ _ h _ _ s hw d⟩
  · exact ⟨.V1, decodeSyl_slotWord _ _ h _ _ s hw d⟩

theorem vShrZ32 (h : Hdr) (f : OpV3) : Statement (.vShrZ32 h f) := by
  intro hw
  refine ⟨fun w e => ?_, fun w e => nomatch e⟩
  injection e with e
  subst e
  have d : decodeV (21#7).toNat h f.enc = some (.vShrZ32 h f) := by
    show (OpV3.dec f.enc).map (Instr.vShrZ32 h) = _
    rw [OpV3.dec_enc]
    rfl
  have s : h.slot = .V0 ∨ h.slot = .V1 := by
    simp only [Instr.wf, Bool.and_eq_true, Bool.or_eq_true, beq_iff_eq] at hw
    first | exact hw.2 | exact hw.1.2 | exact hw.2.1 | exact hw.1.1.2 | simp_all
  rcases s with s | s
  · exact ⟨.V0, decodeSyl_slotWord _ _ h _ _ s hw d⟩
  · exact ⟨.V1, decodeSyl_slotWord _ _ h _ _ s hw d⟩

theorem vSraI32 (h : Hdr) (f : OpV3) : Statement (.vSraI32 h f) := by
  intro hw
  refine ⟨fun w e => ?_, fun w e => nomatch e⟩
  injection e with e
  subst e
  have d : decodeV (22#7).toNat h f.enc = some (.vSraI32 h f) := by
    show (OpV3.dec f.enc).map (Instr.vSraI32 h) = _
    rw [OpV3.dec_enc]
    rfl
  have s : h.slot = .V0 ∨ h.slot = .V1 := by
    simp only [Instr.wf, Bool.and_eq_true, Bool.or_eq_true, beq_iff_eq] at hw
    first | exact hw.2 | exact hw.1.2 | exact hw.2.1 | exact hw.1.1.2 | simp_all
  rcases s with s | s
  · exact ⟨.V0, decodeSyl_slotWord _ _ h _ _ s hw d⟩
  · exact ⟨.V1, decodeSyl_slotWord _ _ h _ _ s hw d⟩

theorem vDot4I8 (h : Hdr) (f : OpV3) : Statement (.vDot4I8 h f) := by
  intro hw
  refine ⟨fun w e => ?_, fun w e => nomatch e⟩
  injection e with e
  subst e
  have d : decodeV (23#7).toNat h f.enc = some (.vDot4I8 h f) := by
    show (OpV3.dec f.enc).map (Instr.vDot4I8 h) = _
    rw [OpV3.dec_enc]
    rfl
  have s : h.slot = .V0 ∨ h.slot = .V1 := by
    simp only [Instr.wf, Bool.and_eq_true, Bool.or_eq_true, beq_iff_eq] at hw
    first | exact hw.2 | exact hw.1.2 | exact hw.2.1 | exact hw.1.1.2 | simp_all
  rcases s with s | s
  · exact ⟨.V0, decodeSyl_slotWord _ _ h _ _ s hw d⟩
  · exact ⟨.V1, decodeSyl_slotWord _ _ h _ _ s hw d⟩

theorem vAddF32 (h : Hdr) (f : OpV3R) : Statement (.vAddF32 h f) := by
  intro hw
  refine ⟨fun w e => ?_, fun w e => nomatch e⟩
  injection e with e
  subst e
  have d : decodeV (24#7).toNat h f.enc = some (.vAddF32 h f) := by
    show (OpV3R.dec f.enc).map (Instr.vAddF32 h) = _
    rw [OpV3R.dec_enc]
    rfl
  have s : h.slot = .V0 ∨ h.slot = .V1 := by
    simp only [Instr.wf, Bool.and_eq_true, Bool.or_eq_true, beq_iff_eq] at hw
    first | exact hw.2 | exact hw.1.2 | exact hw.2.1 | exact hw.1.1.2 | simp_all
  rcases s with s | s
  · exact ⟨.V0, decodeSyl_slotWord _ _ h _ _ s hw d⟩
  · exact ⟨.V1, decodeSyl_slotWord _ _ h _ _ s hw d⟩

theorem vSubF32 (h : Hdr) (f : OpV3R) : Statement (.vSubF32 h f) := by
  intro hw
  refine ⟨fun w e => ?_, fun w e => nomatch e⟩
  injection e with e
  subst e
  have d : decodeV (25#7).toNat h f.enc = some (.vSubF32 h f) := by
    show (OpV3R.dec f.enc).map (Instr.vSubF32 h) = _
    rw [OpV3R.dec_enc]
    rfl
  have s : h.slot = .V0 ∨ h.slot = .V1 := by
    simp only [Instr.wf, Bool.and_eq_true, Bool.or_eq_true, beq_iff_eq] at hw
    first | exact hw.2 | exact hw.1.2 | exact hw.2.1 | exact hw.1.1.2 | simp_all
  rcases s with s | s
  · exact ⟨.V0, decodeSyl_slotWord _ _ h _ _ s hw d⟩
  · exact ⟨.V1, decodeSyl_slotWord _ _ h _ _ s hw d⟩

theorem vMulF32 (h : Hdr) (f : OpV3R) : Statement (.vMulF32 h f) := by
  intro hw
  refine ⟨fun w e => ?_, fun w e => nomatch e⟩
  injection e with e
  subst e
  have d : decodeV (26#7).toNat h f.enc = some (.vMulF32 h f) := by
    show (OpV3R.dec f.enc).map (Instr.vMulF32 h) = _
    rw [OpV3R.dec_enc]
    rfl
  have s : h.slot = .V0 ∨ h.slot = .V1 := by
    simp only [Instr.wf, Bool.and_eq_true, Bool.or_eq_true, beq_iff_eq] at hw
    first | exact hw.2 | exact hw.1.2 | exact hw.2.1 | exact hw.1.1.2 | simp_all
  rcases s with s | s
  · exact ⟨.V0, decodeSyl_slotWord _ _ h _ _ s hw d⟩
  · exact ⟨.V1, decodeSyl_slotWord _ _ h _ _ s hw d⟩

theorem vFmaF32 (h : Hdr) (f : OpV3R) : Statement (.vFmaF32 h f) := by
  intro hw
  refine ⟨fun w e => ?_, fun w e => nomatch e⟩
  injection e with e
  subst e
  have d : decodeV (27#7).toNat h f.enc = some (.vFmaF32 h f) := by
    show (OpV3R.dec f.enc).map (Instr.vFmaF32 h) = _
    rw [OpV3R.dec_enc]
    rfl
  have s : h.slot = .V0 ∨ h.slot = .V1 := by
    simp only [Instr.wf, Bool.and_eq_true, Bool.or_eq_true, beq_iff_eq] at hw
    first | exact hw.2 | exact hw.1.2 | exact hw.2.1 | exact hw.1.1.2 | simp_all
  rcases s with s | s
  · exact ⟨.V0, decodeSyl_slotWord _ _ h _ _ s hw d⟩
  · exact ⟨.V1, decodeSyl_slotWord _ _ h _ _ s hw d⟩

theorem vFmsF32 (h : Hdr) (f : OpV3R) : Statement (.vFmsF32 h f) := by
  intro hw
  refine ⟨fun w e => ?_, fun w e => nomatch e⟩
  injection e with e
  subst e
  have d : decodeV (28#7).toNat h f.enc = some (.vFmsF32 h f) := by
    show (OpV3R.dec f.enc).map (Instr.vFmsF32 h) = _
    rw [OpV3R.dec_enc]
    rfl
  have s : h.slot = .V0 ∨ h.slot = .V1 := by
    simp only [Instr.wf, Bool.and_eq_true, Bool.or_eq_true, beq_iff_eq] at hw
    first | exact hw.2 | exact hw.1.2 | exact hw.2.1 | exact hw.1.1.2 | simp_all
  rcases s with s | s
  · exact ⟨.V0, decodeSyl_slotWord _ _ h _ _ s hw d⟩
  · exact ⟨.V1, decodeSyl_slotWord _ _ h _ _ s hw d⟩

theorem vFnmaF32 (h : Hdr) (f : OpV3R) : Statement (.vFnmaF32 h f) := by
  intro hw
  refine ⟨fun w e => ?_, fun w e => nomatch e⟩
  injection e with e
  subst e
  have d : decodeV (29#7).toNat h f.enc = some (.vFnmaF32 h f) := by
    show (OpV3R.dec f.enc).map (Instr.vFnmaF32 h) = _
    rw [OpV3R.dec_enc]
    rfl
  have s : h.slot = .V0 ∨ h.slot = .V1 := by
    simp only [Instr.wf, Bool.and_eq_true, Bool.or_eq_true, beq_iff_eq] at hw
    first | exact hw.2 | exact hw.1.2 | exact hw.2.1 | exact hw.1.1.2 | simp_all
  rcases s with s | s
  · exact ⟨.V0, decodeSyl_slotWord _ _ h _ _ s hw d⟩
  · exact ⟨.V1, decodeSyl_slotWord _ _ h _ _ s hw d⟩

theorem vMinF32 (h : Hdr) (f : OpV3) : Statement (.vMinF32 h f) := by
  intro hw
  refine ⟨fun w e => ?_, fun w e => nomatch e⟩
  injection e with e
  subst e
  have d : decodeV (30#7).toNat h f.enc = some (.vMinF32 h f) := by
    show (OpV3.dec f.enc).map (Instr.vMinF32 h) = _
    rw [OpV3.dec_enc]
    rfl
  have s : h.slot = .V0 ∨ h.slot = .V1 := by
    simp only [Instr.wf, Bool.and_eq_true, Bool.or_eq_true, beq_iff_eq] at hw
    first | exact hw.2 | exact hw.1.2 | exact hw.2.1 | exact hw.1.1.2 | simp_all
  rcases s with s | s
  · exact ⟨.V0, decodeSyl_slotWord _ _ h _ _ s hw d⟩
  · exact ⟨.V1, decodeSyl_slotWord _ _ h _ _ s hw d⟩

theorem vMaxF32 (h : Hdr) (f : OpV3) : Statement (.vMaxF32 h f) := by
  intro hw
  refine ⟨fun w e => ?_, fun w e => nomatch e⟩
  injection e with e
  subst e
  have d : decodeV (31#7).toNat h f.enc = some (.vMaxF32 h f) := by
    show (OpV3.dec f.enc).map (Instr.vMaxF32 h) = _
    rw [OpV3.dec_enc]
    rfl
  have s : h.slot = .V0 ∨ h.slot = .V1 := by
    simp only [Instr.wf, Bool.and_eq_true, Bool.or_eq_true, beq_iff_eq] at hw
    first | exact hw.2 | exact hw.1.2 | exact hw.2.1 | exact hw.1.1.2 | simp_all
  rcases s with s | s
  · exact ⟨.V0, decodeSyl_slotWord _ _ h _ _ s hw d⟩
  · exact ⟨.V1, decodeSyl_slotWord _ _ h _ _ s hw d⟩

theorem vAddF16 (h : Hdr) (f : OpV3R) : Statement (.vAddF16 h f) := by
  intro hw
  refine ⟨fun w e => ?_, fun w e => nomatch e⟩
  injection e with e
  subst e
  have d : decodeV (32#7).toNat h f.enc = some (.vAddF16 h f) := by
    show (OpV3R.dec f.enc).map (Instr.vAddF16 h) = _
    rw [OpV3R.dec_enc]
    rfl
  have s : h.slot = .V0 ∨ h.slot = .V1 := by
    simp only [Instr.wf, Bool.and_eq_true, Bool.or_eq_true, beq_iff_eq] at hw
    first | exact hw.2 | exact hw.1.2 | exact hw.2.1 | exact hw.1.1.2 | simp_all
  rcases s with s | s
  · exact ⟨.V0, decodeSyl_slotWord _ _ h _ _ s hw d⟩
  · exact ⟨.V1, decodeSyl_slotWord _ _ h _ _ s hw d⟩

theorem vSubF16 (h : Hdr) (f : OpV3R) : Statement (.vSubF16 h f) := by
  intro hw
  refine ⟨fun w e => ?_, fun w e => nomatch e⟩
  injection e with e
  subst e
  have d : decodeV (33#7).toNat h f.enc = some (.vSubF16 h f) := by
    show (OpV3R.dec f.enc).map (Instr.vSubF16 h) = _
    rw [OpV3R.dec_enc]
    rfl
  have s : h.slot = .V0 ∨ h.slot = .V1 := by
    simp only [Instr.wf, Bool.and_eq_true, Bool.or_eq_true, beq_iff_eq] at hw
    first | exact hw.2 | exact hw.1.2 | exact hw.2.1 | exact hw.1.1.2 | simp_all
  rcases s with s | s
  · exact ⟨.V0, decodeSyl_slotWord _ _ h _ _ s hw d⟩
  · exact ⟨.V1, decodeSyl_slotWord _ _ h _ _ s hw d⟩

theorem vMulF16 (h : Hdr) (f : OpV3R) : Statement (.vMulF16 h f) := by
  intro hw
  refine ⟨fun w e => ?_, fun w e => nomatch e⟩
  injection e with e
  subst e
  have d : decodeV (34#7).toNat h f.enc = some (.vMulF16 h f) := by
    show (OpV3R.dec f.enc).map (Instr.vMulF16 h) = _
    rw [OpV3R.dec_enc]
    rfl
  have s : h.slot = .V0 ∨ h.slot = .V1 := by
    simp only [Instr.wf, Bool.and_eq_true, Bool.or_eq_true, beq_iff_eq] at hw
    first | exact hw.2 | exact hw.1.2 | exact hw.2.1 | exact hw.1.1.2 | simp_all
  rcases s with s | s
  · exact ⟨.V0, decodeSyl_slotWord _ _ h _ _ s hw d⟩
  · exact ⟨.V1, decodeSyl_slotWord _ _ h _ _ s hw d⟩

theorem vFmaF16 (h : Hdr) (f : OpV3R) : Statement (.vFmaF16 h f) := by
  intro hw
  refine ⟨fun w e => ?_, fun w e => nomatch e⟩
  injection e with e
  subst e
  have d : decodeV (35#7).toNat h f.enc = some (.vFmaF16 h f) := by
    show (OpV3R.dec f.enc).map (Instr.vFmaF16 h) = _
    rw [OpV3R.dec_enc]
    rfl
  have s : h.slot = .V0 ∨ h.slot = .V1 := by
    simp only [Instr.wf, Bool.and_eq_true, Bool.or_eq_true, beq_iff_eq] at hw
    first | exact hw.2 | exact hw.1.2 | exact hw.2.1 | exact hw.1.1.2 | simp_all
  rcases s with s | s
  · exact ⟨.V0, decodeSyl_slotWord _ _ h _ _ s hw d⟩
  · exact ⟨.V1, decodeSyl_slotWord _ _ h _ _ s hw d⟩

theorem vMinF16 (h : Hdr) (f : OpV3) : Statement (.vMinF16 h f) := by
  intro hw
  refine ⟨fun w e => ?_, fun w e => nomatch e⟩
  injection e with e
  subst e
  have d : decodeV (36#7).toNat h f.enc = some (.vMinF16 h f) := by
    show (OpV3.dec f.enc).map (Instr.vMinF16 h) = _
    rw [OpV3.dec_enc]
    rfl
  have s : h.slot = .V0 ∨ h.slot = .V1 := by
    simp only [Instr.wf, Bool.and_eq_true, Bool.or_eq_true, beq_iff_eq] at hw
    first | exact hw.2 | exact hw.1.2 | exact hw.2.1 | exact hw.1.1.2 | simp_all
  rcases s with s | s
  · exact ⟨.V0, decodeSyl_slotWord _ _ h _ _ s hw d⟩
  · exact ⟨.V1, decodeSyl_slotWord _ _ h _ _ s hw d⟩

theorem vMaxF16 (h : Hdr) (f : OpV3) : Statement (.vMaxF16 h f) := by
  intro hw
  refine ⟨fun w e => ?_, fun w e => nomatch e⟩
  injection e with e
  subst e
  have d : decodeV (37#7).toNat h f.enc = some (.vMaxF16 h f) := by
    show (OpV3.dec f.enc).map (Instr.vMaxF16 h) = _
    rw [OpV3.dec_enc]
    rfl
  have s : h.slot = .V0 ∨ h.slot = .V1 := by
    simp only [Instr.wf, Bool.and_eq_true, Bool.or_eq_true, beq_iff_eq] at hw
    first | exact hw.2 | exact hw.1.2 | exact hw.2.1 | exact hw.1.1.2 | simp_all
  rcases s with s | s
  · exact ⟨.V0, decodeSyl_slotWord _ _ h _ _ s hw d⟩
  · exact ⟨.V1, decodeSyl_slotWord _ _ h _ _ s hw d⟩

theorem vAddB16 (h : Hdr) (f : OpV3R) : Statement (.vAddB16 h f) := by
  intro hw
  refine ⟨fun w e => ?_, fun w e => nomatch e⟩
  injection e with e
  subst e
  have d : decodeV (38#7).toNat h f.enc = some (.vAddB16 h f) := by
    show (OpV3R.dec f.enc).map (Instr.vAddB16 h) = _
    rw [OpV3R.dec_enc]
    rfl
  have s : h.slot = .V0 ∨ h.slot = .V1 := by
    simp only [Instr.wf, Bool.and_eq_true, Bool.or_eq_true, beq_iff_eq] at hw
    first | exact hw.2 | exact hw.1.2 | exact hw.2.1 | exact hw.1.1.2 | simp_all
  rcases s with s | s
  · exact ⟨.V0, decodeSyl_slotWord _ _ h _ _ s hw d⟩
  · exact ⟨.V1, decodeSyl_slotWord _ _ h _ _ s hw d⟩

theorem vSubB16 (h : Hdr) (f : OpV3R) : Statement (.vSubB16 h f) := by
  intro hw
  refine ⟨fun w e => ?_, fun w e => nomatch e⟩
  injection e with e
  subst e
  have d : decodeV (39#7).toNat h f.enc = some (.vSubB16 h f) := by
    show (OpV3R.dec f.enc).map (Instr.vSubB16 h) = _
    rw [OpV3R.dec_enc]
    rfl
  have s : h.slot = .V0 ∨ h.slot = .V1 := by
    simp only [Instr.wf, Bool.and_eq_true, Bool.or_eq_true, beq_iff_eq] at hw
    first | exact hw.2 | exact hw.1.2 | exact hw.2.1 | exact hw.1.1.2 | simp_all
  rcases s with s | s
  · exact ⟨.V0, decodeSyl_slotWord _ _ h _ _ s hw d⟩
  · exact ⟨.V1, decodeSyl_slotWord _ _ h _ _ s hw d⟩

theorem vMulB16 (h : Hdr) (f : OpV3R) : Statement (.vMulB16 h f) := by
  intro hw
  refine ⟨fun w e => ?_, fun w e => nomatch e⟩
  injection e with e
  subst e
  have d : decodeV (40#7).toNat h f.enc = some (.vMulB16 h f) := by
    show (OpV3R.dec f.enc).map (Instr.vMulB16 h) = _
    rw [OpV3R.dec_enc]
    rfl
  have s : h.slot = .V0 ∨ h.slot = .V1 := by
    simp only [Instr.wf, Bool.and_eq_true, Bool.or_eq_true, beq_iff_eq] at hw
    first | exact hw.2 | exact hw.1.2 | exact hw.2.1 | exact hw.1.1.2 | simp_all
  rcases s with s | s
  · exact ⟨.V0, decodeSyl_slotWord _ _ h _ _ s hw d⟩
  · exact ⟨.V1, decodeSyl_slotWord _ _ h _ _ s hw d⟩

theorem vFmaB16 (h : Hdr) (f : OpV3R) : Statement (.vFmaB16 h f) := by
  intro hw
  refine ⟨fun w e => ?_, fun w e => nomatch e⟩
  injection e with e
  subst e
  have d : decodeV (41#7).toNat h f.enc = some (.vFmaB16 h f) := by
    show (OpV3R.dec f.enc).map (Instr.vFmaB16 h) = _
    rw [OpV3R.dec_enc]
    rfl
  have s : h.slot = .V0 ∨ h.slot = .V1 := by
    simp only [Instr.wf, Bool.and_eq_true, Bool.or_eq_true, beq_iff_eq] at hw
    first | exact hw.2 | exact hw.1.2 | exact hw.2.1 | exact hw.1.1.2 | simp_all
  rcases s with s | s
  · exact ⟨.V0, decodeSyl_slotWord _ _ h _ _ s hw d⟩
  · exact ⟨.V1, decodeSyl_slotWord _ _ h _ _ s hw d⟩

theorem vMinB16 (h : Hdr) (f : OpV3) : Statement (.vMinB16 h f) := by
  intro hw
  refine ⟨fun w e => ?_, fun w e => nomatch e⟩
  injection e with e
  subst e
  have d : decodeV (42#7).toNat h f.enc = some (.vMinB16 h f) := by
    show (OpV3.dec f.enc).map (Instr.vMinB16 h) = _
    rw [OpV3.dec_enc]
    rfl
  have s : h.slot = .V0 ∨ h.slot = .V1 := by
    simp only [Instr.wf, Bool.and_eq_true, Bool.or_eq_true, beq_iff_eq] at hw
    first | exact hw.2 | exact hw.1.2 | exact hw.2.1 | exact hw.1.1.2 | simp_all
  rcases s with s | s
  · exact ⟨.V0, decodeSyl_slotWord _ _ h _ _ s hw d⟩
  · exact ⟨.V1, decodeSyl_slotWord _ _ h _ _ s hw d⟩

theorem vMaxB16 (h : Hdr) (f : OpV3) : Statement (.vMaxB16 h f) := by
  intro hw
  refine ⟨fun w e => ?_, fun w e => nomatch e⟩
  injection e with e
  subst e
  have d : decodeV (43#7).toNat h f.enc = some (.vMaxB16 h f) := by
    show (OpV3.dec f.enc).map (Instr.vMaxB16 h) = _
    rw [OpV3.dec_enc]
    rfl
  have s : h.slot = .V0 ∨ h.slot = .V1 := by
    simp only [Instr.wf, Bool.and_eq_true, Bool.or_eq_true, beq_iff_eq] at hw
    first | exact hw.2 | exact hw.1.2 | exact hw.2.1 | exact hw.1.1.2 | simp_all
  rcases s with s | s
  · exact ⟨.V0, decodeSyl_slotWord _ _ h _ _ s hw d⟩
  · exact ⟨.V1, decodeSyl_slotWord _ _ h _ _ s hw d⟩

theorem vRcpF32 (h : Hdr) (f : OpV2) : Statement (.vRcpF32 h f) := by
  intro hw
  refine ⟨fun w e => ?_, fun w e => nomatch e⟩
  injection e with e
  subst e
  have d : decodeV (44#7).toNat h f.enc = some (.vRcpF32 h f) := by
    show (OpV2.dec f.enc).map (Instr.vRcpF32 h) = _
    rw [OpV2.dec_enc]
    rfl
  have s : h.slot = .V0 ∨ h.slot = .V1 := by
    simp only [Instr.wf, Bool.and_eq_true, Bool.or_eq_true, beq_iff_eq] at hw
    first | exact hw.2 | exact hw.1.2 | exact hw.2.1 | exact hw.1.1.2 | simp_all
  rcases s with s | s
  · exact ⟨.V0, decodeSyl_slotWord _ _ h _ _ s hw d⟩
  · exact ⟨.V1, decodeSyl_slotWord _ _ h _ _ s hw d⟩

theorem vRsqF32 (h : Hdr) (f : OpV2) : Statement (.vRsqF32 h f) := by
  intro hw
  refine ⟨fun w e => ?_, fun w e => nomatch e⟩
  injection e with e
  subst e
  have d : decodeV (45#7).toNat h f.enc = some (.vRsqF32 h f) := by
    show (OpV2.dec f.enc).map (Instr.vRsqF32 h) = _
    rw [OpV2.dec_enc]
    rfl
  have s : h.slot = .V0 ∨ h.slot = .V1 := by
    simp only [Instr.wf, Bool.and_eq_true, Bool.or_eq_true, beq_iff_eq] at hw
    first | exact hw.2 | exact hw.1.2 | exact hw.2.1 | exact hw.1.1.2 | simp_all
  rcases s with s | s
  · exact ⟨.V0, decodeSyl_slotWord _ _ h _ _ s hw d⟩
  · exact ⟨.V1, decodeSyl_slotWord _ _ h _ _ s hw d⟩

theorem vExp2F32 (h : Hdr) (f : OpV2) : Statement (.vExp2F32 h f) := by
  intro hw
  refine ⟨fun w e => ?_, fun w e => nomatch e⟩
  injection e with e
  subst e
  have d : decodeV (46#7).toNat h f.enc = some (.vExp2F32 h f) := by
    show (OpV2.dec f.enc).map (Instr.vExp2F32 h) = _
    rw [OpV2.dec_enc]
    rfl
  have s : h.slot = .V0 ∨ h.slot = .V1 := by
    simp only [Instr.wf, Bool.and_eq_true, Bool.or_eq_true, beq_iff_eq] at hw
    first | exact hw.2 | exact hw.1.2 | exact hw.2.1 | exact hw.1.1.2 | simp_all
  rcases s with s | s
  · exact ⟨.V0, decodeSyl_slotWord _ _ h _ _ s hw d⟩
  · exact ⟨.V1, decodeSyl_slotWord _ _ h _ _ s hw d⟩

theorem vLog2F32 (h : Hdr) (f : OpV2) : Statement (.vLog2F32 h f) := by
  intro hw
  refine ⟨fun w e => ?_, fun w e => nomatch e⟩
  injection e with e
  subst e
  have d : decodeV (47#7).toNat h f.enc = some (.vLog2F32 h f) := by
    show (OpV2.dec f.enc).map (Instr.vLog2F32 h) = _
    rw [OpV2.dec_enc]
    rfl
  have s : h.slot = .V0 ∨ h.slot = .V1 := by
    simp only [Instr.wf, Bool.and_eq_true, Bool.or_eq_true, beq_iff_eq] at hw
    first | exact hw.2 | exact hw.1.2 | exact hw.2.1 | exact hw.1.1.2 | simp_all
  rcases s with s | s
  · exact ⟨.V0, decodeSyl_slotWord _ _ h _ _ s hw d⟩
  · exact ⟨.V1, decodeSyl_slotWord _ _ h _ _ s hw d⟩

theorem vRcpF16 (h : Hdr) (f : OpV2) : Statement (.vRcpF16 h f) := by
  intro hw
  refine ⟨fun w e => ?_, fun w e => nomatch e⟩
  injection e with e
  subst e
  have d : decodeV (48#7).toNat h f.enc = some (.vRcpF16 h f) := by
    show (OpV2.dec f.enc).map (Instr.vRcpF16 h) = _
    rw [OpV2.dec_enc]
    rfl
  have s : h.slot = .V0 ∨ h.slot = .V1 := by
    simp only [Instr.wf, Bool.and_eq_true, Bool.or_eq_true, beq_iff_eq] at hw
    first | exact hw.2 | exact hw.1.2 | exact hw.2.1 | exact hw.1.1.2 | simp_all
  rcases s with s | s
  · exact ⟨.V0, decodeSyl_slotWord _ _ h _ _ s hw d⟩
  · exact ⟨.V1, decodeSyl_slotWord _ _ h _ _ s hw d⟩

theorem vRsqF16 (h : Hdr) (f : OpV2) : Statement (.vRsqF16 h f) := by
  intro hw
  refine ⟨fun w e => ?_, fun w e => nomatch e⟩
  injection e with e
  subst e
  have d : decodeV (49#7).toNat h f.enc = some (.vRsqF16 h f) := by
    show (OpV2.dec f.enc).map (Instr.vRsqF16 h) = _
    rw [OpV2.dec_enc]
    rfl
  have s : h.slot = .V0 ∨ h.slot = .V1 := by
    simp only [Instr.wf, Bool.and_eq_true, Bool.or_eq_true, beq_iff_eq] at hw
    first | exact hw.2 | exact hw.1.2 | exact hw.2.1 | exact hw.1.1.2 | simp_all
  rcases s with s | s
  · exact ⟨.V0, decodeSyl_slotWord _ _ h _ _ s hw d⟩
  · exact ⟨.V1, decodeSyl_slotWord _ _ h _ _ s hw d⟩

theorem vExp2F16 (h : Hdr) (f : OpV2) : Statement (.vExp2F16 h f) := by
  intro hw
  refine ⟨fun w e => ?_, fun w e => nomatch e⟩
  injection e with e
  subst e
  have d : decodeV (50#7).toNat h f.enc = some (.vExp2F16 h f) := by
    show (OpV2.dec f.enc).map (Instr.vExp2F16 h) = _
    rw [OpV2.dec_enc]
    rfl
  have s : h.slot = .V0 ∨ h.slot = .V1 := by
    simp only [Instr.wf, Bool.and_eq_true, Bool.or_eq_true, beq_iff_eq] at hw
    first | exact hw.2 | exact hw.1.2 | exact hw.2.1 | exact hw.1.1.2 | simp_all
  rcases s with s | s
  · exact ⟨.V0, decodeSyl_slotWord _ _ h _ _ s hw d⟩
  · exact ⟨.V1, decodeSyl_slotWord _ _ h _ _ s hw d⟩

theorem vLog2F16 (h : Hdr) (f : OpV2) : Statement (.vLog2F16 h f) := by
  intro hw
  refine ⟨fun w e => ?_, fun w e => nomatch e⟩
  injection e with e
  subst e
  have d : decodeV (51#7).toNat h f.enc = some (.vLog2F16 h f) := by
    show (OpV2.dec f.enc).map (Instr.vLog2F16 h) = _
    rw [OpV2.dec_enc]
    rfl
  have s : h.slot = .V0 ∨ h.slot = .V1 := by
    simp only [Instr.wf, Bool.and_eq_true, Bool.or_eq_true, beq_iff_eq] at hw
    first | exact hw.2 | exact hw.1.2 | exact hw.2.1 | exact hw.1.1.2 | simp_all
  rcases s with s | s
  · exact ⟨.V0, decodeSyl_slotWord _ _ h _ _ s hw d⟩
  · exact ⟨.V1, decodeSyl_slotWord _ _ h _ _ s hw d⟩

theorem vCeqI32 (h : Hdr) (f : OpVM) : Statement (.vCeqI32 h f) := by
  intro hw
  refine ⟨fun w e => ?_, fun w e => nomatch e⟩
  injection e with e
  subst e
  have d : decodeV (52#7).toNat h f.enc = some (.vCeqI32 h f) := by
    show (OpVM.dec f.enc).map (Instr.vCeqI32 h) = _
    rw [OpVM.dec_enc]
    rfl
  have s : h.slot = .V0 ∨ h.slot = .V1 := by
    simp only [Instr.wf, Bool.and_eq_true, Bool.or_eq_true, beq_iff_eq] at hw
    first | exact hw.2 | exact hw.1.2 | exact hw.2.1 | exact hw.1.1.2 | simp_all
  rcases s with s | s
  · exact ⟨.V0, decodeSyl_slotWord _ _ h _ _ s hw d⟩
  · exact ⟨.V1, decodeSyl_slotWord _ _ h _ _ s hw d⟩

theorem vCltI32 (h : Hdr) (f : OpVM) : Statement (.vCltI32 h f) := by
  intro hw
  refine ⟨fun w e => ?_, fun w e => nomatch e⟩
  injection e with e
  subst e
  have d : decodeV (53#7).toNat h f.enc = some (.vCltI32 h f) := by
    show (OpVM.dec f.enc).map (Instr.vCltI32 h) = _
    rw [OpVM.dec_enc]
    rfl
  have s : h.slot = .V0 ∨ h.slot = .V1 := by
    simp only [Instr.wf, Bool.and_eq_true, Bool.or_eq_true, beq_iff_eq] at hw
    first | exact hw.2 | exact hw.1.2 | exact hw.2.1 | exact hw.1.1.2 | simp_all
  rcases s with s | s
  · exact ⟨.V0, decodeSyl_slotWord _ _ h _ _ s hw d⟩
  · exact ⟨.V1, decodeSyl_slotWord _ _ h _ _ s hw d⟩

theorem vCleI32 (h : Hdr) (f : OpVM) : Statement (.vCleI32 h f) := by
  intro hw
  refine ⟨fun w e => ?_, fun w e => nomatch e⟩
  injection e with e
  subst e
  have d : decodeV (54#7).toNat h f.enc = some (.vCleI32 h f) := by
    show (OpVM.dec f.enc).map (Instr.vCleI32 h) = _
    rw [OpVM.dec_enc]
    rfl
  have s : h.slot = .V0 ∨ h.slot = .V1 := by
    simp only [Instr.wf, Bool.and_eq_true, Bool.or_eq_true, beq_iff_eq] at hw
    first | exact hw.2 | exact hw.1.2 | exact hw.2.1 | exact hw.1.1.2 | simp_all
  rcases s with s | s
  · exact ⟨.V0, decodeSyl_slotWord _ _ h _ _ s hw d⟩
  · exact ⟨.V1, decodeSyl_slotWord _ _ h _ _ s hw d⟩

theorem vCltZ32 (h : Hdr) (f : OpVM) : Statement (.vCltZ32 h f) := by
  intro hw
  refine ⟨fun w e => ?_, fun w e => nomatch e⟩
  injection e with e
  subst e
  have d : decodeV (55#7).toNat h f.enc = some (.vCltZ32 h f) := by
    show (OpVM.dec f.enc).map (Instr.vCltZ32 h) = _
    rw [OpVM.dec_enc]
    rfl
  have s : h.slot = .V0 ∨ h.slot = .V1 := by
    simp only [Instr.wf, Bool.and_eq_true, Bool.or_eq_true, beq_iff_eq] at hw
    first | exact hw.2 | exact hw.1.2 | exact hw.2.1 | exact hw.1.1.2 | simp_all
  rcases s with s | s
  · exact ⟨.V0, decodeSyl_slotWord _ _ h _ _ s hw d⟩
  · exact ⟨.V1, decodeSyl_slotWord _ _ h _ _ s hw d⟩

theorem vCeqF32 (h : Hdr) (f : OpVM) : Statement (.vCeqF32 h f) := by
  intro hw
  refine ⟨fun w e => ?_, fun w e => nomatch e⟩
  injection e with e
  subst e
  have d : decodeV (56#7).toNat h f.enc = some (.vCeqF32 h f) := by
    show (OpVM.dec f.enc).map (Instr.vCeqF32 h) = _
    rw [OpVM.dec_enc]
    rfl
  have s : h.slot = .V0 ∨ h.slot = .V1 := by
    simp only [Instr.wf, Bool.and_eq_true, Bool.or_eq_true, beq_iff_eq] at hw
    first | exact hw.2 | exact hw.1.2 | exact hw.2.1 | exact hw.1.1.2 | simp_all
  rcases s with s | s
  · exact ⟨.V0, decodeSyl_slotWord _ _ h _ _ s hw d⟩
  · exact ⟨.V1, decodeSyl_slotWord _ _ h _ _ s hw d⟩

theorem vCltF32 (h : Hdr) (f : OpVM) : Statement (.vCltF32 h f) := by
  intro hw
  refine ⟨fun w e => ?_, fun w e => nomatch e⟩
  injection e with e
  subst e
  have d : decodeV (57#7).toNat h f.enc = some (.vCltF32 h f) := by
    show (OpVM.dec f.enc).map (Instr.vCltF32 h) = _
    rw [OpVM.dec_enc]
    rfl
  have s : h.slot = .V0 ∨ h.slot = .V1 := by
    simp only [Instr.wf, Bool.and_eq_true, Bool.or_eq_true, beq_iff_eq] at hw
    first | exact hw.2 | exact hw.1.2 | exact hw.2.1 | exact hw.1.1.2 | simp_all
  rcases s with s | s
  · exact ⟨.V0, decodeSyl_slotWord _ _ h _ _ s hw d⟩
  · exact ⟨.V1, decodeSyl_slotWord _ _ h _ _ s hw d⟩

theorem vCleF32 (h : Hdr) (f : OpVM) : Statement (.vCleF32 h f) := by
  intro hw
  refine ⟨fun w e => ?_, fun w e => nomatch e⟩
  injection e with e
  subst e
  have d : decodeV (58#7).toNat h f.enc = some (.vCleF32 h f) := by
    show (OpVM.dec f.enc).map (Instr.vCleF32 h) = _
    rw [OpVM.dec_enc]
    rfl
  have s : h.slot = .V0 ∨ h.slot = .V1 := by
    simp only [Instr.wf, Bool.and_eq_true, Bool.or_eq_true, beq_iff_eq] at hw
    first | exact hw.2 | exact hw.1.2 | exact hw.2.1 | exact hw.1.1.2 | simp_all
  rcases s with s | s
  · exact ⟨.V0, decodeSyl_slotWord _ _ h _ _ s hw d⟩
  · exact ⟨.V1, decodeSyl_slotWord _ _ h _ _ s hw d⟩

theorem vCunF32 (h : Hdr) (f : OpVM) : Statement (.vCunF32 h f) := by
  intro hw
  refine ⟨fun w e => ?_, fun w e => nomatch e⟩
  injection e with e
  subst e
  have d : decodeV (59#7).toNat h f.enc = some (.vCunF32 h f) := by
    show (OpVM.dec f.enc).map (Instr.vCunF32 h) = _
    rw [OpVM.dec_enc]
    rfl
  have s : h.slot = .V0 ∨ h.slot = .V1 := by
    simp only [Instr.wf, Bool.and_eq_true, Bool.or_eq_true, beq_iff_eq] at hw
    first | exact hw.2 | exact hw.1.2 | exact hw.2.1 | exact hw.1.1.2 | simp_all
  rcases s with s | s
  · exact ⟨.V0, decodeSyl_slotWord _ _ h _ _ s hw d⟩
  · exact ⟨.V1, decodeSyl_slotWord _ _ h _ _ s hw d⟩

theorem vCvtF32 (h : Hdr) (f : OpVCR) : Statement (.vCvtF32 h f) := by
  intro hw
  refine ⟨fun w e => ?_, fun w e => nomatch e⟩
  injection e with e
  subst e
  have d : decodeV (60#7).toNat h f.enc = some (.vCvtF32 h f) := by
    show (OpVCR.dec f.enc).map (Instr.vCvtF32 h) = _
    rw [OpVCR.dec_enc]
    rfl
  have s : h.slot = .V0 ∨ h.slot = .V1 := by
    simp only [Instr.wf, Bool.and_eq_true, Bool.or_eq_true, beq_iff_eq] at hw
    first | exact hw.2 | exact hw.1.2 | exact hw.2.1 | exact hw.1.1.2 | simp_all
  rcases s with s | s
  · exact ⟨.V0, decodeSyl_slotWord _ _ h _ _ s hw d⟩
  · exact ⟨.V1, decodeSyl_slotWord _ _ h _ _ s hw d⟩

theorem vCvtF16 (h : Hdr) (f : OpVCR) : Statement (.vCvtF16 h f) := by
  intro hw
  refine ⟨fun w e => ?_, fun w e => nomatch e⟩
  injection e with e
  subst e
  have d : decodeV (61#7).toNat h f.enc = some (.vCvtF16 h f) := by
    show (OpVCR.dec f.enc).map (Instr.vCvtF16 h) = _
    rw [OpVCR.dec_enc]
    rfl
  have s : h.slot = .V0 ∨ h.slot = .V1 := by
    simp only [Instr.wf, Bool.and_eq_true, Bool.or_eq_true, beq_iff_eq] at hw
    first | exact hw.2 | exact hw.1.2 | exact hw.2.1 | exact hw.1.1.2 | simp_all
  rcases s with s | s
  · exact ⟨.V0, decodeSyl_slotWord _ _ h _ _ s hw d⟩
  · exact ⟨.V1, decodeSyl_slotWord _ _ h _ _ s hw d⟩

theorem vCvtB16 (h : Hdr) (f : OpVCR) : Statement (.vCvtB16 h f) := by
  intro hw
  refine ⟨fun w e => ?_, fun w e => nomatch e⟩
  injection e with e
  subst e
  have d : decodeV (62#7).toNat h f.enc = some (.vCvtB16 h f) := by
    show (OpVCR.dec f.enc).map (Instr.vCvtB16 h) = _
    rw [OpVCR.dec_enc]
    rfl
  have s : h.slot = .V0 ∨ h.slot = .V1 := by
    simp only [Instr.wf, Bool.and_eq_true, Bool.or_eq_true, beq_iff_eq] at hw
    first | exact hw.2 | exact hw.1.2 | exact hw.2.1 | exact hw.1.1.2 | simp_all
  rcases s with s | s
  · exact ⟨.V0, decodeSyl_slotWord _ _ h _ _ s hw d⟩
  · exact ⟨.V1, decodeSyl_slotWord _ _ h _ _ s hw d⟩

theorem vCvtE4 (h : Hdr) (f : OpVCR) : Statement (.vCvtE4 h f) := by
  intro hw
  refine ⟨fun w e => ?_, fun w e => nomatch e⟩
  injection e with e
  subst e
  have d : decodeV (63#7).toNat h f.enc = some (.vCvtE4 h f) := by
    show (OpVCR.dec f.enc).map (Instr.vCvtE4 h) = _
    rw [OpVCR.dec_enc]
    rfl
  have s : h.slot = .V0 ∨ h.slot = .V1 := by
    simp only [Instr.wf, Bool.and_eq_true, Bool.or_eq_true, beq_iff_eq] at hw
    first | exact hw.2 | exact hw.1.2 | exact hw.2.1 | exact hw.1.1.2 | simp_all
  rcases s with s | s
  · exact ⟨.V0, decodeSyl_slotWord _ _ h _ _ s hw d⟩
  · exact ⟨.V1, decodeSyl_slotWord _ _ h _ _ s hw d⟩

theorem vCvtE5 (h : Hdr) (f : OpVCR) : Statement (.vCvtE5 h f) := by
  intro hw
  refine ⟨fun w e => ?_, fun w e => nomatch e⟩
  injection e with e
  subst e
  have d : decodeV (64#7).toNat h f.enc = some (.vCvtE5 h f) := by
    show (OpVCR.dec f.enc).map (Instr.vCvtE5 h) = _
    rw [OpVCR.dec_enc]
    rfl
  have s : h.slot = .V0 ∨ h.slot = .V1 := by
    simp only [Instr.wf, Bool.and_eq_true, Bool.or_eq_true, beq_iff_eq] at hw
    first | exact hw.2 | exact hw.1.2 | exact hw.2.1 | exact hw.1.1.2 | simp_all
  rcases s with s | s
  · exact ⟨.V0, decodeSyl_slotWord _ _ h _ _ s hw d⟩
  · exact ⟨.V1, decodeSyl_slotWord _ _ h _ _ s hw d⟩

theorem vCvtI32 (h : Hdr) (f : OpVCR) : Statement (.vCvtI32 h f) := by
  intro hw
  refine ⟨fun w e => ?_, fun w e => nomatch e⟩
  injection e with e
  subst e
  have d : decodeV (65#7).toNat h f.enc = some (.vCvtI32 h f) := by
    show (OpVCR.dec f.enc).map (Instr.vCvtI32 h) = _
    rw [OpVCR.dec_enc]
    rfl
  have s : h.slot = .V0 ∨ h.slot = .V1 := by
    simp only [Instr.wf, Bool.and_eq_true, Bool.or_eq_true, beq_iff_eq] at hw
    first | exact hw.2 | exact hw.1.2 | exact hw.2.1 | exact hw.1.1.2 | simp_all
  rcases s with s | s
  · exact ⟨.V0, decodeSyl_slotWord _ _ h _ _ s hw d⟩
  · exact ⟨.V1, decodeSyl_slotWord _ _ h _ _ s hw d⟩

theorem vCvtI16 (h : Hdr) (f : OpVCR) : Statement (.vCvtI16 h f) := by
  intro hw
  refine ⟨fun w e => ?_, fun w e => nomatch e⟩
  injection e with e
  subst e
  have d : decodeV (66#7).toNat h f.enc = some (.vCvtI16 h f) := by
    show (OpVCR.dec f.enc).map (Instr.vCvtI16 h) = _
    rw [OpVCR.dec_enc]
    rfl
  have s : h.slot = .V0 ∨ h.slot = .V1 := by
    simp only [Instr.wf, Bool.and_eq_true, Bool.or_eq_true, beq_iff_eq] at hw
    first | exact hw.2 | exact hw.1.2 | exact hw.2.1 | exact hw.1.1.2 | simp_all
  rcases s with s | s
  · exact ⟨.V0, decodeSyl_slotWord _ _ h _ _ s hw d⟩
  · exact ⟨.V1, decodeSyl_slotWord _ _ h _ _ s hw d⟩

theorem vCvtI8 (h : Hdr) (f : OpVCR) : Statement (.vCvtI8 h f) := by
  intro hw
  refine ⟨fun w e => ?_, fun w e => nomatch e⟩
  injection e with e
  subst e
  have d : decodeV (67#7).toNat h f.enc = some (.vCvtI8 h f) := by
    show (OpVCR.dec f.enc).map (Instr.vCvtI8 h) = _
    rw [OpVCR.dec_enc]
    rfl
  have s : h.slot = .V0 ∨ h.slot = .V1 := by
    simp only [Instr.wf, Bool.and_eq_true, Bool.or_eq_true, beq_iff_eq] at hw
    first | exact hw.2 | exact hw.1.2 | exact hw.2.1 | exact hw.1.1.2 | simp_all
  rcases s with s | s
  · exact ⟨.V0, decodeSyl_slotWord _ _ h _ _ s hw d⟩
  · exact ⟨.V1, decodeSyl_slotWord _ _ h _ _ s hw d⟩

theorem vCvtZ32 (h : Hdr) (f : OpVCR) : Statement (.vCvtZ32 h f) := by
  intro hw
  refine ⟨fun w e => ?_, fun w e => nomatch e⟩
  injection e with e
  subst e
  have d : decodeV (68#7).toNat h f.enc = some (.vCvtZ32 h f) := by
    show (OpVCR.dec f.enc).map (Instr.vCvtZ32 h) = _
    rw [OpVCR.dec_enc]
    rfl
  have s : h.slot = .V0 ∨ h.slot = .V1 := by
    simp only [Instr.wf, Bool.and_eq_true, Bool.or_eq_true, beq_iff_eq] at hw
    first | exact hw.2 | exact hw.1.2 | exact hw.2.1 | exact hw.1.1.2 | simp_all
  rcases s with s | s
  · exact ⟨.V0, decodeSyl_slotWord _ _ h _ _ s hw d⟩
  · exact ⟨.V1, decodeSyl_slotWord _ _ h _ _ s hw d⟩

theorem vCvtZ16 (h : Hdr) (f : OpVCR) : Statement (.vCvtZ16 h f) := by
  intro hw
  refine ⟨fun w e => ?_, fun w e => nomatch e⟩
  injection e with e
  subst e
  have d : decodeV (69#7).toNat h f.enc = some (.vCvtZ16 h f) := by
    show (OpVCR.dec f.enc).map (Instr.vCvtZ16 h) = _
    rw [OpVCR.dec_enc]
    rfl
  have s : h.slot = .V0 ∨ h.slot = .V1 := by
    simp only [Instr.wf, Bool.and_eq_true, Bool.or_eq_true, beq_iff_eq] at hw
    first | exact hw.2 | exact hw.1.2 | exact hw.2.1 | exact hw.1.1.2 | simp_all
  rcases s with s | s
  · exact ⟨.V0, decodeSyl_slotWord _ _ h _ _ s hw d⟩
  · exact ⟨.V1, decodeSyl_slotWord _ _ h _ _ s hw d⟩

theorem vCvtZ8 (h : Hdr) (f : OpVCR) : Statement (.vCvtZ8 h f) := by
  intro hw
  refine ⟨fun w e => ?_, fun w e => nomatch e⟩
  injection e with e
  subst e
  have d : decodeV (70#7).toNat h f.enc = some (.vCvtZ8 h f) := by
    show (OpVCR.dec f.enc).map (Instr.vCvtZ8 h) = _
    rw [OpVCR.dec_enc]
    rfl
  have s : h.slot = .V0 ∨ h.slot = .V1 := by
    simp only [Instr.wf, Bool.and_eq_true, Bool.or_eq_true, beq_iff_eq] at hw
    first | exact hw.2 | exact hw.1.2 | exact hw.2.1 | exact hw.1.1.2 | simp_all
  rcases s with s | s
  · exact ⟨.V0, decodeSyl_slotWord _ _ h _ _ s hw d⟩
  · exact ⟨.V1, decodeSyl_slotWord _ _ h _ _ s hw d⟩

theorem vCvtc (h : Hdr) (f : OpVC) : Statement (.vCvtc h f) := by
  intro hw
  refine ⟨fun w e => ?_, fun w e => nomatch e⟩
  injection e with e
  subst e
  have d : decodeV (71#7).toNat h f.enc = some (.vCvtc h f) := by
    show (OpVC.dec f.enc).map (Instr.vCvtc h) = _
    rw [OpVC.dec_enc]
    rfl
  have s : h.slot = .V0 ∨ h.slot = .V1 := by
    simp only [Instr.wf, Bool.and_eq_true, Bool.or_eq_true, beq_iff_eq] at hw
    first | exact hw.2 | exact hw.1.2 | exact hw.2.1 | exact hw.1.1.2 | simp_all
  rcases s with s | s
  · exact ⟨.V0, decodeSyl_slotWord _ _ h _ _ s hw d⟩
  · exact ⟨.V1, decodeSyl_slotWord _ _ h _ _ s hw d⟩

theorem vRintF32 (h : Hdr) (f : OpV2R) : Statement (.vRintF32 h f) := by
  intro hw
  refine ⟨fun w e => ?_, fun w e => nomatch e⟩
  injection e with e
  subst e
  have d : decodeV (72#7).toNat h f.enc = some (.vRintF32 h f) := by
    show (OpV2R.dec f.enc).map (Instr.vRintF32 h) = _
    rw [OpV2R.dec_enc]
    rfl
  have s : h.slot = .V0 ∨ h.slot = .V1 := by
    simp only [Instr.wf, Bool.and_eq_true, Bool.or_eq_true, beq_iff_eq] at hw
    first | exact hw.2 | exact hw.1.2 | exact hw.2.1 | exact hw.1.1.2 | simp_all
  rcases s with s | s
  · exact ⟨.V0, decodeSyl_slotWord _ _ h _ _ s hw d⟩
  · exact ⟨.V1, decodeSyl_slotWord _ _ h _ _ s hw d⟩

theorem vScaleF32 (h : Hdr) (f : OpV3R) : Statement (.vScaleF32 h f) := by
  intro hw
  refine ⟨fun w e => ?_, fun w e => nomatch e⟩
  injection e with e
  subst e
  have d : decodeV (73#7).toNat h f.enc = some (.vScaleF32 h f) := by
    show (OpV3R.dec f.enc).map (Instr.vScaleF32 h) = _
    rw [OpV3R.dec_enc]
    rfl
  have s : h.slot = .V0 ∨ h.slot = .V1 := by
    simp only [Instr.wf, Bool.and_eq_true, Bool.or_eq_true, beq_iff_eq] at hw
    first | exact hw.2 | exact hw.1.2 | exact hw.2.1 | exact hw.1.1.2 | simp_all
  rcases s with s | s
  · exact ⟨.V0, decodeSyl_slotWord _ _ h _ _ s hw d⟩
  · exact ⟨.V1, decodeSyl_slotWord _ _ h _ _ s hw d⟩

theorem vExpoF32 (h : Hdr) (f : OpV2) : Statement (.vExpoF32 h f) := by
  intro hw
  refine ⟨fun w e => ?_, fun w e => nomatch e⟩
  injection e with e
  subst e
  have d : decodeV (74#7).toNat h f.enc = some (.vExpoF32 h f) := by
    show (OpV2.dec f.enc).map (Instr.vExpoF32 h) = _
    rw [OpV2.dec_enc]
    rfl
  have s : h.slot = .V0 ∨ h.slot = .V1 := by
    simp only [Instr.wf, Bool.and_eq_true, Bool.or_eq_true, beq_iff_eq] at hw
    first | exact hw.2 | exact hw.1.2 | exact hw.2.1 | exact hw.1.1.2 | simp_all
  rcases s with s | s
  · exact ⟨.V0, decodeSyl_slotWord _ _ h _ _ s hw d⟩
  · exact ⟨.V1, decodeSyl_slotWord _ _ h _ _ s hw d⟩

theorem vPackI4 (h : Hdr) (f : OpVC) : Statement (.vPackI4 h f) := by
  intro hw
  refine ⟨fun w e => ?_, fun w e => nomatch e⟩
  injection e with e
  subst e
  have d : decodeV (75#7).toNat h f.enc = some (.vPackI4 h f) := by
    show (OpVC.dec f.enc).map (Instr.vPackI4 h) = _
    rw [OpVC.dec_enc]
    rfl
  have s : h.slot = .V0 ∨ h.slot = .V1 := by
    simp only [Instr.wf, Bool.and_eq_true, Bool.or_eq_true, beq_iff_eq] at hw
    first | exact hw.2 | exact hw.1.2 | exact hw.2.1 | exact hw.1.1.2 | simp_all
  rcases s with s | s
  · exact ⟨.V0, decodeSyl_slotWord _ _ h _ _ s hw d⟩
  · exact ⟨.V1, decodeSyl_slotWord _ _ h _ _ s hw d⟩

theorem vUnpkI4 (h : Hdr) (f : OpVC) : Statement (.vUnpkI4 h f) := by
  intro hw
  refine ⟨fun w e => ?_, fun w e => nomatch e⟩
  injection e with e
  subst e
  have d : decodeV (76#7).toNat h f.enc = some (.vUnpkI4 h f) := by
    show (OpVC.dec f.enc).map (Instr.vUnpkI4 h) = _
    rw [OpVC.dec_enc]
    rfl
  have s : h.slot = .V0 ∨ h.slot = .V1 := by
    simp only [Instr.wf, Bool.and_eq_true, Bool.or_eq_true, beq_iff_eq] at hw
    first | exact hw.2 | exact hw.1.2 | exact hw.2.1 | exact hw.1.1.2 | simp_all
  rcases s with s | s
  · exact ⟨.V0, decodeSyl_slotWord _ _ h _ _ s hw d⟩
  · exact ⟨.V1, decodeSyl_slotWord _ _ h _ _ s hw d⟩

theorem vPackX4 (h : Hdr) (f : OpVCR) : Statement (.vPackX4 h f) := by
  intro hw
  refine ⟨fun w e => ?_, fun w e => nomatch e⟩
  injection e with e
  subst e
  have d : decodeV (77#7).toNat h f.enc = some (.vPackX4 h f) := by
    show (OpVCR.dec f.enc).map (Instr.vPackX4 h) = _
    rw [OpVCR.dec_enc]
    rfl
  have s : h.slot = .V0 ∨ h.slot = .V1 := by
    simp only [Instr.wf, Bool.and_eq_true, Bool.or_eq_true, beq_iff_eq] at hw
    first | exact hw.2 | exact hw.1.2 | exact hw.2.1 | exact hw.1.1.2 | simp_all
  rcases s with s | s
  · exact ⟨.V0, decodeSyl_slotWord _ _ h _ _ s hw d⟩
  · exact ⟨.V1, decodeSyl_slotWord _ _ h _ _ s hw d⟩

theorem vUnpkX4 (h : Hdr) (f : OpVC) : Statement (.vUnpkX4 h f) := by
  intro hw
  refine ⟨fun w e => ?_, fun w e => nomatch e⟩
  injection e with e
  subst e
  have d : decodeV (78#7).toNat h f.enc = some (.vUnpkX4 h f) := by
    show (OpVC.dec f.enc).map (Instr.vUnpkX4 h) = _
    rw [OpVC.dec_enc]
    rfl
  have s : h.slot = .V0 ∨ h.slot = .V1 := by
    simp only [Instr.wf, Bool.and_eq_true, Bool.or_eq_true, beq_iff_eq] at hw
    first | exact hw.2 | exact hw.1.2 | exact hw.2.1 | exact hw.1.1.2 | simp_all
  rcases s with s | s
  · exact ⟨.V0, decodeSyl_slotWord _ _ h _ _ s hw d⟩
  · exact ⟨.V1, decodeSyl_slotWord _ _ h _ _ s hw d⟩

theorem vRaddF32 (h : Hdr) (f : OpVQR) : Statement (.vRaddF32 h f) := by
  intro hw
  refine ⟨fun w e => ?_, fun w e => nomatch e⟩
  injection e with e
  subst e
  have d : decodeV (79#7).toNat h f.enc = some (.vRaddF32 h f) := by
    show (OpVQR.dec f.enc).map (Instr.vRaddF32 h) = _
    rw [OpVQR.dec_enc]
    rfl
  have s : h.slot = .V0 ∨ h.slot = .V1 := by
    simp only [Instr.wf, Bool.and_eq_true, Bool.or_eq_true, beq_iff_eq] at hw
    first | exact hw.2 | exact hw.1.2 | exact hw.2.1 | exact hw.1.1.2 | simp_all
  rcases s with s | s
  · exact ⟨.V0, decodeSyl_slotWord _ _ h _ _ s hw d⟩
  · exact ⟨.V1, decodeSyl_slotWord _ _ h _ _ s hw d⟩

theorem vRaddF16 (h : Hdr) (f : OpVQR) : Statement (.vRaddF16 h f) := by
  intro hw
  refine ⟨fun w e => ?_, fun w e => nomatch e⟩
  injection e with e
  subst e
  have d : decodeV (80#7).toNat h f.enc = some (.vRaddF16 h f) := by
    show (OpVQR.dec f.enc).map (Instr.vRaddF16 h) = _
    rw [OpVQR.dec_enc]
    rfl
  have s : h.slot = .V0 ∨ h.slot = .V1 := by
    simp only [Instr.wf, Bool.and_eq_true, Bool.or_eq_true, beq_iff_eq] at hw
    first | exact hw.2 | exact hw.1.2 | exact hw.2.1 | exact hw.1.1.2 | simp_all
  rcases s with s | s
  · exact ⟨.V0, decodeSyl_slotWord _ _ h _ _ s hw d⟩
  · exact ⟨.V1, decodeSyl_slotWord _ _ h _ _ s hw d⟩

theorem vRaddI32 (h : Hdr) (f : OpVQ) : Statement (.vRaddI32 h f) := by
  intro hw
  refine ⟨fun w e => ?_, fun w e => nomatch e⟩
  injection e with e
  subst e
  have d : decodeV (81#7).toNat h f.enc = some (.vRaddI32 h f) := by
    show (OpVQ.dec f.enc).map (Instr.vRaddI32 h) = _
    rw [OpVQ.dec_enc]
    rfl
  have s : h.slot = .V0 ∨ h.slot = .V1 := by
    simp only [Instr.wf, Bool.and_eq_true, Bool.or_eq_true, beq_iff_eq] at hw
    first | exact hw.2 | exact hw.1.2 | exact hw.2.1 | exact hw.1.1.2 | simp_all
  rcases s with s | s
  · exact ⟨.V0, decodeSyl_slotWord _ _ h _ _ s hw d⟩
  · exact ⟨.V1, decodeSyl_slotWord _ _ h _ _ s hw d⟩

theorem vRmaxF32 (h : Hdr) (f : OpVQ) : Statement (.vRmaxF32 h f) := by
  intro hw
  refine ⟨fun w e => ?_, fun w e => nomatch e⟩
  injection e with e
  subst e
  have d : decodeV (82#7).toNat h f.enc = some (.vRmaxF32 h f) := by
    show (OpVQ.dec f.enc).map (Instr.vRmaxF32 h) = _
    rw [OpVQ.dec_enc]
    rfl
  have s : h.slot = .V0 ∨ h.slot = .V1 := by
    simp only [Instr.wf, Bool.and_eq_true, Bool.or_eq_true, beq_iff_eq] at hw
    first | exact hw.2 | exact hw.1.2 | exact hw.2.1 | exact hw.1.1.2 | simp_all
  rcases s with s | s
  · exact ⟨.V0, decodeSyl_slotWord _ _ h _ _ s hw d⟩
  · exact ⟨.V1, decodeSyl_slotWord _ _ h _ _ s hw d⟩

theorem vRminF32 (h : Hdr) (f : OpVQ) : Statement (.vRminF32 h f) := by
  intro hw
  refine ⟨fun w e => ?_, fun w e => nomatch e⟩
  injection e with e
  subst e
  have d : decodeV (83#7).toNat h f.enc = some (.vRminF32 h f) := by
    show (OpVQ.dec f.enc).map (Instr.vRminF32 h) = _
    rw [OpVQ.dec_enc]
    rfl
  have s : h.slot = .V0 ∨ h.slot = .V1 := by
    simp only [Instr.wf, Bool.and_eq_true, Bool.or_eq_true, beq_iff_eq] at hw
    first | exact hw.2 | exact hw.1.2 | exact hw.2.1 | exact hw.1.1.2 | simp_all
  rcases s with s | s
  · exact ⟨.V0, decodeSyl_slotWord _ _ h _ _ s hw d⟩
  · exact ⟨.V1, decodeSyl_slotWord _ _ h _ _ s hw d⟩

theorem vRmaxI32 (h : Hdr) (f : OpVQ) : Statement (.vRmaxI32 h f) := by
  intro hw
  refine ⟨fun w e => ?_, fun w e => nomatch e⟩
  injection e with e
  subst e
  have d : decodeV (84#7).toNat h f.enc = some (.vRmaxI32 h f) := by
    show (OpVQ.dec f.enc).map (Instr.vRmaxI32 h) = _
    rw [OpVQ.dec_enc]
    rfl
  have s : h.slot = .V0 ∨ h.slot = .V1 := by
    simp only [Instr.wf, Bool.and_eq_true, Bool.or_eq_true, beq_iff_eq] at hw
    first | exact hw.2 | exact hw.1.2 | exact hw.2.1 | exact hw.1.1.2 | simp_all
  rcases s with s | s
  · exact ⟨.V0, decodeSyl_slotWord _ _ h _ _ s hw d⟩
  · exact ⟨.V1, decodeSyl_slotWord _ _ h _ _ s hw d⟩

theorem vPerm (h : Hdr) (f : OpV3) : Statement (.vPerm h f) := by
  intro hw
  refine ⟨fun w e => ?_, fun w e => nomatch e⟩
  injection e with e
  subst e
  have d : decodeV (85#7).toNat h f.enc = some (.vPerm h f) := by
    show (OpV3.dec f.enc).map (Instr.vPerm h) = _
    rw [OpV3.dec_enc]
    rfl
  have s : h.slot = .V0 ∨ h.slot = .V1 := by
    simp only [Instr.wf, Bool.and_eq_true, Bool.or_eq_true, beq_iff_eq] at hw
    first | exact hw.2 | exact hw.1.2 | exact hw.2.1 | exact hw.1.1.2 | simp_all
  rcases s with s | s
  · exact ⟨.V0, decodeSyl_slotWord _ _ h _ _ s hw d⟩
  · exact ⟨.V1, decodeSyl_slotWord _ _ h _ _ s hw d⟩

theorem vPerm8 (h : Hdr) (f : OpV3) : Statement (.vPerm8 h f) := by
  intro hw
  refine ⟨fun w e => ?_, fun w e => nomatch e⟩
  injection e with e
  subst e
  have d : decodeV (86#7).toNat h f.enc = some (.vPerm8 h f) := by
    show (OpV3.dec f.enc).map (Instr.vPerm8 h) = _
    rw [OpV3.dec_enc]
    rfl
  have s : h.slot = .V0 ∨ h.slot = .V1 := by
    simp only [Instr.wf, Bool.and_eq_true, Bool.or_eq_true, beq_iff_eq] at hw
    first | exact hw.2 | exact hw.1.2 | exact hw.2.1 | exact hw.1.1.2 | simp_all
  rcases s with s | s
  · exact ⟨.V0, decodeSyl_slotWord _ _ h _ _ s hw d⟩
  · exact ⟨.V1, decodeSyl_slotWord _ _ h _ _ s hw d⟩

theorem vRot (h : Hdr) (f : OpVN) : Statement (.vRot h f) := by
  intro hw
  refine ⟨fun w e => ?_, fun w e => nomatch e⟩
  injection e with e
  subst e
  have d : decodeV (87#7).toNat h f.enc = some (.vRot h f) := by
    show (OpVN.dec f.enc).map (Instr.vRot h) = _
    rw [OpVN.dec_enc]
    rfl
  have s : h.slot = .V0 ∨ h.slot = .V1 := by
    simp only [Instr.wf, Bool.and_eq_true, Bool.or_eq_true, beq_iff_eq] at hw
    first | exact hw.2 | exact hw.1.2 | exact hw.2.1 | exact hw.1.1.2 | simp_all
  rcases s with s | s
  · exact ⟨.V0, decodeSyl_slotWord _ _ h _ _ s hw d⟩
  · exact ⟨.V1, decodeSyl_slotWord _ _ h _ _ s hw d⟩

theorem vSlide (h : Hdr) (f : OpVSL) : Statement (.vSlide h f) := by
  intro hw
  refine ⟨fun w e => ?_, fun w e => nomatch e⟩
  injection e with e
  subst e
  have d : decodeV (88#7).toNat h f.enc = some (.vSlide h f) := by
    show (OpVSL.dec f.enc).map (Instr.vSlide h) = _
    rw [OpVSL.dec_enc]
    rfl
  have s : h.slot = .V0 ∨ h.slot = .V1 := by
    simp only [Instr.wf, Bool.and_eq_true, Bool.or_eq_true, beq_iff_eq] at hw
    first | exact hw.2 | exact hw.1.2 | exact hw.2.1 | exact hw.1.1.2 | simp_all
  rcases s with s | s
  · exact ⟨.V0, decodeSyl_slotWord _ _ h _ _ s hw d⟩
  · exact ⟨.V1, decodeSyl_slotWord _ _ h _ _ s hw d⟩

theorem vBcast (h : Hdr) (f : OpVN) : Statement (.vBcast h f) := by
  intro hw
  refine ⟨fun w e => ?_, fun w e => nomatch e⟩
  injection e with e
  subst e
  have d : decodeV (89#7).toNat h f.enc = some (.vBcast h f) := by
    show (OpVN.dec f.enc).map (Instr.vBcast h) = _
    rw [OpVN.dec_enc]
    rfl
  have s : h.slot = .V0 ∨ h.slot = .V1 := by
    simp only [Instr.wf, Bool.and_eq_true, Bool.or_eq_true, beq_iff_eq] at hw
    first | exact hw.2 | exact hw.1.2 | exact hw.2.1 | exact hw.1.1.2 | simp_all
  rcases s with s | s
  · exact ⟨.V0, decodeSyl_slotWord _ _ h _ _ s hw d⟩
  · exact ⟨.V1, decodeSyl_slotWord _ _ h _ _ s hw d⟩

theorem vBcs (h : Hdr) (f : OpVS) : Statement (.vBcs h f) := by
  intro hw
  refine ⟨fun w e => ?_, fun w e => nomatch e⟩
  injection e with e
  subst e
  have d : decodeV (90#7).toNat h f.enc = some (.vBcs h f) := by
    show (OpVS.dec f.enc).map (Instr.vBcs h) = _
    rw [OpVS.dec_enc]
    rfl
  have s : h.slot = .V0 ∨ h.slot = .V1 := by
    simp only [Instr.wf, Bool.and_eq_true, Bool.or_eq_true, beq_iff_eq] at hw
    first | exact hw.2 | exact hw.1.2 | exact hw.2.1 | exact hw.1.1.2 | simp_all
  rcases s with s | s
  · exact ⟨.V0, decodeSyl_slotWord _ _ h _ _ s hw d⟩
  · exact ⟨.V1, decodeSyl_slotWord _ _ h _ _ s hw d⟩

theorem vSel (h : Hdr) (f : OpVSEL) : Statement (.vSel h f) := by
  intro hw
  refine ⟨fun w e => ?_, fun w e => nomatch e⟩
  injection e with e
  subst e
  have d : decodeV (91#7).toNat h f.enc = some (.vSel h f) := by
    show (OpVSEL.dec f.enc).map (Instr.vSel h) = _
    rw [OpVSEL.dec_enc]
    rfl
  have s : h.slot = .V0 ∨ h.slot = .V1 := by
    simp only [Instr.wf, Bool.and_eq_true, Bool.or_eq_true, beq_iff_eq] at hw
    first | exact hw.2 | exact hw.1.2 | exact hw.2.1 | exact hw.1.1.2 | simp_all
  rcases s with s | s
  · exact ⟨.V0, decodeSyl_slotWord _ _ h _ _ s hw d⟩
  · exact ⟨.V1, decodeSyl_slotWord _ _ h _ _ s hw d⟩

theorem vIota (h : Hdr) (f : OpVI) : Statement (.vIota h f) := by
  intro hw
  refine ⟨fun w e => ?_, fun w e => nomatch e⟩
  injection e with e
  subst e
  have d : decodeV (92#7).toNat h f.enc = some (.vIota h f) := by
    show (OpVI.dec f.enc).map (Instr.vIota h) = _
    rw [OpVI.dec_enc]
    rfl
  have s : h.slot = .V0 ∨ h.slot = .V1 := by
    simp only [Instr.wf, Bool.and_eq_true, Bool.or_eq_true, beq_iff_eq] at hw
    first | exact hw.2 | exact hw.1.2 | exact hw.2.1 | exact hw.1.1.2 | simp_all
  rcases s with s | s
  · exact ⟨.V0, decodeSyl_slotWord _ _ h _ _ s hw d⟩
  · exact ⟨.V1, decodeSyl_slotWord _ _ h _ _ s hw d⟩

theorem v0Sld (h : Hdr) (f : OpVLL) : Statement (.v0Sld h f) := by
  intro hw
  refine ⟨fun w e => ?_, fun w e => nomatch e⟩
  injection e with e
  subst e
  have d : decodeV (93#7).toNat h f.enc = some (.v0Sld h f) := by
    show (OpVLL.dec f.enc).map (Instr.v0Sld h) = _
    rw [OpVLL.dec_enc]
    rfl
  have s : h.slot = .V0 := by
    simp only [Instr.wf, Bool.and_eq_true, Bool.or_eq_true, beq_iff_eq] at hw
    first | exact hw.2 | exact hw.1.2 | exact hw.2.1 | exact hw.1.1.2 | simp_all
  exact ⟨.V0, decodeSyl_slotWord _ _ h _ _ s hw d⟩

theorem v0Sldx (h : Hdr) (f : OpVLLX) : Statement (.v0Sldx h f) := by
  intro hw
  refine ⟨fun w e => ?_, fun w e => nomatch e⟩
  injection e with e
  subst e
  have d : decodeV (94#7).toNat h f.enc = some (.v0Sldx h f) := by
    show (OpVLLX.dec f.enc).map (Instr.v0Sldx h) = _
    rw [OpVLLX.dec_enc]
    rfl
  have s : h.slot = .V0 := by
    simp only [Instr.wf, Bool.and_eq_true, Bool.or_eq_true, beq_iff_eq] at hw
    first | exact hw.2 | exact hw.1.2 | exact hw.2.1 | exact hw.1.1.2 | simp_all
  exact ⟨.V0, decodeSyl_slotWord _ _ h _ _ s hw d⟩

theorem v0Sst (h : Hdr) (f : OpVLS) : Statement (.v0Sst h f) := by
  intro hw
  refine ⟨fun w e => ?_, fun w e => nomatch e⟩
  injection e with e
  subst e
  have d : decodeV (95#7).toNat h f.enc = some (.v0Sst h f) := by
    show (OpVLS.dec f.enc).map (Instr.v0Sst h) = _
    rw [OpVLS.dec_enc]
    rfl
  have s : h.slot = .V0 := by
    simp only [Instr.wf, Bool.and_eq_true, Bool.or_eq_true, beq_iff_eq] at hw
    first | exact hw.2 | exact hw.1.2 | exact hw.2.1 | exact hw.1.1.2 | simp_all
  exact ⟨.V0, decodeSyl_slotWord _ _ h _ _ s hw d⟩

theorem v0Sstx (h : Hdr) (f : OpVLSX) : Statement (.v0Sstx h f) := by
  intro hw
  refine ⟨fun w e => ?_, fun w e => nomatch e⟩
  injection e with e
  subst e
  have d : decodeV (96#7).toNat h f.enc = some (.v0Sstx h f) := by
    show (OpVLSX.dec f.enc).map (Instr.v0Sstx h) = _
    rw [OpVLSX.dec_enc]
    rfl
  have s : h.slot = .V0 := by
    simp only [Instr.wf, Bool.and_eq_true, Bool.or_eq_true, beq_iff_eq] at hw
    first | exact hw.2 | exact hw.1.2 | exact hw.2.1 | exact hw.1.1.2 | simp_all
  exact ⟨.V0, decodeSyl_slotWord _ _ h _ _ s hw d⟩

theorem v0Sstm (h : Hdr) (f : OpVLSM) : Statement (.v0Sstm h f) := by
  intro hw
  refine ⟨fun w e => ?_, fun w e => nomatch e⟩
  injection e with e
  subst e
  have d : decodeV (97#7).toNat h f.enc = some (.v0Sstm h f) := by
    show (OpVLSM.dec f.enc).map (Instr.v0Sstm h) = _
    rw [OpVLSM.dec_enc]
    rfl
  have s : h.slot = .V0 := by
    simp only [Instr.wf, Bool.and_eq_true, Bool.or_eq_true, beq_iff_eq] at hw
    first | exact hw.2 | exact hw.1.2 | exact hw.2.1 | exact hw.1.1.2 | simp_all
  exact ⟨.V0, decodeSyl_slotWord _ _ h _ _ s hw d⟩

theorem v0Sstxm (h : Hdr) (f : OpVLSXM) : Statement (.v0Sstxm h f) := by
  intro hw
  refine ⟨fun w e => ?_, fun w e => nomatch e⟩
  injection e with e
  subst e
  have d : decodeV (98#7).toNat h f.enc = some (.v0Sstxm h f) := by
    show (OpVLSXM.dec f.enc).map (Instr.v0Sstxm h) = _
    rw [OpVLSXM.dec_enc]
    rfl
  have s : h.slot = .V0 := by
    simp only [Instr.wf, Bool.and_eq_true, Bool.or_eq_true, beq_iff_eq] at hw
    first | exact hw.2 | exact hw.1.2 | exact hw.2.1 | exact hw.1.1.2 | simp_all
  exact ⟨.V0, decodeSyl_slotWord _ _ h _ _ s hw d⟩

theorem v1Ld (h : Hdr) (f : OpVDL) : Statement (.v1Ld h f) := by
  intro hw
  refine ⟨fun w e => ?_, fun w e => nomatch e⟩
  injection e with e
  subst e
  have d : decodeV (99#7).toNat h f.enc = some (.v1Ld h f) := by
    show (OpVDL.dec f.enc).map (Instr.v1Ld h) = _
    rw [OpVDL.dec_enc]
    rfl
  have s : h.slot = .V1 := by
    simp only [Instr.wf, Bool.and_eq_true, Bool.or_eq_true, beq_iff_eq] at hw
    first | exact hw.2 | exact hw.1.2 | exact hw.2.1 | exact hw.1.1.2 | simp_all
  exact ⟨.V1, decodeSyl_slotWord _ _ h _ _ s hw d⟩

theorem v1St (h : Hdr) (f : OpVDS) : Statement (.v1St h f) := by
  intro hw
  refine ⟨fun w e => ?_, fun w e => nomatch e⟩
  injection e with e
  subst e
  have d : decodeV (100#7).toNat h f.enc = some (.v1St h f) := by
    show (OpVDS.dec f.enc).map (Instr.v1St h) = _
    rw [OpVDS.dec_enc]
    rfl
  have s : h.slot = .V1 := by
    simp only [Instr.wf, Bool.and_eq_true, Bool.or_eq_true, beq_iff_eq] at hw
    first | exact hw.2 | exact hw.1.2 | exact hw.2.1 | exact hw.1.1.2 | simp_all
  exact ⟨.V1, decodeSyl_slotWord _ _ h _ _ s hw d⟩

theorem v1Ldb (h : Hdr) (f : OpVDL) : Statement (.v1Ldb h f) := by
  intro hw
  refine ⟨fun w e => ?_, fun w e => nomatch e⟩
  injection e with e
  subst e
  have d : decodeV (101#7).toNat h f.enc = some (.v1Ldb h f) := by
    show (OpVDL.dec f.enc).map (Instr.v1Ldb h) = _
    rw [OpVDL.dec_enc]
    rfl
  have s : h.slot = .V1 := by
    simp only [Instr.wf, Bool.and_eq_true, Bool.or_eq_true, beq_iff_eq] at hw
    first | exact hw.2 | exact hw.1.2 | exact hw.2.1 | exact hw.1.1.2 | simp_all
  exact ⟨.V1, decodeSyl_slotWord _ _ h _ _ s hw d⟩

theorem v1Stm (h : Hdr) (f : OpVDSM) : Statement (.v1Stm h f) := by
  intro hw
  refine ⟨fun w e => ?_, fun w e => nomatch e⟩
  injection e with e
  subst e
  have d : decodeV (102#7).toNat h f.enc = some (.v1Stm h f) := by
    show (OpVDSM.dec f.enc).map (Instr.v1Stm h) = _
    rw [OpVDSM.dec_enc]
    rfl
  have s : h.slot = .V1 := by
    simp only [Instr.wf, Bool.and_eq_true, Bool.or_eq_true, beq_iff_eq] at hw
    first | exact hw.2 | exact hw.1.2 | exact hw.2.1 | exact hw.1.1.2 | simp_all
  exact ⟨.V1, decodeSyl_slotWord _ _ h _ _ s hw d⟩

theorem v1Gath (h : Hdr) (f : OpVDLX) : Statement (.v1Gath h f) := by
  intro hw
  refine ⟨fun w e => ?_, fun w e => nomatch e⟩
  injection e with e
  subst e
  have d : decodeV (103#7).toNat h f.enc = some (.v1Gath h f) := by
    show (OpVDLX.dec f.enc).map (Instr.v1Gath h) = _
    rw [OpVDLX.dec_enc]
    rfl
  have s : h.slot = .V1 := by
    simp only [Instr.wf, Bool.and_eq_true, Bool.or_eq_true, beq_iff_eq] at hw
    first | exact hw.2 | exact hw.1.2 | exact hw.2.1 | exact hw.1.1.2 | simp_all
  exact ⟨.V1, decodeSyl_slotWord _ _ h _ _ s hw d⟩

theorem v1Gathm (h : Hdr) (f : OpVG) : Statement (.v1Gathm h f) := by
  intro hw
  refine ⟨fun w e => ?_, fun w e => nomatch e⟩
  injection e with e
  subst e
  have d : decodeV (104#7).toNat h f.enc = some (.v1Gathm h f) := by
    show (OpVG.dec f.enc).map (Instr.v1Gathm h) = _
    rw [OpVG.dec_enc]
    rfl
  have s : h.slot = .V1 := by
    simp only [Instr.wf, Bool.and_eq_true, Bool.or_eq_true, beq_iff_eq] at hw
    first | exact hw.2 | exact hw.1.2 | exact hw.2.1 | exact hw.1.1.2 | simp_all
  exact ⟨.V1, decodeSyl_slotWord _ _ h _ _ s hw d⟩

theorem v1Scat (h : Hdr) (f : OpVDSX) : Statement (.v1Scat h f) := by
  intro hw
  refine ⟨fun w e => ?_, fun w e => nomatch e⟩
  injection e with e
  subst e
  have d : decodeV (105#7).toNat h f.enc = some (.v1Scat h f) := by
    show (OpVDSX.dec f.enc).map (Instr.v1Scat h) = _
    rw [OpVDSX.dec_enc]
    rfl
  have s : h.slot = .V1 := by
    simp only [Instr.wf, Bool.and_eq_true, Bool.or_eq_true, beq_iff_eq] at hw
    first | exact hw.2 | exact hw.1.2 | exact hw.2.1 | exact hw.1.1.2 | simp_all
  exact ⟨.V1, decodeSyl_slotWord _ _ h _ _ s hw d⟩

theorem v1Scatm (h : Hdr) (f : OpVDSXM) : Statement (.v1Scatm h f) := by
  intro hw
  refine ⟨fun w e => ?_, fun w e => nomatch e⟩
  injection e with e
  subst e
  have d : decodeV (106#7).toNat h f.enc = some (.v1Scatm h f) := by
    show (OpVDSXM.dec f.enc).map (Instr.v1Scatm h) = _
    rw [OpVDSXM.dec_enc]
    rfl
  have s : h.slot = .V1 := by
    simp only [Instr.wf, Bool.and_eq_true, Bool.or_eq_true, beq_iff_eq] at hw
    first | exact hw.2 | exact hw.1.2 | exact hw.2.1 | exact hw.1.1.2 | simp_all
  exact ⟨.V1, decodeSyl_slotWord _ _ h _ _ s hw d⟩

theorem vRfwd (h : Hdr) (f : OpVEF) : Statement (.vRfwd h f) := by
  intro hw
  refine ⟨fun w e => ?_, fun w e => nomatch e⟩
  injection e with e
  subst e
  have d : decodeV (107#7).toNat h f.enc = some (.vRfwd h f) := by
    show (OpVEF.dec f.enc).map (Instr.vRfwd h) = _
    rw [OpVEF.dec_enc]
    rfl
  have s : h.slot = .V0 ∨ h.slot = .V1 := by
    simp only [Instr.wf, Bool.and_eq_true, Bool.or_eq_true, beq_iff_eq] at hw
    first | exact hw.2 | exact hw.1.2 | exact hw.2.1 | exact hw.1.1.2 | simp_all
  rcases s with s | s
  · exact ⟨.V0, decodeSyl_slotWord _ _ h _ _ s hw d⟩
  · exact ⟨.V1, decodeSyl_slotWord _ _ h _ _ s hw d⟩

theorem vRrev (h : Hdr) (f : OpVER) : Statement (.vRrev h f) := by
  intro hw
  refine ⟨fun w e => ?_, fun w e => nomatch e⟩
  injection e with e
  subst e
  have d : decodeV (108#7).toNat h f.enc = some (.vRrev h f) := by
    show (OpVER.dec f.enc).map (Instr.vRrev h) = _
    rw [OpVER.dec_enc]
    rfl
  have s : h.slot = .V0 ∨ h.slot = .V1 := by
    simp only [Instr.wf, Bool.and_eq_true, Bool.or_eq_true, beq_iff_eq] at hw
    first | exact hw.2 | exact hw.1.2 | exact hw.2.1 | exact hw.1.1.2 | simp_all
  rcases s with s | s
  · exact ⟨.V0, decodeSyl_slotWord _ _ h _ _ s hw d⟩
  · exact ⟨.V1, decodeSyl_slotWord _ _ h _ _ s hw d⟩

theorem vRchk (h : Hdr) (f : OpVEC) : Statement (.vRchk h f) := by
  intro hw
  refine ⟨fun w e => ?_, fun w e => nomatch e⟩
  injection e with e
  subst e
  have d : decodeV (109#7).toNat h f.enc = some (.vRchk h f) := by
    show (OpVEC.dec f.enc).map (Instr.vRchk h) = _
    rw [OpVEC.dec_enc]
    rfl
  have s : h.slot = .V0 ∨ h.slot = .V1 := by
    simp only [Instr.wf, Bool.and_eq_true, Bool.or_eq_true, beq_iff_eq] at hw
    first | exact hw.2 | exact hw.1.2 | exact hw.2.1 | exact hw.1.1.2 | simp_all
  rcases s with s | s
  · exact ⟨.V0, decodeSyl_slotWord _ _ h _ _ s hw d⟩
  · exact ⟨.V1, decodeSyl_slotWord _ _ h _ _ s hw d⟩

theorem mPush (h : Hdr) (f : OpMP) : Statement (.mPush h f) := by
  intro hw
  refine ⟨fun w e => ?_, fun w e => nomatch e⟩
  injection e with e
  subst e
  have d : decodeM (0#7).toNat h f.enc = some (.mPush h f) := by
    show (OpMP.dec f.enc).map (Instr.mPush h) = _
    rw [OpMP.dec_enc]
    rfl
  have s : h.slot = .M := by
    simp only [Instr.wf, Bool.and_eq_true, Bool.or_eq_true, beq_iff_eq] at hw
    first | exact hw.2 | exact hw.1.2 | exact hw.2.1 | exact hw.1.1.2 | simp_all
  exact ⟨.M, decodeSyl_slotWord _ _ h _ _ s hw d⟩

theorem mAcc (h : Hdr) (f : OpMS) : Statement (.mAcc h f) := by
  intro hw
  refine ⟨fun w e => ?_, fun w e => nomatch e⟩
  injection e with e
  subst e
  have d : decodeM (1#7).toNat h f.enc = some (.mAcc h f) := by
    show (OpMS.dec f.enc).map (Instr.mAcc h) = _
    rw [OpMS.dec_enc]
    rfl
  have s : h.slot = .M := by
    simp only [Instr.wf, Bool.and_eq_true, Bool.or_eq_true, beq_iff_eq] at hw
    first | exact hw.2 | exact hw.1.2 | exact hw.2.1 | exact hw.1.1.2 | simp_all
  exact ⟨.M, decodeSyl_slotWord _ _ h _ _ s hw d⟩

theorem mPa (h : Hdr) (f : OpMPA) : Statement (.mPa h f) := by
  intro hw
  refine ⟨fun w e => ?_, fun w e => nomatch e⟩
  injection e with e
  subst e
  have d : decodeM (2#7).toNat h f.enc = some (.mPa h f) := by
    show (OpMPA.dec f.enc).map (Instr.mPa h) = _
    rw [OpMPA.dec_enc]
    rfl
  have s : h.slot = .M := by
    simp only [Instr.wf, Bool.and_eq_true, Bool.or_eq_true, beq_iff_eq] at hw
    first | exact hw.2 | exact hw.1.2 | exact hw.2.1 | exact hw.1.1.2 | simp_all
  exact ⟨.M, decodeSyl_slotWord _ _ h _ _ s hw d⟩

theorem mShift (h : Hdr) (f : OpMS) : Statement (.mShift h f) := by
  intro hw
  refine ⟨fun w e => ?_, fun w e => nomatch e⟩
  injection e with e
  subst e
  have d : decodeM (3#7).toNat h f.enc = some (.mShift h f) := by
    show (OpMS.dec f.enc).map (Instr.mShift h) = _
    rw [OpMS.dec_enc]
    rfl
  have s : h.slot = .M := by
    simp only [Instr.wf, Bool.and_eq_true, Bool.or_eq_true, beq_iff_eq] at hw
    first | exact hw.2 | exact hw.1.2 | exact hw.2.1 | exact hw.1.1.2 | simp_all
  exact ⟨.M, decodeSyl_slotWord _ _ h _ _ s hw d⟩

theorem mDrainTile (h : Hdr) (f : OpMD) : Statement (.mDrainTile h f) := by
  intro hw
  refine ⟨fun w e => ?_, fun w e => nomatch e⟩
  injection e with e
  subst e
  have d : decodeM (4#7).toNat h f.enc = some (.mDrainTile h f) := by
    show (OpMD.dec f.enc).map (Instr.mDrainTile h) = _
    rw [OpMD.dec_enc]
    rfl
  have s : h.slot = .M := by
    simp only [Instr.wf, Bool.and_eq_true, Bool.or_eq_true, beq_iff_eq] at hw
    first | exact hw.2 | exact hw.1.2 | exact hw.2.1 | exact hw.1.1.2 | simp_all
  exact ⟨.M, decodeSyl_slotWord _ _ h _ _ s hw d⟩

theorem mDrainRing (h : Hdr) (f : OpMH) : Statement (.mDrainRing h f) := by
  intro hw
  refine ⟨fun w e => ?_, fun w e => nomatch e⟩
  injection e with e
  subst e
  have d : decodeM (5#7).toNat h f.enc = some (.mDrainRing h f) := by
    show (OpMH.dec f.enc).map (Instr.mDrainRing h) = _
    rw [OpMH.dec_enc]
    rfl
  have s : h.slot = .M := by
    simp only [Instr.wf, Bool.and_eq_true, Bool.or_eq_true, beq_iff_eq] at hw
    first | exact hw.2 | exact hw.1.2 | exact hw.2.1 | exact hw.1.1.2 | simp_all
  exact ⟨.M, decodeSyl_slotWord _ _ h _ _ s hw d⟩

theorem mZero (h : Hdr) (f : OpMZ) : Statement (.mZero h f) := by
  intro hw
  refine ⟨fun w e => ?_, fun w e => nomatch e⟩
  injection e with e
  subst e
  have d : decodeM (6#7).toNat h f.enc = some (.mZero h f) := by
    show (OpMZ.dec f.enc).map (Instr.mZero h) = _
    rw [OpMZ.dec_enc]
    rfl
  have s : h.slot = .M := by
    simp only [Instr.wf, Bool.and_eq_true, Bool.or_eq_true, beq_iff_eq] at hw
    first | exact hw.2 | exact hw.1.2 | exact hw.2.1 | exact hw.1.1.2 | simp_all
  exact ⟨.M, decodeSyl_slotWord _ _ h _ _ s hw d⟩

theorem mCfgImm (h : Hdr) (f : OpMI) : Statement (.mCfgImm h f) := by
  intro hw
  refine ⟨fun w e => ?_, fun w e => nomatch e⟩
  injection e with e
  subst e
  have d : decodeM (7#7).toNat h f.enc = some (.mCfgImm h f) := by
    show (OpMI.dec f.enc).map (Instr.mCfgImm h) = _
    rw [OpMI.dec_enc]
    rfl
  have s : h.slot = .M := by
    simp only [Instr.wf, Bool.and_eq_true, Bool.or_eq_true, beq_iff_eq] at hw
    first | exact hw.2 | exact hw.1.2 | exact hw.2.1 | exact hw.1.1.2 | simp_all
  exact ⟨.M, decodeSyl_slotWord _ _ h _ _ s hw d⟩

theorem mCfgReg (h : Hdr) (f : OpSA) : Statement (.mCfgReg h f) := by
  intro hw
  refine ⟨fun w e => ?_, fun w e => nomatch e⟩
  injection e with e
  subst e
  have d : decodeM (8#7).toNat h f.enc = some (.mCfgReg h f) := by
    show (OpSA.dec f.enc).map (Instr.mCfgReg h) = _
    rw [OpSA.dec_enc]
    rfl
  have s : h.slot = .M := by
    simp only [Instr.wf, Bool.and_eq_true, Bool.or_eq_true, beq_iff_eq] at hw
    first | exact hw.2 | exact hw.1.2 | exact hw.2.1 | exact hw.1.1.2 | simp_all
  exact ⟨.M, decodeSyl_slotWord _ _ h _ _ s hw d⟩

theorem mFence (h : Hdr) (f : OpNone) : Statement (.mFence h f) := by
  intro hw
  refine ⟨fun w e => ?_, fun w e => nomatch e⟩
  injection e with e
  subst e
  have d : decodeM (9#7).toNat h f.enc = some (.mFence h f) := by
    show (OpNone.dec f.enc).map (Instr.mFence h) = _
    rw [OpNone.dec_enc]
    rfl
  have s : h.slot = .M := by
    simp only [Instr.wf, Bool.and_eq_true, Bool.or_eq_true, beq_iff_eq] at hw
    first | exact hw.2 | exact hw.1.2 | exact hw.2.1 | exact hw.1.1.2 | simp_all
  exact ⟨.M, decodeSyl_slotWord _ _ h _ _ s hw d⟩

theorem cLdd (h : Hdr) (f : OpCML) : Statement (.cLdd h f) := by
  intro hw
  refine ⟨fun w e => ?_, fun w e => nomatch e⟩
  injection e with e
  subst e
  have d : decodeC (0#7).toNat h f.enc = some (.cLdd h f) := by
    show (OpCML.dec f.enc).map (Instr.cLdd h) = _
    rw [OpCML.dec_enc]
    rfl
  have s : h.slot = .C0 ∨ h.slot = .C1 := by
    simp only [Instr.wf, Bool.and_eq_true, Bool.or_eq_true, beq_iff_eq] at hw
    first | exact hw.2 | exact hw.1.2 | exact hw.2.1 | exact hw.1.1.2 | simp_all
  rcases s with s | s
  · exact ⟨.C0, decodeSyl_slotWord _ _ h _ _ s hw d⟩
  · exact ⟨.C1, decodeSyl_slotWord _ _ h _ _ s hw d⟩

theorem cLdw (h : Hdr) (f : OpCML) : Statement (.cLdw h f) := by
  intro hw
  refine ⟨fun w e => ?_, fun w e => nomatch e⟩
  injection e with e
  subst e
  have d : decodeC (1#7).toNat h f.enc = some (.cLdw h f) := by
    show (OpCML.dec f.enc).map (Instr.cLdw h) = _
    rw [OpCML.dec_enc]
    rfl
  have s : h.slot = .C0 ∨ h.slot = .C1 := by
    simp only [Instr.wf, Bool.and_eq_true, Bool.or_eq_true, beq_iff_eq] at hw
    first | exact hw.2 | exact hw.1.2 | exact hw.2.1 | exact hw.1.1.2 | simp_all
  rcases s with s | s
  · exact ⟨.C0, decodeSyl_slotWord _ _ h _ _ s hw d⟩
  · exact ⟨.C1, decodeSyl_slotWord _ _ h _ _ s hw d⟩

theorem cLdh (h : Hdr) (f : OpCML) : Statement (.cLdh h f) := by
  intro hw
  refine ⟨fun w e => ?_, fun w e => nomatch e⟩
  injection e with e
  subst e
  have d : decodeC (2#7).toNat h f.enc = some (.cLdh h f) := by
    show (OpCML.dec f.enc).map (Instr.cLdh h) = _
    rw [OpCML.dec_enc]
    rfl
  have s : h.slot = .C0 ∨ h.slot = .C1 := by
    simp only [Instr.wf, Bool.and_eq_true, Bool.or_eq_true, beq_iff_eq] at hw
    first | exact hw.2 | exact hw.1.2 | exact hw.2.1 | exact hw.1.1.2 | simp_all
  rcases s with s | s
  · exact ⟨.C0, decodeSyl_slotWord _ _ h _ _ s hw d⟩
  · exact ⟨.C1, decodeSyl_slotWord _ _ h _ _ s hw d⟩

theorem cLdb (h : Hdr) (f : OpCML) : Statement (.cLdb h f) := by
  intro hw
  refine ⟨fun w e => ?_, fun w e => nomatch e⟩
  injection e with e
  subst e
  have d : decodeC (3#7).toNat h f.enc = some (.cLdb h f) := by
    show (OpCML.dec f.enc).map (Instr.cLdb h) = _
    rw [OpCML.dec_enc]
    rfl
  have s : h.slot = .C0 ∨ h.slot = .C1 := by
    simp only [Instr.wf, Bool.and_eq_true, Bool.or_eq_true, beq_iff_eq] at hw
    first | exact hw.2 | exact hw.1.2 | exact hw.2.1 | exact hw.1.1.2 | simp_all
  rcases s with s | s
  · exact ⟨.C0, decodeSyl_slotWord _ _ h _ _ s hw d⟩
  · exact ⟨.C1, decodeSyl_slotWord _ _ h _ _ s hw d⟩

theorem cStd (h : Hdr) (f : OpCMS) : Statement (.cStd h f) := by
  intro hw
  refine ⟨fun w e => ?_, fun w e => nomatch e⟩
  injection e with e
  subst e
  have d : decodeC (4#7).toNat h f.enc = some (.cStd h f) := by
    show (OpCMS.dec f.enc).map (Instr.cStd h) = _
    rw [OpCMS.dec_enc]
    rfl
  have s : h.slot = .C0 ∨ h.slot = .C1 := by
    simp only [Instr.wf, Bool.and_eq_true, Bool.or_eq_true, beq_iff_eq] at hw
    first | exact hw.2 | exact hw.1.2 | exact hw.2.1 | exact hw.1.1.2 | simp_all
  rcases s with s | s
  · exact ⟨.C0, decodeSyl_slotWord _ _ h _ _ s hw d⟩
  · exact ⟨.C1, decodeSyl_slotWord _ _ h _ _ s hw d⟩

theorem cStw (h : Hdr) (f : OpCMS) : Statement (.cStw h f) := by
  intro hw
  refine ⟨fun w e => ?_, fun w e => nomatch e⟩
  injection e with e
  subst e
  have d : decodeC (5#7).toNat h f.enc = some (.cStw h f) := by
    show (OpCMS.dec f.enc).map (Instr.cStw h) = _
    rw [OpCMS.dec_enc]
    rfl
  have s : h.slot = .C0 ∨ h.slot = .C1 := by
    simp only [Instr.wf, Bool.and_eq_true, Bool.or_eq_true, beq_iff_eq] at hw
    first | exact hw.2 | exact hw.1.2 | exact hw.2.1 | exact hw.1.1.2 | simp_all
  rcases s with s | s
  · exact ⟨.C0, decodeSyl_slotWord _ _ h _ _ s hw d⟩
  · exact ⟨.C1, decodeSyl_slotWord _ _ h _ _ s hw d⟩

theorem cSth (h : Hdr) (f : OpCMS) : Statement (.cSth h f) := by
  intro hw
  refine ⟨fun w e => ?_, fun w e => nomatch e⟩
  injection e with e
  subst e
  have d : decodeC (6#7).toNat h f.enc = some (.cSth h f) := by
    show (OpCMS.dec f.enc).map (Instr.cSth h) = _
    rw [OpCMS.dec_enc]
    rfl
  have s : h.slot = .C0 ∨ h.slot = .C1 := by
    simp only [Instr.wf, Bool.and_eq_true, Bool.or_eq_true, beq_iff_eq] at hw
    first | exact hw.2 | exact hw.1.2 | exact hw.2.1 | exact hw.1.1.2 | simp_all
  rcases s with s | s
  · exact ⟨.C0, decodeSyl_slotWord _ _ h _ _ s hw d⟩
  · exact ⟨.C1, decodeSyl_slotWord _ _ h _ _ s hw d⟩

theorem cStb (h : Hdr) (f : OpCMS) : Statement (.cStb h f) := by
  intro hw
  refine ⟨fun w e => ?_, fun w e => nomatch e⟩
  injection e with e
  subst e
  have d : decodeC (7#7).toNat h f.enc = some (.cStb h f) := by
    show (OpCMS.dec f.enc).map (Instr.cStb h) = _
    rw [OpCMS.dec_enc]
    rfl
  have s : h.slot = .C0 ∨ h.slot = .C1 := by
    simp only [Instr.wf, Bool.and_eq_true, Bool.or_eq_true, beq_iff_eq] at hw
    first | exact hw.2 | exact hw.1.2 | exact hw.2.1 | exact hw.1.1.2 | simp_all
  rcases s with s | s
  · exact ⟨.C0, decodeSyl_slotWord _ _ h _ _ s hw d⟩
  · exact ⟨.C1, decodeSyl_slotWord _ _ h _ _ s hw d⟩

theorem cVld (h : Hdr) (f : OpCMVL) : Statement (.cVld h f) := by
  intro hw
  refine ⟨fun w e => ?_, fun w e => nomatch e⟩
  injection e with e
  subst e
  have d : decodeC (8#7).toNat h f.enc = some (.cVld h f) := by
    show (OpCMVL.dec f.enc).map (Instr.cVld h) = _
    rw [OpCMVL.dec_enc]
    rfl
  have s : h.slot = .C0 ∨ h.slot = .C1 := by
    simp only [Instr.wf, Bool.and_eq_true, Bool.or_eq_true, beq_iff_eq] at hw
    first | exact hw.2 | exact hw.1.2 | exact hw.2.1 | exact hw.1.1.2 | simp_all
  rcases s with s | s
  · exact ⟨.C0, decodeSyl_slotWord _ _ h _ _ s hw d⟩
  · exact ⟨.C1, decodeSyl_slotWord _ _ h _ _ s hw d⟩

theorem cVst (h : Hdr) (f : OpCMVS) : Statement (.cVst h f) := by
  intro hw
  refine ⟨fun w e => ?_, fun w e => nomatch e⟩
  injection e with e
  subst e
  have d : decodeC (9#7).toNat h f.enc = some (.cVst h f) := by
    show (OpCMVS.dec f.enc).map (Instr.cVst h) = _
    rw [OpCMVS.dec_enc]
    rfl
  have s : h.slot = .C0 ∨ h.slot = .C1 := by
    simp only [Instr.wf, Bool.and_eq_true, Bool.or_eq_true, beq_iff_eq] at hw
    first | exact hw.2 | exact hw.1.2 | exact hw.2.1 | exact hw.1.1.2 | simp_all
  rcases s with s | s
  · exact ⟨.C0, decodeSyl_slotWord _ _ h _ _ s hw d⟩
  · exact ⟨.C1, decodeSyl_slotWord _ _ h _ _ s hw d⟩

theorem cVstm (h : Hdr) (f : OpCMVM) : Statement (.cVstm h f) := by
  intro hw
  refine ⟨fun w e => ?_, fun w e => nomatch e⟩
  injection e with e
  subst e
  have d : decodeC (10#7).toNat h f.enc = some (.cVstm h f) := by
    show (OpCMVM.dec f.enc).map (Instr.cVstm h) = _
    rw [OpCMVM.dec_enc]
    rfl
  have s : h.slot = .C0 ∨ h.slot = .C1 := by
    simp only [Instr.wf, Bool.and_eq_true, Bool.or_eq_true, beq_iff_eq] at hw
    first | exact hw.2 | exact hw.1.2 | exact hw.2.1 | exact hw.1.1.2 | simp_all
  rcases s with s | s
  · exact ⟨.C0, decodeSyl_slotWord _ _ h _ _ s hw d⟩
  · exact ⟨.C1, decodeSyl_slotWord _ _ h _ _ s hw d⟩

theorem cVldb (h : Hdr) (f : OpCMVL) : Statement (.cVldb h f) := by
  intro hw
  refine ⟨fun w e => ?_, fun w e => nomatch e⟩
  injection e with e
  subst e
  have d : decodeC (11#7).toNat h f.enc = some (.cVldb h f) := by
    show (OpCMVL.dec f.enc).map (Instr.cVldb h) = _
    rw [OpCMVL.dec_enc]
    rfl
  have s : h.slot = .C0 ∨ h.slot = .C1 := by
    simp only [Instr.wf, Bool.and_eq_true, Bool.or_eq_true, beq_iff_eq] at hw
    first | exact hw.2 | exact hw.1.2 | exact hw.2.1 | exact hw.1.1.2 | simp_all
  rcases s with s | s
  · exact ⟨.C0, decodeSyl_slotWord _ _ h _ _ s hw d⟩
  · exact ⟨.C1, decodeSyl_slotWord _ _ h _ _ s hw d⟩

theorem cLddAcq (h : Hdr) (f : OpCML) : Statement (.cLddAcq h f) := by
  intro hw
  refine ⟨fun w e => ?_, fun w e => nomatch e⟩
  injection e with e
  subst e
  have d : decodeC (12#7).toNat h f.enc = some (.cLddAcq h f) := by
    show (OpCML.dec f.enc).map (Instr.cLddAcq h) = _
    rw [OpCML.dec_enc]
    rfl
  have s : h.slot = .C0 ∨ h.slot = .C1 := by
    simp only [Instr.wf, Bool.and_eq_true, Bool.or_eq_true, beq_iff_eq] at hw
    first | exact hw.2 | exact hw.1.2 | exact hw.2.1 | exact hw.1.1.2 | simp_all
  rcases s with s | s
  · exact ⟨.C0, decodeSyl_slotWord _ _ h _ _ s hw d⟩
  · exact ⟨.C1, decodeSyl_slotWord _ _ h _ _ s hw d⟩

theorem cLdwAcq (h : Hdr) (f : OpCML) : Statement (.cLdwAcq h f) := by
  intro hw
  refine ⟨fun w e => ?_, fun w e => nomatch e⟩
  injection e with e
  subst e
  have d : decodeC (13#7).toNat h f.enc = some (.cLdwAcq h f) := by
    show (OpCML.dec f.enc).map (Instr.cLdwAcq h) = _
    rw [OpCML.dec_enc]
    rfl
  have s : h.slot = .C0 ∨ h.slot = .C1 := by
    simp only [Instr.wf, Bool.and_eq_true, Bool.or_eq_true, beq_iff_eq] at hw
    first | exact hw.2 | exact hw.1.2 | exact hw.2.1 | exact hw.1.1.2 | simp_all
  rcases s with s | s
  · exact ⟨.C0, decodeSyl_slotWord _ _ h _ _ s hw d⟩
  · exact ⟨.C1, decodeSyl_slotWord _ _ h _ _ s hw d⟩

theorem cStdRel (h : Hdr) (f : OpCMS) : Statement (.cStdRel h f) := by
  intro hw
  refine ⟨fun w e => ?_, fun w e => nomatch e⟩
  injection e with e
  subst e
  have d : decodeC (14#7).toNat h f.enc = some (.cStdRel h f) := by
    show (OpCMS.dec f.enc).map (Instr.cStdRel h) = _
    rw [OpCMS.dec_enc]
    rfl
  have s : h.slot = .C0 ∨ h.slot = .C1 := by
    simp only [Instr.wf, Bool.and_eq_true, Bool.or_eq_true, beq_iff_eq] at hw
    first | exact hw.2 | exact hw.1.2 | exact hw.2.1 | exact hw.1.1.2 | simp_all
  rcases s with s | s
  · exact ⟨.C0, decodeSyl_slotWord _ _ h _ _ s hw d⟩
  · exact ⟨.C1, decodeSyl_slotWord _ _ h _ _ s hw d⟩

theorem cStwRel (h : Hdr) (f : OpCMS) : Statement (.cStwRel h f) := by
  intro hw
  refine ⟨fun w e => ?_, fun w e => nomatch e⟩
  injection e with e
  subst e
  have d : decodeC (15#7).toNat h f.enc = some (.cStwRel h f) := by
    show (OpCMS.dec f.enc).map (Instr.cStwRel h) = _
    rw [OpCMS.dec_enc]
    rfl
  have s : h.slot = .C0 ∨ h.slot = .C1 := by
    simp only [Instr.wf, Bool.and_eq_true, Bool.or_eq_true, beq_iff_eq] at hw
    first | exact hw.2 | exact hw.1.2 | exact hw.2.1 | exact hw.1.1.2 | simp_all
  rcases s with s | s
  · exact ⟨.C0, decodeSyl_slotWord _ _ h _ _ s hw d⟩
  · exact ⟨.C1, decodeSyl_slotWord _ _ h _ _ s hw d⟩

theorem cTld (h : Hdr) (f : OpTLD) : Statement (.cTld h f) := by
  intro hw
  refine ⟨fun w e => ?_, fun w e => nomatch e⟩
  injection e with e
  subst e
  have d : decodeC (16#7).toNat h f.enc = some (.cTld h f) := by
    show (OpTLD.dec f.enc).map (Instr.cTld h) = _
    rw [OpTLD.dec_enc]
    rfl
  have s : h.slot = .C0 ∨ h.slot = .C1 := by
    simp only [Instr.wf, Bool.and_eq_true, Bool.or_eq_true, beq_iff_eq] at hw
    first | exact hw.2 | exact hw.1.2 | exact hw.2.1 | exact hw.1.1.2 | simp_all
  rcases s with s | s
  · exact ⟨.C0, decodeSyl_slotWord _ _ h _ _ s hw d⟩
  · exact ⟨.C1, decodeSyl_slotWord _ _ h _ _ s hw d⟩

theorem cTst (h : Hdr) (f : OpTST) : Statement (.cTst h f) := by
  intro hw
  refine ⟨fun w e => ?_, fun w e => nomatch e⟩
  injection e with e
  subst e
  have d : decodeC (17#7).toNat h f.enc = some (.cTst h f) := by
    show (OpTST.dec f.enc).map (Instr.cTst h) = _
    rw [OpTST.dec_enc]
    rfl
  have s : h.slot = .C0 ∨ h.slot = .C1 := by
    simp only [Instr.wf, Bool.and_eq_true, Bool.or_eq_true, beq_iff_eq] at hw
    first | exact hw.2 | exact hw.1.2 | exact hw.2.1 | exact hw.1.1.2 | simp_all
  rcases s with s | s
  · exact ⟨.C0, decodeSyl_slotWord _ _ h _ _ s hw d⟩
  · exact ⟨.C1, decodeSyl_slotWord _ _ h _ _ s hw d⟩

theorem cTldp (h : Hdr) (f : OpTLDP) : Statement (.cTldp h f) := by
  intro hw
  refine ⟨fun w e => ?_, fun w e => nomatch e⟩
  injection e with e
  subst e
  have d : decodeC (18#7).toNat h f.enc = some (.cTldp h f) := by
    show (OpTLDP.dec f.enc).map (Instr.cTldp h) = _
    rw [OpTLDP.dec_enc]
    rfl
  have s : h.slot = .C0 ∨ h.slot = .C1 := by
    simp only [Instr.wf, Bool.and_eq_true, Bool.or_eq_true, beq_iff_eq] at hw
    first | exact hw.2 | exact hw.1.2 | exact hw.2.1 | exact hw.1.1.2 | simp_all
  rcases s with s | s
  · exact ⟨.C0, decodeSyl_slotWord _ _ h _ _ s hw d⟩
  · exact ⟨.C1, decodeSyl_slotWord _ _ h _ _ s hw d⟩

theorem cTstp (h : Hdr) (f : OpTSTP) : Statement (.cTstp h f) := by
  intro hw
  refine ⟨fun w e => ?_, fun w e => nomatch e⟩
  injection e with e
  subst e
  have d : decodeC (19#7).toNat h f.enc = some (.cTstp h f) := by
    show (OpTSTP.dec f.enc).map (Instr.cTstp h) = _
    rw [OpTSTP.dec_enc]
    rfl
  have s : h.slot = .C0 ∨ h.slot = .C1 := by
    simp only [Instr.wf, Bool.and_eq_true, Bool.or_eq_true, beq_iff_eq] at hw
    first | exact hw.2 | exact hw.1.2 | exact hw.2.1 | exact hw.1.1.2 | simp_all
  rcases s with s | s
  · exact ⟨.C0, decodeSyl_slotWord _ _ h _ _ s hw d⟩
  · exact ⟨.C1, decodeSyl_slotWord _ _ h _ _ s hw d⟩

theorem c1TldAcq (h : Hdr) (f : OpTLD) : Statement (.c1TldAcq h f) := by
  intro hw
  refine ⟨fun w e => ?_, fun w e => nomatch e⟩
  injection e with e
  subst e
  have d : decodeC (20#7).toNat h f.enc = some (.c1TldAcq h f) := by
    show (OpTLD.dec f.enc).map (Instr.c1TldAcq h) = _
    rw [OpTLD.dec_enc]
    rfl
  have s : h.slot = .C1 := by
    simp only [Instr.wf, Bool.and_eq_true, Bool.or_eq_true, beq_iff_eq] at hw
    first | exact hw.2 | exact hw.1.2 | exact hw.2.1 | exact hw.1.1.2 | simp_all
  exact ⟨.C1, decodeSyl_slotWord _ _ h _ _ s hw d⟩

theorem c1TstRel (h : Hdr) (f : OpTST) : Statement (.c1TstRel h f) := by
  intro hw
  refine ⟨fun w e => ?_, fun w e => nomatch e⟩
  injection e with e
  subst e
  have d : decodeC (21#7).toNat h f.enc = some (.c1TstRel h f) := by
    show (OpTST.dec f.enc).map (Instr.c1TstRel h) = _
    rw [OpTST.dec_enc]
    rfl
  have s : h.slot = .C1 := by
    simp only [Instr.wf, Bool.and_eq_true, Bool.or_eq_true, beq_iff_eq] at hw
    first | exact hw.2 | exact hw.1.2 | exact hw.2.1 | exact hw.1.1.2 | simp_all
  exact ⟨.C1, decodeSyl_slotWord _ _ h _ _ s hw d⟩

theorem cShld (h : Hdr) (f : OpSHL) : Statement (.cShld h f) := by
  intro hw
  refine ⟨fun w e => ?_, fun w e => nomatch e⟩
  injection e with e
  subst e
  have d : decodeC (22#7).toNat h f.enc = some (.cShld h f) := by
    show (OpSHL.dec f.enc).map (Instr.cShld h) = _
    rw [OpSHL.dec_enc]
    rfl
  have s : h.slot = .C1 := by
    simp only [Instr.wf, Bool.and_eq_true, Bool.or_eq_true, beq_iff_eq] at hw
    first | exact hw.2 | exact hw.1.2 | exact hw.2.1 | exact hw.1.1.2 | simp_all
  exact ⟨.C1, decodeSyl_slotWord _ _ h _ _ s hw d⟩

theorem cShev (h : Hdr) (f : OpSHL) : Statement (.cShev h f) := by
  intro hw
  refine ⟨fun w e => ?_, fun w e => nomatch e⟩
  injection e with e
  subst e
  have d : decodeC (23#7).toNat h f.enc = some (.cShev h f) := by
    show (OpSHL.dec f.enc).map (Instr.cShev h) = _
    rw [OpSHL.dec_enc]
    rfl
  have s : h.slot = .C1 := by
    simp only [Instr.wf, Bool.and_eq_true, Bool.or_eq_true, beq_iff_eq] at hw
    first | exact hw.2 | exact hw.1.2 | exact hw.2.1 | exact hw.1.1.2 | simp_all
  exact ⟨.C1, decodeSyl_slotWord _ _ h _ _ s hw d⟩

theorem cFarm (h : Hdr) (f : OpCF) : Statement (.cFarm h f) := by
  intro hw
  refine ⟨fun w e => ?_, fun w e => nomatch e⟩
  injection e with e
  subst e
  have d : decodeC (24#7).toNat h f.enc = some (.cFarm h f) := by
    show (OpCF.dec f.enc).map (Instr.cFarm h) = _
    rw [OpCF.dec_enc]
    rfl
  have s : h.slot = .C0 ∨ h.slot = .C1 := by
    simp only [Instr.wf, Bool.and_eq_true, Bool.or_eq_true, beq_iff_eq] at hw
    first | exact hw.2 | exact hw.1.2 | exact hw.2.1 | exact hw.1.1.2 | simp_all
  rcases s with s | s
  · exact ⟨.C0, decodeSyl_slotWord _ _ h _ _ s hw d⟩
  · exact ⟨.C1, decodeSyl_slotWord _ _ h _ _ s hw d⟩

theorem cFstop (h : Hdr) (f : OpCFV) : Statement (.cFstop h f) := by
  intro hw
  refine ⟨fun w e => ?_, fun w e => nomatch e⟩
  injection e with e
  subst e
  have d : decodeC (25#7).toNat h f.enc = some (.cFstop h f) := by
    show (OpCFV.dec f.enc).map (Instr.cFstop h) = _
    rw [OpCFV.dec_enc]
    rfl
  have s : h.slot = .C0 := by
    simp only [Instr.wf, Bool.and_eq_true, Bool.or_eq_true, beq_iff_eq] at hw
    first | exact hw.2 | exact hw.1.2 | exact hw.2.1 | exact hw.1.1.2 | simp_all
  exact ⟨.C0, decodeSyl_slotWord _ _ h _ _ s hw d⟩

theorem cFwait (h : Hdr) (f : OpCFV) : Statement (.cFwait h f) := by
  intro hw
  refine ⟨fun w e => ?_, fun w e => nomatch e⟩
  injection e with e
  subst e
  have d : decodeC (26#7).toNat h f.enc = some (.cFwait h f) := by
    show (OpCFV.dec f.enc).map (Instr.cFwait h) = _
    rw [OpCFV.dec_enc]
    rfl
  have s : h.slot = .C0 := by
    simp only [Instr.wf, Bool.and_eq_true, Bool.or_eq_true, beq_iff_eq] at hw
    first | exact hw.2 | exact hw.1.2 | exact hw.2.1 | exact hw.1.1.2 | simp_all
  exact ⟨.C0, decodeSyl_slotWord _ _ h _ _ s hw d⟩

theorem cFstat (h : Hdr) (f : OpCFS) : Statement (.cFstat h f) := by
  intro hw
  refine ⟨fun w e => ?_, fun w e => nomatch e⟩
  injection e with e
  subst e
  have d : decodeC (27#7).toNat h f.enc = some (.cFstat h f) := by
    show (OpCFS.dec f.enc).map (Instr.cFstat h) = _
    rw [OpCFS.dec_enc]
    rfl
  have s : h.slot = .C0 := by
    simp only [Instr.wf, Bool.and_eq_true, Bool.or_eq_true, beq_iff_eq] at hw
    first | exact hw.2 | exact hw.1.2 | exact hw.2.1 | exact hw.1.1.2 | simp_all
  exact ⟨.C0, decodeSyl_slotWord _ _ h _ _ s hw d⟩

theorem c1Rfill (h : Hdr) (f : OpCR) : Statement (.c1Rfill h f) := by
  intro hw
  refine ⟨fun w e => ?_, fun w e => nomatch e⟩
  injection e with e
  subst e
  have d : decodeC (28#7).toNat h f.enc = some (.c1Rfill h f) := by
    show (OpCR.dec f.enc).map (Instr.c1Rfill h) = _
    rw [OpCR.dec_enc]
    rfl
  have s : h.slot = .C1 := by
    simp only [Instr.wf, Bool.and_eq_true, Bool.or_eq_true, beq_iff_eq] at hw
    first | exact hw.2 | exact hw.1.2 | exact hw.2.1 | exact hw.1.1.2 | simp_all
  exact ⟨.C1, decodeSyl_slotWord _ _ h _ _ s hw d⟩

theorem c1Rspill (h : Hdr) (f : OpCR) : Statement (.c1Rspill h f) := by
  intro hw
  refine ⟨fun w e => ?_, fun w e => nomatch e⟩
  injection e with e
  subst e
  have d : decodeC (29#7).toNat h f.enc = some (.c1Rspill h f) := by
    show (OpCR.dec f.enc).map (Instr.c1Rspill h) = _
    rw [OpCR.dec_enc]
    rfl
  have s : h.slot = .C1 := by
    simp only [Instr.wf, Bool.and_eq_true, Bool.or_eq_true, beq_iff_eq] at hw
    first | exact hw.2 | exact hw.1.2 | exact hw.2.1 | exact hw.1.1.2 | simp_all
  exact ⟨.C1, decodeSyl_slotWord _ _ h _ _ s hw d⟩

theorem c1Gath (h : Hdr) (f : OpCGL) : Statement (.c1Gath h f) := by
  intro hw
  refine ⟨fun w e => ?_, fun w e => nomatch e⟩
  injection e with e
  subst e
  have d : decodeC (30#7).toNat h f.enc = some (.c1Gath h f) := by
    show (OpCGL.dec f.enc).map (Instr.c1Gath h) = _
    rw [OpCGL.dec_enc]
    rfl
  have s : h.slot = .C1 := by
    simp only [Instr.wf, Bool.and_eq_true, Bool.or_eq_true, beq_iff_eq] at hw
    first | exact hw.2 | exact hw.1.2 | exact hw.2.1 | exact hw.1.1.2 | simp_all
  exact ⟨.C1, decodeSyl_slotWord _ _ h _ _ s hw d⟩

theorem c1Scat (h : Hdr) (f : OpCGS) : Statement (.c1Scat h f) := by
  intro hw
  refine ⟨fun w e => ?_, fun w e => nomatch e⟩
  injection e with e
  subst e
  have d : decodeC (31#7).toNat h f.enc = some (.c1Scat h f) := by
    show (OpCGS.dec f.enc).map (Instr.c1Scat h) = _
    rw [OpCGS.dec_enc]
    rfl
  have s : h.slot = .C1 := by
    simp only [Instr.wf, Bool.and_eq_true, Bool.or_eq_true, beq_iff_eq] at hw
    first | exact hw.2 | exact hw.1.2 | exact hw.2.1 | exact hw.1.1.2 | simp_all
  exact ⟨.C1, decodeSyl_slotWord _ _ h _ _ s hw d⟩

theorem c1AaddI32 (h : Hdr) (f : OpCAR) : Statement (.c1AaddI32 h f) := by
  intro hw
  refine ⟨fun w e => ?_, fun w e => nomatch e⟩
  injection e with e
  subst e
  have d : decodeC (32#7).toNat h f.enc = some (.c1AaddI32 h f) := by
    show (OpCAR.dec f.enc).map (Instr.c1AaddI32 h) = _
    rw [OpCAR.dec_enc]
    rfl
  have s : h.slot = .C1 := by
    simp only [Instr.wf, Bool.and_eq_true, Bool.or_eq_true, beq_iff_eq] at hw
    first | exact hw.2 | exact hw.1.2 | exact hw.2.1 | exact hw.1.1.2 | simp_all
  exact ⟨.C1, decodeSyl_slotWord _ _ h _ _ s hw d⟩

theorem c1AaddI64 (h : Hdr) (f : OpCAR) : Statement (.c1AaddI64 h f) := by
  intro hw
  refine ⟨fun w e => ?_, fun w e => nomatch e⟩
  injection e with e
  subst e
  have d : decodeC (33#7).toNat h f.enc = some (.c1AaddI64 h f) := by
    show (OpCAR.dec f.enc).map (Instr.c1AaddI64 h) = _
    rw [OpCAR.dec_enc]
    rfl
  have s : h.slot = .C1 := by
    simp only [Instr.wf, Bool.and_eq_true, Bool.or_eq_true, beq_iff_eq] at hw
    first | exact hw.2 | exact hw.1.2 | exact hw.2.1 | exact hw.1.1.2 | simp_all
  exact ⟨.C1, decodeSyl_slotWord _ _ h _ _ s hw d⟩

theorem c1AaddI32Nr (h : Hdr) (f : OpCAN) : Statement (.c1AaddI32Nr h f) := by
  intro hw
  refine ⟨fun w e => ?_, fun w e => nomatch e⟩
  injection e with e
  subst e
  have d : decodeC (34#7).toNat h f.enc = some (.c1AaddI32Nr h f) := by
    show (OpCAN.dec f.enc).map (Instr.c1AaddI32Nr h) = _
    rw [OpCAN.dec_enc]
    rfl
  have s : h.slot = .C1 := by
    simp only [Instr.wf, Bool.and_eq_true, Bool.or_eq_true, beq_iff_eq] at hw
    first | exact hw.2 | exact hw.1.2 | exact hw.2.1 | exact hw.1.1.2 | simp_all
  exact ⟨.C1, decodeSyl_slotWord _ _ h _ _ s hw d⟩

theorem c1AaddI64Nr (h : Hdr) (f : OpCAN) : Statement (.c1AaddI64Nr h f) := by
  intro hw
  refine ⟨fun w e => ?_, fun w e => nomatch e⟩
  injection e with e
  subst e
  have d : decodeC (35#7).toNat h f.enc = some (.c1AaddI64Nr h f) := by
    show (OpCAN.dec f.enc).map (Instr.c1AaddI64Nr h) = _
    rw [OpCAN.dec_enc]
    rfl
  have s : h.slot = .C1 := by
    simp only [Instr.wf, Bool.and_eq_true, Bool.or_eq_true, beq_iff_eq] at hw
    first | exact hw.2 | exact hw.1.2 | exact hw.2.1 | exact hw.1.1.2 | simp_all
  exact ⟨.C1, decodeSyl_slotWord _ _ h _ _ s hw d⟩

theorem c1AminI32 (h : Hdr) (f : OpCAR) : Statement (.c1AminI32 h f) := by
  intro hw
  refine ⟨fun w e => ?_, fun w e => nomatch e⟩
  injection e with e
  subst e
  have d : decodeC (36#7).toNat h f.enc = some (.c1AminI32 h f) := by
    show (OpCAR.dec f.enc).map (Instr.c1AminI32 h) = _
    rw [OpCAR.dec_enc]
    rfl
  have s : h.slot = .C1 := by
    simp only [Instr.wf, Bool.and_eq_true, Bool.or_eq_true, beq_iff_eq] at hw
    first | exact hw.2 | exact hw.1.2 | exact hw.2.1 | exact hw.1.1.2 | simp_all
  exact ⟨.C1, decodeSyl_slotWord _ _ h _ _ s hw d⟩

theorem c1AminI64 (h : Hdr) (f : OpCAR) : Statement (.c1AminI64 h f) := by
  intro hw
  refine ⟨fun w e => ?_, fun w e => nomatch e⟩
  injection e with e
  subst e
  have d : decodeC (37#7).toNat h f.enc = some (.c1AminI64 h f) := by
    show (OpCAR.dec f.enc).map (Instr.c1AminI64 h) = _
    rw [OpCAR.dec_enc]
    rfl
  have s : h.slot = .C1 := by
    simp only [Instr.wf, Bool.and_eq_true, Bool.or_eq_true, beq_iff_eq] at hw
    first | exact hw.2 | exact hw.1.2 | exact hw.2.1 | exact hw.1.1.2 | simp_all
  exact ⟨.C1, decodeSyl_slotWord _ _ h _ _ s hw d⟩

theorem c1AminI32Nr (h : Hdr) (f : OpCAN) : Statement (.c1AminI32Nr h f) := by
  intro hw
  refine ⟨fun w e => ?_, fun w e => nomatch e⟩
  injection e with e
  subst e
  have d : decodeC (38#7).toNat h f.enc = some (.c1AminI32Nr h f) := by
    show (OpCAN.dec f.enc).map (Instr.c1AminI32Nr h) = _
    rw [OpCAN.dec_enc]
    rfl
  have s : h.slot = .C1 := by
    simp only [Instr.wf, Bool.and_eq_true, Bool.or_eq_true, beq_iff_eq] at hw
    first | exact hw.2 | exact hw.1.2 | exact hw.2.1 | exact hw.1.1.2 | simp_all
  exact ⟨.C1, decodeSyl_slotWord _ _ h _ _ s hw d⟩

theorem c1AminI64Nr (h : Hdr) (f : OpCAN) : Statement (.c1AminI64Nr h f) := by
  intro hw
  refine ⟨fun w e => ?_, fun w e => nomatch e⟩
  injection e with e
  subst e
  have d : decodeC (39#7).toNat h f.enc = some (.c1AminI64Nr h f) := by
    show (OpCAN.dec f.enc).map (Instr.c1AminI64Nr h) = _
    rw [OpCAN.dec_enc]
    rfl
  have s : h.slot = .C1 := by
    simp only [Instr.wf, Bool.and_eq_true, Bool.or_eq_true, beq_iff_eq] at hw
    first | exact hw.2 | exact hw.1.2 | exact hw.2.1 | exact hw.1.1.2 | simp_all
  exact ⟨.C1, decodeSyl_slotWord _ _ h _ _ s hw d⟩

theorem c1AmaxI32 (h : Hdr) (f : OpCAR) : Statement (.c1AmaxI32 h f) := by
  intro hw
  refine ⟨fun w e => ?_, fun w e => nomatch e⟩
  injection e with e
  subst e
  have d : decodeC (40#7).toNat h f.enc = some (.c1AmaxI32 h f) := by
    show (OpCAR.dec f.enc).map (Instr.c1AmaxI32 h) = _
    rw [OpCAR.dec_enc]
    rfl
  have s : h.slot = .C1 := by
    simp only [Instr.wf, Bool.and_eq_true, Bool.or_eq_true, beq_iff_eq] at hw
    first | exact hw.2 | exact hw.1.2 | exact hw.2.1 | exact hw.1.1.2 | simp_all
  exact ⟨.C1, decodeSyl_slotWord _ _ h _ _ s hw d⟩

theorem c1AmaxI64 (h : Hdr) (f : OpCAR) : Statement (.c1AmaxI64 h f) := by
  intro hw
  refine ⟨fun w e => ?_, fun w e => nomatch e⟩
  injection e with e
  subst e
  have d : decodeC (41#7).toNat h f.enc = some (.c1AmaxI64 h f) := by
    show (OpCAR.dec f.enc).map (Instr.c1AmaxI64 h) = _
    rw [OpCAR.dec_enc]
    rfl
  have s : h.slot = .C1 := by
    simp only [Instr.wf, Bool.and_eq_true, Bool.or_eq_true, beq_iff_eq] at hw
    first | exact hw.2 | exact hw.1.2 | exact hw.2.1 | exact hw.1.1.2 | simp_all
  exact ⟨.C1, decodeSyl_slotWord _ _ h _ _ s hw d⟩

theorem c1AmaxI32Nr (h : Hdr) (f : OpCAN) : Statement (.c1AmaxI32Nr h f) := by
  intro hw
  refine ⟨fun w e => ?_, fun w e => nomatch e⟩
  injection e with e
  subst e
  have d : decodeC (42#7).toNat h f.enc = some (.c1AmaxI32Nr h f) := by
    show (OpCAN.dec f.enc).map (Instr.c1AmaxI32Nr h) = _
    rw [OpCAN.dec_enc]
    rfl
  have s : h.slot = .C1 := by
    simp only [Instr.wf, Bool.and_eq_true, Bool.or_eq_true, beq_iff_eq] at hw
    first | exact hw.2 | exact hw.1.2 | exact hw.2.1 | exact hw.1.1.2 | simp_all
  exact ⟨.C1, decodeSyl_slotWord _ _ h _ _ s hw d⟩

theorem c1AmaxI64Nr (h : Hdr) (f : OpCAN) : Statement (.c1AmaxI64Nr h f) := by
  intro hw
  refine ⟨fun w e => ?_, fun w e => nomatch e⟩
  injection e with e
  subst e
  have d : decodeC (43#7).toNat h f.enc = some (.c1AmaxI64Nr h f) := by
    show (OpCAN.dec f.enc).map (Instr.c1AmaxI64Nr h) = _
    rw [OpCAN.dec_enc]
    rfl
  have s : h.slot = .C1 := by
    simp only [Instr.wf, Bool.and_eq_true, Bool.or_eq_true, beq_iff_eq] at hw
    first | exact hw.2 | exact hw.1.2 | exact hw.2.1 | exact hw.1.1.2 | simp_all
  exact ⟨.C1, decodeSyl_slotWord _ _ h _ _ s hw d⟩

theorem c1AandI32 (h : Hdr) (f : OpCAR) : Statement (.c1AandI32 h f) := by
  intro hw
  refine ⟨fun w e => ?_, fun w e => nomatch e⟩
  injection e with e
  subst e
  have d : decodeC (44#7).toNat h f.enc = some (.c1AandI32 h f) := by
    show (OpCAR.dec f.enc).map (Instr.c1AandI32 h) = _
    rw [OpCAR.dec_enc]
    rfl
  have s : h.slot = .C1 := by
    simp only [Instr.wf, Bool.and_eq_true, Bool.or_eq_true, beq_iff_eq] at hw
    first | exact hw.2 | exact hw.1.2 | exact hw.2.1 | exact hw.1.1.2 | simp_all
  exact ⟨.C1, decodeSyl_slotWord _ _ h _ _ s hw d⟩

theorem c1AandI64 (h : Hdr) (f : OpCAR) : Statement (.c1AandI64 h f) := by
  intro hw
  refine ⟨fun w e => ?_, fun w e => nomatch e⟩
  injection e with e
  subst e
  have d : decodeC (45#7).toNat h f.enc = some (.c1AandI64 h f) := by
    show (OpCAR.dec f.enc).map (Instr.c1AandI64 h) = _
    rw [OpCAR.dec_enc]
    rfl
  have s : h.slot = .C1 := by
    simp only [Instr.wf, Bool.and_eq_true, Bool.or_eq_true, beq_iff_eq] at hw
    first | exact hw.2 | exact hw.1.2 | exact hw.2.1 | exact hw.1.1.2 | simp_all
  exact ⟨.C1, decodeSyl_slotWord _ _ h _ _ s hw d⟩

theorem c1AandI32Nr (h : Hdr) (f : OpCAN) : Statement (.c1AandI32Nr h f) := by
  intro hw
  refine ⟨fun w e => ?_, fun w e => nomatch e⟩
  injection e with e
  subst e
  have d : decodeC (46#7).toNat h f.enc = some (.c1AandI32Nr h f) := by
    show (OpCAN.dec f.enc).map (Instr.c1AandI32Nr h) = _
    rw [OpCAN.dec_enc]
    rfl
  have s : h.slot = .C1 := by
    simp only [Instr.wf, Bool.and_eq_true, Bool.or_eq_true, beq_iff_eq] at hw
    first | exact hw.2 | exact hw.1.2 | exact hw.2.1 | exact hw.1.1.2 | simp_all
  exact ⟨.C1, decodeSyl_slotWord _ _ h _ _ s hw d⟩

theorem c1AandI64Nr (h : Hdr) (f : OpCAN) : Statement (.c1AandI64Nr h f) := by
  intro hw
  refine ⟨fun w e => ?_, fun w e => nomatch e⟩
  injection e with e
  subst e
  have d : decodeC (47#7).toNat h f.enc = some (.c1AandI64Nr h f) := by
    show (OpCAN.dec f.enc).map (Instr.c1AandI64Nr h) = _
    rw [OpCAN.dec_enc]
    rfl
  have s : h.slot = .C1 := by
    simp only [Instr.wf, Bool.and_eq_true, Bool.or_eq_true, beq_iff_eq] at hw
    first | exact hw.2 | exact hw.1.2 | exact hw.2.1 | exact hw.1.1.2 | simp_all
  exact ⟨.C1, decodeSyl_slotWord _ _ h _ _ s hw d⟩

theorem c1AorI32 (h : Hdr) (f : OpCAR) : Statement (.c1AorI32 h f) := by
  intro hw
  refine ⟨fun w e => ?_, fun w e => nomatch e⟩
  injection e with e
  subst e
  have d : decodeC (48#7).toNat h f.enc = some (.c1AorI32 h f) := by
    show (OpCAR.dec f.enc).map (Instr.c1AorI32 h) = _
    rw [OpCAR.dec_enc]
    rfl
  have s : h.slot = .C1 := by
    simp only [Instr.wf, Bool.and_eq_true, Bool.or_eq_true, beq_iff_eq] at hw
    first | exact hw.2 | exact hw.1.2 | exact hw.2.1 | exact hw.1.1.2 | simp_all
  exact ⟨.C1, decodeSyl_slotWord _ _ h _ _ s hw d⟩

theorem c1AorI64 (h : Hdr) (f : OpCAR) : Statement (.c1AorI64 h f) := by
  intro hw
  refine ⟨fun w e => ?_, fun w e => nomatch e⟩
  injection e with e
  subst e
  have d : decodeC (49#7).toNat h f.enc = some (.c1AorI64 h f) := by
    show (OpCAR.dec f.enc).map (Instr.c1AorI64 h) = _
    rw [OpCAR.dec_enc]
    rfl
  have s : h.slot = .C1 := by
    simp only [Instr.wf, Bool.and_eq_true, Bool.or_eq_true, beq_iff_eq] at hw
    first | exact hw.2 | exact hw.1.2 | exact hw.2.1 | exact hw.1.1.2 | simp_all
  exact ⟨.C1, decodeSyl_slotWord _ _ h _ _ s hw d⟩

theorem c1AorI32Nr (h : Hdr) (f : OpCAN) : Statement (.c1AorI32Nr h f) := by
  intro hw
  refine ⟨fun w e => ?_, fun w e => nomatch e⟩
  injection e with e
  subst e
  have d : decodeC (50#7).toNat h f.enc = some (.c1AorI32Nr h f) := by
    show (OpCAN.dec f.enc).map (Instr.c1AorI32Nr h) = _
    rw [OpCAN.dec_enc]
    rfl
  have s : h.slot = .C1 := by
    simp only [Instr.wf, Bool.and_eq_true, Bool.or_eq_true, beq_iff_eq] at hw
    first | exact hw.2 | exact hw.1.2 | exact hw.2.1 | exact hw.1.1.2 | simp_all
  exact ⟨.C1, decodeSyl_slotWord _ _ h _ _ s hw d⟩

theorem c1AorI64Nr (h : Hdr) (f : OpCAN) : Statement (.c1AorI64Nr h f) := by
  intro hw
  refine ⟨fun w e => ?_, fun w e => nomatch e⟩
  injection e with e
  subst e
  have d : decodeC (51#7).toNat h f.enc = some (.c1AorI64Nr h f) := by
    show (OpCAN.dec f.enc).map (Instr.c1AorI64Nr h) = _
    rw [OpCAN.dec_enc]
    rfl
  have s : h.slot = .C1 := by
    simp only [Instr.wf, Bool.and_eq_true, Bool.or_eq_true, beq_iff_eq] at hw
    first | exact hw.2 | exact hw.1.2 | exact hw.2.1 | exact hw.1.1.2 | simp_all
  exact ⟨.C1, decodeSyl_slotWord _ _ h _ _ s hw d⟩

theorem c1AxorI32 (h : Hdr) (f : OpCAR) : Statement (.c1AxorI32 h f) := by
  intro hw
  refine ⟨fun w e => ?_, fun w e => nomatch e⟩
  injection e with e
  subst e
  have d : decodeC (52#7).toNat h f.enc = some (.c1AxorI32 h f) := by
    show (OpCAR.dec f.enc).map (Instr.c1AxorI32 h) = _
    rw [OpCAR.dec_enc]
    rfl
  have s : h.slot = .C1 := by
    simp only [Instr.wf, Bool.and_eq_true, Bool.or_eq_true, beq_iff_eq] at hw
    first | exact hw.2 | exact hw.1.2 | exact hw.2.1 | exact hw.1.1.2 | simp_all
  exact ⟨.C1, decodeSyl_slotWord _ _ h _ _ s hw d⟩

theorem c1AxorI64 (h : Hdr) (f : OpCAR) : Statement (.c1AxorI64 h f) := by
  intro hw
  refine ⟨fun w e => ?_, fun w e => nomatch e⟩
  injection e with e
  subst e
  have d : decodeC (53#7).toNat h f.enc = some (.c1AxorI64 h f) := by
    show (OpCAR.dec f.enc).map (Instr.c1AxorI64 h) = _
    rw [OpCAR.dec_enc]
    rfl
  have s : h.slot = .C1 := by
    simp only [Instr.wf, Bool.and_eq_true, Bool.or_eq_true, beq_iff_eq] at hw
    first | exact hw.2 | exact hw.1.2 | exact hw.2.1 | exact hw.1.1.2 | simp_all
  exact ⟨.C1, decodeSyl_slotWord _ _ h _ _ s hw d⟩

theorem c1AxorI32Nr (h : Hdr) (f : OpCAN) : Statement (.c1AxorI32Nr h f) := by
  intro hw
  refine ⟨fun w e => ?_, fun w e => nomatch e⟩
  injection e with e
  subst e
  have d : decodeC (54#7).toNat h f.enc = some (.c1AxorI32Nr h f) := by
    show (OpCAN.dec f.enc).map (Instr.c1AxorI32Nr h) = _
    rw [OpCAN.dec_enc]
    rfl
  have s : h.slot = .C1 := by
    simp only [Instr.wf, Bool.and_eq_true, Bool.or_eq_true, beq_iff_eq] at hw
    first | exact hw.2 | exact hw.1.2 | exact hw.2.1 | exact hw.1.1.2 | simp_all
  exact ⟨.C1, decodeSyl_slotWord _ _ h _ _ s hw d⟩

theorem c1AxorI64Nr (h : Hdr) (f : OpCAN) : Statement (.c1AxorI64Nr h f) := by
  intro hw
  refine ⟨fun w e => ?_, fun w e => nomatch e⟩
  injection e with e
  subst e
  have d : decodeC (55#7).toNat h f.enc = some (.c1AxorI64Nr h f) := by
    show (OpCAN.dec f.enc).map (Instr.c1AxorI64Nr h) = _
    rw [OpCAN.dec_enc]
    rfl
  have s : h.slot = .C1 := by
    simp only [Instr.wf, Bool.and_eq_true, Bool.or_eq_true, beq_iff_eq] at hw
    first | exact hw.2 | exact hw.1.2 | exact hw.2.1 | exact hw.1.1.2 | simp_all
  exact ⟨.C1, decodeSyl_slotWord _ _ h _ _ s hw d⟩

theorem c1AswpI32 (h : Hdr) (f : OpCAR) : Statement (.c1AswpI32 h f) := by
  intro hw
  refine ⟨fun w e => ?_, fun w e => nomatch e⟩
  injection e with e
  subst e
  have d : decodeC (56#7).toNat h f.enc = some (.c1AswpI32 h f) := by
    show (OpCAR.dec f.enc).map (Instr.c1AswpI32 h) = _
    rw [OpCAR.dec_enc]
    rfl
  have s : h.slot = .C1 := by
    simp only [Instr.wf, Bool.and_eq_true, Bool.or_eq_true, beq_iff_eq] at hw
    first | exact hw.2 | exact hw.1.2 | exact hw.2.1 | exact hw.1.1.2 | simp_all
  exact ⟨.C1, decodeSyl_slotWord _ _ h _ _ s hw d⟩

theorem c1AswpI64 (h : Hdr) (f : OpCAR) : Statement (.c1AswpI64 h f) := by
  intro hw
  refine ⟨fun w e => ?_, fun w e => nomatch e⟩
  injection e with e
  subst e
  have d : decodeC (57#7).toNat h f.enc = some (.c1AswpI64 h f) := by
    show (OpCAR.dec f.enc).map (Instr.c1AswpI64 h) = _
    rw [OpCAR.dec_enc]
    rfl
  have s : h.slot = .C1 := by
    simp only [Instr.wf, Bool.and_eq_true, Bool.or_eq_true, beq_iff_eq] at hw
    first | exact hw.2 | exact hw.1.2 | exact hw.2.1 | exact hw.1.1.2 | simp_all
  exact ⟨.C1, decodeSyl_slotWord _ _ h _ _ s hw d⟩

theorem c1AswpI32Nr (h : Hdr) (f : OpCAN) : Statement (.c1AswpI32Nr h f) := by
  intro hw
  refine ⟨fun w e => ?_, fun w e => nomatch e⟩
  injection e with e
  subst e
  have d : decodeC (58#7).toNat h f.enc = some (.c1AswpI32Nr h f) := by
    show (OpCAN.dec f.enc).map (Instr.c1AswpI32Nr h) = _
    rw [OpCAN.dec_enc]
    rfl
  have s : h.slot = .C1 := by
    simp only [Instr.wf, Bool.and_eq_true, Bool.or_eq_true, beq_iff_eq] at hw
    first | exact hw.2 | exact hw.1.2 | exact hw.2.1 | exact hw.1.1.2 | simp_all
  exact ⟨.C1, decodeSyl_slotWord _ _ h _ _ s hw d⟩

theorem c1AswpI64Nr (h : Hdr) (f : OpCAN) : Statement (.c1AswpI64Nr h f) := by
  intro hw
  refine ⟨fun w e => ?_, fun w e => nomatch e⟩
  injection e with e
  subst e
  have d : decodeC (59#7).toNat h f.enc = some (.c1AswpI64Nr h f) := by
    show (OpCAN.dec f.enc).map (Instr.c1AswpI64Nr h) = _
    rw [OpCAN.dec_enc]
    rfl
  have s : h.slot = .C1 := by
    simp only [Instr.wf, Bool.and_eq_true, Bool.or_eq_true, beq_iff_eq] at hw
    first | exact hw.2 | exact hw.1.2 | exact hw.2.1 | exact hw.1.1.2 | simp_all
  exact ⟨.C1, decodeSyl_slotWord _ _ h _ _ s hw d⟩

theorem c1AcasI32 (h : Hdr) (f : OpCACR) : Statement (.c1AcasI32 h f) := by
  intro hw
  refine ⟨fun w e => ?_, fun w e => nomatch e⟩
  injection e with e
  subst e
  have d : decodeC (60#7).toNat h f.enc = some (.c1AcasI32 h f) := by
    show (OpCACR.dec f.enc).map (Instr.c1AcasI32 h) = _
    rw [OpCACR.dec_enc]
    rfl
  have s : h.slot = .C1 := by
    simp only [Instr.wf, Bool.and_eq_true, Bool.or_eq_true, beq_iff_eq] at hw
    first | exact hw.2 | exact hw.1.2 | exact hw.2.1 | exact hw.1.1.2 | simp_all
  exact ⟨.C1, decodeSyl_slotWord _ _ h _ _ s hw d⟩

theorem c1AcasI64 (h : Hdr) (f : OpCACR) : Statement (.c1AcasI64 h f) := by
  intro hw
  refine ⟨fun w e => ?_, fun w e => nomatch e⟩
  injection e with e
  subst e
  have d : decodeC (61#7).toNat h f.enc = some (.c1AcasI64 h f) := by
    show (OpCACR.dec f.enc).map (Instr.c1AcasI64 h) = _
    rw [OpCACR.dec_enc]
    rfl
  have s : h.slot = .C1 := by
    simp only [Instr.wf, Bool.and_eq_true, Bool.or_eq_true, beq_iff_eq] at hw
    first | exact hw.2 | exact hw.1.2 | exact hw.2.1 | exact hw.1.1.2 | simp_all
  exact ⟨.C1, decodeSyl_slotWord _ _ h _ _ s hw d⟩

theorem c1AcasI32Nr (h : Hdr) (f : OpCACN) : Statement (.c1AcasI32Nr h f) := by
  intro hw
  refine ⟨fun w e => ?_, fun w e => nomatch e⟩
  injection e with e
  subst e
  have d : decodeC (62#7).toNat h f.enc = some (.c1AcasI32Nr h f) := by
    show (OpCACN.dec f.enc).map (Instr.c1AcasI32Nr h) = _
    rw [OpCACN.dec_enc]
    rfl
  have s : h.slot = .C1 := by
    simp only [Instr.wf, Bool.and_eq_true, Bool.or_eq_true, beq_iff_eq] at hw
    first | exact hw.2 | exact hw.1.2 | exact hw.2.1 | exact hw.1.1.2 | simp_all
  exact ⟨.C1, decodeSyl_slotWord _ _ h _ _ s hw d⟩

theorem c1AcasI64Nr (h : Hdr) (f : OpCACN) : Statement (.c1AcasI64Nr h f) := by
  intro hw
  refine ⟨fun w e => ?_, fun w e => nomatch e⟩
  injection e with e
  subst e
  have d : decodeC (63#7).toNat h f.enc = some (.c1AcasI64Nr h f) := by
    show (OpCACN.dec f.enc).map (Instr.c1AcasI64Nr h) = _
    rw [OpCACN.dec_enc]
    rfl
  have s : h.slot = .C1 := by
    simp only [Instr.wf, Bool.and_eq_true, Bool.or_eq_true, beq_iff_eq] at hw
    first | exact hw.2 | exact hw.1.2 | exact hw.2.1 | exact hw.1.1.2 | simp_all
  exact ⟨.C1, decodeSyl_slotWord _ _ h _ _ s hw d⟩

theorem cFenceRel (h : Hdr) (f : OpFN) : Statement (.cFenceRel h f) := by
  intro hw
  refine ⟨fun w e => ?_, fun w e => nomatch e⟩
  injection e with e
  subst e
  have d : decodeC (64#7).toNat h (OpFN.enc 1#2 f) = some (.cFenceRel h f) := by
    show (if bitsAt (OpFN.enc 1#2 f) 38 2 == 1#2 then (OpFN.dec 1#2 (OpFN.enc 1#2 f)).map (Instr.cFenceRel h) else if bitsAt (OpFN.enc 1#2 f) 38 2 == 2#2 then (OpFN.dec 2#2 (OpFN.enc 1#2 f)).map (Instr.cFenceAcq h) else if bitsAt (OpFN.enc 1#2 f) 38 2 == 3#2 then (OpFN.dec 3#2 (OpFN.enc 1#2 f)).map (Instr.cFenceFull h) else none) = _
    have x : OpFN.dec 1#2 (OpFN.enc 1#2 f) = some f := OpFN.dec_enc 1#2 f
    rw [x]
    have y : bitsAt (OpFN.enc 1#2 f) 38 2 = 1#2 := by
      simp (disch := omega) only [OpFN.enc, bitsAt_setWidth, bitsAt_append_high, bitsAt_append_low, bitsAt_all, -Nat.reduceAdd,
        -Nat.reduceSub]
      try simp [bitsAt_all]
    rw [y]
    rfl
  have s : h.slot = .C0 ∨ h.slot = .C1 := by
    simp only [Instr.wf, Bool.and_eq_true, Bool.or_eq_true, beq_iff_eq] at hw
    first | exact hw.2 | exact hw.1.2 | exact hw.2.1 | exact hw.1.1.2 | simp_all
  rcases s with s | s
  · exact ⟨.C0, decodeSyl_slotWord _ _ h _ _ s hw d⟩
  · exact ⟨.C1, decodeSyl_slotWord _ _ h _ _ s hw d⟩

theorem cFenceAcq (h : Hdr) (f : OpFN) : Statement (.cFenceAcq h f) := by
  intro hw
  refine ⟨fun w e => ?_, fun w e => nomatch e⟩
  injection e with e
  subst e
  have d : decodeC (64#7).toNat h (OpFN.enc 2#2 f) = some (.cFenceAcq h f) := by
    show (if bitsAt (OpFN.enc 2#2 f) 38 2 == 1#2 then (OpFN.dec 1#2 (OpFN.enc 2#2 f)).map (Instr.cFenceRel h) else if bitsAt (OpFN.enc 2#2 f) 38 2 == 2#2 then (OpFN.dec 2#2 (OpFN.enc 2#2 f)).map (Instr.cFenceAcq h) else if bitsAt (OpFN.enc 2#2 f) 38 2 == 3#2 then (OpFN.dec 3#2 (OpFN.enc 2#2 f)).map (Instr.cFenceFull h) else none) = _
    have x : OpFN.dec 2#2 (OpFN.enc 2#2 f) = some f := OpFN.dec_enc 2#2 f
    rw [x]
    have y : bitsAt (OpFN.enc 2#2 f) 38 2 = 2#2 := by
      simp (disch := omega) only [OpFN.enc, bitsAt_setWidth, bitsAt_append_high, bitsAt_append_low, bitsAt_all, -Nat.reduceAdd,
        -Nat.reduceSub]
      try simp [bitsAt_all]
    rw [y]
    rfl
  have s : h.slot = .C0 ∨ h.slot = .C1 := by
    simp only [Instr.wf, Bool.and_eq_true, Bool.or_eq_true, beq_iff_eq] at hw
    first | exact hw.2 | exact hw.1.2 | exact hw.2.1 | exact hw.1.1.2 | simp_all
  rcases s with s | s
  · exact ⟨.C0, decodeSyl_slotWord _ _ h _ _ s hw d⟩
  · exact ⟨.C1, decodeSyl_slotWord _ _ h _ _ s hw d⟩

theorem cFenceFull (h : Hdr) (f : OpFN) : Statement (.cFenceFull h f) := by
  intro hw
  refine ⟨fun w e => ?_, fun w e => nomatch e⟩
  injection e with e
  subst e
  have d : decodeC (64#7).toNat h (OpFN.enc 3#2 f) = some (.cFenceFull h f) := by
    show (if bitsAt (OpFN.enc 3#2 f) 38 2 == 1#2 then (OpFN.dec 1#2 (OpFN.enc 3#2 f)).map (Instr.cFenceRel h) else if bitsAt (OpFN.enc 3#2 f) 38 2 == 2#2 then (OpFN.dec 2#2 (OpFN.enc 3#2 f)).map (Instr.cFenceAcq h) else if bitsAt (OpFN.enc 3#2 f) 38 2 == 3#2 then (OpFN.dec 3#2 (OpFN.enc 3#2 f)).map (Instr.cFenceFull h) else none) = _
    have x : OpFN.dec 3#2 (OpFN.enc 3#2 f) = some f := OpFN.dec_enc 3#2 f
    rw [x]
    have y : bitsAt (OpFN.enc 3#2 f) 38 2 = 3#2 := by
      simp (disch := omega) only [OpFN.enc, bitsAt_setWidth, bitsAt_append_high, bitsAt_append_low, bitsAt_all, -Nat.reduceAdd,
        -Nat.reduceSub]
      try simp [bitsAt_all]
    rw [y]
    rfl
  have s : h.slot = .C0 ∨ h.slot = .C1 := by
    simp only [Instr.wf, Bool.and_eq_true, Bool.or_eq_true, beq_iff_eq] at hw
    first | exact hw.2 | exact hw.1.2 | exact hw.2.1 | exact hw.1.1.2 | simp_all
  rcases s with s | s
  · exact ⟨.C0, decodeSyl_slotWord _ _ h _ _ s hw d⟩
  · exact ⟨.C1, decodeSyl_slotWord _ _ h _ _ s hw d⟩

theorem cFenceWRel (h : Hdr) (f : OpFN) : Statement (.cFenceWRel h f) := by
  intro hw
  refine ⟨fun w e => ?_, fun w e => nomatch e⟩
  injection e with e
  subst e
  have d : decodeC (65#7).toNat h (OpFN.enc 1#2 f) = some (.cFenceWRel h f) := by
    show (if bitsAt (OpFN.enc 1#2 f) 38 2 == 1#2 then (OpFN.dec 1#2 (OpFN.enc 1#2 f)).map (Instr.cFenceWRel h) else if bitsAt (OpFN.enc 1#2 f) 38 2 == 2#2 then (OpFN.dec 2#2 (OpFN.enc 1#2 f)).map (Instr.cFenceWAcq h) else if bitsAt (OpFN.enc 1#2 f) 38 2 == 3#2 then (OpFN.dec 3#2 (OpFN.enc 1#2 f)).map (Instr.cFenceWFull h) else none) = _
    have x : OpFN.dec 1#2 (OpFN.enc 1#2 f) = some f := OpFN.dec_enc 1#2 f
    rw [x]
    have y : bitsAt (OpFN.enc 1#2 f) 38 2 = 1#2 := by
      simp (disch := omega) only [OpFN.enc, bitsAt_setWidth, bitsAt_append_high, bitsAt_append_low, bitsAt_all, -Nat.reduceAdd,
        -Nat.reduceSub]
      try simp [bitsAt_all]
    rw [y]
    rfl
  have s : h.slot = .C0 ∨ h.slot = .C1 := by
    simp only [Instr.wf, Bool.and_eq_true, Bool.or_eq_true, beq_iff_eq] at hw
    first | exact hw.2 | exact hw.1.2 | exact hw.2.1 | exact hw.1.1.2 | simp_all
  rcases s with s | s
  · exact ⟨.C0, decodeSyl_slotWord _ _ h _ _ s hw d⟩
  · exact ⟨.C1, decodeSyl_slotWord _ _ h _ _ s hw d⟩

theorem cFenceWAcq (h : Hdr) (f : OpFN) : Statement (.cFenceWAcq h f) := by
  intro hw
  refine ⟨fun w e => ?_, fun w e => nomatch e⟩
  injection e with e
  subst e
  have d : decodeC (65#7).toNat h (OpFN.enc 2#2 f) = some (.cFenceWAcq h f) := by
    show (if bitsAt (OpFN.enc 2#2 f) 38 2 == 1#2 then (OpFN.dec 1#2 (OpFN.enc 2#2 f)).map (Instr.cFenceWRel h) else if bitsAt (OpFN.enc 2#2 f) 38 2 == 2#2 then (OpFN.dec 2#2 (OpFN.enc 2#2 f)).map (Instr.cFenceWAcq h) else if bitsAt (OpFN.enc 2#2 f) 38 2 == 3#2 then (OpFN.dec 3#2 (OpFN.enc 2#2 f)).map (Instr.cFenceWFull h) else none) = _
    have x : OpFN.dec 2#2 (OpFN.enc 2#2 f) = some f := OpFN.dec_enc 2#2 f
    rw [x]
    have y : bitsAt (OpFN.enc 2#2 f) 38 2 = 2#2 := by
      simp (disch := omega) only [OpFN.enc, bitsAt_setWidth, bitsAt_append_high, bitsAt_append_low, bitsAt_all, -Nat.reduceAdd,
        -Nat.reduceSub]
      try simp [bitsAt_all]
    rw [y]
    rfl
  have s : h.slot = .C0 ∨ h.slot = .C1 := by
    simp only [Instr.wf, Bool.and_eq_true, Bool.or_eq_true, beq_iff_eq] at hw
    first | exact hw.2 | exact hw.1.2 | exact hw.2.1 | exact hw.1.1.2 | simp_all
  rcases s with s | s
  · exact ⟨.C0, decodeSyl_slotWord _ _ h _ _ s hw d⟩
  · exact ⟨.C1, decodeSyl_slotWord _ _ h _ _ s hw d⟩

theorem cFenceWFull (h : Hdr) (f : OpFN) : Statement (.cFenceWFull h f) := by
  intro hw
  refine ⟨fun w e => ?_, fun w e => nomatch e⟩
  injection e with e
  subst e
  have d : decodeC (65#7).toNat h (OpFN.enc 3#2 f) = some (.cFenceWFull h f) := by
    show (if bitsAt (OpFN.enc 3#2 f) 38 2 == 1#2 then (OpFN.dec 1#2 (OpFN.enc 3#2 f)).map (Instr.cFenceWRel h) else if bitsAt (OpFN.enc 3#2 f) 38 2 == 2#2 then (OpFN.dec 2#2 (OpFN.enc 3#2 f)).map (Instr.cFenceWAcq h) else if bitsAt (OpFN.enc 3#2 f) 38 2 == 3#2 then (OpFN.dec 3#2 (OpFN.enc 3#2 f)).map (Instr.cFenceWFull h) else none) = _
    have x : OpFN.dec 3#2 (OpFN.enc 3#2 f) = some f := OpFN.dec_enc 3#2 f
    rw [x]
    have y : bitsAt (OpFN.enc 3#2 f) 38 2 = 3#2 := by
      simp (disch := omega) only [OpFN.enc, bitsAt_setWidth, bitsAt_append_high, bitsAt_append_low, bitsAt_all, -Nat.reduceAdd,
        -Nat.reduceSub]
      try simp [bitsAt_all]
    rw [y]
    rfl
  have s : h.slot = .C0 ∨ h.slot = .C1 := by
    simp only [Instr.wf, Bool.and_eq_true, Bool.or_eq_true, beq_iff_eq] at hw
    first | exact hw.2 | exact hw.1.2 | exact hw.2.1 | exact hw.1.1.2 | simp_all
  rcases s with s | s
  · exact ⟨.C0, decodeSyl_slotWord _ _ h _ _ s hw d⟩
  · exact ⟨.C1, decodeSyl_slotWord _ _ h _ _ s hw d⟩

theorem c1Qapp (h : Hdr) (f : OpLQ) : Statement (.c1Qapp h f) := by
  intro hw
  refine ⟨fun w e => ?_, fun w e => nomatch e⟩
  injection e with e
  subst e
  have d : decodeC (66#7).toNat h f.enc = some (.c1Qapp h f) := by
    show (OpLQ.dec f.enc).map (Instr.c1Qapp h) = _
    rw [OpLQ.dec_enc]
    rfl
  have s : h.slot = .C1 := by
    simp only [Instr.wf, Bool.and_eq_true, Bool.or_eq_true, beq_iff_eq] at hw
    first | exact hw.2 | exact hw.1.2 | exact hw.2.1 | exact hw.1.1.2 | simp_all
  exact ⟨.C1, decodeSyl_slotWord _ _ h _ _ s hw d⟩

theorem cBarm (h : Hdr) (f : OpLBI) : Statement (.cBarm h f) := by
  intro hw
  refine ⟨fun w e => ?_, fun w e => nomatch e⟩
  injection e with e
  subst e
  have d : decodeC (67#7).toNat h f.enc = some (.cBarm h f) := by
    show (OpLBI.dec f.enc).map (Instr.cBarm h) = _
    rw [OpLBI.dec_enc]
    rfl
  have s : h.slot = .C1 := by
    simp only [Instr.wf, Bool.and_eq_true, Bool.or_eq_true, beq_iff_eq] at hw
    first | exact hw.2 | exact hw.1.2 | exact hw.2.1 | exact hw.1.1.2 | simp_all
  exact ⟨.C1, decodeSyl_slotWord _ _ h _ _ s hw d⟩

theorem cBarmr (h : Hdr) (f : OpLBR) : Statement (.cBarmr h f) := by
  intro hw
  refine ⟨fun w e => ?_, fun w e => nomatch e⟩
  injection e with e
  subst e
  have d : decodeC (68#7).toNat h f.enc = some (.cBarmr h f) := by
    show (OpLBR.dec f.enc).map (Instr.cBarmr h) = _
    rw [OpLBR.dec_enc]
    rfl
  have s : h.slot = .C1 := by
    simp only [Instr.wf, Bool.and_eq_true, Bool.or_eq_true, beq_iff_eq] at hw
    first | exact hw.2 | exact hw.1.2 | exact hw.2.1 | exact hw.1.1.2 | simp_all
  exact ⟨.C1, decodeSyl_slotWord _ _ h _ _ s hw d⟩

theorem cBsig (h : Hdr) (f : OpLBI) : Statement (.cBsig h f) := by
  intro hw
  refine ⟨fun w e => ?_, fun w e => nomatch e⟩
  injection e with e
  subst e
  have d : decodeC (69#7).toNat h f.enc = some (.cBsig h f) := by
    show (OpLBI.dec f.enc).map (Instr.cBsig h) = _
    rw [OpLBI.dec_enc]
    rfl
  have s : h.slot = .C1 := by
    simp only [Instr.wf, Bool.and_eq_true, Bool.or_eq_true, beq_iff_eq] at hw
    first | exact hw.2 | exact hw.1.2 | exact hw.2.1 | exact hw.1.1.2 | simp_all
  exact ⟨.C1, decodeSyl_slotWord _ _ h _ _ s hw d⟩

theorem cBsigr (h : Hdr) (f : OpLBR) : Statement (.cBsigr h f) := by
  intro hw
  refine ⟨fun w e => ?_, fun w e => nomatch e⟩
  injection e with e
  subst e
  have d : decodeC (70#7).toNat h f.enc = some (.cBsigr h f) := by
    show (OpLBR.dec f.enc).map (Instr.cBsigr h) = _
    rw [OpLBR.dec_enc]
    rfl
  have s : h.slot = .C1 := by
    simp only [Instr.wf, Bool.and_eq_true, Bool.or_eq_true, beq_iff_eq] at hw
    first | exact hw.2 | exact hw.1.2 | exact hw.2.1 | exact hw.1.1.2 | simp_all
  exact ⟨.C1, decodeSyl_slotWord _ _ h _ _ s hw d⟩

theorem cBwait (h : Hdr) (f : OpLBW) : Statement (.cBwait h f) := by
  intro hw
  refine ⟨fun w e => ?_, fun w e => nomatch e⟩
  injection e with e
  subst e
  have d : decodeC (71#7).toNat h f.enc = some (.cBwait h f) := by
    show (OpLBW.dec f.enc).map (Instr.cBwait h) = _
    rw [OpLBW.dec_enc]
    rfl
  have s : h.slot = .C1 := by
    simp only [Instr.wf, Bool.and_eq_true, Bool.or_eq_true, beq_iff_eq] at hw
    first | exact hw.2 | exact hw.1.2 | exact hw.2.1 | exact hw.1.1.2 | simp_all
  exact ⟨.C1, decodeSyl_slotWord _ _ h _ _ s hw d⟩

theorem c1Beat (h : Hdr) (f : OpBeat) : Statement (.c1Beat h f) := by
  intro hw
  refine ⟨fun w e => ?_, fun w e => nomatch e⟩
  injection e with e
  subst e
  have d : decodeC (72#7).toNat h (OpBeat.enc 0#1 f) = some (.c1Beat h f) := by
    show (if bitsAt (OpBeat.enc 0#1 f) 42 1 == 0#1 then (OpBeat.dec 0#1 (OpBeat.enc 0#1 f)).map (Instr.c1Beat h) else if bitsAt (OpBeat.enc 0#1 f) 42 1 == 1#1 then (OpBOff.dec 1#1 (OpBeat.enc 0#1 f)).map (Instr.c1BeatOff h) else none) = _
    have x : OpBeat.dec 0#1 (OpBeat.enc 0#1 f) = some f := OpBeat.dec_enc 0#1 f
    rw [x]
    have y : bitsAt (OpBeat.enc 0#1 f) 42 1 = 0#1 := by
      simp (disch := omega) only [OpBeat.enc, bitsAt_setWidth, bitsAt_append_high, bitsAt_append_low, bitsAt_all, -Nat.reduceAdd,
        -Nat.reduceSub]
      try simp [bitsAt_all]
    rw [y]
    rfl
  have s : h.slot = .C1 := by
    simp only [Instr.wf, Bool.and_eq_true, Bool.or_eq_true, beq_iff_eq] at hw
    first | exact hw.2 | exact hw.1.2 | exact hw.2.1 | exact hw.1.1.2 | simp_all
  exact ⟨.C1, decodeSyl_slotWord _ _ h _ _ s hw d⟩

theorem c1BeatOff (h : Hdr) (f : OpBOff) : Statement (.c1BeatOff h f) := by
  intro hw
  refine ⟨fun w e => ?_, fun w e => nomatch e⟩
  injection e with e
  subst e
  have d : decodeC (72#7).toNat h (OpBOff.enc 1#1 f) = some (.c1BeatOff h f) := by
    show (if bitsAt (OpBOff.enc 1#1 f) 42 1 == 0#1 then (OpBeat.dec 0#1 (OpBOff.enc 1#1 f)).map (Instr.c1Beat h) else if bitsAt (OpBOff.enc 1#1 f) 42 1 == 1#1 then (OpBOff.dec 1#1 (OpBOff.enc 1#1 f)).map (Instr.c1BeatOff h) else none) = _
    have x : OpBOff.dec 1#1 (OpBOff.enc 1#1 f) = some f := OpBOff.dec_enc 1#1 f
    rw [x]
    have y : bitsAt (OpBOff.enc 1#1 f) 42 1 = 1#1 := by
      simp (disch := omega) only [OpBOff.enc, bitsAt_setWidth, bitsAt_append_high, bitsAt_append_low, bitsAt_all, -Nat.reduceAdd,
        -Nat.reduceSub]
      try simp [bitsAt_all]
    rw [y]
    rfl
  have s : h.slot = .C1 := by
    simp only [Instr.wf, Bool.and_eq_true, Bool.or_eq_true, beq_iff_eq] at hw
    first | exact hw.2 | exact hw.1.2 | exact hw.2.1 | exact hw.1.1.2 | simp_all
  exact ⟨.C1, decodeSyl_slotWord _ _ h _ _ s hw d⟩

theorem c1Beatr (h : Hdr) (f : OpSA) : Statement (.c1Beatr h f) := by
  intro hw
  refine ⟨fun w e => ?_, fun w e => nomatch e⟩
  injection e with e
  subst e
  have d : decodeC (73#7).toNat h f.enc = some (.c1Beatr h f) := by
    show (OpSA.dec f.enc).map (Instr.c1Beatr h) = _
    rw [OpSA.dec_enc]
    rfl
  have s : h.slot = .C1 := by
    simp only [Instr.wf, Bool.and_eq_true, Bool.or_eq_true, beq_iff_eq] at hw
    first | exact hw.2 | exact hw.1.2 | exact hw.2.1 | exact hw.1.1.2 | simp_all
  exact ⟨.C1, decodeSyl_slotWord _ _ h _ _ s hw d⟩

theorem c1Beatrd (h : Hdr) (f : OpBQ) : Statement (.c1Beatrd h f) := by
  intro hw
  refine ⟨fun w e => ?_, fun w e => nomatch e⟩
  injection e with e
  subst e
  have d : decodeC (74#7).toNat h f.enc = some (.c1Beatrd h f) := by
    show (OpBQ.dec f.enc).map (Instr.c1Beatrd h) = _
    rw [OpBQ.dec_enc]
    rfl
  have s : h.slot = .C1 := by
    simp only [Instr.wf, Bool.and_eq_true, Bool.or_eq_true, beq_iff_eq] at hw
    first | exact hw.2 | exact hw.1.2 | exact hw.2.1 | exact hw.1.1.2 | simp_all
  exact ⟨.C1, decodeSyl_slotWord _ _ h _ _ s hw d⟩

theorem c1Beatw (h : Hdr) (f : OpBW) : Statement (.c1Beatw h f) := by
  intro hw
  refine ⟨fun w e => ?_, fun w e => nomatch e⟩
  injection e with e
  subst e
  have d : decodeC (75#7).toNat h f.enc = some (.c1Beatw h f) := by
    show (OpBW.dec f.enc).map (Instr.c1Beatw h) = _
    rw [OpBW.dec_enc]
    rfl
  have s : h.slot = .C1 := by
    simp only [Instr.wf, Bool.and_eq_true, Bool.or_eq_true, beq_iff_eq] at hw
    first | exact hw.2 | exact hw.1.2 | exact hw.2.1 | exact hw.1.1.2 | simp_all
  exact ⟨.C1, decodeSyl_slotWord _ _ h _ _ s hw d⟩

theorem c1Pst (h : Hdr) (f : OpPST) : Statement (.c1Pst h f) := by
  intro hw
  refine ⟨fun w e => ?_, fun w e => nomatch e⟩
  injection e with e
  subst e
  have d : decodeC (76#7).toNat h f.enc = some (.c1Pst h f) := by
    show (OpPST.dec f.enc).map (Instr.c1Pst h) = _
    rw [OpPST.dec_enc]
    rfl
  have s : h.slot = .C1 := by
    simp only [Instr.wf, Bool.and_eq_true, Bool.or_eq_true, beq_iff_eq] at hw
    first | exact hw.2 | exact hw.1.2 | exact hw.2.1 | exact hw.1.1.2 | simp_all
  exact ⟨.C1, decodeSyl_slotWord _ _ h _ _ s hw d⟩

theorem c1Pstm (h : Hdr) (f : OpPSTM) : Statement (.c1Pstm h f) := by
  intro hw
  refine ⟨fun w e => ?_, fun w e => nomatch e⟩
  injection e with e
  subst e
  have d : decodeC (77#7).toNat h f.enc = some (.c1Pstm h f) := by
    show (OpPSTM.dec f.enc).map (Instr.c1Pstm h) = _
    rw [OpPSTM.dec_enc]
    rfl
  have s : h.slot = .C1 := by
    simp only [Instr.wf, Bool.and_eq_true, Bool.or_eq_true, beq_iff_eq] at hw
    first | exact hw.2 | exact hw.1.2 | exact hw.2.1 | exact hw.1.1.2 | simp_all
  exact ⟨.C1, decodeSyl_slotWord _ _ h _ _ s hw d⟩

theorem c1Pld (h : Hdr) (f : OpPLD) : Statement (.c1Pld h f) := by
  intro hw
  refine ⟨fun w e => ?_, fun w e => nomatch e⟩
  injection e with e
  subst e
  have d : decodeC (78#7).toNat h f.enc = some (.c1Pld h f) := by
    show (OpPLD.dec f.enc).map (Instr.c1Pld h) = _
    rw [OpPLD.dec_enc]
    rfl
  have s : h.slot = .C1 := by
    simp only [Instr.wf, Bool.and_eq_true, Bool.or_eq_true, beq_iff_eq] at hw
    first | exact hw.2 | exact hw.1.2 | exact hw.2.1 | exact hw.1.1.2 | simp_all
  exact ⟨.C1, decodeSyl_slotWord _ _ h _ _ s hw d⟩

theorem c1Bkrun (h : Hdr) (f : OpBK) : Statement (.c1Bkrun h f) := by
  intro hw
  refine ⟨fun w e => ?_, fun w e => nomatch e⟩
  injection e with e
  subst e
  have d : decodeC (79#7).toNat h f.enc = some (.c1Bkrun h f) := by
    show (OpBK.dec f.enc).map (Instr.c1Bkrun h) = _
    rw [OpBK.dec_enc]
    rfl
  have s : h.slot = .C1 := by
    simp only [Instr.wf, Bool.and_eq_true, Bool.or_eq_true, beq_iff_eq] at hw
    first | exact hw.2 | exact hw.1.2 | exact hw.2.1 | exact hw.1.1.2 | simp_all
  exact ⟨.C1, decodeSyl_slotWord _ _ h _ _ s hw d⟩

theorem c1KvldF16 (h : Hdr) (f : OpKL) : Statement (.c1KvldF16 h f) := by
  intro hw
  refine ⟨fun w e => ?_, fun w e => nomatch e⟩
  injection e with e
  subst e
  have d : decodeC (80#7).toNat h f.enc = some (.c1KvldF16 h f) := by
    show (OpKL.dec f.enc).map (Instr.c1KvldF16 h) = _
    rw [OpKL.dec_enc]
    rfl
  have s : h.slot = .C1 := by
    simp only [Instr.wf, Bool.and_eq_true, Bool.or_eq_true, beq_iff_eq] at hw
    first | exact hw.2 | exact hw.1.2 | exact hw.2.1 | exact hw.1.1.2 | simp_all
  exact ⟨.C1, decodeSyl_slotWord _ _ h _ _ s hw d⟩

theorem c1KvldI8 (h : Hdr) (f : OpKL) : Statement (.c1KvldI8 h f) := by
  intro hw
  refine ⟨fun w e => ?_, fun w e => nomatch e⟩
  injection e with e
  subst e
  have d : decodeC (81#7).toNat h f.enc = some (.c1KvldI8 h f) := by
    show (OpKL.dec f.enc).map (Instr.c1KvldI8 h) = _
    rw [OpKL.dec_enc]
    rfl
  have s : h.slot = .C1 := by
    simp only [Instr.wf, Bool.and_eq_true, Bool.or_eq_true, beq_iff_eq] at hw
    first | exact hw.2 | exact hw.1.2 | exact hw.2.1 | exact hw.1.1.2 | simp_all
  exact ⟨.C1, decodeSyl_slotWord _ _ h _ _ s hw d⟩

theorem c1Kvst (h : Hdr) (f : OpKS) : Statement (.c1Kvst h f) := by
  intro hw
  refine ⟨fun w e => ?_, fun w e => nomatch e⟩
  injection e with e
  subst e
  have d : decodeC (82#7).toNat h f.enc = some (.c1Kvst h f) := by
    show (OpKS.dec f.enc).map (Instr.c1Kvst h) = _
    rw [OpKS.dec_enc]
    rfl
  have s : h.slot = .C1 := by
    simp only [Instr.wf, Bool.and_eq_true, Bool.or_eq_true, beq_iff_eq] at hw
    first | exact hw.2 | exact hw.1.2 | exact hw.2.1 | exact hw.1.1.2 | simp_all
  exact ⟨.C1, decodeSyl_slotWord _ _ h _ _ s hw d⟩

theorem c1Kvx (h : Hdr) (f : OpKX) : Statement (.c1Kvx h f) := by
  intro hw
  refine ⟨fun w e => ?_, fun w e => nomatch e⟩
  injection e with e
  subst e
  have d : decodeC (83#7).toNat h f.enc = some (.c1Kvx h f) := by
    show (OpKX.dec f.enc).map (Instr.c1Kvx h) = _
    rw [OpKX.dec_enc]
    rfl
  have s : h.slot = .C1 := by
    simp only [Instr.wf, Bool.and_eq_true, Bool.or_eq_true, beq_iff_eq] at hw
    first | exact hw.2 | exact hw.1.2 | exact hw.2.1 | exact hw.1.1.2 | simp_all
  exact ⟨.C1, decodeSyl_slotWord _ _ h _ _ s hw d⟩

theorem c1Kvho (h : Hdr) (f : OpKX) : Statement (.c1Kvho h f) := by
  intro hw
  refine ⟨fun w e => ?_, fun w e => nomatch e⟩
  injection e with e
  subst e
  have d : decodeC (84#7).toNat h f.enc = some (.c1Kvho h f) := by
    show (OpKX.dec f.enc).map (Instr.c1Kvho h) = _
    rw [OpKX.dec_enc]
    rfl
  have s : h.slot = .C1 := by
    simp only [Instr.wf, Bool.and_eq_true, Bool.or_eq_true, beq_iff_eq] at hw
    first | exact hw.2 | exact hw.1.2 | exact hw.2.1 | exact hw.1.1.2 | simp_all
  exact ⟨.C1, decodeSyl_slotWord _ _ h _ _ s hw d⟩

theorem c1Kvfree (h : Hdr) (f : OpKF) : Statement (.c1Kvfree h f) := by
  intro hw
  refine ⟨fun w e => ?_, fun w e => nomatch e⟩
  injection e with e
  subst e
  have d : decodeC (85#7).toNat h f.enc = some (.c1Kvfree h f) := by
    show (OpKF.dec f.enc).map (Instr.c1Kvfree h) = _
    rw [OpKF.dec_enc]
    rfl
  have s : h.slot = .C1 := by
    simp only [Instr.wf, Bool.and_eq_true, Bool.or_eq_true, beq_iff_eq] at hw
    first | exact hw.2 | exact hw.1.2 | exact hw.2.1 | exact hw.1.1.2 | simp_all
  exact ⟨.C1, decodeSyl_slotWord _ _ h _ _ s hw d⟩

theorem c1Cancel (h : Hdr) (f : OpCAN2) : Statement (.c1Cancel h f) := by
  intro hw
  refine ⟨fun w e => ?_, fun w e => nomatch e⟩
  injection e with e
  subst e
  have d : decodeC (86#7).toNat h f.enc = some (.c1Cancel h f) := by
    show (OpCAN2.dec f.enc).map (Instr.c1Cancel h) = _
    rw [OpCAN2.dec_enc]
    rfl
  have s : h.slot = .C1 := by
    simp only [Instr.wf, Bool.and_eq_true, Bool.or_eq_true, beq_iff_eq] at hw
    first | exact hw.2 | exact hw.1.2 | exact hw.2.1 | exact hw.1.1.2 | simp_all
  exact ⟨.C1, decodeSyl_slotWord _ _ h _ _ s hw d⟩

theorem cLnch (h : Hdr) (f : OpLN) : Statement (.cLnch h f) := by
  intro hw
  refine ⟨fun w e => ?_, fun w e => nomatch e⟩
  injection e with e
  subst e
  have d : decodeC (87#7).toNat h f.enc = some (.cLnch h f) := by
    show (OpLN.dec f.enc).map (Instr.cLnch h) = _
    rw [OpLN.dec_enc]
    rfl
  have s : h.slot = .C0 ∨ h.slot = .C1 := by
    simp only [Instr.wf, Bool.and_eq_true, Bool.or_eq_true, beq_iff_eq] at hw
    first | exact hw.2 | exact hw.1.2 | exact hw.2.1 | exact hw.1.1.2 | simp_all
  rcases s with s | s
  · exact ⟨.C0, decodeSyl_slotWord _ _ h _ _ s hw d⟩
  · exact ⟨.C1, decodeSyl_slotWord _ _ h _ _ s hw d⟩

theorem bBr (h : Hdr) (f : OpBD) : Statement (.bBr h f) := by
  intro hw
  refine ⟨fun w e => ?_, fun w e => nomatch e⟩
  injection e with e
  subst e
  have d : decodeB (0#7).toNat h f.enc = some (.bBr h f) := by
    show (OpBD.dec f.enc).map (Instr.bBr h) = _
    rw [OpBD.dec_enc]
    rfl
  have s : h.slot = .B := by
    simp only [Instr.wf, Bool.and_eq_true, Bool.or_eq_true, beq_iff_eq] at hw
    first | exact hw.2 | exact hw.1.2 | exact hw.2.1 | exact hw.1.1.2 | simp_all
  exact ⟨.B, decodeSyl_slotWord _ _ h _ _ s hw d⟩

theorem bBri (h : Hdr) (f : OpBRG) : Statement (.bBri h f) := by
  intro hw
  refine ⟨fun w e => ?_, fun w e => nomatch e⟩
  injection e with e
  subst e
  have d : decodeB (1#7).toNat h f.enc = some (.bBri h f) := by
    show (OpBRG.dec f.enc).map (Instr.bBri h) = _
    rw [OpBRG.dec_enc]
    rfl
  have s : h.slot = .B := by
    simp only [Instr.wf, Bool.and_eq_true, Bool.or_eq_true, beq_iff_eq] at hw
    first | exact hw.2 | exact hw.1.2 | exact hw.2.1 | exact hw.1.1.2 | simp_all
  exact ⟨.B, decodeSyl_slotWord _ _ h _ _ s hw d⟩

theorem bCall (h : Hdr) (f : OpBDL) : Statement (.bCall h f) := by
  intro hw
  refine ⟨fun w e => ?_, fun w e => nomatch e⟩
  injection e with e
  subst e
  have d : decodeB (2#7).toNat h f.enc = some (.bCall h f) := by
    show (OpBDL.dec f.enc).map (Instr.bCall h) = _
    rw [OpBDL.dec_enc]
    rfl
  have s : h.slot = .B := by
    simp only [Instr.wf, Bool.and_eq_true, Bool.or_eq_true, beq_iff_eq] at hw
    first | exact hw.2 | exact hw.1.2 | exact hw.2.1 | exact hw.1.1.2 | simp_all
  exact ⟨.B, decodeSyl_slotWord _ _ h _ _ s hw d⟩

theorem bCalli (h : Hdr) (f : OpBRL) : Statement (.bCalli h f) := by
  intro hw
  refine ⟨fun w e => ?_, fun w e => nomatch e⟩
  injection e with e
  subst e
  have d : decodeB (3#7).toNat h f.enc = some (.bCalli h f) := by
    show (OpBRL.dec f.enc).map (Instr.bCalli h) = _
    rw [OpBRL.dec_enc]
    rfl
  have s : h.slot = .B := by
    simp only [Instr.wf, Bool.and_eq_true, Bool.or_eq_true, beq_iff_eq] at hw
    first | exact hw.2 | exact hw.1.2 | exact hw.2.1 | exact hw.1.1.2 | simp_all
  exact ⟨.B, decodeSyl_slotWord _ _ h _ _ s hw d⟩

theorem bRet (h : Hdr) (f : OpBRG) : Statement (.bRet h f) := by
  intro hw
  refine ⟨fun w e => ?_, fun w e => nomatch e⟩
  injection e with e
  subst e
  have d : decodeB (4#7).toNat h f.enc = some (.bRet h f) := by
    show (OpBRG.dec f.enc).map (Instr.bRet h) = _
    rw [OpBRG.dec_enc]
    rfl
  have s : h.slot = .B := by
    simp only [Instr.wf, Bool.and_eq_true, Bool.or_eq_true, beq_iff_eq] at hw
    first | exact hw.2 | exact hw.1.2 | exact hw.2.1 | exact hw.1.1.2 | simp_all
  exact ⟨.B, decodeSyl_slotWord _ _ h _ _ s hw d⟩

theorem bBrx (h : Hdr) (f : OpBRD) : Statement (.bBrx h f) := by
  intro hw
  refine ⟨fun w e => ?_, fun w e => nomatch e⟩
  injection e with e
  subst e
  have d : decodeB (5#7).toNat h f.enc = some (.bBrx h f) := by
    show (OpBRD.dec f.enc).map (Instr.bBrx h) = _
    rw [OpBRD.dec_enc]
    rfl
  have s : h.slot = .B := by
    simp only [Instr.wf, Bool.and_eq_true, Bool.or_eq_true, beq_iff_eq] at hw
    first | exact hw.2 | exact hw.1.2 | exact hw.2.1 | exact hw.1.1.2 | simp_all
  exact ⟨.B, decodeSyl_slotWord _ _ h _ _ s hw d⟩

theorem bDbnz (h : Hdr) (f : OpBRD) : Statement (.bDbnz h f) := by
  intro hw
  refine ⟨fun w e => ?_, fun w e => nomatch e⟩
  injection e with e
  subst e
  have d : decodeB (6#7).toNat h f.enc = some (.bDbnz h f) := by
    show (OpBRD.dec f.enc).map (Instr.bDbnz h) = _
    rw [OpBRD.dec_enc]
    rfl
  have s : h.slot = .B := by
    simp only [Instr.wf, Bool.and_eq_true, Bool.or_eq_true, beq_iff_eq] at hw
    first | exact hw.2 | exact hw.1.2 | exact hw.2.1 | exact hw.1.1.2 | simp_all
  exact ⟨.B, decodeSyl_slotWord _ _ h _ _ s hw d⟩

theorem bLoop (h : Hdr) (f : OpBD) : Statement (.bLoop h f) := by
  intro hw
  refine ⟨fun w e => ?_, fun w e => nomatch e⟩
  injection e with e
  subst e
  have d : decodeB (7#7).toNat h f.enc = some (.bLoop h f) := by
    show (OpBD.dec f.enc).map (Instr.bLoop h) = _
    rw [OpBD.dec_enc]
    rfl
  have s : h.slot = .B := by
    simp only [Instr.wf, Bool.and_eq_true, Bool.or_eq_true, beq_iff_eq] at hw
    first | exact hw.2 | exact hw.1.2 | exact hw.2.1 | exact hw.1.1.2 | simp_all
  exact ⟨.B, decodeSyl_slotWord _ _ h _ _ s hw d⟩

theorem bPcnt (h : Hdr) (f : OpBD) : Statement (.bPcnt h f) := by
  intro hw
  refine ⟨fun w e => ?_, fun w e => nomatch e⟩
  injection e with e
  subst e
  have d : decodeB (8#7).toNat h f.enc = some (.bPcnt h f) := by
    show (OpBD.dec f.enc).map (Instr.bPcnt h) = _
    rw [OpBD.dec_enc]
    rfl
  have s : h.slot = .B := by
    simp only [Instr.wf, Bool.and_eq_true, Bool.or_eq_true, beq_iff_eq] at hw
    first | exact hw.2 | exact hw.1.2 | exact hw.2.1 | exact hw.1.1.2 | simp_all
  exact ⟨.B, decodeSyl_slotWord _ _ h _ _ s hw d⟩

theorem bPcntx (h : Hdr) (f : OpBD) : Statement (.bPcntx h f) := by
  intro hw
  refine ⟨fun w e => ?_, fun w e => nomatch e⟩
  injection e with e
  subst e
  have d : decodeB (9#7).toNat h f.enc = some (.bPcntx h f) := by
    show (OpBD.dec f.enc).map (Instr.bPcntx h) = _
    rw [OpBD.dec_enc]
    rfl
  have s : h.slot = .B := by
    simp only [Instr.wf, Bool.and_eq_true, Bool.or_eq_true, beq_iff_eq] at hw
    first | exact hw.2 | exact hw.1.2 | exact hw.2.1 | exact hw.1.1.2 | simp_all
  exact ⟨.B, decodeSyl_slotWord _ _ h _ _ s hw d⟩

theorem bPwhl (h : Hdr) (f : OpBWC) : Statement (.bPwhl h f) := by
  intro hw
  refine ⟨fun w e => ?_, fun w e => nomatch e⟩
  injection e with e
  subst e
  have d : decodeB (10#7).toNat h f.enc = some (.bPwhl h f) := by
    show (OpBWC.dec f.enc).map (Instr.bPwhl h) = _
    rw [OpBWC.dec_enc]
    rfl
  have s : h.slot = .B := by
    simp only [Instr.wf, Bool.and_eq_true, Bool.or_eq_true, beq_iff_eq] at hw
    first | exact hw.2 | exact hw.1.2 | exact hw.2.1 | exact hw.1.1.2 | simp_all
  exact ⟨.B, decodeSyl_slotWord _ _ h _ _ s hw d⟩

theorem bPwhlx (h : Hdr) (f : OpBWC) : Statement (.bPwhlx h f) := by
  intro hw
  refine ⟨fun w e => ?_, fun w e => nomatch e⟩
  injection e with e
  subst e
  have d : decodeB (11#7).toNat h f.enc = some (.bPwhlx h f) := by
    show (OpBWC.dec f.enc).map (Instr.bPwhlx h) = _
    rw [OpBWC.dec_enc]
    rfl
  have s : h.slot = .B := by
    simp only [Instr.wf, Bool.and_eq_true, Bool.or_eq_true, beq_iff_eq] at hw
    first | exact hw.2 | exact hw.1.2 | exact hw.2.1 | exact hw.1.1.2 | simp_all
  exact ⟨.B, decodeSyl_slotWord _ _ h _ _ s hw d⟩

theorem bEnd (h : Hdr) (f : OpNone) : Statement (.bEnd h f) := by
  intro hw
  refine ⟨fun w e => ?_, fun w e => nomatch e⟩
  injection e with e
  subst e
  have d : decodeB (12#7).toNat h f.enc = some (.bEnd h f) := by
    show (OpNone.dec f.enc).map (Instr.bEnd h) = _
    rw [OpNone.dec_enc]
    rfl
  have s : h.slot = .B := by
    simp only [Instr.wf, Bool.and_eq_true, Bool.or_eq_true, beq_iff_eq] at hw
    first | exact hw.2 | exact hw.1.2 | exact hw.2.1 | exact hw.1.1.2 | simp_all
  exact ⟨.B, decodeSyl_slotWord _ _ h _ _ s hw d⟩

theorem bTrap (h : Hdr) (f : OpBT) : Statement (.bTrap h f) := by
  intro hw
  refine ⟨fun w e => ?_, fun w e => nomatch e⟩
  injection e with e
  subst e
  have d : decodeB (13#7).toNat h f.enc = some (.bTrap h f) := by
    show (OpBT.dec f.enc).map (Instr.bTrap h) = _
    rw [OpBT.dec_enc]
    rfl
  have s : h.slot = .B := by
    simp only [Instr.wf, Bool.and_eq_true, Bool.or_eq_true, beq_iff_eq] at hw
    first | exact hw.2 | exact hw.1.2 | exact hw.2.1 | exact hw.1.1.2 | simp_all
  exact ⟨.B, decodeSyl_slotWord _ _ h _ _ s hw d⟩

theorem bTrapr (h : Hdr) (f : OpBTR) : Statement (.bTrapr h f) := by
  intro hw
  refine ⟨fun w e => ?_, fun w e => nomatch e⟩
  injection e with e
  subst e
  have d : decodeB (14#7).toNat h f.enc = some (.bTrapr h f) := by
    show (OpBTR.dec f.enc).map (Instr.bTrapr h) = _
    rw [OpBTR.dec_enc]
    rfl
  have s : h.slot = .B := by
    simp only [Instr.wf, Bool.and_eq_true, Bool.or_eq_true, beq_iff_eq] at hw
    first | exact hw.2 | exact hw.1.2 | exact hw.2.1 | exact hw.1.1.2 | simp_all
  exact ⟨.B, decodeSyl_slotWord _ _ h _ _ s hw d⟩

theorem bRft (h : Hdr) (f : OpNone) : Statement (.bRft h f) := by
  intro hw
  refine ⟨fun w e => ?_, fun w e => nomatch e⟩
  injection e with e
  subst e
  have d : decodeB (15#7).toNat h f.enc = some (.bRft h f) := by
    show (OpNone.dec f.enc).map (Instr.bRft h) = _
    rw [OpNone.dec_enc]
    rfl
  have s : h.slot = .B := by
    simp only [Instr.wf, Bool.and_eq_true, Bool.or_eq_true, beq_iff_eq] at hw
    first | exact hw.2 | exact hw.1.2 | exact hw.2.1 | exact hw.1.1.2 | simp_all
  exact ⟨.B, decodeSyl_slotWord _ _ h _ _ s hw d⟩

theorem bSetlc (h : Hdr) (f : OpSA) : Statement (.bSetlc h f) := by
  intro hw
  refine ⟨fun w e => ?_, fun w e => nomatch e⟩
  injection e with e
  subst e
  have d : decodeB (16#7).toNat h f.enc = some (.bSetlc h f) := by
    show (OpSA.dec f.enc).map (Instr.bSetlc h) = _
    rw [OpSA.dec_enc]
    rfl
  have s : h.slot = .B := by
    simp only [Instr.wf, Bool.and_eq_true, Bool.or_eq_true, beq_iff_eq] at hw
    first | exact hw.2 | exact hw.1.2 | exact hw.2.1 | exact hw.1.1.2 | simp_all
  exact ⟨.B, decodeSyl_slotWord _ _ h _ _ s hw d⟩

theorem bSetlci (h : Hdr) (f : OpBI) : Statement (.bSetlci h f) := by
  intro hw
  refine ⟨fun w e => ?_, fun w e => nomatch e⟩
  injection e with e
  subst e
  have d : decodeB (17#7).toNat h f.enc = some (.bSetlci h f) := by
    show (OpBI.dec f.enc).map (Instr.bSetlci h) = _
    rw [OpBI.dec_enc]
    rfl
  have s : h.slot = .B := by
    simp only [Instr.wf, Bool.and_eq_true, Bool.or_eq_true, beq_iff_eq] at hw
    first | exact hw.2 | exact hw.1.2 | exact hw.2.1 | exact hw.1.1.2 | simp_all
  exact ⟨.B, decodeSyl_slotWord _ _ h _ _ s hw d⟩

theorem bSetdp (h : Hdr) (f : OpSA) : Statement (.bSetdp h f) := by
  intro hw
  refine ⟨fun w e => ?_, fun w e => nomatch e⟩
  injection e with e
  subst e
  have d : decodeB (18#7).toNat h f.enc = some (.bSetdp h f) := by
    show (OpSA.dec f.enc).map (Instr.bSetdp h) = _
    rw [OpSA.dec_enc]
    rfl
  have s : h.slot = .B := by
    simp only [Instr.wf, Bool.and_eq_true, Bool.or_eq_true, beq_iff_eq] at hw
    first | exact hw.2 | exact hw.1.2 | exact hw.2.1 | exact hw.1.1.2 | simp_all
  exact ⟨.B, decodeSyl_slotWord _ _ h _ _ s hw d⟩

theorem bSetdpi (h : Hdr) (f : OpBI8) : Statement (.bSetdpi h f) := by
  intro hw
  refine ⟨fun w e => ?_, fun w e => nomatch e⟩
  injection e with e
  subst e
  have d : decodeB (19#7).toNat h f.enc = some (.bSetdpi h f) := by
    show (OpBI8.dec f.enc).map (Instr.bSetdpi h) = _
    rw [OpBI8.dec_enc]
    rfl
  have s : h.slot = .B := by
    simp only [Instr.wf, Bool.and_eq_true, Bool.or_eq_true, beq_iff_eq] at hw
    first | exact hw.2 | exact hw.1.2 | exact hw.2.1 | exact hw.1.1.2 | simp_all
  exact ⟨.B, decodeSyl_slotWord _ _ h _ _ s hw d⟩

theorem bRot (h : Hdr) (f : OpBM) : Statement (.bRot h f) := by
  intro hw
  refine ⟨fun w e => ?_, fun w e => nomatch e⟩
  injection e with e
  subst e
  have d : decodeB (20#7).toNat h f.enc = some (.bRot h f) := by
    show (OpBM.dec f.enc).map (Instr.bRot h) = _
    rw [OpBM.dec_enc]
    rfl
  have s : h.slot = .B := by
    simp only [Instr.wf, Bool.and_eq_true, Bool.or_eq_true, beq_iff_eq] at hw
    first | exact hw.2 | exact hw.1.2 | exact hw.2.1 | exact hw.1.1.2 | simp_all
  exact ⟨.B, decodeSyl_slotWord _ _ h _ _ s hw d⟩

theorem bRotclr (h : Hdr) (f : OpBM) : Statement (.bRotclr h f) := by
  intro hw
  refine ⟨fun w e => ?_, fun w e => nomatch e⟩
  injection e with e
  subst e
  have d : decodeB (21#7).toNat h f.enc = some (.bRotclr h f) := by
    show (OpBM.dec f.enc).map (Instr.bRotclr h) = _
    rw [OpBM.dec_enc]
    rfl
  have s : h.slot = .B := by
    simp only [Instr.wf, Bool.and_eq_true, Bool.or_eq_true, beq_iff_eq] at hw
    first | exact hw.2 | exact hw.1.2 | exact hw.2.1 | exact hw.1.1.2 | simp_all
  exact ⟨.B, decodeSyl_slotWord _ _ h _ _ s hw d⟩

theorem bStage (h : Hdr) (f : OpBI1) : Statement (.bStage h f) := by
  intro hw
  refine ⟨fun w e => ?_, fun w e => nomatch e⟩
  injection e with e
  subst e
  have d : decodeB (22#7).toNat h f.enc = some (.bStage h f) := by
    show (OpBI1.dec f.enc).map (Instr.bStage h) = _
    rw [OpBI1.dec_enc]
    rfl
  have s : h.slot = .B := by
    simp only [Instr.wf, Bool.and_eq_true, Bool.or_eq_true, beq_iff_eq] at hw
    first | exact hw.2 | exact hw.1.2 | exact hw.2.1 | exact hw.1.1.2 | simp_all
  exact ⟨.B, decodeSyl_slotWord _ _ h _ _ s hw d⟩

theorem bLoopset (h : Hdr) (f : OpBL) : Statement (.bLoopset h f) := by
  intro hw
  refine ⟨fun w e => ?_, fun w e => nomatch e⟩
  injection e with e
  subst e
  have d : decodeB (23#7).toNat h f.enc = some (.bLoopset h f) := by
    show (OpBL.dec f.enc).map (Instr.bLoopset h) = _
    rw [OpBL.dec_enc]
    rfl
  have s : h.slot = .B := by
    simp only [Instr.wf, Bool.and_eq_true, Bool.or_eq_true, beq_iff_eq] at hw
    first | exact hw.2 | exact hw.1.2 | exact hw.2.1 | exact hw.1.1.2 | simp_all
  exact ⟨.B, decodeSyl_slotWord _ _ h _ _ s hw d⟩

theorem noLoopBoundaryReached : Statement .noLoopBoundaryReached := fun _ => ⟨fun _ e => (nomatch e), fun _ e => nomatch e⟩

theorem holdEnd : Statement .holdEnd := fun _ => ⟨fun _ e => (nomatch e), fun _ e => nomatch e⟩

theorem malformedMessage : Statement .malformedMessage := fun _ => ⟨fun _ e => (nomatch e), fun _ e => nomatch e⟩

end Sys2Proof.Laws.RoundTrip
end

