-- ==== Sys2Proof/Safety.lean ====
section
/-! DEFINITION. What a safe run is, in the terms that claims use: every step answers a next state, and the byte stores keep
their canonical form. -/

namespace Sys2Proof.Machine

/-- The step from `s` answers a next state. -/
def State.steps (s : State) : Prop := ∃ t, step s = .next t

/-- `t` comes after `s` by `k` steps. -/
def State.runs (k : Nat) (s t : State) : Prop := Host.Core.run Sys2Proof.core k s = .next t

/-- The shared memories are in canonical form: main memory, the lofts and the cluster memories (log 3). -/
def State.sharedWf (s : State) : Bool := s.home.wf && s.loft.wf && s.cmem.wf

/-- The scratchpad and the slices of every core are in canonical form. -/
def State.coresWf (s : State) : Bool := s.cores.all (fun e => e.2.scratch.wf && e.2.slices.wf)

/-- Every program counter is a multiple of 8 (R21): of a core, of the context that a handler holds, and of the bundle that follows the
one in progress. -/
def State.pcsAligned (s : State) : Prop :=
  ∀ k, let c := s.coreAt k
    c.pc.toNat % 8 = 0 ∧ (∀ h, c.held = some h → h.pc.toNat % 8 = 0) ∧ ∀ i, c.issue = some i → i.after.toNat % 8 = 0

end Sys2Proof.Machine
end

