-- ==== Sys2Proof/Certificates/Slice0/Obligations.lean ====
section
/-! DEFINITION. The statements for the provers, in the order of the spec's chapters, and the words they are stated in
(namespace `Sys2Proof.Claims`). -/

namespace Sys2Proof.Claims

open Sys2Proof.Machine

/-- The core whose turn it is has a bundle in progress whose checks have been made, and the operation with the common fields
`h` is active in it (R29); `br` marks a branch-class operation (R41). -/
def acts (h : Hdr) (br : Bool) (s : State) : Prop := s.me.issue.isSome = true ∧ s.me.active h br = true

/-- The state in which one more result is in flight on the core whose turn it is. -/
def flying (s : State) (f : Flight) : State := s.onMe (fun c => c.emit f)

/-- A scalar result of slot `sl`: value, poison, and the cycle in which it lands. -/
def scalarOut (s : State) (sl : Slot) (r : BitVec 7) (lat : Nat) (v : Word) (p : Bool) : State :=
  flying s { dest := .scalar (s.me.physS r.toNat), val := v.setWidth 8192, tag := 0, poison := if p then 1#256 else 0#256,
             land := s.me.time + lat, slot := slotCode sl, mismatch := false, twin := none, pc := s.me.bundlePc, opcode := 0,
             seg := s.me.segOpen, size := 0, events := [], issued := s.me.time,
             seq := s.me.seq, acq := false }

/-- A predicate result. -/
def predOut (s : State) (sl : Slot) (r : BitVec 6) (lat : Nat) (v p : Bool) : State :=
  flying s { dest := .pred (s.me.physP r.toNat), val := if v then 1#8192 else 0#8192, tag := 0,
             poison := if p then 1#256 else 0#256, land := s.me.time + lat, slot := slotCode sl, mismatch := false,
             twin := none, pc := s.me.bundlePc, opcode := 0, seg := s.me.segOpen, size := 0, events := [],
             issued := s.me.time, seq := s.me.seq, acq := false }

/-- Lane `j` of a vector register. -/
def lane (v : Vec) (j : Nat) : Lane := v.extractLsb' (32 * j) 32

/-- Element `j` of width `w` of a register (R95). -/
def el {k : Nat} (v : BitVec k) (w j : Nat) : BitVec w := v.extractLsb' (w * j) w

/-- An exact integer limited to the signed range of `w` bits (SAT, R5). -/
def satS (w : Nat) (z : Int) : BitVec w :=
  if z < -2 ^ (w - 1) then BitVec.ofInt w (-2 ^ (w - 1)) else if 2 ^ (w - 1) ≤ z then BitVec.ofInt w (2 ^ (w - 1) - 1)
  else BitVec.ofInt w z

/-- The outcome `o` puts a vector result for `vd` in flight, to land after `lat` cycles with tag `t`: element `j` of width
`w` is `e j`, and the poison of lane `l` is `q l`. Nothing else changes (`VectorResultForms` says what the three forms of a
destination do). -/
def yields (h : Hdr) (vd : BitVec 10) (lat w : Nat) (s : State) (t : BitVec 4) (q : Nat → Bool) (e : Nat → BitVec w)
    (o : Host.Outcome State Fault Refusal) : Prop :=
  ∃ (v : Vec) (p : BitVec 32), (∀ j < 1024 / w, el v w j = e j) ∧ (∀ l < 32, p.getLsbD l = q l) ∧
    o = .next (s.onMe (fun c => c.outV h vd lat v t p))

/-- As `yields`, for a result that raises the warnings of its slot's VCFG by `n`. -/
def yieldsW (h : Hdr) (vd : BitVec 10) (lat w : Nat) (s : State) (t : BitVec 4) (q : Nat → Bool) (e : Nat → BitVec w)
    (n : Nat) (o : Host.Outcome State Fault Refusal) : Prop :=
  ∃ (v : Vec) (p : BitVec 32), (∀ j < 1024 / w, el v w j = e j) ∧ (∀ l < 32, p.getLsbD l = q l) ∧
    o = .next (s.onMe (fun c => (c.outV h vd lat v t p).outWarn h.slot lat n))

/-- The outcome `o` puts a compare's lane mask for `md` in flight: bit `j` is `k j` (R146). -/
def masks (h : Hdr) (md : BitVec 4) (lat : Nat) (s : State) (p : Bool) (k : Nat → Bool)
    (o : Host.Outcome State Fault Refusal) : Prop :=
  ∃ m : BitVec 32, (∀ j < 32, m.getLsbD j = k j) ∧ o = .next (s.onMe (fun c => c.outM h md lat m p))

/-- The value of an encoding in a floating-point format (VAL, R100), and the encoding that ROUND gives a value (R106). -/
def num (t : Fmt) {w : Nat} (x : BitVec w) : FNum := fval t x.toNat
/-- The encoding that ROUND gives a value, as an element. -/
def rnd (t : Fmt) (w mode : Nat) (x : FNum) : BitVec w := BitVec.ofNat w (froundNum t mode x)

/-- The common fields of an unconditional operation of slot `sl`, active on every leaf. -/
def plain (sl : Slot) : Hdr := { slot := sl, mask := 0b11111#5, guard := 0#6, sense := false, dup := false }

/-- A syllable of 64 bits as the decoder takes it, without its stop bit. -/
def syl (w : Word) : BitVec 63 := w.setWidth 63

end Sys2Proof.Claims

open Sys2Proof Sys2Proof.Machine Sys2Proof.Claims

/-! ## Encodings (R28, R38, R45 to R51) -/

/-- The syllables that the spec writes out decode to the instructions it says they are: one of each slot class and chapter.
And five that raise the decode trap (R43): D = 1 in slot V0, a leaf mask of 0, vector register 768, a bit that S.MUL does not
use, C1.QAPP in slot C0. -/
def Obligations.SyllablesOfTheSpecDecode : Prop :=
  decodeSyl .V0 (syl 0x80F8A00600804000#64) =
      some (.vAddI32 { plain .V0 with guard := 5#6 } { vd := 3#10, va := 1#10, vb := 2#10 }) ∧
    decodeSyl .V1 (syl 0x80F8081405818000#64) =
      some (.vAddI32 { plain .V1 with dup := true } { vd := 10#10, va := 11#10, vb := 12#10 }) ∧
    decodeT (syl 0xC1C449000C14FA00#64) =
      some (.tBal {
        shape := 4#3, pred0 := 7#6, sense0 := false, pred1 := 8#6, sense1 := true, pred2 := 9#6, sense2 := false, pred3 := 0#6,
        sense3 := false, leaf1 := 12#8, leaf2 := 20#8, leaf3 := 250#8, leaf4 := 0#8 }) ∧
    decodeSyl .S (syl 0xA8F8000C90000000#64) = some (.sWtag (plain .S) { k := false, reg := 12#10, tag := 9#4 }) ∧
    decodeSyl .S (syl 0x02FC060040C00000#64) =
      some (.sMul { plain .S with guard := 32#6 } { sd := 96#7, sa := 2#7, sb := 3#7 }) ∧
    decodeSyl .B (syl 0x88F8000000000000#64) = some (.bPcnt (plain .B) { g := false, disp := 0#32 }) ∧
    decodeSyl .V0 (syl 0x9BF860280A82C800#64) =
      some (.vFmaF32 { plain .V0 with guard := 3#6 } { vd := 20#10, va := 21#10, vb := 22#10, rnd := 1#2 }) ∧
    decodeSyl .C0 (syl 0x08F8003C13400100#64) =
      some (.cVld (plain .C0) { vd := 30#10, sb := 4#7, tag := 13#4, imm := 256#21 }) ∧
    decodeSyl .C1 (syl 0x8EF8000A24000008#64) =
      some (.cStdRel (plain .C1) { sa := 5#10, sb := 9#7, g := false, imm := 8#21 }) ∧
    decodeSyl .C1 (syl 0xC1F8024000000000#64) = some (.cFenceWRel (plain .C1) { scope := 2#3 }) ∧
    decodeSyl .C1 (syl 0xA3F8000102400010#64) = some (.c1AaddI64Nr (plain .C1) { sb := 8#7, sa := 9#7, imm := 16#15 }) ∧
    decodeSyl .C1 (syl 0xC2F8007061400000#64) =
      some (.c1Qapp (plain .C1) { sd := 7#7, sb := 3#7, va := 40#10, imm := 0#19 }) ∧
    decodeSyl .M (syl 0x82F8002000000000#64) = some (.mPa (plain .M) { ha := 0#3, hb := 1#3, set := false }) ∧
    decodeSyl .M (syl 0x84F8008000000000#64) = some (.mDrainTile (plain .M) { tn := 2#5, row := 0#7, line := 0#8 }) ∧
    decodeSyl .V0 (syl 0x6DF8000E0310003F#64) =
      some (.vRchk (plain .V0) { vd := 7#10, va := 6#10, md := 2#4, set := 0#2, oa := 7#3, ob := 7#3 }) ∧
    decodeSyl .C1 (syl 0xCFF8001080C00020#64) =
      some (.c1Bkrun (plain .C1) { sa := 1#7, sb := 4#7, sc := 3#7, i := false, tag := 1#12 }) ∧
    decodeSyl .C1 (syl 0xD4F80070C0C00000#64) = some (.c1Kvho (plain .C1) { sd := 7#7, sa := 6#7, sb := 3#7, sc := 0#7 }) ∧
    decodeSyl .C1 (syl 0xD7F8009080000000#64) = some (.cLnch (plain .C1) { sd := 9#7, sb := 4#7, imm := 0#29 }) ∧
    decodeSyl .S (syl 0xB6F8003000000000#64) = some (.sCtxout (plain .S) { sa := 3#7 }) ∧
    decodeBk 0x00700000#32 = some (.bkAdd { t := 0#2, w1 := 7#4, pa := 0#7, pb := 0#7, s := false }) ∧
    decodeBk 0x54000000#32 = some (.bkHalt { t := 0#2 }) ∧
    decodeSyl .V0 (syl 0x80F8081405818000#64) = none ∧
    decodeSyl .V0 (syl 0x8000A00600804000#64) = none ∧
    decodeSyl .V0 (syl 0x80F8A60000804000#64) = none ∧
    decodeSyl .S (syl 0x02FC060040C00001#64) = none ∧
    decodeSyl .C0 (syl 0xC2F8007061400000#64) = none

namespace Sys2Proof.Claims

/-- The rows of the opcode table that are events of the package and have no encoding. -/
def isEvent (i : Instr) : Bool :=
  match i with
  | .headerIssue | .rendezvousPass | .branchTransfer | .resultLand | .registerResultLand | .tileTransferLand | .slipIssue | .fetchLine
  | .storePerform | .outboundPerform | .l2LineLeave | .flumeElementRead | .flumeElementWrite | .ringFillAppend | .ringSpillWrite
  | .dpairCompare | .handlerEntry | .preemptionRequest | .preemptionEntry | .resumeEntry | .phaseOverrun | .debugStep | .unitStart
  | .graphNodeStart | .graphNodeComplete | .landingSlotValid | .pktNop | .pktCopy | .pktCopyReduce | .pktLaunch | .pktSignal | .pktGraph
  | .copyChunk | .reduceChunk | .slotStallTimeout | .orchardChunk | .accessBeatOpen | .computeBeatOpen | .computeBeatEnd | .refreshGap
  | .stretchLimit | .workedAccessArrival | .bankCommandArrival | .eccUncorrectable | .dirtyLineEviction | .pageQuarantine | .powerGood
  | .dramLayerReady | .temperatureBandChange | .powerLoss | .energyReconcile | .mgmtConnection | .msgWrite | .msgRead | .msgAtomicAdd
  | .msgReduce | .peerChunkReply | .svcEnableQueue | .svcDisableQueue | .svcOrchardFill | .svcAttestationReport | .svcReadScaleTickets
  | .svcRetireContext | .svcRegisterContext | .svcBindJob | .svcReadServiceWord | .svcSetPeer | .lanemapWrite | .baseRegisterWrite
  | .statusWordWrite | .noLoopBoundaryReached | .holdEnd | .malformedMessage => true
  | _ => false

end Sys2Proof.Claims

/-- Every well-formed instruction that is no event has a word, a syllable or a bank-unit word and not both, and an event has none.
Decoding the word gives the instruction back, with every operand at every value that its encoding admits. -/
def Obligations.DecodeOfEncodeIsTheInstruction : Prop :=
  ∀ i : Instr, Laws.RoundTrip.Statement i ∧
    (i.wf = true → (isEvent i = false ↔ (encodeSyl i).isSome = true ∨ (encodeBk i).isSome = true) ∧
      ¬((encodeSyl i).isSome = true ∧ (encodeBk i).isSome = true))


/-- A syllable has one meaning in a slot: what it decodes to is a well-formed instruction, and encodes to that syllable, so no
bit of a syllable is dropped. A bank-unit word has one meaning: the instruction that it decodes to encodes to that word,
so no bit of it is dropped, and two words never decode to one instruction. -/
def Obligations.WordIsTheEncodingOfItsInstruction : Prop :=
  ((∀ (sl : Slot) (w : BitVec 63) (i : Instr), decodeSyl sl w = some i → i.wf = true ∧ encodeSyl i = some w) ∧
     ∀ (w : BitVec 63) (i : Instr), decodeT w = some i → i.wf = true ∧ encodeSyl i = some w) ∧
  (∀ (w : BitVec 32) (i : Instr), decodeBk w = some i → encodeBk i = some w)

/-! ## A step runs what is decoded (R28, R33, R289) -/

/-- Issue and execution read one syllable alike: running a syllable in a slot is `exec` of the instruction that it decodes to,
and issue finds an operation in it exactly where it decodes to an instruction. An operation that is inactive in an issue has no
effect at all (R30): no register, no memory, no trap. It is inactive where its leaf-mask bit for the leaf is 0, where its guard and
its sense agree, and, for a branch-class operation, where the leaf is not 0 (R29, R41). -/
def Obligations.SyllableRunsAsItsInstructionOrNotAtAll : Prop :=
  ∀ (sl : Slot) (w : BitVec 63) (s : State),
    (∀ i, decodeSyl sl w = some i → runSyllable sl w s = exec i s) ∧
    ((semOfWord sl w).isSome = (decodeSyl sl w).isSome) ∧
    ∀ m : Sem, semOfWord sl w = some m → s.me.issue.isSome = true →
      (w.getLsbD (51 + s.me.leaf) = false ∨ (s.me.guardOf (hdrOf sl w)).1 = w.getLsbD 44 ∨ m.branch = true ∧ s.me.leaf ≠ 0) →
      runSyllable sl w s = .next s

/-- A step of a core with a bundle in progress runs the first operation left of it, or its tree: it is `exec` of the decoded
instruction on the state in which that operation has been taken from the bundle, and then the end of the turn (the issue
ends when nothing of the bundle is left, and the next turn is chosen). A step of a bank unit that may issue runs the
instruction that the word at its index decodes to. -/
def Obligations.StepRunsTheDecodedInstruction : Prop :=
  (∀ (s : State) (n : Nat) (x : Issue), s.turn.agent = .core n → s.me.issue = some x →
     (∀ sl w rest i, x.tree = none → x.ops = (sl, w) :: rest → decodeSyl sl w = some i →
       step s = andThen (exec i (s.onMe (fun c => { c with issue := some { x with ops := rest } }))) State.afterTurn) ∧
     (∀ w i, x.tree = some w → decodeT w = some i →
       step s = andThen (exec i (s.onMe (fun c => { c with issue := some { x with tree := none } }))) State.afterTurn)) ∧
  (∀ (s : State) (d b : Nat) (u : BankUnit) (w : BitVec 32) (i : Instr), s.turn.agent = .bank d b → s.unitOf d b = some u →
     (s.dieAt d).mayIssue u = true → u.program[u.index]? = some w → decodeBk w = some i →
     step s = andThen (exec i (s.withPick 0)) State.afterTurn)


/-- No instruction stops the machine: each has an effect, takes its exception, or is inactive. Every step answers a next
state, whichever agent has the turn. -/
def Obligations.EveryInstructionAndEveryStepAnswersANextState : Prop :=
  (∀ (i : Instr) (s : State), ∃ t, exec i s = .next t) ∧
  (∀ s : State, s.steps)
/-! ## The S slot on registers (R75, R90 to R94, R117 to R123) -/

/-- Integer arithmetic on two scalars: sd := the result, with the poison of either operand, after 1 cycle, or 3 for a multiply
(R119); nothing but the result in flight changes. Scalar operations on one register and an immediate, moves, constants and reports
(R90, R93, R119, R122): S.LIL, S.LIS, S.LPC and S.RTAG leave sd without poison; S.LIH keeps the low half of sd and its poison; S.PGET
collects p0 to p63. -/
def Obligations.ScalarArithmeticMovesAndConstants : Prop :=
  (∀ (h : Hdr) (f : OpRR) (g : OpLEA) (s : State), acts h false s →
     let a := (s.me.rs h.slot f.sa).1
     let b := (s.me.rs h.slot f.sb 1).1
     let p := (s.me.rs h.slot f.sa).2 || (s.me.rs h.slot f.sb 1).2
     let out (lat : Nat) (v : Word) : Host.Outcome State Fault Refusal := .next (scalarOut s h.slot f.sd lat v p)
     exec (.sAdd h f) s = out 1 (a + b) ∧ exec (.sSub h f) s = out 1 (a - b) ∧ exec (.sMul h f) s = out 3 (a * b) ∧
     exec (.sMulh h f) s = out 3 (BitVec.ofInt 64 (a.toInt * b.toInt / 2 ^ 64)) ∧
     exec (.sMulhu h f) s = out 3 ((a.setWidth 128 * b.setWidth 128).extractLsb' 64 64) ∧
     exec (.sAnd h f) s = out 1 (a &&& b) ∧ exec (.sOr h f) s = out 1 (a ||| b) ∧ exec (.sXor h f) s = out 1 (a ^^^ b) ∧
     exec (.sShl h f) s = out 1 (a <<< (b.setWidth 6).toNat) ∧ exec (.sShr h f) s = out 1 (a >>> (b.setWidth 6).toNat) ∧
     exec (.sSra h f) s = out 1 (a.sshiftRight (b.setWidth 6).toNat) ∧
     exec (.sMin h f) s = out 1 (if b.slt a then b else a) ∧ exec (.sMax h f) s = out 1 (if a.slt b then b else a) ∧
     exec (.sMinu h f) s = out 1 (if b.ult a then b else a) ∧ exec (.sMaxu h f) s = out 1 (if a.ult b then b else a) ∧
     exec (.sAdds h f) s = out 1 (if a.toInt + b.toInt < -2 ^ 63 then 1#64 <<< 63
       else if 2 ^ 63 ≤ a.toInt + b.toInt then (1#64 <<< 63) - 1#64 else a + b) ∧
     exec (.sLea h g) s = .next (scalarOut s h.slot g.sd 1
       ((s.me.rs h.slot g.sa).1 + ((s.me.rs h.slot g.sb 1).1 <<< g.sh.toNat))
       ((s.me.rs h.slot g.sa).2 || (s.me.rs h.slot g.sb 1).2))) ∧
  (∀ (h : Hdr) (fi : OpRI) (fs : OpSH) (fw : OpWI) (fm : OpMOV) (fk : OpMFROM) (fg : OpPGET) (ft : OpRTAG) (s : State),
     acts h false s →
     (let a := s.me.rs h.slot fi.sa
      let out (v : Word) : Host.Outcome State Fault Refusal := .next (scalarOut s h.slot fi.sd 1 v a.2)
      exec (.sAddi h fi) s = out (a.1 + fi.imm.signExtend 64) ∧ exec (.sAndi h fi) s = out (a.1 &&& fi.imm.signExtend 64) ∧
      exec (.sOri h fi) s = out (a.1 ||| fi.imm.signExtend 64) ∧ exec (.sXori h fi) s = out (a.1 ^^^ fi.imm.signExtend 64)) ∧
     (let a := s.me.rs h.slot fs.sa
      let out (v : Word) : Host.Outcome State Fault Refusal := .next (scalarOut s h.slot fs.sd 1 v a.2)
      exec (.sShli h fs) s = out (a.1 <<< fs.n) ∧ exec (.sShri h fs) s = out (a.1 >>> fs.n) ∧
      exec (.sSrai h fs) s = out (a.1.sshiftRight' fs.n)) ∧
     (let old := s.me.rs h.slot fw.sd
      let out (v : Word) (p : Bool) : Host.Outcome State Fault Refusal := .next (scalarOut s h.slot fw.sd 1 v p)
      exec (.sLil h fw) s = out (fw.imm.setWidth 64) false ∧ exec (.sLis h fw) s = out (fw.imm.signExtend 64) false ∧
      exec (.sLih h fw) s = out (fw.imm ++ old.1.extractLsb' 0 32) old.2 ∧
      exec (.sLpc h fw) s = out (s.me.bundlePc + 8#64 * fw.imm.signExtend 64) false) ∧
     exec (.sMov h fm) s = .next (scalarOut s h.slot fm.sd 1 (s.me.rs h.slot fm.sa).1 (s.me.rs h.slot fm.sa).2) ∧
     exec (.sMfrom h fk) s = .next (scalarOut s h.slot fk.sd 1 ((s.me.rm h.slot fk.mn).1.setWidth 64) (s.me.rm h.slot fk.mn).2) ∧
     exec (.sPget h fg) s = .next (scalarOut s h.slot fg.sd 1 s.me.predFile.1 s.me.predFile.2) ∧
     exec (.sRtag h ft) s = .next (scalarOut s h.slot ft.sd 1 (s.me.tagReport ft.k ft.reg) false))

/-- Predicate results (R120): pd takes the comparison, or the logic of two predicates each inverted where its n bit is set, with
the poison of what was read, after 1 cycle. What the two reports hold: bit i of the predicate file is logical p_i where no operand
is captured (R90); S.RTAG gives the tag in bits 3:0, a vector register's pending bit in bit 5 and a tile's ready tag in bit 4, and
poison in bit 7 (R93). p0 reads as 1 without poison, whatever has been written, and a write of it is discarded (R75); every other
predicate reads as it was last written. -/
def Obligations.PredicateResultsAndReports : Prop :=
  (∀ (h : Hdr) (f : OpPR) (fi : OpPI) (fl : OpPL) (fb : OpPB) (s : State), acts h false s →
    (let a := s.me.rs h.slot f.sa
     let b := s.me.rs h.slot f.sb 1
     let out (v : Bool) : Host.Outcome State Fault Refusal := .next (predOut s h.slot f.pd 1 v (a.2 || b.2))
     exec (.sCeq h f) s = out (a.1 == b.1) ∧ exec (.sCne h f) s = out (a.1 != b.1) ∧ exec (.sClt h f) s = out (a.1.slt b.1) ∧
     exec (.sCle h f) s = out (!b.1.slt a.1) ∧ exec (.sCltu h f) s = out (a.1.ult b.1) ∧
     exec (.sCleu h f) s = out (!b.1.ult a.1)) ∧
    (let a := s.me.rs h.slot fi.sa
     let out (v : Bool) : Host.Outcome State Fault Refusal := .next (predOut s h.slot fi.pd 1 v a.2)
     exec (.sCeqi h fi) s = out (a.1 == fi.imm.signExtend 64) ∧ exec (.sClti h fi) s = out (a.1.slt (fi.imm.signExtend 64))) ∧
    (let a := s.me.rp h.slot fl.pa
     let b := s.me.rp h.slot fl.pb 1
     let x := a.1 ^^ fl.na
     let y := b.1 ^^ fl.nb
     let out (v : Bool) : Host.Outcome State Fault Refusal := .next (predOut s h.slot fl.pd 1 v (a.2 || b.2))
     exec (.sPand h fl) s = out (x && y) ∧ exec (.sPor h fl) s = out (x || y) ∧ exec (.sPxor h fl) s = out (x ^^ y)) ∧
    exec (.sPbit h fb) s =
      .next (predOut s h.slot fb.pd 1 ((s.me.rs h.slot fb.sa).1.getLsbD fb.n.toNat) (s.me.rs h.slot fb.sa).2)) ∧
  (∀ (c : Core) (k : Bool) (r : BitVec 10),
     (c.capVal 0 8 0 = none → ∀ i < 64, c.predFile.1.getLsbD i = (c.preg (c.physP i)).val) ∧
     (c.capVal 0 8 0 = none → (c.predFile.2 = true ↔ ∃ i < 64, (c.preg (c.physP i)).poison = true)) ∧
     (k = true → (c.tagReport k r).extractLsb' 0 4 = (c.treg r.toNat).tag ∧
       (c.tagReport k r).getLsbD 4 = (c.treg r.toNat).ready ∧
       (c.tagReport k r).getLsbD 7 = ((c.treg r.toNat).poison != 0#256)) ∧
     (k = false → (c.tagReport k r).extractLsb' 0 4 = (c.vreg (c.physV r.toNat)).tag ∧
       (c.tagReport k r).getLsbD 5 = (c.vreg (c.physV r.toNat)).pend ∧
       (c.tagReport k r).getLsbD 6 = (c.flumeOf (c.physV r.toNat)).isSome ∧
       (c.tagReport k r).getLsbD 7 = ((c.vreg (c.physV r.toNat)).poison != 0#32))) ∧
  (∀ (c : Core) (n : Nat) (r : PReg), (c.preg 0 = { val := true, poison := false }) ∧ c.putP 0 r = c ∧
     (n ≠ 0 → (c.putP n r).preg n = r ∧ ∀ m, m ≠ n → (c.putP n r).preg m = c.preg m))

/-- S.RSW reads the word that its index names, S.WSW puts a write of its value in flight to the status word or the base
register, S.MTO and S.WTAG theirs to the lane mask and the tag (R90, R91, R94). A write that is in flight changes nothing
yet: `ResultsLandAsNamed` says what it does when it lands. -/
def Obligations.StatusMaskAndTagWrites : Prop :=
  ∀ (h : Hdr) (fr : OpRSW) (fw : OpWSW) (fm : OpMTO) (ft : OpWTAG) (s : State), acts h false s →
    let c := s.me
    exec (.sRsw h fr) s = .next (scalarOut s h.slot fr.sd 1 (s.statusRead fr.idx.toNat) false) ∧
    exec (.sWsw h fw) s =
      (let v := (c.rs h.slot fw.sa).1
       if 0x060 ≤ fw.idx.toNat then
         .next (flying s { c.flight h.slot (.base (c.physB (fw.idx.toNat - 0x060))) 1 with val := v.setWidth 8192 })
       else .next (flying s { c.flight h.slot (.status fw.idx.toNat) 1 with val := v.setWidth 8192, tag := 1#4 })) ∧
    exec (.sMto h fm) s =
      .next (flying s { c.flight h.slot (.mask fm.md.toNat) 1 with
        val := ((c.rs h.slot fm.sa).1.setWidth 32).setWidth 8192,
        poison := if (c.rs h.slot fm.sa).2 then 1#256 else 0#256 }) ∧
    exec (.sWtag h ft) s =
      .next (flying s { c.flight h.slot (if ft.k then .ttag ft.reg.toNat else .vtag (c.physV ft.reg.toNat)) 1 with tag := ft.tag })

/-- Privilege and range of the status words, outside an issue (R91, R92, R399): naming a word marked /S in user mode raises
the access trap with sub-cause 5, a poisoned value written raises the poison-consumed trap with the register in DATA, a
value of 2^20 or more to a base register the access trap with sub-cause 2, and reading PHASE_CNT in a deterministic launch
the determinism trap. S.CKT compares two scalars (R123): equal and unpoisoned operands leave the state as it is; a
poisoned operand raises the poison-consumed trap, the first of them in DATA, and different values the silent-mismatch
trap. Privilege before poison before range, and sa in DATA where both operands of S.CKT are poisoned, are read by inference (log 22). -/
def Obligations.ScalarChecksTrap : Prop :=
  (∀ (h : Hdr) (fr : OpRSW) (fw : OpWSW) (s : State), s.me.issue = none → s.me.active h false = true →
     (s.me.guardOf h).2 = false →
     let c := s.me
     let i := fw.idx.toNat
     (c.determ = false → supervisorOnly fr.idx.toNat = true → c.sup = false →
       exec (.sRsw h fr) s = .next (takeTrap (c.accessTrap h.slot 5 0) s)) ∧
     (c.determ = true → fr.idx = 0x046#10 → exec (.sRsw h fr) s = .next (takeTrap (c.trap h.slot 0x0D) s)) ∧
     (supervisorOnly i = true → c.sup = false → exec (.sWsw h fw) s = .next (takeTrap (c.accessTrap h.slot 5 0) s)) ∧
     ((supervisorOnly i = false ∨ c.sup = true) → (c.rs h.slot fw.sa).2 = true →
       exec (.sWsw h fw) s = .next (takeTrap (c.poisonTrap h.slot fw.sa.toNat) s)) ∧
     ((supervisorOnly i = false ∨ c.sup = true) → (c.rs h.slot fw.sa).2 = false → 0x060 ≤ i →
       2 ^ 20 ≤ (c.rs h.slot fw.sa).1.toNat → exec (.sWsw h fw) s = .next (takeTrap (c.accessTrap h.slot 2 0) s))) ∧
  (∀ (h : Hdr) (f : OpCK) (s : State), s.me.active h false = true → (s.me.guardOf h).2 = false →
     let a := s.me.rs h.slot f.sa
     let b := s.me.rs h.slot f.sb 1
     (a.2 = false → b.2 = false → a.1 = b.1 → exec (.sCkt h f) s = .next s) ∧
     (s.me.issue = none → a.2 = true → exec (.sCkt h f) s = .next (takeTrap (s.me.poisonTrap h.slot f.sa.toNat) s)) ∧
     (s.me.issue = none → a.2 = false → b.2 = true →
       exec (.sCkt h f) s = .next (takeTrap (s.me.poisonTrap h.slot f.sb.toNat) s)) ∧
     (s.me.issue = none → a.2 = false → b.2 = false → a.1 ≠ b.1 → exec (.sCkt h f) s = .next (takeTrap (s.me.trap h.slot 0x05) s)))



/-! ## The vector slots on registers (R136 to R152, R183, R378) -/

/-- A vector result in its three forms: to a register that no flume is bound to it lands in that register; to a bound write
flume it is a push, counted as in flight until it lands (R183); and the V1 operation of a D-pair puts nothing of its own in
flight: it gives its value to the V0 result of the same issue, to be compared where that lands (R378). -/
def Obligations.VectorResultForms : Prop :=
  ∀ (c : Core) (h : Hdr) (r : BitVec 10) (lat : Nat) (v : Vec) (t : BitVec 4) (p : BitVec 32),
    let n := c.physV r.toNat
    let at_ (d : Dest) : Flight := { c.flight h.slot d lat with val := v.setWidth 8192, tag := t, poison := p.setWidth 256 }
    (h.dup = false → c.flumeOf n = none → c.outV h r lat v t p = { c with flights := c.flights ++ [at_ (.vec n)] }) ∧
    (∀ f, h.dup = false → c.flumeOf n = some f → f.shape.write = true →
      c.outV h r lat v t p = { c with
        flights := c.flights ++ [at_ (.flume n)]
        flumes := c.flumes.map (fun g => if g.reg = n then { g with inflight := g.inflight + 1 } else g) }) ∧
    (h.dup = true → c.flumeOf n = none →
      (c.outV h r lat v t p).flights.length = c.flights.length ∧
      ∀ (i : Nat) (g : Flight), c.flights[i]? = some g →
        (g.slot = 1 → g.pc = c.bundlePc → g.dest = .vec n → c.time < g.land → g.twin = none →
          ∃ o : Nat, (c.outV h r lat v t p).flights[i]? = some { g with twin := some (v, t, p), opcode := o }) ∧
        (g.slot ≠ 1 ∨ g.pc ≠ c.bundlePc ∨ g.dest ≠ .vec n → (c.outV h r lat v t p).flights[i]? = some g))

/-- Integer arithmetic, element by element (R142): sums and products modulo the width, the high half of the signed product,
saturating sums and differences, minima and maxima, the absolute value (the most negative number gives the largest), and the
four-way dot product into vd; the poison of a lane is that of its sources (R136). Logic on all 1,024 bits, which keeps a common tag and
gives BITS to two different ones, and lane shifts by the low five bits of the other operand (R143). The compares write a lane mask, whose
poison is that of any lane of either operand (R146). -/
def Obligations.VectorIntegerLogicAndCompares : Prop :=
  (∀ (h : Hdr) (f : OpV3) (g : OpV2) (s : State), acts h false s →
     let a := s.me.rv h.slot f.va
     let b := s.me.rv h.slot f.vb 1
     let d := s.me.rv h.slot f.vd
     let q (l : Nat) : Bool := a.poison.getLsbD l || b.poison.getLsbD l
     let op (lat w : Nat) (t : BitVec 4) (e : BitVec w → BitVec w → BitVec w) :=
       yields h f.vd lat w s t q (fun j => e (el a.val w j) (el b.val w j))
     op 2 32 a.tag (fun x y => x + y) (exec (.vAddI32 h f) s) ∧ op 2 32 a.tag (fun x y => x - y) (exec (.vSubI32 h f) s) ∧
     op 3 32 a.tag (fun x y => x * y) (exec (.vMulI32 h f) s) ∧
     op 3 32 5#4 (fun x y => BitVec.ofInt 32 (x.toInt * y.toInt / 2 ^ 32)) (exec (.vMulhI32 h f) s) ∧
     op 2 32 5#4 (fun x y => satS 32 (x.toInt + y.toInt)) (exec (.vAddsI32 h f) s) ∧
     op 2 32 5#4 (fun x y => satS 32 (x.toInt - y.toInt)) (exec (.vSubsI32 h f) s) ∧
     op 2 16 a.tag (fun x y => x + y) (exec (.vAddI16 h f) s) ∧
     op 2 16 4#4 (fun x y => satS 16 (x.toInt + y.toInt)) (exec (.vAddsI16 h f) s) ∧
     op 2 8 a.tag (fun x y => x + y) (exec (.vAddI8 h f) s) ∧
     op 2 8 3#4 (fun x y => satS 8 (x.toInt + y.toInt)) (exec (.vAddsI8 h f) s) ∧
     op 2 8 6#4 (fun x y => if 255 < x.toNat + y.toNat then 255#8 else x + y) (exec (.vAddsZ8 h f) s) ∧
     op 2 32 5#4 (fun x y => if y.slt x then y else x) (exec (.vMinI32 h f) s) ∧
     op 2 32 5#4 (fun x y => if x.slt y then y else x) (exec (.vMaxI32 h f) s) ∧
     op 2 32 8#4 (fun x y => if y.ult x then y else x) (exec (.vMinZ32 h f) s) ∧
     op 2 32 8#4 (fun x y => if x.ult y then y else x) (exec (.vMaxZ32 h f) s) ∧
     (let x := s.me.rv h.slot g.va
      yields h g.vd 2 32 s 5#4 (fun l => x.poison.getLsbD l)
        (fun j => if el x.val 32 j = 0x80000000#32 then 0x7FFFFFFF#32 else if (el x.val 32 j).msb then -(el x.val 32 j)
          else el x.val 32 j) (exec (.vAbsI32 h g) s)) ∧
     let a := s.me.rv h.slot f.va 1
     let b := s.me.rv h.slot f.vb 2
     yields h f.vd 3 32 s 5#4 (fun l => a.poison.getLsbD l || b.poison.getLsbD l || d.poison.getLsbD l)
       (fun j => el d.val 32 j + BitVec.ofInt 32 (((el a.val 8 (4 * j)).toInt * (el b.val 8 (4 * j)).toInt +
         (el a.val 8 (4 * j + 1)).toInt * (el b.val 8 (4 * j + 1)).toInt +
         (el a.val 8 (4 * j + 2)).toInt * (el b.val 8 (4 * j + 2)).toInt +
         (el a.val 8 (4 * j + 3)).toInt * (el b.val 8 (4 * j + 3)).toInt))) (exec (.vDot4I8 h f) s)) ∧
  (∀ (h : Hdr) (f : OpV3) (s : State), acts h false s →
     let a := s.me.rv h.slot f.va
     let b := s.me.rv h.slot f.vb 1
     let t := if a.tag = b.tag then a.tag else 0#4
     let q (l : Nat) : Bool := a.poison.getLsbD l || b.poison.getLsbD l
     let sh (t : BitVec 4) (e : Lane → Nat → Lane) :=
       yields h f.vd 2 32 s t q (fun j => e (el a.val 32 j) ((el b.val 32 j).toNat % 32))
     let bits (v : Vec) : Host.Outcome State Fault Refusal :=
       .next (s.onMe (fun c => c.outV h f.vd 2 v t (a.poison ||| b.poison)))
     exec (.vAnd h f) s = bits (a.val &&& b.val) ∧ exec (.vOr h f) s = bits (a.val ||| b.val) ∧
     exec (.vXor h f) s = bits (a.val ^^^ b.val) ∧ exec (.vAndn h f) s = bits (a.val &&& ~~~ b.val) ∧
     sh a.tag (fun x n => x <<< n) (exec (.vShlI32 h f) s) ∧ sh a.tag (fun x n => x >>> n) (exec (.vShrZ32 h f) s) ∧
     sh 5#4 (fun x n => x.sshiftRight n) (exec (.vSraI32 h f) s)) ∧
  (∀ (h : Hdr) (f : OpVM) (s : State), acts h false s →
     let a := s.me.rv h.slot f.va
     let b := s.me.rv h.slot f.vb 1
     let cmp (k : Lane → Lane → Bool) :=
       masks h f.md 2 s (a.poison != 0#32 || b.poison != 0#32) (fun j => k (el a.val 32 j) (el b.val 32 j))
     let fp (k : FNum → FNum → Bool) := cmp (fun x y => k (num fpF32 x) (num fpF32 y))
     cmp (fun x y => x == y) (exec (.vCeqI32 h f) s) ∧ cmp (fun x y => x.slt y) (exec (.vCltI32 h f) s) ∧
     cmp (fun x y => !y.slt x) (exec (.vCleI32 h f) s) ∧ cmp (fun x y => x.ult y) (exec (.vCltZ32 h f) s) ∧
     fp FNum.eqv (exec (.vCeqF32 h f) s) ∧ fp FNum.lt (exec (.vCltF32 h f) s) ∧
     fp (fun x y => x.lt y || x.eqv y) (exec (.vCleF32 h f) s) ∧ fp (fun x y => x == .nan || y == .nan) (exec (.vCunF32 h f) s))

/-- Floating-point arithmetic in FP32, FP16 and BF16, element by element (R108, R109, R144): the exact sum, difference,
product or fused sum rounded once under the rnd field; a fused form reads vd, and V.FMS and V.FNMA negate one input; MIN and
MAX give CANON where an input is NaN, and order -0 below +0. -/
def Obligations.VectorFloatingPoint : Prop :=
  ∀ (h : Hdr) (f : OpV3) (g : OpV3R) (s : State), acts h false s →
    let arith (t : Fmt) (w : Nat) (tag : BitVec 4) (lat : Nat) (e : FNum → FNum → FNum) :=
      let a := s.me.rv h.slot g.va
      let b := s.me.rv h.slot g.vb 1
      yields h g.vd lat w s tag (fun l => a.poison.getLsbD l || b.poison.getLsbD l)
        (fun j => rnd t w g.rnd.toNat (e (num t (el a.val w j)) (num t (el b.val w j))))
    let fused (t : Fmt) (w : Nat) (tag : BitVec 4) (e : FNum → FNum → FNum → FNum) :=
      let a := s.me.rv h.slot g.va 1
      let b := s.me.rv h.slot g.vb 2
      let d := s.me.rv h.slot g.vd
      yields h g.vd 4 w s tag (fun l => a.poison.getLsbD l || b.poison.getLsbD l || d.poison.getLsbD l)
        (fun j => rnd t w g.rnd.toNat (e (num t (el a.val w j)) (num t (el b.val w j)) (num t (el d.val w j))))
    let pick (t : Fmt) (w : Nat) (tag : BitVec 4) (less : Bool) :=
      let a := s.me.rv h.slot f.va
      let b := s.me.rv h.slot f.vb 1
      yields h f.vd 3 w s tag (fun l => a.poison.getLsbD l || b.poison.getLsbD l)
        (fun j =>
          let x := el a.val w j
          let y := el b.val w j
          if num t x = .nan ∨ num t y = .nan then BitVec.ofNat w t.canon
          else if (num t x).lt (num t y) then (if less then x else y)
          else if (num t y).lt (num t x) then (if less then y else x)
          else if (num t x).isNeg = less then x else y)
    let add (x y : FNum) : FNum := x.add g.rnd.toNat y
    let sub (x y : FNum) : FNum := x.add g.rnd.toNat y.neg
    let fma (x y z : FNum) : FNum := if z = .nan then .nan else (x.mul y).add g.rnd.toNat z
    (arith fpF32 32 13#4 3 add (exec (.vAddF32 h g) s) ∧ arith fpF32 32 13#4 3 sub (exec (.vSubF32 h g) s) ∧
     arith fpF32 32 13#4 4 FNum.mul (exec (.vMulF32 h g) s) ∧ fused fpF32 32 13#4 fma (exec (.vFmaF32 h g) s) ∧
     fused fpF32 32 13#4 (fun x y z => fma x y z.neg) (exec (.vFmsF32 h g) s) ∧
     fused fpF32 32 13#4 (fun x y z => fma x.neg y z) (exec (.vFnmaF32 h g) s) ∧
     pick fpF32 32 13#4 true (exec (.vMinF32 h f) s) ∧ pick fpF32 32 13#4 false (exec (.vMaxF32 h f) s)) ∧
    (arith fpF16 16 11#4 3 add (exec (.vAddF16 h g) s) ∧ arith fpF16 16 11#4 3 sub (exec (.vSubF16 h g) s) ∧
     arith fpF16 16 11#4 4 FNum.mul (exec (.vMulF16 h g) s) ∧ fused fpF16 16 11#4 fma (exec (.vFmaF16 h g) s) ∧
     pick fpF16 16 11#4 true (exec (.vMinF16 h f) s) ∧ pick fpF16 16 11#4 false (exec (.vMaxF16 h f) s)) ∧
    (arith fpB16 16 12#4 3 add (exec (.vAddB16 h g) s) ∧ arith fpB16 16 12#4 3 sub (exec (.vSubB16 h g) s) ∧
     arith fpB16 16 12#4 4 FNum.mul (exec (.vMulB16 h g) s) ∧ fused fpB16 16 12#4 fma (exec (.vFmaB16 h g) s) ∧
     pick fpB16 16 12#4 true (exec (.vMinB16 h f) s) ∧ pick fpB16 16 12#4 false (exec (.vMaxB16 h f) s))

/-- Rounding and reading agree (R100, R106): a finite encoding of any of the five formats denotes a value that ROUND gives the
same encoding, in every rounding mode. -/
def Obligations.FiniteEncodingsRoundToThemselves : Prop :=
  ∀ (t : Fmt) (b mode : Nat) (neg : Bool) (m : Nat) (e : Int), t ∈ [fpE4, fpE5, fpF16, fpB16, fpF32] →
    b < 2 ^ (1 + t.e + t.f) → fval t b = .fin neg m e → fround t mode neg m e false = b

/-- The approximate operations act element by element on their format and take 8 cycles (R145); their results are exact where
R145 says so, and the special values are those of its table: NaN, zeros, infinities, negative inputs of RSQ and LOG2, and results beyond
MAX or below the smallest subnormal. The encoding of 2^k is `p k`. -/
def Obligations.VectorApproximations : Prop :=
  (∀ (h : Hdr) (f : OpV2) (s : State), acts h false s →
    let a := s.me.rv h.slot f.va
    let op (w : Nat) (t : BitVec 4) (e : Nat → Nat) :=
      yields h f.vd 8 w s t (fun l => a.poison.getLsbD l) (fun j => BitVec.ofNat w (e (el a.val w j).toNat))
    op 32 13#4 (fun x => rcpOf fpF32 (fval fpF32 x)) (exec (.vRcpF32 h f) s) ∧
    op 32 13#4 (fun x => rsqOf fpF32 (fval fpF32 x)) (exec (.vRsqF32 h f) s) ∧
    op 32 13#4 (fun x => exp2Of fpF32 (fval fpF32 x)) (exec (.vExp2F32 h f) s) ∧
    op 32 13#4 (fun x => log2Of fpF32 (fval fpF32 x)) (exec (.vLog2F32 h f) s) ∧
    op 16 11#4 (fun x => rcpOf fpF16 (fval fpF16 x)) (exec (.vRcpF16 h f) s) ∧
    op 16 11#4 (fun x => rsqOf fpF16 (fval fpF16 x)) (exec (.vRsqF16 h f) s) ∧
    op 16 11#4 (fun x => exp2Of fpF16 (fval fpF16 x)) (exec (.vExp2F16 h f) s) ∧
    op 16 11#4 (fun x => log2Of fpF16 (fval fpF16 x)) (exec (.vLog2F16 h f) s)) ∧
  (∀ (t : Fmt) (k : Int), t ∈ [fpF16, fpF32] → t.emin ≤ k → k ≤ t.bias →
    let p (k : Int) : Nat := (k + t.bias).toNat * 2 ^ t.f
    (t.emin ≤ -k → rcpOf t (fval t (p k)) = p (-k) ∧ rcpOf t (fval t (t.signBit + p k)) = t.signBit + p (-k)) ∧
    (t.emin ≤ 2 * k → 2 * k ≤ t.bias → t.emin ≤ -k → rsqOf t (fval t (p (2 * k))) = p (-k)) ∧
    exp2Of t (intNum k) = p k ∧ log2Of t (fval t (p k)) = froundNum t 0 (intNum k)) ∧
  (∀ (t : Fmt) (k : Int), t ∈ [fpF16, fpF32] →
    (t.bias < k → exp2Of t (intNum k) = t.infCode) ∧ (k = t.emin - t.f → exp2Of t (intNum k) = 1) ∧
    (k < t.emin - t.f → exp2Of t (intNum k) = 0)) ∧
  (∀ (t : Fmt) (n : Bool), t ∈ [fpF16, fpF32] →
    let sb := if n then t.signBit else 0
    rcpOf t .nan = t.canon ∧ rsqOf t .nan = t.canon ∧ exp2Of t .nan = t.canon ∧ log2Of t .nan = t.canon ∧
    rcpOf t (fval t (sb + t.infCode)) = sb ∧ rcpOf t (fval t sb) = sb + t.infCode ∧
    rsqOf t (fval t sb) = sb + t.infCode ∧ rsqOf t (fval t (sb + t.infCode)) = (if n then t.canon else 0) ∧
    exp2Of t (fval t (sb + t.infCode)) = (if n then 0 else t.infCode) ∧
    exp2Of t (fval t sb) = t.bias * 2 ^ t.f ∧ rcpOf t (fval t (sb + 1)) = sb + t.infCode ∧
    (∀ x, 0 < x → x < t.infCode → rsqOf t (fval t (t.signBit + x)) = t.canon ∧ log2Of t (fval t (t.signBit + x)) = t.canon) ∧
    log2Of t (fval t sb) = t.signBit + t.infCode ∧ log2Of t (fval t (sb + t.infCode)) = (if n then t.canon else t.infCode))

/-! ## Conversions, pack and unpack, reductions, permutes, residues (R147 to R152, R256 to R272) -/

namespace Sys2Proof.Claims

open Sys2Proof.Machine

/-- What a conversion of element widths `ws` to `wd` and part `p` leaves in vd (R147): `g j` is the result of its `j`-th
source element, `old` the register that a narrowing conversion merges into, `src` the poison of a source element. -/
def parted (ws wd p : Nat) (old : VReg) (g : Nat → Nat) (src : Nat → Bool) (v : Vec) (pois : BitVec 32) : Prop :=
  let n := 1024 / max ws wd
  if wd < ws then
    (∀ j < n, el v wd (n * p + j) = BitVec.ofNat wd (g j)) ∧
    (∀ k < 1024 / wd, k < n * p ∨ n * p + n ≤ k → el v wd k = el old.val wd k) ∧
    ∀ l < 32, pois.getLsbD l =
      if n * p * wd ≤ 32 * l ∧ 32 * l < n * p * wd + n * wd then
        (List.range (32 / wd)).any (fun i => src (32 * l / wd - n * p + i))
      else old.poison.getLsbD l
  else
    (∀ j < n, el v wd j = BitVec.ofNat wd (g j)) ∧
    ∀ l < 32, pois.getLsbD l = (List.range (32 / wd)).any (fun i => src (n * p + 32 * l / wd + i))

/-- The outcome `o` is a conversion's result, with `w` warnings. -/
def converts (h : Hdr) (vd : BitVec 10) (s : State) (tag ws wd p : Nat) (a : VReg) (g : Nat → Nat) (w : Nat)
    (o : Host.Outcome State Fault Refusal) : Prop :=
  ∃ (v : Vec) (pois : BitVec 32),
    parted ws wd p (s.me.rv h.slot vd) g (fun i => a.poison.getLsbD (ws * i / 32)) v pois ∧
    o = .next (s.onMe (fun c => (c.outV h vd 3 v (BitVec.ofNat 4 tag) pois).outWarn h.slot 3 w))

/-- The value of element `i` of a register that carries the tag `t`; an element of X4 is that of its quad (R99, R110). -/
def valueOf (a : VReg) (t i : Nat) : FNum :=
  if t = 2 then decodeX4 (el a.val 16 (i / 4)).toNat (i % 4) else elemNum t (el a.val (tagWidth t) i).toNat

end Sys2Proof.Claims

/-- The conversions of R147 and V.CVTC of R148: with a source tag that they accept and a part that the widths have, each
source element of the part is converted from its exact value, under rnd, or scaled by 2^CSCL and under CRND for V.CVTC; a
narrowing one keeps the elements outside its part; a conversion from X4 counts the warnings of its quads. -/
def Obligations.VectorConversions : Prop :=
  ∀ (h : Hdr) (f : OpVCR) (g : OpVC) (s : State), acts h false s →
    (let t := (s.me.rv h.slot f.va).tag.toNat
     let p := f.part.toNat
     let cvt (dst : Nat) (o : Host.Outcome State Fault Refusal) : Prop :=
       let a := s.me.rv h.slot f.va (if tagWidth dst < tagWidth t then 1 else 0)
       let ws := tagWidth t
       let wd := tagWidth dst
       let n := 1024 / max ws wd
       let src (j : Nat) : Nat := if wd ≤ ws then j else n * p + j
       p < max ws wd / min ws wd → converts h f.vd s dst ws wd p a (fun j => cvtNum (valueOf a t (src j)) dst f.rnd.toNat false)
         (if t = 2 then ((List.range (n / 4)).map (fun q => warnX4 (el a.val 16 (src 0 / 4 + q)).toNat)).sum else 0) o
     t ≠ 0 → t < 14 →
       cvt 13 (exec (.vCvtF32 h f) s) ∧ cvt 11 (exec (.vCvtF16 h f) s) ∧ cvt 12 (exec (.vCvtB16 h f) s) ∧
       cvt 9 (exec (.vCvtE4 h f) s) ∧ cvt 10 (exec (.vCvtE5 h f) s) ∧ cvt 5 (exec (.vCvtI32 h f) s) ∧
       cvt 4 (exec (.vCvtI16 h f) s) ∧ cvt 3 (exec (.vCvtI8 h f) s) ∧ cvt 8 (exec (.vCvtZ32 h f) s) ∧
       cvt 7 (exec (.vCvtZ16 h f) s) ∧ cvt 6 (exec (.vCvtZ8 h f) s)) ∧
    (let cfg := if h.slot = .V1 then s.me.sw.vcfg1 else s.me.sw.vcfg0
     let t := (s.me.rv h.slot g.va).tag.toNat
     let dst := fieldGet cfg 24 4
     let a := s.me.rv h.slot g.va (if tagWidth dst < tagWidth t then 1 else 0)
     let p := g.part.toNat
     let ws := tagWidth t
     let wd := tagWidth dst
     let n := 1024 / max ws wd
     let src (j : Nat) : Nat := if wd ≤ ws then j else n * p + j
     t = fieldGet cfg 28 4 → t ≠ 0 → t < 14 → 3 ≤ dst → dst < 14 → p < max ws wd / min ws wd →
       converts h g.vd s dst ws wd p a
         (fun j => cvtNum ((valueOf a t (src j)).scale (sx (fieldGet cfg 8 8) 8)) dst (fieldGet cfg 22 2) (cfg.getLsbD 0))
         (if t = 2 then ((List.range (n / 4)).map (fun q => warnX4 (el a.val 16 (src 0 / 4 + q)).toNat)).sum else 0)
         (exec (.vCvtc h g) s))

/-- V.RINT, V.SCALE and V.EXPO on FP32 (R149), and the pack and unpack operations of INT4 and I4X (R150). -/
def Obligations.VectorRoundScalePack : Prop :=
  ∀ (h : Hdr) (r : OpV2R) (g : OpV3R) (e : OpV2) (c : OpVC) (x : OpVCR) (s : State), acts h false s →
    (let a := s.me.rv h.slot r.va
     yields h r.vd 3 32 s 13#4 (fun l => a.poison.getLsbD l) (fun j =>
       match num fpF32 (el a.val 32 j) with
       | .nan => 0x7FC00000#32
       | .inf _ => el a.val 32 j
       | .fin n m k => BitVec.ofNat 32 (fround fpF32 0 n (rndInt r.rnd.toNat n m k).natAbs 0 false)) (exec (.vRintF32 h r) s)) ∧
    (let a := s.me.rv h.slot g.va
     let b := s.me.rv h.slot g.vb 1
     yields h g.vd 3 32 s 13#4 (fun l => a.poison.getLsbD l || b.poison.getLsbD l) (fun j =>
       let k := (el b.val 32 j).toInt
       rnd fpF32 32 g.rnd.toNat ((num fpF32 (el a.val 32 j)).scale (if k < -1000 then -1000 else if 1000 < k then 1000 else k)))
       (exec (.vScaleF32 h g) s)) ∧
    (let a := s.me.rv h.slot e.va
     yields h e.vd 3 32 s 5#4 (fun l => a.poison.getLsbD l) (fun j =>
       match num fpF32 (el a.val 32 j) with
       | .fin _ m k => if m = 0 then 0x80000000#32 else BitVec.ofInt 32 ((Nat.log2 m : Int) + k)
       | _ => 0x7FFFFFFF#32) (exec (.vExpoF32 h e) s)) ∧
    (let a := s.me.rv h.slot c.va
     let b := s.me.rv h.slot c.va 1
     let p := c.part.toNat
     (p < 2 → converts h c.vd s 1 8 4 p b (fun j => (satS 4 (el b.val 8 j).toInt).toNat) 0 (exec (.vPackI4 h c) s)) ∧
     (p < 2 → converts h c.vd s 3 4 8 p a (fun j => ((el a.val 4 (128 * p + j)).signExtend 8).toNat) 0
       (exec (.vUnpkI4 h c) s)) ∧
     (p < 4 → converts h c.vd s 11 4 16 p a (fun j => cvtNum (valueOf a 2 (64 * p + j)) 11 0 false)
       ((List.range 16).map (fun q => warnX4 (el a.val 16 (16 * p + q)).toNat)).sum (exec (.vUnpkX4 h c) s))) ∧
    (let a := s.me.rv h.slot x.va 1
     let quad (i : Nat) : Nat × Nat := packX4 x.rnd.toNat (fun k => (el a.val 16 (4 * i + k)).toNat)
     x.part.toNat < 4 → converts h x.vd s 2 16 4 x.part.toNat a
       (fun j => (el (BitVec.ofNat 16 (quad (j / 4)).1) 4 (j % 4)).toNat)
       ((List.range 16).map (fun i => (quad i).2)).sum (exec (.vPackX4 h x) s))

/-- The reductions (R115, R151): every element of vd takes the sum, maximum or minimum of the included elements in the order
of TREE; excluded ones enter as the value of R151's table, and the poison of an included lane, or of the mask, is in every
lane. The sum that V.RADD.I32 forms in TREE order is that of all its elements (R115, R151): for 32 numbers, the tree of
sums modulo 2^32 is their sum modulo 2^32. -/
def Obligations.VectorReductionsCombineInTreeOrder : Prop :=
  (∀ (h : Hdr) (f : OpVQ) (g : OpVQR) (s : State), acts h false s →
     let red (va vd : BitVec 10) (mn : BitVec 4) (m : Bool) (w levels lat : Nat) (t : BitVec 4) (z : Nat) (k : Nat → Nat → Nat) :=
       let a := s.me.rv h.slot va
       let inc (l : Nat) : Bool := !m || (s.me.rm h.slot mn).1.getLsbD l
       yields h vd lat w s t (fun _ => (List.range 32).any (fun l => inc l && a.poison.getLsbD l) || m && (s.me.rm h.slot mn).2)
         (fun _ => BitVec.ofNat w (tree k levels ((List.range (1024 / w)).map (fun j =>
           if inc (w * j / 32) then (el a.val w j).toNat else z))))
     let add (t : Fmt) (x y : Nat) : Nat := froundNum t g.rnd.toNat ((fval t x).add g.rnd.toNat (fval t y))
     let smax (x y : Nat) : Nat := if (BitVec.ofNat 32 x).slt (BitVec.ofNat 32 y) then y else x
     red g.va g.vd g.mn g.m 32 5 10 13#4 0 (add fpF32) (exec (.vRaddF32 h g) s) ∧
     red g.va g.vd g.mn g.m 16 6 12 11#4 0 (add fpF16) (exec (.vRaddF16 h g) s) ∧
     red f.va f.vd f.mn f.m 32 5 10 5#4 0 (fun x y => (x + y) % 2 ^ 32) (exec (.vRaddI32 h f) s) ∧
     red f.va f.vd f.mn f.m 32 5 10 13#4 0xFF800000 (fmax fpF32) (exec (.vRmaxF32 h f) s) ∧
     red f.va f.vd f.mn f.m 32 5 10 13#4 0x7F800000 (fmin fpF32) (exec (.vRminF32 h f) s) ∧
     red f.va f.vd f.mn f.m 32 5 10 5#4 0x80000000 smax (exec (.vRmaxI32 h f) s)) ∧
  (∀ l : List Nat, l.length = 32 → (∀ x ∈ l, x < 2 ^ 32) → tree (fun x y => (x + y) % 2 ^ 32) 5 l = l.sum % 2 ^ 32)


/-- The permutes copy whole lanes, or bytes, with the poison of what they copy and of what chose it (R152). -/
def Obligations.VectorPermutes : Prop :=
  ∀ (h : Hdr) (f : OpV3) (n : OpVN) (sl : OpVSL) (sel : OpVSEL) (b : OpVS) (i : OpVI) (s : State), acts h false s →
    let x := s.me.rv h.slot f.va
    let y := s.me.rv h.slot f.vb 1
    let z := s.me.rv h.slot n.va
    let join (a b : VReg) : BitVec 4 := if a.tag = b.tag then a.tag else 0#4
    yields h f.vd 2 32 s x.tag (fun l => x.poison.getLsbD ((el y.val 32 l).toNat % 32) || y.poison.getLsbD l)
      (fun j => el x.val 32 ((el y.val 32 j).toNat % 32)) (exec (.vPerm h f) s) ∧
    yields h f.vd 2 8 s x.tag
      (fun l => y.poison.getLsbD l || (List.range 4).any (fun k => x.poison.getLsbD ((el y.val 8 (4 * l + k)).toNat % 128 / 4)))
      (fun k => el x.val 8 ((el y.val 8 k).toNat % 128)) (exec (.vPerm8 h f) s) ∧
    yields h n.vd 2 32 s z.tag (fun l => z.poison.getLsbD ((l + n.n.toNat) % 32)) (fun j => el z.val 32 ((j + n.n.toNat) % 32))
      (exec (.vRot h n) s) ∧
    yields h n.vd 2 32 s z.tag (fun _ => z.poison.getLsbD n.n.toNat) (fun _ => el z.val 32 n.n.toNat) (exec (.vBcast h n) s) ∧
    (let a := s.me.rv h.slot sl.va
     let c := s.me.rv h.slot sl.vb 1
     let k := sl.n.toNat
     yields h sl.vd 2 32 s (join a c) (fun l => if l + k < 32 then a.poison.getLsbD (l + k) else c.poison.getLsbD (l + k - 32))
       (fun j => if j + k < 32 then el a.val 32 (j + k) else el c.val 32 (j + k - 32)) (exec (.vSlide h sl) s)) ∧
    (let a := s.me.rv h.slot sel.va
     let c := s.me.rv h.slot sel.vb 1
     let m := s.me.rm h.slot sel.mn
     yields h sel.vd 2 32 s (join a c) (fun l => (if m.1.getLsbD l then a.poison.getLsbD l else c.poison.getLsbD l) || m.2)
       (fun j => if m.1.getLsbD j then el a.val 32 j else el c.val 32 j) (exec (.vSel h sel) s)) ∧
    yields h b.vd 2 32 s b.tag (fun _ => (s.me.rs h.slot b.sa).2) (fun _ => (s.me.rs h.slot b.sa).1.setWidth 32)
      (exec (.vBcs h b) s) ∧
    yields h i.vd 2 32 s 5#4 (fun _ => false) (fun j => i.imm + BitVec.ofNat 32 j) (exec (.vIota h i) s)

/-- A value whose residues are all in order is read back exactly (R112, R255 to R257, R262): for every value in the half-range
of its data channels, under every lane map, in narrow and in wide form, LOCATE answers OK with the value. -/
def Obligations.ResidueCodeReadsBack : Prop :=
  ∀ (wide : Bool) (parity ra rb : Nat) (x : Int), parity < 2 →
    let l := chLists wide parity ra rb
    let m : Nat := (l.1.map chMod).foldl (· * ·) 1
    (ra < 6 ∨ ra = 7) → (rb < 6 ∨ rb = 7) → -(((m - 1) / 2 : Nat) : Int) ≤ x → x ≤ ((m - 1) / 2 : Nat) →
      locate (fun c => residue x (chMod c)) l.1 l.2 wide = .ok x

/-- One wrong residue is located and corrected where no lane is retired (R257, R258): for a value within the correction bound
T, 2^29 in narrow and 2^76 in wide form, a byte of any one channel replaced by any other byte is classified CORRECTED, with
that channel and the value. -/
def Obligations.SingleWrongResidueIsCorrected : Prop :=
  ∀ (wide : Bool) (parity ch b : Nat) (x : Int), parity < 2 →
    let l := chLists wide parity 7 7
    let t : Int := if wide then 2 ^ 76 else 2 ^ 29
    ch ∈ l.1 ++ l.2 → b < 256 → b ≠ residue x (chMod ch) → -t ≤ x → x ≤ t →
      locate (fun c => if c = ch then b else residue x (chMod c)) l.1 l.2 wide = .corrected ch x

/-- V.RFWD, V.RREV and V.RCHK (R270 to R272). V.RFWD encodes part p of va, narrow values limited to the half-range and each
limited one counted as a warning; V.RREV decodes words or pairs of va into part p of vd, whose other elements stay, with
the error records that follow in `es`; V.RCHK writes what it corrects and its two-bit codes. The outcome of one word or
pair (R257, R271, R272): an input with poison is no error and gives its decode, poisoned; an input in order gives its
value; a corrected one its corrected value, and its channel byte restored in V.RCHK; any other is MULTI: poisoned by
V.RREV with a trap, left as it is with code 2 by V.RCHK. -/
def Obligations.ResidueOperationsAndTheirOutcomes : Prop :=
  (∀ (h : Hdr) (f : OpVEF) (r : OpVER) (k : OpVEC) (s : State), acts h false s →
     (let a := s.me.rv h.slot f.va
      let wide := f.set = 2#2
      let n := if wide then 8 else 16
      let x (i : Nat) : Int :=
        let e := el a.val 32 (n * f.part.toNat + i)
        if a.tag = 5#4 then e.toInt else e.toNat
      let lim : Int := if f.set = 0#2 then 1684281158 else 922309379
      let y (i : Nat) : Int := if wide then x i else if x i < -lim then -lim else if lim < x i then lim else x i
      let word (i : Nat) : Nat :=
        if wide then (if i % 2 = 0 then resEnc 2 0 (y (i / 2)) else resEnc 3 6 (y (i / 2)))
        else resEnc f.set.toNat (6 * f.set.toNat) (y i)
      f.set ≠ 3#2 → yieldsW h f.vd 3 64 s 14#4 (fun l => a.poison.getLsbD (n * f.part.toNat + l / (if wide then 4 else 2)))
        (fun i => BitVec.ofNat 64 (word i)) ((List.range n).filter (fun i => x i != y i)).length (exec (.vRfwd h f) s)) ∧
     (let c := s.me
      let a := c.rv h.slot r.va 1
      let old := c.rv h.slot r.vd
      let n := if r.set = 2#2 then 8 else 16
      let one (i : Nat) := rrevOne c h r a i
      h.dup = false → c.flumeOf (c.physV r.vd.toNat) = none →
        ∃ (v : Vec) (p : BitVec 32),
          (∀ l < 32, el v 32 l =
            if n * r.part.toNat ≤ l ∧ l < n * r.part.toNat + n then BitVec.ofNat 32 (one (l - n * r.part.toNat)).1
            else el old.val 32 l) ∧
          (∀ l < 32, p.getLsbD l =
            if n * r.part.toNat ≤ l ∧ l < n * r.part.toNat + n then (one (l - n * r.part.toNat)).2.1 else old.poison.getLsbD l) ∧
          exec (.vRrev h r) s = .next (flying s { c.flight h.slot (.vec (c.physV r.vd.toNat)) 6 with
            val := v.setWidth 8192, tag := if r.dfmt then 13#4 else 5#4, poison := p.setWidth 256,
            events := (List.range n).filterMap (fun i => (one i).2.2) })) ∧
     (let a := s.me.rv h.slot k.va
      let wide := k.set == 2#2
      let n := if wide then 2 else 1
      ∃ (v : Vec) (m : BitVec 32),
        (∀ w < 16, el v 64 w = BitVec.ofNat 64 ((rchkOne k a (w / n)).1.getD (w % n) 0)) ∧
        (∀ w < 16, (el m 2 w).toNat = (rchkOne k a (w / n)).2) ∧
        exec (.vRchk h k) s = .next (s.onMe (fun c =>
          (c.outV h k.vd 6 v 14#4 a.poison).outM h k.md 6 m (a.poison != 0#32))))) ∧
  (∀ (c : Core) (h : Hdr) (f : OpVER) (k : OpVEC) (a : VReg) (i : Nat),
     (let wide := f.set == 2#2
      let ws := resInput a wide i
      let cls := resClass ws wide f.oa.toNat f.ob.toNat
      let conv (y : Int) : Nat :=
        if f.dfmt then fround fpF32 f.rnd.toNat (decide (y < 0)) y.natAbs 0 false else (satS 32 y).toNat
      (resPoison a wide i = true → (rrevOne c h f a i).2 = (true, none)) ∧
      (resPoison a wide i = false →
        (∀ y, cls = .ok y → rrevOne c h f a i = (conv y, false, none)) ∧
        (∀ ch y, cls = .corrected ch y → (rrevOne c h f a i).1 = conv y ∧ (rrevOne c h f a i).2.1 = false ∧
          ∃ e, (rrevOne c h f a i).2.2 = some e ∧ e.multi = false ∧ e.trap = c.sw.respol.getLsbD 0) ∧
        (cls = .multi → (rrevOne c h f a i).1 = 0 ∧ (rrevOne c h f a i).2.1 = true ∧
          ∃ e, (rrevOne c h f a i).2.2 = some e ∧ e.multi = true ∧ e.trap = true))) ∧
     (let wide := k.set == 2#2
      let ws := resInput a wide i
      let cls := resClass ws wide k.oa.toNat k.ob.toNat
      (resPoison a wide i = true → rchkOne k a i = (ws, 3)) ∧
      (resPoison a wide i = false →
        (∀ y, cls = .ok y → rchkOne k a i = (ws, 0)) ∧ (cls = .multi → rchkOne k a i = (ws, 2)) ∧
        ∀ ch y, cls = .corrected ch y → (rchkOne k a i).2 = 1 ∧ (rchkOne k a i).1.length = ws.length ∧
          ∀ j < ws.length, (rchkOne k a i).1.getD j 0 =
            if wide = true ∧ j ≠ ch / 6 then ws.getD j 0
            else (fieldPut (BitVec.ofNat 64 (ws.getD j 0)) (8 * (ch % 6)) 8 (residue y (chMod ch))).toNat)))


/-! ## What a result in flight leaves alone, and where it lands (R33, R84, R85, R91, R338) -/

namespace Sys2Proof.Claims

open Sys2Proof.Machine

/-- The register files, status words, latches and accumulators of two cores agree. -/
def sameRegs (a b : Core) : Prop :=
  a.s = b.s ∧ a.p = b.p ∧ a.m = b.m ∧ a.v = b.v ∧ a.t = b.t ∧ a.ring = b.ring ∧ a.b = b.b ∧ a.k = b.k ∧ a.sw = b.sw ∧
    a.latch = b.latch ∧ a.arr = b.arr ∧ a.held = b.held ∧ a.pc = b.pc

/-- Every byte of every memory, with the poison of every word, reads the same in two states: main memory at its homes, loft
and cluster memory, and the scratchpad and slices of the core whose turn it is. -/
def sameMem (s t : State) : Prop :=
  (∀ sp a, (t.spaceMem t.me sp).byte a = (s.spaceMem s.me sp).byte a) ∧
    ∀ sp w, (t.spaceMem t.me sp).pois w = (s.spaceMem s.me sp).pois w

/-- Every core but the one whose turn it is has stayed as it was, and the turn too; the outbound queues hold the same entries,
of which some may now be marked as given to a read. -/
def sameElse (s t : State) : Prop :=
  t.turn = s.turn ∧ t.dies = s.dies ∧ t.hub = s.hub ∧ t.contexts = s.contexts ∧
    t.outq.map (fun e => (e.1, { e.2 with seen := false })) = s.outq.map (fun e => (e.1, { e.2 with seen := false })) ∧
    ∀ k, k ≠ s.coreNo → t.coreAt k = s.coreAt k

/-- As `sameElse`, with no new mark. -/
def sameOthers (s t : State) : Prop := sameElse s t ∧ t.outq = s.outq

end Sys2Proof.Claims

/-- A result put in flight changes nothing yet: no register, no status word, no byte of any memory and no other core; it only
lands later, and until then its destination reads as before (R33, R338). The same of a vector result, a lane mask and a
warning, and of an on-chip store that is put on its way outside a segment. RESULT_LAND and the three rows of status words write the
destination that the next due result names, and nothing else (R33, R84, R91, R338); here for a result outside a segment, with no residue
event and no mismatch, where no on-chip access is due before it. -/
def Obligations.ResultsInFlightAndTheirRows : Prop :=
  (∀ (s : State) (f : Flight) (h : Hdr) (vd : BitVec 10) (md : BitVec 4) (lat n : Nat) (v : Vec) (t : BitVec 4) (p m : BitVec 32)
     (q : Bool) (due rel : Nat) (gd : Option Nat) (sp : Space) (bs : List (Nat × Byte)) (ws : List (Nat × Bool × Bool)),
     let quiet (g : Core → Core) : Prop :=
       sameRegs (s.onMe g).me s.me ∧ sameMem s (s.onMe g) ∧ sameOthers s (s.onMe g)
     quiet (fun c => c.emit f) ∧ quiet (fun c => c.outV h vd lat v t p) ∧ quiet (fun c => c.outM h md lat m q) ∧
     quiet (fun c => (c.outV h vd lat v t p).outWarn h.slot lat n) ∧
     (s.me.segOpen = false → quiet (fun c => c.putStore due rel gd sp bs ws))) ∧
  (∀ (s : State) (f : Flight) (rest : List Flight), s.me.dueFlight = some (f, rest) → s.dueTimed s.coreNo = none →
     f.seg = false → f.events = [] → f.mismatch = false →
     let t : Host.Outcome State Fault Refusal := .next (s.onMe (fun c => ({ c with flights := rest } : Core).writeDest f))
     exec .resultLand s = t ∧
     (∀ i, f.dest = .status i → i ≠ 0x024 → exec .statusWordWrite s = t ∧ exec .lanemapWrite s = .next s) ∧
     (f.dest = .status 0x024 → exec .lanemapWrite s = t ∧ exec .statusWordWrite s = .next s) ∧
     (∀ i, f.dest = .base i → exec .baseRegisterWrite s = t ∧ exec .statusWordWrite s = .next s))

/-- What each destination takes: a register its value with its poison, and a vector register its tag, every other register of
the file staying as it was; S.WTAG a tag alone; a program's write of a status word only its RW fields (R91), and no other
status word; a base register 20 bits; a warning count its rise, to 0xFFFF at most (R141). -/
def Obligations.ResultsLandAsNamed : Prop :=
  ∀ (c : Core) (f : Flight) (k : Nat),
    let d := c.writeDest f
    (f.dest = .scalar k →
      d.sreg k = { val := f.val.setWidth 64, poison := f.poison.getLsbD 0, pend := (c.sreg k).pend } ∧
      (∀ j, j ≠ k → d.sreg j = c.sreg j) ∧ d = { c with s := d.s }) ∧
    (f.dest = .pred k → k ≠ 0 →
      d.preg k = { val := f.val.getLsbD 0, poison := f.poison.getLsbD 0 } ∧ (∀ j, j ≠ k → d.preg j = c.preg j) ∧
      d = { c with p := d.p }) ∧
    (f.dest = .pred 0 → d = c) ∧
    (f.dest = .mask k →
      d.mreg k = { val := f.val.setWidth 32, poison := f.poison.getLsbD 0 } ∧ (∀ j, j ≠ k → d.mreg j = c.mreg j) ∧
      d = { c with m := d.m }) ∧
    (f.dest = .vec k →
      d.vreg k = { val := f.val.setWidth 1024, tag := f.tag, poison := f.poison.setWidth 32, pend := (c.vreg k).pend } ∧
      (∀ j, j ≠ k → d.vreg j = c.vreg j) ∧ d = { c with v := d.v }) ∧
    (f.dest = .vtag k →
      d.vreg k = { c.vreg k with tag := f.tag } ∧ (∀ j, j ≠ k → d.vreg j = c.vreg j) ∧ d = { c with v := d.v }) ∧
    (f.dest = .ttag k →
      d.treg k = { c.treg k with tag := f.tag } ∧ (∀ j, j ≠ k → d.treg j = c.treg j) ∧ d = { c with t := d.t }) ∧
    (f.dest = .status k → f.tag = 1#4 → k ≠ 0x024 →
      (∀ b, b < 64 → (rwMask k c.sw.checkctl).getLsbD b = false → (d.sw.get k).getLsbD b = (c.sw.get k).getLsbD b) ∧
      (∀ b, b < 64 → (rwMask k c.sw.checkctl).getLsbD b = true → (d.sw.get k).getLsbD b = f.val.getLsbD b) ∧
      (∀ j, j ≠ k → d.sw.get j = c.sw.get j) ∧ d = { c with sw := d.sw }) ∧
    (f.dest = .base k →
      d.breg k = f.val.setWidth 20 ∧ (∀ j, j ≠ k → d.breg j = c.breg j) ∧ d = { c with b := d.b }) ∧
    (f.dest = .warn k → k < 2 →
      fieldGet (d.sw.get (0x028 + k)) 32 16 = min 0xFFFF (fieldGet (c.sw.get (0x028 + k)) 32 16 + f.val.toNat) ∧
      (∀ j, j ≠ 0x028 + k → d.sw.get j = c.sw.get j) ∧ d = { c with sw := d.sw })

/-- An on-chip access is made when its time comes (R157, R164): a store changes the bytes that it names, the last of two that
name one byte standing, and no other byte of its memory and no other memory; a load puts the bytes that it finds, lowest
first, in flight to its register, with the poison of their words; of the stores that the open segment holds it finds those before it in
program order (R190, R382). -/
def Obligations.OnChipAccessesPerform : Prop :=
  ∀ (s : State) (x : Timed) (rest : List Timed), s.dueTimed s.coreNo = some (x, rest) → x.acq = 0 →
    (∀ sp bs ws, x.act = .store sp bs ws → sp ∈ [Space.scratch, Space.slices, Space.loft, Space.cluster] →
      ∃ t, exec .resultLand s = .next t ∧
        (∀ a, (t.spaceMem t.me sp).byte a =
          match bs.reverse.find? (fun e => e.1 == a) with
          | some e => e.2
          | none => (s.spaceMem s.me sp).byte a) ∧
        (∀ sp', sp' ≠ sp → sp' ≠ .code → t.spaceMem t.me sp' = s.spaceMem s.me sp') ∧
        (∀ k, k ≠ s.coreNo → t.coreAt k = s.coreAt k)) ∧
    (∀ sp a k f, x.act = .load sp a k false f → k < 128 →
      let held (i : Nat) := ((s.me.seg.held.filter (fun e => e.space == sp && decide (e.seq < x.seq))).flatMap (·.bytes)).reverse.find?
        (fun b => b.1 == a + i)
      ∃ t q, exec .resultLand s = .next t ∧ sameMem s t ∧
        t.me.flights = s.me.flights ++ [{ f with
          val := BitVec.ofNat 8192 (ofElems 8 ((List.range k).map (fun i =>
            (match held i with | some b => b.2 | none => (s.spaceMem s.me sp).byte (a + i)).toNat)))
          poison := q }] ∧
        (s.me.seg.held = [] → q = if (s.spaceMem s.me sp).anyPois a k then 1#256 else 0#256))

/-! ## The vector slots on memory (R153 to R157) -/

namespace Sys2Proof.Claims

open Sys2Proof.Machine

/-- The address of lane `j` of a V0 operation within slice `j` (R153); the index is the `k`th vector register that it names. -/
def sliceAddr (h : Hdr) (s : State) (off : BitVec 13) (idx : Option (BitVec 10)) (j : Nat) (k : Nat := 0) : Int :=
  (s.me.disp h.slot (off.setWidth 32)).toInt +
    (match idx with | some v => ((el (s.me.rv h.slot v k).val 32 j).toNat : Int) | none => 0)

/-- The address of lane `j` of a V1 operation in the scratchpad (R155). -/
def scratchAddr (h : Hdr) (s : State) (bn : BitVec 4) (off : BitVec 32) (stride : Nat) (idx : Option (BitVec 10)) (j : Nat)
    (k : Nat := 0) : Int :=
  ((s.me.rb bn).toNat : Int) + (s.me.disp h.slot off).toInt +
    (match idx with | some v => ((el (s.me.rv h.slot v k).val 32 j).toNat : Int) | none => (stride * j : Nat))

/-- The outcome `o` of a lane load: lane `j` takes the word at `a j` of its space, with its poison, or 0 where `inc j` does not
hold. -/
def laneLoads (h : Hdr) (vd : BitVec 10) (lat : Nat) (s : State) (tag : BitVec 4) (sp : Space) (inc : Nat → Bool) (a : Nat → Nat)
    (o : Host.Outcome State Fault Refusal) : Prop :=
  yields h vd lat 32 s tag (fun j => inc j && s.spacePois s.coreNo sp (a j / 4))
    (fun j => if inc j then BitVec.ofNat 32 (s.spaceNum s.coreNo sp (a j) 4) else 0#32) o

/-- The outcome `o` of a lane store: the four bytes of each included lane, lowest lane first, go to `a j` in the cycle after
the issue, with the lane's poison. -/
def laneStores (va : BitVec 10) (h : Hdr) (s : State) (sp : Space) (inc : Nat → Bool) (a : Nat → Nat)
    (o : Host.Outcome State Fault Refusal) : Prop :=
  let v := s.me.rv h.slot va
  let js := (List.range 32).filter inc
  o = .next (s.onMe (fun c => c.putStore (c.time + 1) 0 none sp
    (js.flatMap (fun j => (List.range 4).map (fun k => (a j + k, el v.val 8 (4 * j + k)))))
    (js.map (fun j => (a j / 4, v.poison.getLsbD j, true)))))

end Sys2Proof.Claims

/-- The slice and scratchpad loads and gathers (R153 to R157): lane `j` reads the word at its address in slice `j`, or in the
scratchpad; V1.LDB reads one word into every lane; a lane that the mask leaves out takes 0 without poison. The slice and
scratchpad stores and scatters (R153 to R157): the included lanes store their words; a later lane stands where two name
one word, since the bytes are written in lane order. What the stored bytes change is `OnChipAccessesPerform`. -/
def Obligations.LaneAccessesReachTheirWords : Prop :=
  (∀ (h : Hdr) (a : OpVLL) (b : OpVLLX) (c : OpVDL) (d : OpVDLX) (e : OpVG) (s : State), acts h false s →
     let v1 (n1 n2 : Nat) : Nat := if s.me.profile2 then n2 else n1
     laneLoads h a.vd 3 s a.tag .slices (fun _ => true) (fun j => (sliceAddr h s a.off none j).toNat + 8192 * j)
       (exec (.v0Sld h a) s) ∧
     laneLoads h b.vd 3 s b.tag .slices (fun _ => true) (fun j => (sliceAddr h s b.off (some b.vb) j).toNat + 8192 * j)
       (exec (.v0Sldx h b) s) ∧
     laneLoads h c.vd (v1 4 6) s c.tag .scratch (fun _ => true) (fun j => (scratchAddr h s c.bn (c.off.signExtend 32) 4 none j).toNat)
       (exec (.v1Ld h c) s) ∧
     laneLoads h c.vd (v1 4 6) s c.tag .scratch (fun _ => true) (fun j => (scratchAddr h s c.bn (c.off.signExtend 32) 0 none j).toNat)
       (exec (.v1Ldb h c) s) ∧
     laneLoads h d.vd (v1 8 10) s d.tag .scratch (fun _ => true)
       (fun j => (scratchAddr h s d.bn (d.off.signExtend 32) 0 (some d.vb) j).toNat) (exec (.v1Gath h d) s) ∧
     laneLoads h e.vd (v1 8 10) s e.tag .scratch (fun j => (s.me.rm h.slot e.mn).1.getLsbD j)
       (fun j => (scratchAddr h s e.bn (e.off.signExtend 32) 0 (some e.vb) j).toNat) (exec (.v1Gathm h e) s)) ∧
  (∀ (h : Hdr) (a : OpVLS) (b : OpVLSX) (c : OpVLSM) (d : OpVLSXM) (e : OpVDS) (f : OpVDSM) (g : OpVDSX) (k : OpVDSXM)
     (s : State), acts h false s →
     let m (mn : BitVec 4) (j : Nat) : Bool := (s.me.rm h.slot mn).1.getLsbD j
     laneStores a.va h s .slices (fun _ => true) (fun j => (sliceAddr h s a.off none j).toNat + 8192 * j) (exec (.v0Sst h a) s) ∧
     laneStores b.va h s .slices (fun _ => true) (fun j => (sliceAddr h s b.off (some b.vb) j 1).toNat + 8192 * j)
       (exec (.v0Sstx h b) s) ∧
     laneStores c.va h s .slices (m c.mn) (fun j => (sliceAddr h s c.off none j).toNat + 8192 * j) (exec (.v0Sstm h c) s) ∧
     laneStores d.va h s .slices (m d.mn) (fun j => (sliceAddr h s d.off (some d.vb) j 1).toNat + 8192 * j)
       (exec (.v0Sstxm h d) s) ∧
     laneStores e.va h s .scratch (fun _ => true) (fun j => (scratchAddr h s e.bn (e.off.signExtend 32) 4 none j).toNat)
       (exec (.v1St h e) s) ∧
     laneStores f.va h s .scratch (m f.mn) (fun j => (scratchAddr h s f.bn (f.off.signExtend 32) 4 none j).toNat)
       (exec (.v1Stm h f) s) ∧
     laneStores g.va h s .scratch (fun _ => true) (fun j => (scratchAddr h s g.bn (g.off.signExtend 32) 0 (some g.vb) j 1).toNat)
       (exec (.v1Scat h g) s) ∧
     laneStores k.va h s .scratch (m k.mn) (fun j => (scratchAddr h s k.bn (k.off.signExtend 32) 0 (some k.vb) j 1).toNat)
       (exec (.v1Scatm h k) s))



/-- Outside an issue, an operation whose operand carries a tag that it does not accept raises the format trap with the
register in DATA (R80, R138): shown for an integer, a floating-point and a compare operation and for a conversion of BITS,
RS or KV. The access trap of a lane (R153, R155): outside an issue, with no poisoned mask or index lane, the lowest lane
whose address is negative, past the end or no multiple of 4 is named in DATA, with its address, and with sub-cause 1 where
it is misaligned and 2 otherwise. Shown for an indexed slice load, a masked slice store, a scratchpad load and a masked
scatter. That a masked scatter does not check an excluded lane (log 71), and SIZE 7 for V1.LD (log 21), are read by inference. -/
def Obligations.VectorTagAndAddressTraps : Prop :=
  (∀ (h : Hdr) (f : OpV3) (g : OpV3R) (m : OpVM) (k : OpVCR) (s : State), s.me.issue = none → s.me.active h false = true →
     (s.me.guardOf h).2 = false →
     let format (r : BitVec 10) : Host.Outcome State Fault Refusal :=
       .next (takeTrap { s.me.trap h.slot 0x02 with data := r.toNat } s)
     (((s.me.rv h.slot f.va).tag ∉ [5#4, 8#4]) → exec (.vAddI32 h f) s = format f.va) ∧
     ((s.me.rv h.slot f.va).tag ∈ [5#4, 8#4] → (s.me.rv h.slot f.vb 1).tag ∉ [5#4, 8#4] → exec (.vAddI32 h f) s = format f.vb) ∧
     ((s.me.rv h.slot g.vd).tag ≠ 13#4 → exec (.vFmaF32 h g) s = format g.vd) ∧
     ((s.me.rv h.slot m.va).tag ≠ 8#4 → exec (.vCltZ32 h m) s = format m.va) ∧
     ((s.me.rv h.slot k.va).tag ∈ [0#4, 14#4, 15#4] → exec (.vCvtF16 h k) s = format k.va)) ∧
  (∀ (h : Hdr) (a : OpVLLX) (b : OpVLSM) (c : OpVDL) (d : OpVDSXM) (s : State) (j : Nat), s.me.issue = none →
     s.me.active h false = true → (s.me.guardOf h).2 = false →
     let bad (limit : Int) (x : Int) : Prop := x % 4 ≠ 0 ∨ x < 0 ∨ limit < x + 4
     let first (limit : Int) (inc : Nat → Bool) (x : Nat → Int) : Prop :=
       j < 32 ∧ inc j = true ∧ bad limit (x j) ∧ ∀ i < j, inc i = true → ¬ bad limit (x i)
     let t (sp kind size : Nat) (x : Int) : Host.Outcome State Fault Refusal :=
       .next (takeTrap { s.me.trap h.slot 0x09 with
         sub := if x % 4 ≠ 0 then 1 else 2, addr := BitVec.ofInt 64 x, data := j, space := sp, kind := kind, size := size } s)
     let m (mn : BitVec 4) (i : Nat) : Bool := (s.me.rm h.slot mn).1.getLsbD i
     (first 8192 (fun _ => true) (fun j => sliceAddr h s a.off (some a.vb) j) → (s.me.rv h.slot a.vb).poison = 0#32 →
       exec (.v0Sldx h a) s = t 4 0 2 (sliceAddr h s a.off (some a.vb) j)) ∧
     (first 8192 (m b.mn) (sliceAddr h s b.off none) → (s.me.rm h.slot b.mn).2 = false →
       exec (.v0Sstm h b) s = t 4 1 2 (sliceAddr h s b.off none j)) ∧
     (first (2 ^ 20) (fun _ => true) (scratchAddr h s c.bn (c.off.signExtend 32) 4 none) →
       exec (.v1Ld h c) s = t 3 0 7 (scratchAddr h s c.bn (c.off.signExtend 32) 4 none j)) ∧
     (first (2 ^ 20) (m d.mn) (fun j => scratchAddr h s d.bn (d.off.signExtend 32) 0 (some d.vb) j 1) → (s.me.rm h.slot d.mn).2 = false →
       (s.me.rv h.slot d.vb 1).poison = 0#32 →
       exec (.v1Scatm h d) s = t 3 1 2 (scratchAddr h s d.bn (d.off.signExtend 32) 0 (some d.vb) j 1)))

/-! ## Scalar and tagged accesses of S, C0 and C1 (R158 to R170, R190, R195 to R207, R369 to R371) -/

namespace Sys2Proof.Claims

open Sys2Proof.Machine

/-- Everything of the core stays but what an access on its way adds: the list of timed accesses, flumes and the place in
program order. -/
def onItsWay (s t : State) (x : Timed) : Prop :=
  sameRegs t.me s.me ∧ sameMem s t ∧ sameOthers s t ∧ t.me.timed = s.me.timed ++ [x] ∧ t.me.seq = s.me.seq + 1 ∧
    t.me.flights = s.me.flights ∧ t.me.sb = s.me.sb ∧ t.me.loads = s.me.loads

/-- The open segment holds a store back (R382): no byte of memory has changed, nothing is on its way, and of the core only the held
stores, the lines that they make, and their number in SEG_STATE have. -/
def heldBack (s t : State) (sp : Space) (bs : List (Nat × Byte)) (ws : List (Nat × Bool × Bool)) : Prop :=
  sameMem s t ∧ sameOthers s t ∧ t.me.seq = s.me.seq + 1 ∧ t.me.timed = s.me.timed ∧ t.me.sb = s.me.sb ∧ t.me.loads = s.me.loads ∧
    t.me.flights = s.me.flights ∧ t.me.s = s.me.s ∧ t.me.p = s.me.p ∧ t.me.m = s.me.m ∧ t.me.v = s.me.v ∧ t.me.t = s.me.t ∧
    t.me.b = s.me.b ∧ t.me.k = s.me.k ∧ t.me.ring = s.me.ring ∧ t.me.arr = s.me.arr ∧ t.me.latch = s.me.latch ∧
    t.me.seg.journal = s.me.seg.journal ∧ t.me.seg.lines = mergeStore s.me.seg.lines sp bs ws ∧
    t.me.sw = { s.me.sw with segState := fieldPut s.me.sw.segState 45 7 t.me.seg.lines.length } ∧
    ∃ e, t.me.seg.held = s.me.seg.held ++ [e] ∧ e.space = sp ∧ e.kind = .store ∧ e.bytes = bs ∧ e.words = ws ∧ e.seq = s.me.seq ∧
      e.rel = 0 ∧ e.beat = none ∧ e.gd = none

/-- A load in a C slot is on its way to the register `d`: the result is pending, its register is marked (R82), and nothing else of its
core has changed. `away` says that it went to a controller. -/
def loadIssued (h : Hdr) (d : CDst) (s t : State) (pas : List Nat) (acq : Nat) (va : Word) (kind : LoadKind) (away : Bool) : Prop :=
  sameMem s t ∧ (∀ k, k ≠ s.coreNo → t.coreAt k = s.coreAt k) ∧ t.me.seq = s.me.seq + 1 ∧
  t.me.loads = s.me.loads ++ [{
    seq := s.me.seq, dest := d.phys s.me, kind := kind, addrs := pas, acq := acq, due := s.me.padded, slot := slotCode h.slot,
    pc := s.me.bundlePc, virt := va, seg := s.me.segOpen, away := away, got := [], arrived := none }] ∧
  (match d with
   | .s r => (∀ k, t.me.sreg k = if k = s.me.physS r.toNat then { s.me.sreg k with pend := true } else s.me.sreg k) ∧
       t.me.v = s.me.v
   | .v r _ => (∀ k, t.me.vreg k = if k = s.me.physV r.toNat then { s.me.vreg k with pend := true } else s.me.vreg k) ∧
       t.me.s = s.me.s) ∧
  t.me.p = s.me.p ∧ t.me.m = s.me.m ∧ t.me.t = s.me.t ∧ t.me.b = s.me.b ∧ t.me.sw = s.me.sw ∧ t.me.sb = s.me.sb

/-- Byte `i` of a scalar. -/
def sbyte (v : Word) (i : Nat) : Byte := el v 8 i

end Sys2Proof.Claims

/-- The loft loads and stores (R161, R164, R168): at the address of the window of the core's die, a load reads and a store writes
20 cycles after the issue; the acquire and release forms carry the scope of the bundle. In an open segment a plain store is held back. -/
def Obligations.LoftAccessesIssue : Prop :=
  ∀ (h : Hdr) (f : OpLFL) (g : OpLFS) (s : State), acts h false s →
    (let a := 2 ^ 26 * dieOf s.me.id + (s.loftWindow s.me.ctx (dieOf s.me.id)).1 +
       ((s.me.rs h.slot f.sb).1 + (s.me.disp h.slot (f.imm.signExtend 32)).signExtend 64).toNat
     let lat := if s.me.determ then fieldGet s.me.sw.determ 24 8 else if s.me.profile2 then 44 else 40
     let load (n acq : Nat) (o : Host.Outcome State Fault Refusal) : Prop := ∃ t, o = .next t ∧ onItsWay s t {
       due := s.me.time + 20, seq := s.me.seq, rel := 0, acq := acq, gd := none,
       act := .load .loft a n false
         { s.me.flight h.slot (.scalar (s.me.physS f.sd.toNat)) lat with acq := decide (acq ≠ 0) } }
     load 8 0 (exec (.sLld h f) s) ∧ load 4 0 (exec (.sLlw h f) s) ∧
     load 8 s.me.scope (exec (.sLldAcq h f) s) ∧ load 4 s.me.scope (exec (.sLlwAcq h f) s)) ∧
    (s.me.segOpen = false →
     let a := 2 ^ 26 * dieOf s.me.id + (s.loftWindow s.me.ctx (dieOf s.me.id)).1 +
       ((s.me.rs h.slot g.sb 1).1 + (s.me.disp h.slot (g.imm.signExtend 32)).signExtend 64).toNat
     let x := s.me.rs h.slot g.sa
     let store (n rel due : Nat) (o : Host.Outcome State Fault Refusal) : Prop := ∃ t, o = .next t ∧ onItsWay s t {
       due := due, seq := s.me.seq, rel := rel, acq := 0, gd := none,
       act := .store .loft ((List.range n).map (fun i => (a + i, sbyte x.1 i))) (wordsOf a n x.2) }
     let due := if s.me.determ && decide (0 < s.me.scope) then s.me.padded else s.me.time + 20
     store 8 0 (s.me.time + 20) (exec (.sLst h g) s) ∧ store 4 0 (s.me.time + 20) (exec (.sLstw h g) s) ∧
     store 8 s.me.scope due (exec (.sLstRel h g) s) ∧ store 4 s.me.scope due (exec (.sLstwRel h g) s)) ∧
    (s.me.segOpen = true →
     let a := 2 ^ 26 * dieOf s.me.id + (s.loftWindow s.me.ctx (dieOf s.me.id)).1 +
       ((s.me.rs h.slot g.sb 1).1 + (s.me.disp h.slot (g.imm.signExtend 32)).signExtend 64).toNat
     let x := s.me.rs h.slot g.sa
     let store (n : Nat) (o : Host.Outcome State Fault Refusal) : Prop := ∃ t, o = .next t ∧
       heldBack s t .loft ((List.range n).map (fun i => (a + i, sbyte x.1 i))) (wordsOf a n x.2)
     store 8 (exec (.sLst h g) s) ∧ store 4 (exec (.sLstw h g) s))

/-- The loads and stores of C0 reach the cluster window of the unit (R160, R164, R169): read or written 12 cycles after the
issue. In an open segment a plain store is held back. -/
def Obligations.ClusterAccessesIssue : Prop :=
  ∀ (h : Hdr) (f : OpCML) (v : OpCMVL) (g : OpCMS) (w : OpCMVS) (m : OpCMVM) (s : State), acts h false s → h.slot = .C0 →
    let at_ (sb : BitVec 7) (imm : BitVec 21) (k : Nat := 0) : Nat := 2 ^ 23 * clusterOf s.me.id + s.me.clusterWindow.1 +
      ((s.me.rs .C0 sb k).1 + (s.me.disp .C0 (imm.signExtend 32)).signExtend 64).toNat
    let lat := if s.me.determ then fieldGet s.me.sw.determ 16 8 else if s.me.profile2 then 28 else 24
    let load (a n acq : Nat) (spread : Bool) (fl : Flight) (o : Host.Outcome State Fault Refusal) : Prop :=
      ∃ t, o = .next t ∧ onItsWay s t {
        due := s.me.time + 12, seq := s.me.seq, rel := 0, acq := acq, gd := none, act := .load .cluster a n spread { fl with acq := decide (acq ≠ 0) } }
    let sfl := s.me.flight .C0 (.scalar (s.me.physS (f.sd.setWidth 7).toNat)) lat
    let vfl := { s.me.flight .C0 (s.me.vdest v.vd) lat with tag := v.tag }
    (load (at_ f.sb f.imm) 8 0 false sfl (exec (.cLdd h f) s) ∧ load (at_ f.sb f.imm) 4 0 false sfl (exec (.cLdw h f) s) ∧
     load (at_ f.sb f.imm) 2 0 false sfl (exec (.cLdh h f) s) ∧ load (at_ f.sb f.imm) 1 0 false sfl (exec (.cLdb h f) s) ∧
     load (at_ f.sb f.imm) 8 s.me.scope false sfl (exec (.cLddAcq h f) s) ∧
     load (at_ f.sb f.imm) 4 s.me.scope false sfl (exec (.cLdwAcq h f) s) ∧
     load (at_ v.sb v.imm) 128 0 false vfl (exec (.cVld h v) s) ∧ load (at_ v.sb v.imm) 4 0 true vfl (exec (.cVldb h v) s)) ∧
    (s.me.segOpen = false →
     let store (bs : List (Nat × Byte × Bool)) (rel due : Nat) (g : Bool) (o : Host.Outcome State Fault Refusal) : Prop :=
       ∃ t, o = .next t ∧ onItsWay s t {
         due := due, seq := s.me.seq, rel := rel, acq := 0, gd := s.me.pairNow g,
         act := .store .cluster (bs.map (fun e => (e.1, e.2.1))) (wordsOfBytes (bs.map (fun e => (e.1, e.2.2)))) }
     let x := s.me.rs .C0 (g.sa.setWidth 7)
     let bytes (n : Nat) := (List.range n).map (fun i => (at_ g.sb g.imm 1 + i, sbyte x.1 i, x.2))
     let late := if s.me.determ && decide (0 < s.me.scope) then s.me.padded else s.me.time + 12
     store (bytes 8) 0 (s.me.time + 12) g.g (exec (.cStd h g) s) ∧ store (bytes 4) 0 (s.me.time + 12) g.g (exec (.cStw h g) s) ∧
     store (bytes 2) 0 (s.me.time + 12) g.g (exec (.cSth h g) s) ∧ store (bytes 1) 0 (s.me.time + 12) g.g (exec (.cStb h g) s) ∧
     store (bytes 8) s.me.scope late g.g (exec (.cStdRel h g) s) ∧ store (bytes 4) s.me.scope late g.g (exec (.cStwRel h g) s) ∧
     (let a := s.me.rv .C0 w.va
      store ((List.range 128).map (fun i => (at_ w.sb w.imm + i, el a.val 8 i, a.poison.getLsbD (i / 4)))) 0 (s.me.time + 12) w.g
        (exec (.cVst h w) s)) ∧
     (let a := s.me.rv .C0 m.va
      let inc (i : Nat) : Bool := (s.me.rm .C0 m.mn).1.getLsbD (i / 4)
      ((s.me.rm .C0 m.mn).1 ≠ 0#32 →
        store (((List.range 128).filter inc).map (fun i => (at_ m.sb m.imm + i, el a.val 8 i, a.poison.getLsbD (i / 4)))) 0
          (s.me.time + 12) m.g (exec (.cVstm h m) s)) ∧
      ((s.me.rm .C0 m.mn).1 = 0#32 → exec (.cVstm h m) s = .next s))) ∧
    (s.me.segOpen = true →
     let store (bs : List (Nat × Byte × Bool)) (o : Host.Outcome State Fault Refusal) : Prop := ∃ t, o = .next t ∧
       heldBack s t .cluster (bs.map (fun e => (e.1, e.2.1))) (wordsOfBytes (bs.map (fun e => (e.1, e.2.2))))
     let x := s.me.rs .C0 (g.sa.setWidth 7)
     let bytes (n : Nat) := (List.range n).map (fun i => (at_ g.sb g.imm 1 + i, sbyte x.1 i, x.2))
     store (bytes 8) (exec (.cStd h g) s) ∧ store (bytes 4) (exec (.cStw h g) s) ∧ store (bytes 2) (exec (.cSth h g) s) ∧
     store (bytes 1) (exec (.cStb h g) s) ∧
     (let a := s.me.rv .C0 w.va
      store ((List.range 128).map (fun i => (at_ w.sb w.imm + i, el a.val 8 i, a.poison.getLsbD (i / 4)))) (exec (.cVst h w) s)) ∧
     (let a := s.me.rv .C0 m.va
      let inc (i : Nat) : Bool := (s.me.rm .C0 m.mn).1.getLsbD (i / 4)
      (s.me.rm .C0 m.mn).1 ≠ 0#32 →
        store (((List.range 128).filter inc).map (fun i => (at_ m.sb m.imm + i, el a.val 8 i, a.poison.getLsbD (i / 4))))
          (exec (.cVstm h m) s)))

/-- The checks of a main-memory access in C1 (R162, R163, R369 to R371), where no TLB of the core or its cluster holds an entry:
an address of 2^48 or more, or a last byte past it, is out of range; one that is no multiple of its width is misaligned; a walk
that fails gives its translation fault; a missing right the access fault; a quarantined page the poison-consumed trap; and an
access within one granted page gives the physical address of each of its bytes. Where several hold, the first in the order range,
alignment, end, translation, rights, quarantine, presence is raised (read by inference, log 22). -/
def Obligations.MainMemoryAddressChecks : Prop :=
  ∀ (s : State) (sl : Slot) (va : Word) (n align kind log2 : Nat) (rd wr : Bool), 0 < n → 0 < align →
    s.me.tlb = [] → SMap.get s.clusterTlb (s.me.id / 16) [] = [] →
    let t (code sub level : Nat) : Except Trap C1Plan :=
      .error { s.me.trap sl code with sub := sub, addr := va, kind := kind, size := log2, level := level }
    let plan := s.c1Plan sl va n align kind log2 rd wr
    (2 ^ 48 ≤ va.toNat → plan = t 9 2 0) ∧
    (va.toNat < 2 ^ 48 → va.toNat % align ≠ 0 → plan = t 9 1 0) ∧
    (va.toNat < 2 ^ 48 → va.toNat % align = 0 → 2 ^ 48 < va.toNat + n → plan = t 9 2 0) ∧
    (va.toNat % align = 0 → va.toNat + n ≤ 2 ^ 48 →
      (∀ a level, s.tableWorked s.me.ctx va.toNat = some (a, level) → va.toNat / 2 ^ 16 = (va.toNat + n - 1) / 2 ^ 16 →
        plan = t 7 0 level) ∧
      (∀ code sub level, s.tableWorked s.me.ctx va.toNat = none → walk s s.me.ctx va.toNat = .fail code sub level →
        va.toNat / 2 ^ 16 = (va.toNat + n - 1) / 2 ^ 16 → plan = t code sub level) ∧
      (∀ pa attr lg, s.tableWorked s.me.ctx va.toNat = none → walk s s.me.ctx va.toNat = .ok pa attr lg → va.toNat / 2 ^ 16 = (va.toNat + n - 1) / 2 ^ 16 →
        let denied := (rd && !attr.getLsbD 2) || (wr && !attr.getLsbD 3) || (!s.me.sup && !attr.getLsbD 5)
        (denied = true → plan = t 9 3 0) ∧ (denied = false → attr.getLsbD 7 = true → plan = t 6 0 0) ∧
        (denied = false → attr.getLsbD 7 = false → populated pa = false → plan = t 9 2 0) ∧
        (denied = false → attr.getLsbD 7 = false → populated pa = true → s.layerOk pa = false → plan = t 9 2 0) ∧
        (denied = false → attr.getLsbD 7 = false → populated pa = true → s.layerOk pa = true →
          plan = .ok ((List.range n).map (fun i => pa + i), attr))))

/-- A C1 load whose checks pass is on its way: its bytes, in order, its scope for an acquire, and the pending bit of its destination
(R82, R162, R169). On a worked page it goes to the home die's controller with its beat tag (R163, R278). That C1.VLD is aligned to its
element is read by inference (log 14). -/
def Obligations.MainMemoryLoadsIssue : Prop :=
  ∀ (h : Hdr) (f : OpCML) (v : OpCMVL) (s : State), acts h false s → h.slot = .C1 →
    let ea (sb : BitVec 7) (imm : BitVec 21) : Word := (s.me.rs .C1 sb).1 + (s.me.disp .C1 (imm.signExtend 32)).signExtend 64
    let load (d : CDst) (va : Word) (n align log2 acq : Nat) (kind : LoadKind) (o : Host.Outcome State Fault Refusal) : Prop :=
      ∀ pas,
        (s.plainPlan .C1 va n align 0 log2 true false = .ok (pas, none) →
          ∃ t, o = .next t ∧ sameOthers s t ∧ loadIssued h d s t pas acq va kind false) ∧
        ∀ beat, s.plainPlan .C1 va n align 0 log2 true false = .ok (pas, some beat) →
          ∃ t, o = .next t ∧ loadIssued h d s t pas acq va kind true ∧
            (t.dieAt (homeDie (pas.headD 0))).accesses = (s.dieAt (homeDie (pas.headD 0))).accesses ++ [{
              core := s.me.id, slot := 5, seq := s.me.seq, pc := s.me.bundlePc, virt := va, ctx := s.me.ctx, tag := beat, bytes := [],
              words := [], addrs := pas, load := true, held := false }]
    let sd := CDst.s (f.sd.setWidth 7)
    let vd := CDst.v v.vd v.tag
    let a := ea f.sb f.imm
    let ew := if v.tag = 0#4 ∨ v.tag = 1#4 then 1 else if v.tag = 2#4 then 2 else max 1 (tagWidth v.tag.toNat / 8)
    load sd a 8 8 3 0 .bytes (exec (.cLdd h f) s) ∧ load sd a 4 4 2 0 .bytes (exec (.cLdw h f) s) ∧
    load sd a 2 2 1 0 .bytes (exec (.cLdh h f) s) ∧ load sd a 1 1 0 0 .bytes (exec (.cLdb h f) s) ∧
    load sd a 8 8 3 s.me.scope .bytes (exec (.cLddAcq h f) s) ∧ load sd a 4 4 2 s.me.scope .bytes (exec (.cLdwAcq h f) s) ∧
    load vd (ea v.sb v.imm) 128 ew 7 0 .bytes (exec (.cVld h v) s) ∧
    load vd (ea v.sb v.imm) 4 4 2 0 .spread (exec (.cVldb h v) s)

/-- A C1 store whose checks pass takes the last place of the store buffer with its bytes at their physical addresses; no byte of memory
has changed yet (R169, R170, R197). In an open segment a plain one is held back (R382). To a worked page a plain one goes to the home
die's controller with its beat tag, unless it waits for a D-pair (R163, R278). That C1.VST is aligned to its element is read by inference
(log 14). -/
def Obligations.MainMemoryStoresIssue : Prop :=
  ∀ (h : Hdr) (g : OpCMS) (w : OpCMVS) (m : OpCMVM) (s : State), acts h false s → h.slot = .C1 →
    let ea (sb : BitVec 7) (imm : BitVec 21) (k : Nat := 0) : Word := (s.me.rs .C1 sb k).1 + (s.me.disp .C1 (imm.signExtend 32)).signExtend 64
    let store (va : Word) (lo n align log2 rel : Nat) (ordered gd : Bool) (data : List (Nat × Byte × Bool))
        (o : Host.Outcome State Fault Refusal) : Prop :=
      ∀ pas,
        let bs := data.map (fun x => (pas.getD (x.1 - lo) 0, x.2.1))
        let ws := wordsOfBytes (data.map (fun x => (pas.getD (x.1 - lo) 0, x.2.2)))
        let plan := s.plainPlan .C1 (va + BitVec.ofNat 64 lo) n align 1 log2 false true
        (s.me.segOpen = false → plan = .ok (pas, none) →
          ∃ t e, o = .next t ∧ sameRegs t.me s.me ∧ sameMem s t ∧ sameOthers s t ∧ t.me.loads = s.me.loads ∧
            t.me.seq = s.me.seq + 1 ∧ t.me.sb = s.me.sb ++ [e] ∧ e.seq = s.me.seq ∧ e.kind = .store ∧ e.rel = rel ∧ e.beat = none ∧
            e.gd = s.me.pairNow gd ∧ e.bytes = bs ∧ e.words = ws ∧ e.unit = (if log2 = 7 then max 4 align else 0)) ∧
        (s.me.segOpen = true → ordered = false → plan = .ok (pas, none) → ∃ t, o = .next t ∧ heldBack s t .main bs ws) ∧
        ∀ beat, rel = 0 → s.me.pairNow gd = none → plan = .ok (pas, some beat) →
          ∃ t y, o = .next t ∧ sameRegs t.me s.me ∧ sameMem s t ∧ (∀ k, k ≠ s.coreNo → t.coreAt k = s.coreAt k) ∧
            t.me.loads = s.me.loads ∧ t.me.sb = s.me.sb ∧ t.me.seq = s.me.seq + 1 ∧
            (t.dieAt (homeDie (pas.headD 0))).accesses = (s.dieAt (homeDie (pas.headD 0))).accesses ++ [y] ∧ y.core = s.me.id ∧
            y.seq = s.me.seq ∧ y.tag = beat ∧ y.load = false ∧ y.bytes = bs.map (fun b => (b.1, b.2, 0xFF#8)) ∧ y.words = ws
    let x := s.me.rs .C1 (g.sa.setWidth 7)
    let bytes (n : Nat) := (List.range n).map (fun i => (i, sbyte x.1 i, x.2))
    let a := ea g.sb g.imm 1
    let vbytes (v : VReg) (inc : Nat → Bool) :=
      ((List.range 128).filter (fun i => inc (i / 4))).map (fun i => (i, el v.val 8 i, v.poison.getLsbD (i / 4)))
    store a 0 8 8 3 0 false g.g (bytes 8) (exec (.cStd h g) s) ∧ store a 0 4 4 2 0 false g.g (bytes 4) (exec (.cStw h g) s) ∧
    store a 0 2 2 1 0 false g.g (bytes 2) (exec (.cSth h g) s) ∧ store a 0 1 1 0 0 false g.g (bytes 1) (exec (.cStb h g) s) ∧
    store a 0 8 8 3 s.me.scope true g.g (bytes 8) (exec (.cStdRel h g) s) ∧
    store a 0 4 4 2 s.me.scope true g.g (bytes 4) (exec (.cStwRel h g) s) ∧
    (let v := s.me.rv .C1 w.va
     store (ea w.sb w.imm) 0 128 (ewBytes v.tag.toNat) 7 0 false w.g (vbytes v (fun _ => true)) (exec (.cVst h w) s)) ∧
    (let v := s.me.rv .C1 m.va
     let mask := (s.me.rm .C1 m.mn).1
     (mask = 0#32 → exec (.cVstm h m) s = .next s) ∧
     ∀ lo hi, lo ≤ hi → hi < 32 → mask.getLsbD lo = true → mask.getLsbD hi = true →
       (∀ j < 32, mask.getLsbD j = true → lo ≤ j ∧ j ≤ hi) →
       store (ea m.sb m.imm) (4 * lo) (4 * (hi + 1 - lo)) 4 7 0 false m.g (vbytes v (fun j => mask.getLsbD j)) (exec (.cVstm h m) s))

/-- REGISTER_RESULT_LAND (R82, R190, R199): the pending load that the turn picks among those that may land writes its register, clears
its pending bit and leaves the list. Where no store of the core's own and no outbound entry stands before it, no L1 copy serves it and no
suspended command holds its row (R295), a scalar takes its bytes lowest first with the poison of their words; in a segment its old value
enters the journal (R381). A vector takes its elements one turn after another, in any order (R163, log 81), a spread load its word in
every lane, a plane load bit i of its elements from plane i (R286). An acquire leaves no L1 copy of a word that the core does not own. A
load that fails leaves the value with poison, and its trap is due at the next boundary. In a deterministic launch before its time a load
only keeps what it has read (R395). -/
def Obligations.PendingResultsLand : Prop :=
  ∀ (s : State) (l : PendLoad), let ok := s.me.loads.filter (s.loadReady s.coreNo)
    ok[s.turn.pick % ok.length]? = some l →
    let found (a : Nat) : Byte × Bool := match l.got.find? (fun e => e.1 == a) with
      | some e => e.2
      | none => (s.home.byte a, s.home.pois (a / 4))
    let clear : Prop := s.me.l1 = [] ∧ s.me.sb = [] ∧ s.me.seg.held = [] ∧ s.outq = [] ∧ s.rowRefused l.addrs = false
    let now : Prop := s.me.determ = false ∨ (s.me.sup = false ∧ l.due ≤ s.me.time)
    let early : Prop := s.me.determ = true ∧ s.me.sup = false ∧ s.me.drains = false ∧ s.me.wants = [] ∧ s.me.entering = none ∧
      s.me.time < l.due
    let gone (t : State) : Prop := t.me.loads = s.me.loads.filter (fun x => x.seq ≠ l.seq) ∧ sameMem s t ∧
      t.me.p = s.me.p ∧ t.me.m = s.me.m ∧ t.me.t = s.me.t
    let scalar (t : State) (k : Nat) (r : SReg) : Prop := gone t ∧ t.me.sreg k = r ∧ (∀ j, j ≠ k → t.me.sreg j = s.me.sreg j) ∧
      t.me.v = s.me.v ∧ (l.seg = false → t.me.sw = s.me.sw ∧ t.me.seg = s.me.seg) ∧
      (l.seg = true → (∀ r, JEntry.scalar k r ∉ s.me.seg.journal) →
        t.me.seg.journal = s.me.seg.journal ++ [.scalar k { s.me.sreg k with pend := false }])
    let vector (t : State) (k : Nat) : Prop := gone t ∧ (∀ j, j ≠ k → t.me.vreg j = s.me.vreg j) ∧ t.me.s = s.me.s ∧
      (t.me.vreg k).pend = false ∧ (l.seg = false → t.me.sw = s.me.sw ∧ t.me.seg = s.me.seg)
    let kept (t : State) : Prop := t.me.s = s.me.s ∧ t.me.v = s.me.v ∧ t.me.loads.length = s.me.loads.length ∧
      ∀ x ∈ t.me.loads, x.seq = l.seq → x.arrived.isSome = true
    (∀ k v p, l.dest = .scalar k → l.kind = .value v p → l.acq = 0 → ∃ t, exec .registerResultLand s = .next t ∧
      scalar t k { val := v, poison := p, pend := false }) ∧
    (∀ k, l.dest = .scalar k → l.kind = .bytes → l.arrived = none → l.got = [] → clear →
      ∃ t, exec .registerResultLand s = .next t ∧ (l.acq ≠ 0 → ∀ w ∈ t.me.l1, SMap.get t.owner w.1 0 = s.coreNo + 1) ∧
        (now → scalar t k {
          val := BitVec.ofNat 64 (ofElems 8 (l.addrs.map (fun a => (s.home.byte a).toNat)))
          poison := l.addrs.any (fun a => s.home.pois (a / 4)), pend := false }) ∧
        (early → kept t)) ∧
    (∀ k tag, l.dest = .vec k tag → l.kind = .bytes → l.arrived = none → l.acq = 0 → clear → s.me.flumeOf k = none →
      l.addrs.length = 128 → l.addrs.Nodup →
      ∃ t, exec .registerResultLand s = .next t ∧
        ((s.loadPart l).2.length = (s.loadPart l).1.length →
          (now → vector t k ∧ (t.me.vreg k).tag = tag ∧
            (∀ i < 128, el (t.me.vreg k).val 8 i = (found (l.addrs.getD i 0)).1) ∧
            (∀ j < 32, (t.me.vreg k).poison.getLsbD j = (List.range 4).any (fun i => (found (l.addrs.getD (4 * j + i) 0)).2))) ∧
          (early → kept t)) ∧
        ((s.loadPart l).2.length < (s.loadPart l).1.length → sameRegs t.me s.me ∧ sameMem s t ∧
          ∀ x ∈ t.me.loads, x.seq = l.seq → x.arrived = none ∧
            x.got = l.got ++ (s.loadPart l).2.map (fun a => (a, s.home.byte a, s.home.pois (a / 4))))) ∧
    (∀ k tag, l.dest = .vec k tag → l.kind = .spread → l.arrived = none → l.got = [] → l.acq = 0 → clear → s.me.flumeOf k = none →
      l.addrs.length = 4 → now →
      ∃ t, exec .registerResultLand s = .next t ∧ vector t k ∧ (t.me.vreg k).tag = tag ∧
        ∀ j < 32, el (t.me.vreg k).val 32 j = BitVec.ofNat 32 (ofElems 8 (l.addrs.map (fun a => (s.home.byte a).toNat))) ∧
          (t.me.vreg k).poison.getLsbD j = l.addrs.any (fun a => s.home.pois (a / 4))) ∧
    (∀ k tag w width signed v q, l.dest = .vec k tag → l.kind = .planes w width signed → l.arrived = some (v, q) → l.acq = 0 →
      s.me.flumeOf k = none → 0 < w → w ≤ width → 1024 % width = 0 →
      ∃ t, exec .registerResultLand s = .next t ∧ vector t k ∧ (t.me.vreg k).tag = tag ∧ (t.me.vreg k).poison = q ∧
        ∀ j < 1024 / width, ∀ i < width, (el (t.me.vreg k).val width j).getLsbD i =
          if i < w then v.getLsbD (1024 / width * i + j) else signed && v.getLsbD (1024 / width * (w - 1) + j)) ∧
    (∀ k tr, l.dest = .scalar k → l.kind = .fail tr → l.acq = 0 → l.seg = false → s.me.sup = false →
      ∃ t, exec .registerResultLand s = .next t ∧ t.me.sreg k = { val := (s.me.sreg k).val, poison := true, pend := false } ∧
        (∀ j, j ≠ k → t.me.sreg j = s.me.sreg j) ∧ t.me.async.any (fun x => x.code == tr.code) = true)

/-- STORE_PERFORM (R188, R200): a store that the turn picks among those that may be performed leaves the store buffer; the bytes
that its own die homes, and every byte of a release at package or system scope, are written at their home, the others wait in
the die's outbound queue; no other byte of main memory changes; of a vector any elements go first, and the others keep its place (R163,
log 81); a held store of a committed segment may then take its place
(R342). OUTBOUND_PERFORM does the same for an entry of that queue. Both for rows that no suspended command holds (R295). -/
def Obligations.StoresReachTheirHomes : Prop :=
  ∀ (s : State),
    (∀ e, let ok := s.me.sb.filter (s.storeReady s.coreNo)
      ok[s.turn.pick % ok.length]? = some e → e.kind = .store → e.beat = none → s.rowRefused e.addrs = false →
      let near (a : Nat) : Bool := decide (3 ≤ e.rel) || a / 2 ^ 36 == dieOf s.coreNo
      let part := s.pieceOf e.unit (e.bytes.map (·.1))
      let rest := e.part ((e.bytes.map (·.1)).filter (fun a => !part.contains a))
      let x := if rest.bytes = [] then e else e.part part
      ∃ t : State, exec .storePerform s = .next (t.refill s.coreNo).settle ∧
        (e.unit = 0 → rest.bytes = []) ∧ (e.bytes ≠ [] → x.bytes ≠ []) ∧
        (∀ a, t.home.byte a = match (x.bytes.filter (fun b => near b.1)).reverse.find? (fun b => b.1 == a) with
          | some b => b.2
          | none => s.home.byte a) ∧
        t.me.sb = (if rest.bytes = [] then s.me.sb.filter (fun x => x.seq ≠ e.seq)
          else s.me.sb.map (fun x => if x.seq = e.seq then rest else x)) ∧ t.loft = s.loft ∧ t.cmem = s.cmem ∧ t.me.scratch = s.me.scratch ∧
        t.me.slices = s.me.slices ∧ sameRegs t.me s.me ∧
        (let far := x.bytes.filter (fun b => !near b.1)
         let low := ((far.map (·.1)).headD 0) % 65536
         let queued := s.outq ++ (if far = [] then [] else [(dieOf s.coreNo, {
           core := s.coreNo, seq := e.seq, ctx := s.me.ctx, bytes := far, words := x.words.filter (fun w => !near (4 * w.1))
           seen := false, pc := e.pc
           virt := BitVec.ofNat 64 (e.virt.toNat / 65536 * 65536 + low + (if e.virt.toNat % 65536 ≤ low then 0 else 65536)) })])
         t.outq = if e.rel = 0 then queued
           else queued.map (fun x => if x.2.core == s.coreNo && decide (x.2.seq < e.seq) then (x.1, { x.2 with seen := true }) else x))) ∧
    (∀ e, let ok := s.outReady s.dieNo
      ok[s.turn.pick % ok.length]? = some e → s.rowRefused (e.2.bytes.map (·.1)) = false →
      ∃ t : State, exec .outboundPerform s = .next t.settle ∧
        (∀ a, t.home.byte a = match e.2.bytes.reverse.find? (fun b => b.1 == a) with
          | some b => b.2
          | none => s.home.byte a) ∧
        t.outq = s.outq.erase e ∧
        t.loft = s.loft ∧ t.cmem = s.cmem)

/-! ## Fences, atomics, queues, barriers, beats, launches (R203 to R207, R218 to R224, R279 to R287, R331, R333) -/

namespace Sys2Proof.Claims

open Sys2Proof.Machine

/-- An operation has taken the last place of the store buffer with `e`; the only register that it marks is the scalar `sd`, as
waiting for its result, and no byte of memory has changed. -/
def buffered (s t : State) (e : SbEntry) (sd : Option (BitVec 7)) : Prop :=
  sameMem s t ∧ sameElse s t ∧ t.me.sb = s.me.sb ++ [e] ∧ e.seq = s.me.seq ∧ e.pc = s.me.bundlePc ∧
    (∀ k, t.me.sreg k = if sd.map (fun r => s.me.physS r.toNat) = some k then { s.me.sreg k with pend := true } else s.me.sreg k) ∧
    t.me.p = s.me.p ∧ t.me.m = s.me.m ∧ t.me.v = s.me.v ∧ t.me.t = s.me.t ∧ t.me.b = s.me.b ∧ t.me.sw = s.me.sw

/-- The new value of an atomic (R204): 0 add, 1 minimum and 2 maximum of signed values, 3 and, 4 or, 5 exclusive or, 6 swap,
7 compare and swap. -/
def atomicOf (k : Nat) {w : Nat} (old x cmp : BitVec w) : BitVec w :=
  match k with
  | 0 => old + x
  | 1 => if x.slt old then x else old
  | 2 => if old.slt x then x else old
  | 3 => old &&& x
  | 4 => old ||| x
  | 5 => old ^^^ x
  | 6 => x
  | _ => if old = cmp then x else old

end Sys2Proof.Claims

/-- A fence that issues joins the core's fences, at the wider of its scope operand and the bundle's scope field, and changes
nothing else; FENCE.W also holds back issue until it is complete (R203). In a deterministic launch FENCE.W, and a fence with a release
above core scope, has the time that R395 fixes. -/
def Obligations.FencesIssue : Prop :=
  ∀ (h : Hdr) (f : OpFN) (s : State), acts h false s →
    let fence (kind : Nat) (wait : Bool) (o : Host.Outcome State Fault Refusal) : Prop :=
      ∃ t, o = .next t ∧ sameRegs t.me s.me ∧ sameMem s t ∧ sameOthers s t ∧ t.me.sb = s.me.sb ∧ t.me.loads = s.me.loads ∧
        t.me.seq = s.me.seq + 1 ∧ t.me.fences = s.me.fences ++ [{
          seq := s.me.seq, kind := kind, scope := max f.scope.toNat s.me.scope, wait := wait
          due := if wait ∨ (kind ≠ 2 ∧ max f.scope.toNat s.me.scope ≠ 0) then s.me.padded else 0, done := false }]
    fence 1 false (exec (.cFenceRel h f) s) ∧ fence 2 false (exec (.cFenceAcq h f) s) ∧ fence 3 false (exec (.cFenceFull h f) s) ∧
    fence 1 true (exec (.cFenceWRel h f) s) ∧ fence 2 true (exec (.cFenceWAcq h f) s) ∧ fence 3 true (exec (.cFenceWFull h f) s)

/-- An atomic whose address checks pass takes a place in the store buffer with its operation, width, operands and the bundle's
scope; a returning form marks its destination (R204, R206). Performed from there at the home L2 (R205), it replaces the word by
the operation's result, changes no other byte, and answers the old value; a poisoned word is left as it is, and the
poison-consumed trap follows, for an atomic of the running handler as a supervisor fault (R206, R361, R376). The words lie in no
row of a suspended command (R295). -/
def Obligations.AtomicsIssueAndPerform : Prop :=
  (∀ (h : Hdr) (r : OpCAR) (n : OpCAN) (cr : OpCACR) (cn : OpCACN) (s : State), acts h false s →
    let atom (sd : Option (BitVec 7)) (sb sa : BitVec 7) (imm : BitVec 15) (k : Nat) (wide : Bool) (cmp : Word)
        (o : Host.Outcome State Fault Refusal) : Prop :=
      let va := (s.me.rs h.slot sb).1 + (s.me.disp h.slot (imm.signExtend 32)).signExtend 64
      let size := if wide then 8 else 4
      ∀ pas, s.homePlan h.slot va size size 3 (if wide then 3 else 2) true true = .ok pas →
        ∃ t e, o = .next t ∧ buffered s t e sd ∧ e.kind = .atomic k wide (s.me.rs h.slot sa 1).1 cmp ∧ e.rel = s.me.scope ∧
          e.dest = sd.map (fun r => s.me.physS r.toNat) ∧ e.addr = pas.headD 0 ∧ e.virt = va
    let ret (k : Nat) (i : Hdr → OpCAR → Instr) (j : Hdr → OpCAR → Instr) : Prop :=
      atom (some r.sd) r.sb r.sa r.imm k false 0 (exec (i h r) s) ∧ atom (some r.sd) r.sb r.sa r.imm k true 0 (exec (j h r) s)
    let nr (k : Nat) (i : Hdr → OpCAN → Instr) (j : Hdr → OpCAN → Instr) : Prop :=
      atom none n.sb n.sa n.imm k false 0 (exec (i h n) s) ∧ atom none n.sb n.sa n.imm k true 0 (exec (j h n) s)
    ret 0 .c1AaddI32 .c1AaddI64 ∧ ret 1 .c1AminI32 .c1AminI64 ∧ ret 2 .c1AmaxI32 .c1AmaxI64 ∧ ret 3 .c1AandI32 .c1AandI64 ∧
    ret 4 .c1AorI32 .c1AorI64 ∧ ret 5 .c1AxorI32 .c1AxorI64 ∧ ret 6 .c1AswpI32 .c1AswpI64 ∧
    nr 0 .c1AaddI32Nr .c1AaddI64Nr ∧ nr 1 .c1AminI32Nr .c1AminI64Nr ∧ nr 2 .c1AmaxI32Nr .c1AmaxI64Nr ∧
    nr 3 .c1AandI32Nr .c1AandI64Nr ∧ nr 4 .c1AorI32Nr .c1AorI64Nr ∧ nr 5 .c1AxorI32Nr .c1AxorI64Nr ∧
    nr 6 .c1AswpI32Nr .c1AswpI64Nr ∧
    atom (some cr.sd) cr.sb cr.sa cr.imm 7 false (s.me.rs h.slot cr.sc 2).1 (exec (.c1AcasI32 h cr) s) ∧
    atom (some cr.sd) cr.sb cr.sa cr.imm 7 true (s.me.rs h.slot cr.sc 2).1 (exec (.c1AcasI64 h cr) s) ∧
    atom none cn.sb cn.sa cn.imm 7 false (s.me.rs h.slot cn.sc 2).1 (exec (.c1AcasI32Nr h cn) s) ∧
    atom none cn.sb cn.sa cn.imm 7 true (s.me.rs h.slot cn.sc 2).1 (exec (.c1AcasI64Nr h cn) s)) ∧
  (∀ (s : State) (e : SbEntry) (k w : Nat) (x y : Word), let ok := s.me.sb.filter (s.storeReady s.coreNo)
    ok[s.turn.pick % ok.length]? = some e → e.kind = .atomic k (decide (w = 64)) x y → w = 32 ∨ w = 64 →
    s.rowRefused e.addrs = false →
    let old := BitVec.ofNat w (s.home.num e.addr (w / 8))
    let answer (kind : LoadKind) : List PendLoad := match e.dest with
      | none => []
      | some d => [{ seq := e.seq, dest := .scalar d, kind := kind, addrs := [], acq := e.rel, due := 0, slot := 5, pc := e.pc
                     virt := e.virt, seg := false, away := false, got := [], arrived := none }]
    (s.home.anyPois e.addr (w / 8) = false →
      ∃ t : State, exec .storePerform s = .next (t.refill s.coreNo).settle ∧
        t.home.num e.addr (w / 8) = (atomicOf k old (x.setWidth w) (y.setWidth w)).toNat ∧
        (∀ a, a < e.addr ∨ e.addr + w / 8 ≤ a → t.home.byte a = s.home.byte a) ∧
        t.me.loads = s.me.loads ++ answer (.value (old.setWidth 64) false) ∧
        t.me.sb = s.me.sb.filter (fun z => z.seq ≠ e.seq)) ∧
    (s.home.anyPois e.addr (w / 8) = true →
      ∃ t : State, exec .storePerform s = .next (t.refill s.coreNo).settle ∧ t.home = s.home ∧
        (e.dest.isSome = true → ∃ tr, tr.code = 6 ∧ tr.addr = e.virt ∧ t.me.loads = s.me.loads ++ answer (.fail tr)) ∧
        (e.dest = none → t.me.loads = s.me.loads ∧ t.me.pc = s.me.pc ∧ t.me.sw = s.me.sw ∧
          (s.me.sup = false ∨ e.seq < s.me.supFrom → t.me.async.any (fun z => z.code == 6) = true) ∧
          (s.me.sup = true → s.me.supFrom ≤ e.seq → t.me.supAsync.any (fun z => z.code == 6) = true))))

/-- Barriers (R218, R219, R222, R223): ARM sets expected and remaining and clears the flags and the failed count; ARRIVE takes its
count from remaining, or sets OVER and remaining to 0 where it is more; where then nothing is pending and none remains, the phase
advances and remaining is expected again. C.BARM, C.BARMR, C.BSIG and C.BSIGR put the change into the store buffer, and
STORE_PERFORM makes it at the barrier's home; a C.BSIGR of 0 puts none. -/
def Obligations.BarrierOperations : Prop :=
  (∀ (b : Barrier) (n : Nat),
    b.arm n = { b with expected := n, remaining := n, flags := 0, failed := 0 } ∧
    (n ≤ b.remaining → b.remaining - n ≠ 0 ∨ b.pending ≠ 0 → b.arrive n = { b with remaining := b.remaining - n }) ∧
    (n = b.remaining → b.pending = 0 → b.arrive n = { b with phase := (b.phase + 1) % 2 ^ 16, remaining := b.expected }) ∧
    (b.remaining < n → b.pending ≠ 0 → b.arrive n = { b with flags := b.flags ||| 2, remaining := 0 }) ∧
    (b.remaining < n → b.pending = 0 →
      b.arrive n = { b with flags := b.flags ||| 2, phase := (b.phase + 1) % 2 ^ 16, remaining := b.expected })) ∧
  (∀ (h : Hdr) (i : OpLBI) (r : OpLBR) (s : State), acts h false s →
    let put (sb : BitVec 7) (imm : BitVec 13) (kind : SbKind) (rel : Nat) (o : Host.Outcome State Fault Refusal) : Prop :=
      let va := (s.me.rs h.slot sb).1 + (s.me.disp h.slot (imm.signExtend 32)).signExtend 64
      ∀ a rest, s.homePlan h.slot va 16 16 3 4 false true = .ok (a :: rest) →
        ∃ t e, o = .next t ∧ buffered s t e none ∧ e.kind = kind ∧ e.rel = rel ∧ e.addr = a ∧ t.me.seq = s.me.seq + 1
    let n := (s.me.rs h.slot r.sa 1).1.toNat % 2 ^ 16
    put i.sb i.imm (.barm i.n.toNat) 0 (exec (.cBarm h i) s) ∧ put r.sb r.imm (.barm n) 0 (exec (.cBarmr h r) s) ∧
    put i.sb i.imm (.bsig i.n.toNat) s.me.scope (exec (.cBsig h i) s) ∧
    (n ≠ 0 → put r.sb r.imm (.bsig n) s.me.scope (exec (.cBsigr h r) s)) ∧
    (n = 0 → ∃ t, exec (.cBsigr h r) s = .next t ∧ sameRegs t.me s.me ∧ sameMem s t ∧ t.me.sb = s.me.sb)) ∧
  (∀ (s : State) (e : SbEntry) (n : Nat), let ok := s.me.sb.filter (s.storeReady s.coreNo)
    ok[s.turn.pick % ok.length]? = some e → n < 2 ^ 16 → e.kind = .barm n ∨ e.kind = .bsig n →
      s.rowRefused e.addrs = false → ∃ t : State, exec .storePerform s = .next (t.refill s.coreNo).settle ∧
        (e.kind = .barm n → barrierAt t.home e.addr = (barrierAt s.home e.addr).arm n) ∧
        (e.kind = .bsig n → barrierAt t.home e.addr = (barrierAt s.home e.addr).arrive n) ∧
        (∀ a, a < e.addr ∨ e.addr + 16 ≤ a → t.home.byte a = s.home.byte a))

/-- C1.QAPP claims the slot that the descriptor's tail names and raises the tail by one, waits for the publication, and gives the
claimed index to sd (R221); where the tail carries poison it claims nothing, and the poison-consumed trap follows (R206). C.BWAIT gives bytes 8 to 15 of the barrier to sd once the hold has ended (R223). The hold of C1.QAPP
lasts while the queue is full, that of C.BWAIT while the phase is the expected one, and both while the core's own earlier accesses to the
object are on their way; until then HOLD_END changes nothing (R165, R221, R223). That C.BWAIT lands one cycle after its issue is log 15,
how a publication takes its turn and what it answers is log 23. -/
def Obligations.QueueAppendAndBarrierWait : Prop :=
  (∀ (h : Hdr) (f : OpLQ) (s : State) (a : Nat) (rest : List Nat), acts h false s →
    let va := (s.me.rs h.slot f.sb).1 + (s.me.disp h.slot (f.imm.signExtend 32)).signExtend 64
    let i := s.home.num a 8
    s.homePlan h.slot va 64 64 3 6 false true = .ok (a :: rest) →
      (s.home.anyPois a 8 = true → ∃ t l, exec (.c1Qapp h f) s = .next t ∧ t.home = s.home ∧ t.me.sb = s.me.sb ∧
        t.me.claim = s.me.claim ∧ t.me.loads = s.me.loads ++ [l] ∧ l.dest = .scalar (s.me.physS f.sd.toNat) ∧
        ∃ tr, l.kind = .fail tr ∧ tr.code = 6 ∧ tr.async = true ∧ tr.addr = va) ∧
      (s.home.anyPois a 8 = false → ∃ t e, exec (.c1Qapp h f) s = .next t ∧ t.home.num a 8 = (i + 1) % 2 ^ 64 ∧
        (∀ b, b < a ∨ a + 8 ≤ b → t.home.byte b = s.home.byte b) ∧ t.me.sb = s.me.sb ++ [e] ∧
        e.kind = .publish (s.home.num (a + 16) 8) i (2 ^ (s.home.byte (a + 24)).toNat)
          ((List.range 63).map (fun k => el (s.me.rv h.slot f.va).val 8 k)) (!s.me.sup) ∧
        e.rel = s.me.scope ∧ t.me.claim = some (a, i, 2 ^ (s.home.byte (a + 24)).toNat) ∧
        (∃ l, t.me.loads = s.me.loads ++ [l] ∧ l.dest = .scalar (s.me.physS f.sd.toNat) ∧
          l.kind = .value (if s.me.determ then 0#64 else BitVec.ofNat 64 i) false) ∧
        (t.me.sreg (s.me.physS f.sd.toNat)).pend = true)) ∧
  (∀ (h : Hdr) (f : OpLBW) (s : State) (a : Nat) (rest : List Nat), acts h false s →
    let va := (s.me.rs h.slot f.sb).1 + (s.me.disp h.slot (f.imm.signExtend 32)).signExtend 64
    s.homePlan h.slot va 16 16 3 4 false true = .ok (a :: rest) →
      ∃ t, exec (.cBwait h f) s = .next t ∧ sameRegs t.me s.me ∧ sameMem s t ∧
        t.me.flights = s.me.flights ++ [{ s.me.flight h.slot (.scalar (s.me.physS f.sd.toNat)) 1 with
          val := (BitVec.ofNat 64 (s.home.num (a + 8) 8)).setWidth 8192
          poison := if s.home.anyPois (a + 8) 8 then 1#256 else 0#256 }] ∧
        (s.me.scope ≠ 0 → ∀ w ∈ t.me.l1, SMap.get s.owner w.1 0 = s.coreNo + 1)) ∧
  (∀ (s : State) (sl : Slot) (w : BitVec 63) (m : Sem) (h : Hdr) (a : Nat) (rest : List Nat), semOfWord sl w = some m →
    let own (n : Nat) : Prop := s.ownPending s.coreNo ((List.range n).map (a + ·)) = true ∨
      s.recordHeld s.coreNo s.me.seq ((List.range n).map (a + ·)) = true
    (∀ f : OpLQ, decodeSyl sl w = some (.c1Qapp h f) → m.check s = none →
      s.homePlan h.slot ((s.me.rs h.slot f.sb).1 + (s.me.disp h.slot (f.imm.signExtend 32)).signExtend 64) 64 64 3 6 false true =
        .ok (a :: rest) →
      m.holds s = true ∧ (m.waits s = true ↔ s.me.storesFull = true ∨ s.me.loadsFull = true ∨ own 64 ∨
        2 ^ (s.home.byte (a + 24)).toNat ≤ s.home.num a 8 - s.home.num (a + 8) 8)) ∧
    (∀ f : OpLBW, decodeSyl sl w = some (.cBwait h f) → m.check s = none →
      s.homePlan h.slot ((s.me.rs h.slot f.sb).1 + (s.me.disp h.slot (f.imm.signExtend 32)).signExtend 64) 16 16 3 4 false true =
        .ok (a :: rest) →
      m.holds s = true ∧ (m.waits s = true ↔
        own 16 ∨ (barrierAt s.home a).phase = (s.me.rs h.slot f.sa 1).1.toNat % 2 ^ 16))) ∧
  (∀ (s : State) (b : Bundle) (i : Item), s.me.decode = .ok b → i ∈ b.items → let u := s.begun b
    i.active u.me = true → i.sem.holds u = true → i.sem.waits u = true → exec .holdEnd s = .next s)

/-- The beat and bank-command instructions (R279, R284 to R287): C1.BEAT, C1.BEATR and C1.BEAT off put a write of BEAT_NOW in
flight; C1.BEATRD waits for the controller's answer; C1.BEATW only lets its hold end; plane stores and loads go to the home die's
controller with their beat, and C1.BKRUN its command with the program that it has read. -/
def Obligations.BeatOperationsIssue : Prop :=
  ∀ (h : Hdr) (b : OpBeat) (o : OpBOff) (r : OpSA) (q : OpBQ) (w : OpBW) (p : OpPST) (m : OpPSTM) (l : OpPLD) (k : OpBK)
    (s : State), acts h false s →
    let now (v : Word) : Host.Outcome State Fault Refusal :=
      .next (flying s { s.me.flight h.slot (.status 0x031) 1 with val := v.setWidth 8192 })
    let beat (n : Nat) : Word := 1#64 <<< 63 ||| BitVec.ofNat 64 (n % 2 ^ 48)
    exec (.c1Beat h b) s = now (beat (fieldGet s.me.sw.beatBase 0 48 + b.tag.toNat)) ∧
    exec (.c1BeatOff h o) s = now (s.me.sw.beatNow &&& 0x7FFFFFFFFFFFFFFF#64) ∧
    (let a := (s.me.rs h.slot r.sa).1
     exec (.c1Beatr h r) s = now (if 0xFFFF000000000000#64 ≤ a then s.me.sw.beatNow &&& 0x7FFFFFFFFFFFFFFF#64 else beat a.toNat)) ∧
    (∀ d, s.dieOfReg h.slot q.sb = .ok d → ∃ t x, exec (.c1Beatrd h q) s = .next t ∧ t.me.loads = s.me.loads ++ [x] ∧
      x.dest = .scalar (s.me.physS q.sd.toNat) ∧ x.kind = .beat d ∧ x.away = true ∧
      (t.me.sreg (s.me.physS q.sd.toNat)).pend = true ∧ sameMem s t) ∧
    (∃ t, exec (.c1Beatw h w) s = .next t ∧ sameRegs t.me s.me ∧ sameMem s t ∧ t.me.seq = s.me.seq) ∧
    (let store (va : BitVec 10) (x : PlaneOp) (inc : Nat → Bool) (o : Host.Outcome State Fault Refusal) : Prop :=
       let v := s.me.rv h.slot va
       ∀ a t, x.plan s h.slot v.tag.toNat va.toNat = .ok (a, t) → (planeBytes v v.tag.toNat x.w inc a) ≠ [] →
         ∃ (u : State) (y : WAccess), o = .next u ∧ sameRegs u.me s.me ∧ sameMem s u ∧ u.me.seq = s.me.seq + 1 ∧
           (u.dieAt (homeDie a)).accesses = (s.dieAt (homeDie a)).accesses ++ [y] ∧ y.core = s.me.id ∧ y.tag = t ∧
           y.bytes = planeBytes v v.tag.toNat x.w inc a ∧ y.words = planeWords v v.tag.toNat x.w inc a ∧ y.load = false
     store p.va { sb := p.sb, w := p.w1.toNat + 1, i := p.i, tag := p.tag, store := true, mn := none } (fun _ => true)
       (exec (.c1Pst h p) s) ∧
     store m.va { sb := m.sb, w := m.w1.toNat + 1, i := m.i, tag := m.tag, store := true, mn := some m.mn }
       (fun j => (s.me.rm h.slot m.mn).1.getLsbD j) (exec (.c1Pstm h m) s)) ∧
    (let x : PlaneOp := { sb := l.sb, w := l.w1.toNat + 1, i := l.i, tag := l.tag, store := false, mn := none }
     ∀ a t, x.plan s h.slot l.fmt.toNat l.vd.toNat = .ok (a, t) →
       ∃ (u : State) (y : WAccess) (z : PendLoad), exec (.c1Pld h l) s = .next u ∧ sameMem s u ∧
         (u.dieAt (homeDie a)).accesses = (s.dieAt (homeDie a)).accesses ++ [y] ∧ y.tag = t ∧ y.load = true ∧ y.addrs = z.addrs ∧
         u.me.loads = s.me.loads ++ [z] ∧ z.dest = .vec (s.me.physV l.vd.toNat) l.fmt ∧ z.away = true ∧
         z.kind = .planes (l.w1.toNat + 1) (tagWidth l.fmt.toNat) (isSigned l.fmt.toNat) ∧
         z.addrs = (List.range (l.w1.toNat + 1)).flatMap (fun i =>
           (List.range (planeN l.fmt.toNat / 8)).map (fun k => a + 256 * i + k)) ∧
         (u.me.vreg (s.me.physV l.vd.toNat)).pend = true) ∧
    (∀ pl, bkPlan s h.slot k = .ok pl → ∃ (u : State) (c : BankCmd), exec (.c1Bkrun h k) s = .next u ∧ sameRegs u.me s.me ∧
      sameMem s u ∧ u.me.seq = s.me.seq + 1 ∧ (u.dieAt (homeDie pl.region)).cmds = (s.dieAt (homeDie pl.region)).cmds ++ [c] ∧
      c.tag = pl.beat ∧ c.due = pl.beat ∧ c.region = pl.region ∧ c.count = pl.count ∧ c.arrived = false ∧
      c.program.length = pl.prog.length / 4 ∧
      ∀ i < pl.prog.length / 4, ∀ j < 4, el (c.program.getD i 0) 8 j = s.ownByte s.coreNo s.me.seq (pl.prog.getD (4 * i + j) 0))

/-! ## Tiles, gathers, rings, shapes, flumes, key-value operations, launches (R171 to R187, R297 to R309, R331, R333) -/

namespace Sys2Proof.Claims

open Sys2Proof.Machine

/-- The bytes that an engine operation has still to move, in order: the place in its tile and the physical address. -/
def moves (e : Engine) : List (Nat × Nat) :=
  e.work.flatMap (fun x => (List.range x.2.length).map (fun i => (x.1 + i, x.2.getD i 0)))

/-- An engine operation `e` has joined those of the core; memory and every register but the ready tag of the tile `clears` and
the pending bit of the scalar `sd` are as before. -/
def engaged (s t : State) (e : Engine) (clears : Option Nat) (sd : Option Nat) : Prop :=
  sameMem s t ∧ sameElse s t ∧ t.me.engines = s.me.engines ++ [e] ∧ e.seq = s.me.seq ∧ e.pc = s.me.bundlePc ∧ e.done = 0 ∧
    (∀ k, t.me.treg k = if clears = some k then { s.me.treg k with ready := false } else s.me.treg k) ∧
    (∀ k, t.me.sreg k = if sd = some k then { s.me.sreg k with pend := true } else s.me.sreg k) ∧
    t.me.p = s.me.p ∧ t.me.m = s.me.m ∧ t.me.v = s.me.v ∧ t.me.ring = s.me.ring ∧ t.me.b = s.me.b ∧ t.me.k = s.me.k ∧
    t.me.sw = s.me.sw ∧ t.me.sb = s.me.sb

/-- The place in the tile and the address of each byte of a transfer of a plan, from tile line `line` on. -/
def placed (p : TilePlan) (line : Nat) : List (Nat × Nat) :=
  (List.range (p.phys.length * p.shape.ew)).map (fun k => (64 * line + k, p.phys.getD (k / p.shape.ew) 0 + k % p.shape.ew))

end Sys2Proof.Claims

/-- Tile transfers whose checks pass (R164, R174, R175). In C1 the engine takes the whole transfer, byte by byte in walk order; a
load clears the ready tag of its tile, and a whole load will clear the rest of the tile. In C0 the chunks of 128 bytes run on the
formula of R164: chunk i is read 12 + i cycles after the issue and lands i cycles after the latency, or is taken from the tile in
cycle i and stored 12 cycles after it, and the port is occupied for one cycle a chunk. -/
def Obligations.TileTransfersIssue : Prop :=
  ∀ (h : Hdr) (l : OpTLD) (st : OpTST) (lp : OpTLDP) (sp : OpTSTP) (s : State), acts h false s →
    let tile (o : TileOp) (out : Host.Outcome State Fault Refusal) : Prop :=
      ∀ p, o.plan s h.slot = .ok p →
        let b := p.shape.count * p.shape.ew
        p.phys.length = p.shape.count ∧
        (h.slot = .C1 → ∃ t e, out = .next t ∧ engaged s t e (if o.load then some o.t else none) none ∧
          e.kind = (if o.load then .tileLoad o.t else .tileStore o.t) ∧ e.tag = p.shape.format ∧ moves e = placed p o.line ∧
          e.rest = (if o.whole && o.load then b else 16385) ∧ e.acq = (if o.ordered && o.load then s.me.scope else 0) ∧
          e.rel = (if o.ordered && !o.load then s.me.scope else 0)) ∧
        (h.slot = .C0 → ∃ t, out = .next t ∧ sameRegs t.me s.me ∧ sameMem s t ∧ sameOthers s t ∧
          let n := (b + 127) / 128
          let lat := if s.me.determ then fieldGet s.me.sw.determ 16 8 else if s.me.profile2 then 28 else 24
          t.me.c0free = s.me.time + n ∧ t.me.seq = s.me.seq + 1 ∧
          t.me.timed = s.me.timed ++ (List.range n).map (fun i =>
            let chunk := ((placed p o.line).drop (128 * i)).take 128
            { due := s.me.time + i + (if o.load then 12 else 0), seq := s.me.seq, rel := 0, acq := 0, gd := none
              act := if o.load then .chunkRead o.t chunk (s.me.time + lat + i) p.shape.format (if o.whole then b else 16385) (decide (i = 0))
                else .chunkTake o.t chunk (s.me.time + 12 + i) }))
    let op (t : Nat) (ks : BitVec 5) (sb : BitVec 7) (line : Nat) (load whole w ordered : Bool) : TileOp :=
      { t := t, ks := ks, sb := sb, line := line, load := load, whole := whole, w := w, ordered := ordered }
    tile (op l.td.toNat l.ks l.sb 0 true true false false) (exec (.cTld h l) s) ∧
    tile (op st.ta.toNat st.ks st.sb 0 false true st.w false) (exec (.cTst h st) s) ∧
    tile (op lp.td.toNat lp.ks lp.sb lp.line.toNat true false false false) (exec (.cTldp h lp) s) ∧
    tile (op sp.ta.toNat sp.ks sp.sb sp.line.toNat false false sp.w false) (exec (.cTstp h sp) s) ∧
    (h.slot = .C1 → tile (op l.td.toNat l.ks l.sb 0 true true false true) (exec (.c1TldAcq h l) s) ∧
      tile (op st.ta.toNat st.ks st.sb 0 false true st.w true) (exec (.c1TstRel h st) s))

/-- C1.GATH, C1.SCAT, C1.RFILL and C1.RSPILL (R177 to R180): a gather or scatter moves element i between tile byte i times the
element width and its address, which is base plus index; a fill or spill takes the entries of its walk, in order. -/
def Obligations.GatherScatterAndRingsIssue : Prop :=
  ∀ (h : Hdr) (g : OpCGL) (c : OpCGS) (r : OpCR) (s : State), acts h false s →
    (let gather (t tx : Nat) (sb : BitVec 7) (n : Nat) (tag : BitVec 4) (store : Bool) (out : Host.Outcome State Fault Refusal) :
         Prop :=
       ∀ addrs ps, gatherPlan s h.slot t tx sb n tag.toNat store = .ok (addrs, ps) →
         let ew := tagWidth tag.toNat / 8
         addrs = (List.range n).map (fun i => (s.me.rs h.slot sb).1 + (s.me.disp h.slot 0).signExtend 64 +
           (el (s.me.treg tx).val 32 i).setWidth 64) ∧ ps.length = n ∧
         ∃ u e, out = .next u ∧ engaged s u e (if store then none else some t) none ∧
           e.kind = (if store then .scatter t else .gather t) ∧ e.tag = tag ∧ e.rest = (if store then tx else n * ew) ∧
           moves e = (List.range (n * ew)).map (fun k => (k, ps.getD (k / ew) 0 + k % ew))
     gather g.td.toNat g.tx.toNat g.sb (g.n1.toNat + 1) g.tag false (exec (.c1Gath h g) s) ∧
     gather c.ta.toNat c.tx.toNat c.sb (c.n1.toNat + 1) c.tag true (exec (.c1Scat h c) s)) ∧
    (let ring (fill : Bool) (out : Host.Outcome State Fault Refusal) : Prop :=
       ∀ k, s.me.shape r.ks.toNat = some k → ∃ t e, out = .next t ∧ engaged s t e none none ∧
         e.kind = (if fill then .fill r.hn.toNat else .spill r.hn.toNat) ∧ e.tag = k.format ∧ e.work = [] ∧
         e.virt = ringEntries k ((s.me.rs h.slot r.sb).1 + (s.me.disp h.slot 0).signExtend 64) (s.me.ringReg r.hn.toNat).entryBytes
     ring true (exec (.c1Rfill h r) s) ∧ ring false (exec (.c1Rspill h r) s))

/-- Shape slots and flumes (R171 to R173, R181, R185): C.SHLD puts the record it has read into its slot, C.SHEV stores the slot's
record and empties it, C.FARM binds a register to a copy of the record, C.FSTOP unbinds it and leaves the register 0 with tag
BITS, C.FWAIT changes nothing, C.FSTAT reports. A record in order survives a store and a load of it. That the records of C.SHLD and
C.SHEV need no alignment is log 72, and their other conventions stand in log 17. -/
def Obligations.ShapesAndFlumes : Prop :=
  (∀ (h : Hdr) (f : OpSHL) (a : OpCF) (v : OpCFV) (st : OpCFS) (s : State), acts h false s →
    (∀ k, shldPlan s h.slot f = .ok k → ∃ t, exec (.cShld h f) s = .next t ∧ t.me.shape f.ks.toNat = some k ∧
      (∀ j, j ≠ f.ks.toNat → t.me.shape j = s.me.shape j) ∧ sameMem s t ∧ t.me.s = s.me.s ∧ t.me.v = s.me.v ∧ t.me.sw = s.me.sw) ∧
    (let va := (s.me.rs h.slot f.sb).1 + (s.me.disp h.slot (f.imm.signExtend 32)).signExtend 64
     ∀ pas k, s.homePlan h.slot va 64 1 1 6 false true = .ok pas → s.me.shape f.ks.toNat = some k →
       ∃ t e, exec (.cShev h f) s = .next t ∧ t.me.shape f.ks.toNat = none ∧
         (∀ j, j ≠ f.ks.toNat → t.me.shape j = s.me.shape j) ∧ sameMem s t ∧ t.me.s = s.me.s ∧ t.me.v = s.me.v ∧
         t.me.sb = s.me.sb ++ [e] ∧ e.kind = .store ∧ e.rel = 0 ∧
         e.bytes = (List.range 64).map (fun i => (pas.getD i 0, BitVec.ofNat 8 (k.encode / 2 ^ (8 * i))))) ∧
    (∀ k, s.me.shape a.ks.toNat = some k → exec (.cFarm h a) s = .next (s.onMe (fun c => { c with
      seq := c.seq + 1
      flumes := c.flumes ++ [{
        reg := a.vn.toNat, main := h.slot == .C1, seq := c.seq, shape := k, disp := (c.rs h.slot a.sb).1, size := k.count
        next := 0, moved := 0, buf := [], inflight := 0, fault := none, armed := c.time, pops := [], pc := c.bundlePc
        sup := c.sup }] }))) ∧
    (∃ t, exec (.cFstop h v) s = .next t ∧ sameMem s t ∧ t.me.flumeOf v.vn.toNat = none ∧
      (∀ j, j ≠ v.vn.toNat → t.me.flumeOf j = s.me.flumeOf j ∧ t.me.vreg j = s.me.vreg j) ∧
      ((s.me.flumeOf v.vn.toNat).isSome = true →
        t.me.vreg v.vn.toNat = { val := 0, tag := 0, poison := 0, pend := false }) ∧
      (s.me.flumeOf v.vn.toNat = none → t = s.onMe id)) ∧
    exec (.cFwait h v) s = .next s ∧
    exec (.cFstat h st) s = .next (scalarOut s h.slot st.sd 1
      (match s.me.flumeOf st.vn.toNat with
       | none => 0#64
       | some x => BitVec.ofNat 64 (2 ^ 63 + (if x.shape.write then 2 ^ 62 else 0) +
           ((if s.me.det then s.me.flumeHeld x else x.buf.length) + x.inflight) % 2 ^ 16 * 2 ^ 32 + (x.size - x.next - x.inflight) % 2 ^ 32)) false)) ∧
  (∀ k : Shape, 1 ≤ k.rank → k.rank ≤ 5 → k.counts.length = 5 → k.strides.length = 5 →
    (∀ d < 5, if d < k.rank then 0 < k.counts.getD d 0 ∧ k.counts.getD d 0 < 2 ^ 32 ∧ -2 ^ 31 ≤ k.strides.getD d 0 ∧
        k.strides.getD d 0 < 2 ^ 31
      else k.counts.getD d 0 = 0 ∧ k.strides.getD d 0 = 0) →
    k.encode < 2 ^ 512 ∧ Shape.decode k.encode = some k)

/-- The key-value operations, C1.CANCEL and LNCH (R303 to R309, R331, R333), where their checks pass: each joins the core's engine
operations or its store buffer with what it has checked; C1.KVX will land 260 cycles after its issue. -/
def Obligations.KeyValueAndLaunchIssue : Prop :=
  ∀ (h : Hdr) (l : OpKL) (st : OpKS) (x : OpKX) (fr : OpKF) (cn : OpCAN2) (ln : OpLN) (s : State), acts h false s →
    let r (q : BitVec 7) (k : Nat := 0) : Word := (s.me.rs h.slot q k).1
    let own (pas : List Nat) : Nat := ofElems 8 (pas.map (fun a => (s.ownByte s.coreNo s.me.seq a).toNat))
    let clean (pas : List Nat) : Prop := ∀ a ∈ pas, s.ownPois s.coreNo s.me.seq (a / 4) = false
    (∀ p i pas, s.kvBlockPlan h.slot (r l.sa) (r l.sb 1) true = .ok (p, i, pas) →
      let load (i8 : Bool) (out : Host.Outcome State Fault Refusal) : Prop := ∃ t e, out = .next t ∧
        engaged s t e (some l.td.toNat) none ∧ e.kind = .kvload l.td.toNat i8 ∧ e.virtAt = BitVec.ofNat 64 (p.base + 4608 * i) ∧
        e.work.flatMap (·.2) = pas
      load false (exec (.c1KvldF16 h l) s) ∧ load true (exec (.c1KvldI8 h l) s)) ∧
    (∀ p i pas pa, s.kvBlockPlan h.slot (r st.sa) (r st.sb 1) false = .ok (p, i, pas) → s.kvOwned h.slot p i false = .ok pa →
      ∃ t e, exec (.c1Kvst h st) s = .next t ∧ engaged s t e none none ∧ e.kind = .kvstore st.ta.toNat ∧ e.par = r st.sc 2 ∧
        e.work.flatMap (·.2) = pas) ∧
    (∃ t e, exec (.c1Kvx h x) s = .next t ∧ engaged s t e none none ∧
      e.kind = .kvx (s.me.physS x.sd.toNat) (s.me.time + 260) ∧ e.virtAt = r x.sb 1 ∧ e.kv.pool = none ∧
      e.kv.seq = (r x.sa).toNat % 2 ^ 32 ∧ e.kv.layer = (r x.sa).toNat / 2 ^ 32 % 2 ^ 8 ∧
      e.kv.head = (r x.sa).toNat / 2 ^ 40 % 2 ^ 8 ∧
      e.kv.lb = (r x.sc 2).toNat / 2 ^ 6 % 2 ^ 15 + 2 ^ 15 * ((r x.sc 2).toNat / 2 ^ 32 % 2)) ∧
    (∀ p pas, s.readPool h.slot (r x.sb 1) = .ok p →
      s.homePlan h.slot (BitVec.ofNat 64 (p.flagAt ((r x.sa).toNat % 2 ^ 32) ((r x.sa).toNat / 2 ^ 32 % 2 ^ 8))) 8 8 5 3 false true =
        .ok pas →
      ∃ t e z, exec (.c1Kvho h x) s = .next t ∧ engaged s t e none (some (s.me.physS x.sd.toNat)) ∧ e.kind = .kvho ∧
        e.kv.pool = some p ∧ e.kv.heads = (r x.sc 2).toNat % 2 ^ 8 + 1 ∧ e.kv.blocks = (r x.sc 2).toNat / 2 ^ 8 % 2 ^ 15 + 1 ∧
        e.rel = s.me.scope ∧ e.work.flatMap (·.2) = pas ∧ t.me.loads = s.me.loads ++ [z] ∧ z.away = true ∧
        z.dest = .scalar (s.me.physS x.sd.toNat)) ∧
    (∀ p i pa, s.readPool h.slot (r fr.sb 1) = .ok p → kvBlock s.me h.slot p (r fr.sa) = .ok i →
      s.kvOwned h.slot p i true = .ok pa → ∃ t e, exec (.c1Kvfree h fr) s = .next t ∧ engaged s t e none none ∧ e.kind = .kvfree ∧
        e.rel = s.me.scope ∧ e.work.flatMap (·.2) = [pa]) ∧
    (let va := r cn.sb + (s.me.disp h.slot (cn.imm.signExtend 32)).signExtend 64
     ∀ pas, s.homePlan h.slot va 64 64 3 6 true true = .ok pas → clean pas →
       (s.ownByte s.coreNo s.me.seq (pas.getD 0 0)).toNat = cn.level.toNat →
       (s.me.sup = true ∨ (s.ownByte s.coreNo s.me.seq (pas.getD 48 0)).toNat +
         256 * (s.ownByte s.coreNo s.me.seq (pas.getD 49 0)).toNat = s.me.ctx) →
       ∃ t e, exec (.c1Cancel h cn) s = .next t ∧ buffered s t e none ∧ e.kind = .cancel ∧ e.addr = pas.headD 0) ∧
    (h.slot = .C1 →
      let va := r ln.sb + (s.me.disp h.slot (ln.imm.signExtend 32)).signExtend 64
      ∀ pas, s.homePlan h.slot va 128 128 0 7 true false = .ok pas → clean pas →
        ∃ t e z, exec (.cLnch h ln) s = .next t ∧ buffered s t e (some ln.sd) ∧ e.kind = .submit (own pas) (!s.me.sup) ∧
          e.rel = s.me.scope ∧ e.virt = va ∧ t.me.loads = s.me.loads ++ [z] ∧ z.away = true ∧
          z.dest = .scalar (s.me.physS ln.sd.toNat)) ∧
    (h.slot = .C0 →
      let va := r ln.sb + (s.me.disp h.slot (ln.imm.signExtend 32)).signExtend 64
      let a := 2 ^ 23 * clusterOf s.me.id + s.me.clusterWindow.1 + va.toNat
      va.toNat % 128 = 0 → va.toNat + 128 ≤ s.me.clusterWindow.2 → s.spaceAnyPois s.coreNo .cluster a 128 = false →
        ∃ t e z, exec (.cLnch h ln) s = .next t ∧ buffered s t e (some ln.sd) ∧
          e.kind = .submit (ofElems 8 ((List.range 128).map (fun i => (s.ownCluster s.coreNo (a + i)).toNat))) (!s.me.sup) ∧
          e.rel = s.me.scope ∧ t.me.loads = s.me.loads ++ [z] ∧ z.away = true ∧ z.dest = .scalar (s.me.physS ln.sd.toNat))

/-! ## The matrix array (R229 to R249) -/

namespace Sys2Proof.Claims

open Sys2Proof.Machine

/-- The set that a selector names. -/
def setOf (c : Core) (one : Bool) : ASet := if one then c.arr.set1 else c.arr.set0

/-- `c` with its operand latches, its two sets, the KCOUNT word of set `one` and MCFG as given, and nothing else changed. -/
def arrayPut (c : Core) (la lb : SMap LVal) (one : Bool) (x : ASet) (k mcfg : Word) : Core :=
  { c with
    arr := if one then { c.arr with latchA := la, latchB := lb, set1 := x } else { c.arr with latchA := la, latchB := lb, set0 := x }
    sw := if one then { c.sw with kcount1 := k, mcfg := mcfg } else { c.sw with kcount0 := k, mcfg := mcfg } }

/-- The KCOUNT word of a set: SHIFTED over COUNT (R237). -/
def kword (c : Core) (one : Bool) : Word := if one then c.sw.kcount1 else c.sw.kcount0

/-- Every bit of MCFG but those of the field of `n` bits from `lo`, and FENCED, stays. -/
def mcfgKeeps (a b : Word) (lo n : Nat) : Prop := ∀ i < 64, i ≠ 0 → ¬(lo ≤ i ∧ i < lo + n) → a.getLsbD i = b.getLsbD i

/-- Position `k` after the product of `x` and `y` is added to it (R236, R240, R242): the integer of the product in each of its six
residue channels, the flags, and the poison. -/
def posStep (c : Core) (x y : LVal) (k : Nat) (p p' : Pos) : Prop :=
  let fp := isFp c.afmt
  let inf (v : LVal) : Bool := v.pinf || v.minf
  let nan := x.nan || y.nan || (inf x && y.isZero c.bfmt) || (inf y && x.isZero c.afmt)
  let anInf := !nan && (inf x || inf y)
  let negZero := (x.isZero c.afmt || y.isZero c.bfmt) && x.neg != y.neg
  let q := c.product x y
  (∀ l < 6, let b := p.res.toNat / 2 ^ (8 * l) % 256
    p'.res.toNat / 2 ^ (8 * l) % 256 = if q = 0 then b else residue ((b : Int) + q) (chMod (6 * (k % 2) + l))) ∧
  p'.nan = (p.nan || fp && nan) ∧ p'.pinf = (p.pinf || fp && anInf && x.neg == y.neg) ∧
  p'.minf = (p.minf || fp && anInf && x.neg != y.neg) ∧ p'.zneg = (p.zneg && fp && (nan || anInf || negZero)) ∧
  p'.poison = (p.poison || x.poison || y.poison)

/-- The byte that channel `ch` of element (row, j) of the drain stage holds (R230, R245). -/
def chanByte (c : Core) (row j ch : Nat) : Nat :=
  (c.arr.drain.pos (128 * row + (if c.wide then 2 * j + ch / 6 else j))).res.toNat / 2 ^ (8 * (ch % 6)) % 256

/-- The bits that an element of value `x` drains as (R244); a residue word or pair where no lane is retired. -/
def drainBits (c : Core) (p : Pos) (j : Nat) (x : Int) (v : Nat) : Prop :=
  (c.dfmt = 5 → v = (satS 32 x).toNat) ∧
  (c.dfmt = 13 → v = if p.nan ∨ p.pinf ∧ p.minf then 0x7FC00000 else if p.pinf then 0x7F800000 else if p.minf then 0xFF800000
    else if x = 0 then (if p.zneg then 0x80000000 else 0)
    else froundNum fpF32 0 (.fin (decide (x < 0)) x.natAbs c.lsb)) ∧
  (c.dfmt = 14 → retA c.sw.lanemap = 7 → retB c.sw.lanemap = 7 →
    v = if c.wide then resEnc 2 0 x + 2 ^ 64 * resEnc 3 6 x else resEnc (j % 2) (6 * (j % 2)) x)

end Sys2Proof.Claims

/-- Every operation of the M slot (R235 to R249). M.PUSH latches the two slabs, pops its rings at issue + 1 and counts warnings;
M.ACC adds the outer product of the latched slabs into every position of its set and counts the k-step; M.PA is the push and then
the accumulate; M.SHIFT moves a set into the drain stage and clears it; M.ZERO clears a set; M.CFG sets the pair, its mode and its
limit, which are those of R235 where no lane is retired; M.FENCE clears the latches, sets FENCED, and lets the next bundle issue
only after the last drain has been written; M.DRAIN sends the row's elements to its destination, each of value x where its channels
hold the residues of an x in range, 10 or 12 cycles later. All but M.FENCE, M.ZERO and M.CFG clear FENCED, and no operation changes
anything else. That the entry of a drain to a ring counts the drains still in flight is log 31, and that both cells of a wide pair take its
flags is log 32. -/
def Obligations.MatrixOperations : Prop :=
  (∀ (h : Hdr) (p : OpMP) (a : OpMPA) (o : OpMS) (z : OpMZ) (i : OpMI) (r : OpSA) (n : OpNone) (dt : OpMD) (dh : OpMH) (s : State),
    acts h false s →
    let c := s.me
    let w := c.sw.mcfg
    let fmtBits (q : Word) (k : Nat) : Nat := fieldGet q k 4
    (∀ la lb warn, pushSlabs s p.ha p.hb = .ok (la, lb, warn) → ∃ t ma mb w', exec (.mPush h p) s = .next t ∧
      t = s.onMe (fun c => { c with
        arr := { c.arr with latchA := ma, latchB := mb }
        sw := { c.sw with mcfg := w' }
        pops := c.pops ++ (if p.ha = p.hb then [{ ring := p.ha.toNat, n := 2, due := c.time + 1 }]
          else [{ ring := p.ha.toNat, n := 1, due := c.time + 1 }, { ring := p.hb.toNat, n := 1, due := c.time + 1 }]) }) ∧
      latchList ma 128 = la ∧ latchList mb (if c.wide then 64 else 128) = lb ∧
      w'.getLsbD 0 = false ∧ fieldGet w' 32 16 = min 0xFFFF (fieldGet w 32 16 + warn) ∧ mcfgKeeps w' w 32 16) ∧
    (SMap.wf (setOf c o.set).cells (Pos.zero (setOf c o.set).zneg) = true → ∃ x k w', exec (.mAcc h o) s = .next
        (s.onMe (fun c => arrayPut c c.arr.latchA c.arr.latchB o.set x k w')) ∧
      k.toNat = fieldGet (kword c o.set) 32 32 * 2 ^ 32 + (fieldGet (kword c o.set) 0 32 + 1) % 2 ^ 32 ∧
      w'.getLsbD 0 = false ∧ mcfgKeeps w' w 0 1 ∧
      ∀ row < 128, ∀ col < 128, posStep c ((latchList c.arr.latchA 128).getD row LVal.zero)
        ((latchList c.arr.latchB (if c.wide then 64 else 128)).getD (if c.wide then col / 2 else col) LVal.zero) col
        ((setOf c o.set).pos (128 * row + col)) (x.pos (128 * row + col))) ∧
    (∀ la lb warn, pushSlabs s a.ha a.hb = .ok (la, lb, warn) → ∃ t u, exec (.mPush h { ha := a.ha, hb := a.hb }) s = .next t ∧
      exec (.mAcc h { set := a.set }) t = .next u ∧ exec (.mPa h a) s = .next u) ∧
    (∃ w', exec (.mShift h o) s = .next (s.onMe (fun c =>
        let c1 := arrayPut c c.arr.latchA c.arr.latchB o.set { zneg := false, cells := [] }
          (BitVec.ofNat 64 (fieldGet (kword c o.set) 0 32 * 2 ^ 32)) w'
        { c1 with arr := { c1.arr with drain := setOf c o.set, drainCount := fieldGet (kword c o.set) 0 32, drained := 0 } })) ∧
      w'.getLsbD 0 = false ∧ fieldGet w' 56 8 = 128 ∧ mcfgKeeps w' w 56 8) ∧
    exec (.mZero h z) s = .next (s.onMe (fun c => arrayPut c c.arr.latchA c.arr.latchB z.set { zneg := z.n, cells := [] }
      (BitVec.ofNat 64 (fieldGet (kword c z.set) 32 32 * 2 ^ 32)) w)) ∧
    (let cfg (x y d wb warn : Nat) (out : Host.Outcome State Fault Refusal) : Prop :=
       ∀ wide k, pairUnder x y d c.sw.lanemap = some (wide, k) → out = .next (s.onMe (fun c => { c with
         sw := { c.sw with mcfg := BitVec.ofNat 64 (fieldGet w 0 1 + 2 ^ 8 * x + 2 ^ 12 * y + (if wide then 2 ^ 16 else 0) +
           2 ^ 20 * d + 2 ^ 24 * wb + 2 ^ 32 * warn + 2 ^ 48 * k + 2 ^ 56 * fieldGet w 56 8) } }))
     let q := (c.rs h.slot r.sa).1
     cfg i.afmt.toNat i.bfmt.toNat i.dfmt.toNat i.wbase.toNat 0 (exec (.mCfgImm h i) s) ∧
     cfg (fmtBits q 8) (fmtBits q 12) (fmtBits q 20) (fieldGet q 24 8) (fieldGet q 32 16) (exec (.mCfgReg h r) s)) ∧
    (let drains (f : Flight) : Prop := (∃ t l, f.dest = .tileRow t l) ∨ ∃ k e, f.dest = .ringRow k e
     ∃ w' next, exec (.mFence h n) s = .next (s.onMe (fun c => { c with
         arr := { c.arr with latchA := [], latchB := [] }
         sw := { c.sw with mcfg := w' }
         next := next })) ∧ w'.getLsbD 0 = true ∧ mcfgKeeps w' w 0 1 ∧ c.next ≤ next ∧
       (∀ f ∈ c.flights, drains f → f.land < next) ∧
       (next ≤ max c.next 1 ∨ ∃ f ∈ c.flights, drains f ∧ next = f.land + 1)) ∧
    (let drain (row : Nat) (d : Dest) (out : Host.Outcome State Fault Refusal) : Prop :=
       let n := if c.wide then 64 else 128
       let eb := if c.dfmt = 14 then 1024 / n else 4
       ∃ f done w', out = .next (s.onMe (fun c => { c with
           arr := { c.arr with drained := done }
           sw := { c.sw with mcfg := w' }
           flights := c.flights ++ [f] })) ∧
         f.dest = d ∧ f.land = c.time + (if c.profile2 then 12 else 10) ∧ f.tag.toNat = c.dfmt ∧ f.size = n * eb ∧
         (∀ k < 128, done.getLsbD k = (k == row || c.arr.drained.getLsbD k)) ∧ w'.getLsbD 0 = false ∧ mcfgKeeps w' w 56 8 ∧
         fieldGet w' 56 8 = ((List.range 128).filter (fun k => !done.getLsbD k)).length ∧
         ∀ j < n, ∀ x : Int,
           let l := chLists c.wide (if c.wide then 0 else j % 2) (retA c.sw.lanemap) (retB c.sw.lanemap)
           let m : Nat := (l.1.map chMod).foldl (· * ·) 1
           let p := c.arr.drain.pos (128 * row + (if c.wide then 2 * j else j))
           (∀ ch ∈ l.1 ++ l.2, chanByte c row j ch = residue x (chMod ch)) →
           -(((m - 1) / 2 : Nat) : Int) ≤ x → x ≤ ((m - 1) / 2 : Nat) →
             (∃ v, drainBits c p j x v ∧ f.val.toNat / 2 ^ (8 * eb * j) % 2 ^ (8 * eb) = v % 2 ^ (8 * eb)) ∧
             ∀ i < eb / 4, f.poison.getLsbD (j * (eb / 4) + i) = p.poison
     drain dt.row.toNat (.tileRow dt.tn.toNat dt.line.toNat) (exec (.mDrainTile h dt) s) ∧
     (let g := c.ringReg dh.hn.toNat
      let e := (c.flights.filter (fun f => match f.dest with | .ringRow k _ => k == dh.hn.toNat | _ => false)).length
      drain dh.row.toNat (.ringRow dh.hn.toNat ((g.head + (g.count + e)) % max 1 g.entries)) (exec (.mDrainRing h dh) s)))) ∧
  (∀ (c : Core) (x y : LVal), let special (v : LVal) : Bool := v.nan || v.pinf || v.minf
    ((special x || special y) = true → c.product x y = 0) ∧
    ((special x || special y) = false → c.afmt ≠ 11 → c.afmt ≠ 12 → c.product x y = x.val * y.val) ∧
    ((special x || special y) = false → c.afmt = 11 ∨ c.afmt = 12 → ∀ neg m e,
      (fval (fmtOf c.afmt) x.val.toNat).mul (fval (fmtOf c.bfmt) y.val.toNat) = .fin neg m e → (c.bfmt = 11 ∨ c.bfmt = 12) →
      let u := e - sx (fieldGet c.sw.mcfg 24 8) 8
      c.product x y = (if neg then -1 else 1) * ((if 0 ≤ u then m * 2 ^ u.toNat else m / 2 ^ (-u).toNat : Nat) : Int))) ∧
  (∀ lm : Word, retA lm = 7 → retB lm = 7 → ∀ a b d : BitVec 4, pairUnder a.toNat b.toNat d.toNat lm =
    (let rows : List (List Nat × List Nat × List Nat × Bool × Nat) := [
       ([3], [3], [5, 14], false, 15), ([3], [6], [5, 14], false, 14), ([6], [3], [5, 14], false, 14),
       ([6], [6], [5, 14], false, 13), ([3], [1], [5, 14], false, 19), ([1], [3], [5, 14], false, 19),
       ([6], [1], [5, 14], false, 18), ([1], [6], [5, 14], false, 18), ([1], [1], [5, 14], false, 23),
       ([2], [3], [13, 14], false, 10), ([2], [6], [13, 14], false, 9), ([2], [1], [13, 14], false, 14),
       ([4], [4], [5, 14], true, 31), ([9], [9], [13], true, 31), ([10], [10], [13], true, 13), ([9], [10], [13], true, 27),
       ([10], [9], [13], true, 27), ([11, 12], [11, 12], [13], true, 14)]
     (rows.find? (fun e => e.1.contains a.toNat && e.2.1.contains b.toNat && e.2.2.1.contains d.toNat)).map (·.2.2.2)))

/-! ## Branches, loops and condition trees (R39 to R41, R126 to R133) -/

namespace Sys2Proof.Claims

open Sys2Proof.Machine

/-- A pending transfer of the bundle in progress, which two delay bundles precede (R42, R128). -/
def pending (c : Core) (kind : XferKind) (target : Option Word) (g : Bool) : Xfer :=
  { kind := kind, target := target, left := 2, atTime := 0, lc := none, depth := none, rot := none, p32 := none,
    link := none, pc := c.bundlePc, guarded := g, failed := false, issued := c.time }

/-- The state in which a transfer is pending. -/
def goes (s : State) (x : Xfer) : State := s.onMe (fun c => { c with xfer := some x })

/-- A status word written by a program, in flight for one cycle. -/
def statusFly (c : Core) (sl : Slot) (i : Nat) (v : Word) : Core :=
  c.emit { dest := .status i, val := v.setWidth 8192, tag := 1, poison := 0, land := c.time + 1, slot := slotCode sl,
           mismatch := false, twin := none, pc := c.bundlePc, opcode := 0, seg := c.segOpen, size := 0, events := [],
           issued := c.time, seq := c.seq, acq := false }

/-- The leaf of a tree whose tests have the truth values `v` (R39). -/
def leafOf (shape : Nat) (v : Nat → Bool) : Nat :=
  match shape with
  | 0 => if v 0 then 1 else 0
  | 1 => if v 0 then 1 else if v 1 then 2 else 0
  | 2 => if v 0 then 1 else if v 1 then 2 else if v 2 then 3 else 0
  | 3 => if v 0 then 1 else if v 1 then 2 else if v 2 then 3 else if v 3 then 4 else 0
  | 4 => if v 0 then (if v 1 then 1 else 2) else if v 2 then 3 else 0
  | _ => if v 0 then (if v 1 then 1 else 2) else if v 2 then 3 else if v 3 then 4 else 0

end Sys2Proof.Claims

/-- The B slot, condition trees and the transfer (R39 to R41, R126 to R132). A branch that is active leaves a transfer pending, to
H + 8 times the displacement, to a register, or nowhere; a call also sends the address of the bundle after its second delay bundle
to sd, or leaves it to the delay bundles where it cannot read them yet (the model's choice, log 12); B.DBNZ counts sa down; B.LOOP and the pipelined forms carry the updates of LC, DEPTH, ROT and p32 that R129 gives them. A
tree resolves its leaf from its tests and transfers to that leaf's target. The other B operations write LC, DEPTH, ROT or the stage
predicates one cycle later. When the transfer's time has come, the program counter takes the target and the updates are written. -/
def Obligations.BranchesLoopsAndTrees : Prop :=
  (∀ (h : Hdr) (bd : OpBD) (rg : OpBRG) (bl : OpBDL) (rl : OpBRL) (rd : OpBRD) (wc : OpBWC) (z : OpNone) (bt : OpBT) (br : OpBTR)
      (s : State), acts h true s →
    let c := s.me
    let at' (d : BitVec 32) : Word := c.bundlePc + 8#64 * d.signExtend 64
    let a (r : BitVec 7) : Word := (c.rs h.slot r).1
    let link : Word :=
      let after := match c.issue with | some i => i.after.toNat | none => 0
      let d1 := after + bundleBytes (s.codeWord after)
      BitVec.ofNat 64 (d1 + bundleBytes (s.codeWord d1))
    exec (.bBr h bd) s = .next (goes s (pending c .go (some (at' bd.disp)) bd.g)) ∧
    exec (.bBri h rg) s = .next (goes s (pending c .go (some (a rg.sa)) rg.g)) ∧
    exec (.bRet h rg) s = .next (goes s (pending c .go (some (a rg.sa)) rg.g)) ∧
    exec (.bBrx h rd) s = .next (goes s (pending c .go (some (a rd.sa + 8#64 * rd.disp.signExtend 64)) rd.g)) ∧
    (let call (sd : BitVec 7) (x : Xfer) (o : Host.Outcome State Fault Refusal) : Prop :=
       o = .next (if s.linkKnown then goes (scalarOut s h.slot sd 1 link false) x
         else goes (scalarOut s h.slot sd 1 s.linkGuess false) { x with link := some (c.physS sd.toNat) })
     call bl.sd (pending c .go (some (at' bl.disp)) bl.g) (exec (.bCall h bl) s) ∧
     call rl.sd (pending c .go (some (a rl.sa)) rl.g) (exec (.bCalli h rl) s)) ∧
    exec (.bDbnz h rd) s = .next (goes (scalarOut s h.slot rd.sa 1 (a rd.sa - 1) false)
      (pending c .go (if a rd.sa = 1 then none else some (at' rd.disp)) rd.g)) ∧
    exec (.bLoop h bd) s = .next (goes s (if c.sw.lc = 0 then pending c .go none bd.g
      else { pending c .go (some (at' bd.disp)) bd.g with lc := some (c.sw.lc - 1) })) ∧
    (let tail := fieldGet c.sw.depth 8 8
     let stages := fieldGet c.sw.depth 0 8
     let closed (count go exit g : Bool) (d : BitVec 32) : Xfer :=
       let more := go || decide (1 < tail)
       let x := pending c .go (if more != exit then some (at' d) else none) g
       let r := some (rotate c.sw.rot 0b1111#4)
       if go then { x with
         lc := if count then some (c.sw.lc - 1) else none
         depth := some (BitVec.ofNat 64 (256 * stages + stages))
         rot := r
         p32 := some true }
       else if tail = 0 then x
       else { x with
         depth := some (BitVec.ofNat 64 (256 * (tail - 1) + stages))
         rot := r
         p32 := some false }
     let live := c.sw.lc != 0
     let cond := (c.rp h.slot wc.pc).1 != wc.sense
     exec (.bPcnt h bd) s = .next (goes s (closed true live false bd.g bd.disp)) ∧
     exec (.bPcntx h bd) s = .next (goes s (closed true live true bd.g bd.disp)) ∧
     exec (.bPwhl h wc) s = .next (goes s (closed false cond false wc.g wc.disp)) ∧
     exec (.bPwhlx h wc) s = .next (goes s (closed false cond true wc.g wc.disp))) ∧
    exec (.bEnd h z) s = .next (goes s (pending c .unitEnd none false)) ∧
    exec (.bTrap h bt) s = .next (goes s (pending c (.trap bt.code.toNat) none false)) ∧
    exec (.bTrapr h br) s = .next (goes s (pending c (.trap (fieldGet (a br.sa) 0 16)) none false)) ∧
    exec (.bRft h z) s = .next (goes s (pending c .rft none false))) ∧
  (∀ (h : Hdr) (sa : OpSA) (bi : OpBI) (b8 : OpBI8) (b1 : OpBI1) (bm : OpBM) (bl : OpBL) (s : State), acts h false s →
    let c := s.me
    let a : Word := (c.rs h.slot sa.sa).1
    let both (n : Nat) : Word := BitVec.ofNat 64 (256 * n + n)
    exec (.bSetlc h sa) s = .next (s.onMe (fun c => statusFly c h.slot 0x009 a)) ∧
    exec (.bSetlci h bi) s = .next (s.onMe (fun c => statusFly c h.slot 0x009 (bi.imm.setWidth 64))) ∧
    exec (.bSetdp h sa) s = .next (s.onMe (fun c => statusFly c h.slot 0x00A (both (if a.toNat < 255 then a.toNat else 255)))) ∧
    exec (.bSetdpi h b8) s = .next (s.onMe (fun c => statusFly c h.slot 0x00A (both b8.imm.toNat))) ∧
    exec (.bRot h bm) s = .next (s.onMe (fun c => statusFly c h.slot 0x008 (rotate c.sw.rot bm.mask))) ∧
    exec (.bRotclr h bm) s = .next (s.onMe (fun c => statusFly c h.slot 0x008 (rotClear c.sw.rot bm.mask))) ∧
    exec (.bLoopset h bl) s = .next (s.onMe (fun c =>
      statusFly (statusFly c h.slot 0x009 (bl.lc.setWidth 64)) h.slot 0x00A (both bl.stages.toNat))) ∧
    exec (.bStage h b1) s = .next (s.onMe (fun c => { c with
      flights := c.flights ++ (List.range 32).map (fun i => { c.flight h.slot (.pred (c.physP (32 + i))) 1 with
        val := if b1.imm && i == 0 then 1#8192 else 0#8192 }) }))) ∧
  (∀ (rot : Word) (mask : BitVec 4),
    let base (r : Word) (i : Nat) : Nat := match i with
      | 0 => fieldGet r 0 5 | 1 => fieldGet r 5 5 | 2 => fieldGet r 10 8 | _ => fieldGet r 18 4
    let size (i : Nat) : Nat := match i with | 0 => 32 | 1 => 32 | 2 => 256 | _ => 16
    (∀ i < 4, base (rotate rot mask) i = (if mask.getLsbD i then (base rot i + size i - 1) % size i else base rot i) ∧
      base (rotClear rot mask) i = if mask.getLsbD i then 0 else base rot i) ∧
    ∀ i < 64, 22 ≤ i → (rotate rot mask).getLsbD i = rot.getLsbD i ∧ (rotClear rot mask).getLsbD i = rot.getLsbD i) ∧
  (∀ (t : TSyl) (s : State), s.me.issue.isSome = true →
    let test (i : Nat) : BitVec 6 × Bool := match i with
      | 0 => (t.pred0, t.sense0) | 1 => (t.pred1, t.sense1) | 2 => (t.pred2, t.sense2) | _ => (t.pred3, t.sense3)
    let v (i : Nat) : Bool := (match s.me.capTree with
      | some k => k.tests.getLsbD i
      | none => (s.me.preg (s.me.physP (test i).1.toNat)).val) != (test i).2
    let n := leafOf t.shape.toNat v
    let off : BitVec 8 := match n with | 1 => t.leaf1 | 2 => t.leaf2 | 3 => t.leaf3 | _ => t.leaf4
    let u := s.onMe (fun c => { c with
      xfer := some (pending c .go (if n = 0 then none else some (c.bundlePc + 8#64 * off.signExtend 64)) false)
      issue := c.issue.map (fun (i : Issue) => { i with leaf := n }) })
    (t.shape.toNat < 4 → exec (.tChain t) s = .next u) ∧ (t.shape.toNat = 4 ∨ t.shape.toNat = 5 → exec (.tBal t) s = .next u)) ∧
  (∀ (c : Core) (x : Xfer) (after : Word) (r : Nat), c.xfer = some x → x.left = 1 → x.link = some r → c.segOpen = false →
    (c.giveLink after).sreg r = { val := after, poison := false, pend := false } ∧
    (∀ k, k ≠ r → (c.giveLink after).sreg k = c.sreg k) ∧ (c.giveLink after).xfer = some { x with link := none } ∧
    (c.giveLink after).p = c.p ∧ (c.giveLink after).sw = c.sw ∧ (c.giveLink after).v = c.v) ∧
  (∀ (s : State) (x : Xfer), s.me.ticks = true → s.me.xfer = some x → x.left = 0 → x.atTime ≤ s.me.time → x.kind = .go →
    x.guarded = false → x.failed = false →
      ∃ t, exec .branchTransfer s = .next t ∧ sameMem s t ∧ sameOthers s t ∧ t.me.xfer = none ∧ t.me.pc = x.target.getD s.me.pc &&& 0xFFFFFFFFFFFFFFF8#64 ∧
        t.me.sw.lc = x.lc.getD s.me.sw.lc ∧ t.me.sw.depth = x.depth.getD s.me.sw.depth ∧
        t.me.sw.rot = x.rot.getD s.me.sw.rot ∧
        t.me.flights = s.me.flights ++ (match x.p32 with
          | none => []
          | some v => [{ t.me.flight .B (.pred (32 + fieldGet t.me.sw.rot 5 5)) 0 with
              val := if v then 1#8192 else 0#8192
              pc := x.pc }]) ∧
        t.me.s = s.me.s ∧ t.me.p = s.me.p ∧ t.me.m = s.me.m ∧ t.me.v = s.me.v ∧ t.me.t = s.me.t ∧ t.me.b = s.me.b ∧
        t.me.k = s.me.k ∧ t.me.ring = s.me.ring ∧ t.me.arr = s.me.arr ∧ t.me.latch = s.me.latch)

/-! ## S.NXT, the system operations and the end of a unit (R125, R315, R320, R365 to R367, R372, R425) -/

/-- S.NXT and the supervisor's operations (R125, R365 to R367, R372, R425). S.NXT hands the launch's next tile to the unit and its
coordinate word, or the null value, lands in s127 after 40 cycles. S.CTXOUT writes the held context's record: each byte is the
last one that the layout of R366 (`Core.recordBytes`) lists at its offset, and 0 where it lists none. S.CTXIN makes the record at a
the held context and puts every register outside the supervisor bank in place; its reserved bits are not taken (R4), and its
addresses of bundles are multiples of 8 (R21). S.CTXSKIP marks a trapped issue as skipped. An
S.TLBINV waits for its core's S.TLBSYNC, which takes every named entry out of every TLB of the package. S.CTXDONE gives a
pre-empted unit back to its launch with its record, or ends it as failed with CODE of TRAP_CAUSE. In user mode each of them raises
the access trap with SUB 5. A unit that ends frees its core and its tiles count by its outcome. That S.NXT hands its tile out at its
issue is log 16, and the places inside the areas of a record that R366 leaves open are log 18. -/
def Obligations.SystemOperationsAndUnitEnd : Prop :=
  (∀ (h : Hdr) (z : OpNone) (s : State), acts h false s →
    let answer (t : State) (w : Nat) : Prop := ∃ f, t.me.flights = s.me.flights ++ [f] ∧
      f.dest = .scalar (s.me.physS 127) ∧ f.land = s.me.time + 40 ∧ f.val = BitVec.ofNat 8192 w ∧ f.poison = 0 ∧ t.me.s = s.me.s
    (s.me.unit = none → exec (.sNxt h z) s = .next (scalarOut s h.slot 127 40 0xFFFFFFFF#64 false)) ∧
    (∀ u l, s.me.unit = some u → ¬(1 < u.gang ∧ u.pos ≠ 0) → s.launch u.launch = some l → s.launchCancelling l = false →
      let e := l.blk.executor u.crew u.pos
      let n := if l.blk.determ then e + l.blk.executors * SMap.get l.exec e 0 else l.next
      ∃ t, exec (.sNxt h z) s = .next t ∧
        (l.blk.tiles ≤ n → answer t 0xFFFFFFFF ∧ t.launch u.launch = some l ∧ t.me.unit.map (·.tiles) = some u.tiles) ∧
        (n < l.blk.tiles → answer t (l.blk.tile n % 2 ^ 64) ∧ t.me.unit.map (·.tiles) = some (u.tiles ++ [n]) ∧
          ∃ l', t.launch u.launch = some l' ∧ l'.started = l.started + 1 ∧
            (l.blk.determ = false → l'.next = n + 1) ∧
            (l.blk.determ = true → l'.next = l.next ∧ SMap.get l'.exec e 0 = SMap.get l.exec e 0 + 1)))) ∧
  (∀ (h : Hdr) (f : OpSA) (z : OpNone) (ti : OpTI) (cd : OpCTXD) (s : State), acts h false s →
    let c := s.me
    let a := (c.rs h.slot f.sa).1
    (∀ pages k, s.recordPages h.slot a true = .ok pages → c.held = some k →
      ∃ t, exec (.sCtxout h f) s = .next t ∧ t.me.held = some k ∧ t.me.s = c.s ∧ t.me.v = c.v ∧ t.me.sw = c.sw ∧
        let bytes := c.recordBytes k (s.fallOf k)
        pages.length = 40 ∧ (pages.Nodup → (∀ p ∈ pages, p % 65536 = 0) → (∀ e ∈ bytes, e.1 < 0x280000) →
          (∀ o < 0x280000, t.home.byte (recAddr pages o) = ((bytes.reverse.find? (fun e => e.1 == o)).map (·.2)).getD 0) ∧
          ∀ x, (∀ p ∈ pages, ¬(p ≤ x ∧ x < p + 65536)) → t.home.byte x = s.home.byte x)) ∧
    (∀ pages, s.recordPages h.slot a false = .ok pages →
      let num := s.recNum pages
      ∃ t k, exec (.sCtxin h f) s = .next t ∧ t.me.held = some k ∧ t.me.isHeld = true ∧ t.me.sup = true ∧
        t.home = s.home ∧ t.loft = s.loft ∧ t.cmem = s.cmem ∧
        k.pc = BitVec.ofNat 64 (num 24 8 / 8 * 8) ∧ k.time = num 32 8 ∧ k.skip = natBit (num 11 1) 3 ∧ k.atIssue = natBit (num 11 1) 0 ∧
        k.lc = BitVec.ofNat 64 (num 0x2048 8) ∧ k.rot = BitVec.ofNat 64 (num 0x2040 8) &&& 0x3FFFFF#64 ∧
        (∀ n < 16, SMap.get k.s n SReg.zero =
          { val := BitVec.ofNat 64 (num (0x1000 + 8 * n) 8), poison := natBit (num 0x1400 16) n, pend := false }) ∧
        (∀ n, 16 ≤ n → n < 128 → t.me.sreg n =
          { val := BitVec.ofNat 64 (num (0x1000 + 8 * n) 8), poison := natBit (num 0x1400 16) n, pend := false }) ∧
        (∀ n, 16 ≤ n → n < 64 → t.me.preg n = { val := natBit (num 0x1410 8) n, poison := natBit (num 0x1418 8) n }) ∧
        (∀ n < 16, t.me.mreg n = { val := BitVec.ofNat 32 (num (0x1420 + 4 * n) 4), poison := natBit (num 0x1460 2) n }) ∧
        (∀ n < 768, t.me.vreg n = {
          val := BitVec.ofNat 1024 (num (0x10000 + 128 * n) 128), tag := BitVec.ofNat 4 (num 0xC000 384 / 2 ^ (4 * n))
          poison := BitVec.ofNat 32 (num (0xC180 + 4 * n) 4), pend := false }) ∧
        (∀ n < 32, (t.me.treg n).val = BitVec.ofNat 131072 (num (0x28000 + 16384 * n) 16384)) ∧
        (∀ n < 16, t.me.breg n = BitVec.ofNat 20 (num (0x2300 + 8 * n) 8))) ∧
    exec (.sCtxskip h z) s = .next (s.onMe (fun c => { c with
      held := c.held.map (fun k => if k.atIssue then { k with skip := true } else k) })) ∧
    (let inv (kind : Nat) (o : Host.Outcome State Fault Refusal) : Prop := o = .next (s.onMe (fun c => { c with
       inval := c.inval ++ [(kind, fieldGet (c.rs h.slot ti.sb 1).1 0 16, (c.rs h.slot ti.sa).1.toNat)] }))
     inv 0 (exec (.sTlbinvAll h ti) s) ∧ inv 1 (exec (.sTlbinvContext h ti) s) ∧ inv 2 (exec (.sTlbinvPage h ti) s)) ∧
    (let hit (e : TlbEntry) : Bool := c.inval.any (fun i =>
       i.1 == 0 || i.1 == 1 && e.ctx == i.2.1 || i.1 != 1 && e.ctx == i.2.1 && e.covers i.2.1 i.2.2)
     ∃ t, exec (.sTlbsync h z) s = .next t ∧ t.me.inval = [] ∧ t.home = s.home ∧ t.me.s = c.s ∧ t.me.sw = c.sw ∧
       (∀ n x, (n, x) ∈ t.cores → ∃ y, ((n, y) ∈ s.cores ∨ (n = s.coreNo ∧ y = c)) ∧ x.tlb = y.tlb.filter (fun e => !hit e)) ∧
       t.clusterTlb = s.clusterTlb.map (fun e => (e.1, e.2.filter (fun x => !hit x)))) ∧
    (∀ u l, c.unit = some u → s.launch u.launch = some l →
      ∃ t l', exec (.sCtxdonePreempted h cd) s = .next t ∧ t.me.unit = none ∧ t.me.running = false ∧ t.me.held = none ∧
        t.me.sup = false ∧ t.launch u.launch = some l' ∧
        l'.waiting = l.waiting ++ [{ record := (c.rs h.slot cd.sa).1, unit := u, cluster := clusterOf s.coreNo }]) ∧
    (fieldGet c.sw.gangPos 20 4 = 0 → c.id = s.coreNo → exec (.sCtxdoneFailed h cd) s =
      .next ((s.endUnit s.coreNo .failed (fieldGet c.sw.trapCause 0 16)).onMe (fun c => { c with
        running := false
        issue := none })))) ∧
  (∀ (h : Hdr) (f : OpSA) (z : OpNone) (ti : OpTI) (cd : OpCTXD) (s : State), s.me.issue = none → s.me.active h false = true →
    (s.me.guardOf h).2 = false → s.me.sup = false →
    ∀ i ∈ [Instr.sCtxout h f, .sCtxin h f, .sCtxskip h z, .sTlbinvAll h ti, .sTlbinvContext h ti, .sTlbinvPage h ti,
        .sTlbsync h z, .sCtxdonePreempted h cd, .sCtxdoneFailed h cd],
      exec i s = .next (takeTrap { s.me.trap h.slot 0x09 with sub := 5 } s)) ∧
  (∀ (s : State) (n : Nat) (o : Outcome3) (cause : Nat) (u : UnitInfo) (l : Launch), (s.coreAt n).unit = some u →
    s.launch u.launch = some l →
    let k := if s.gangLeft n u then 0 else u.tiles.length
    ∃ (t : State) (l' : Launch), s.endUnit n o cause = t.settle ∧ (t.coreAt n).unit = none ∧ (t.coreAt n).running = false ∧
      t.launch u.launch = some l' ∧ l'.completed = l.completed + (if o = .completed then k else 0) ∧
      l'.cancelled = l.cancelled + (if o = .cancelled then k else 0) ∧ l'.failed = l.failed + (if o = .failed then k else 0) ∧
      (o ≠ .failed → ∀ pa, s.recordPa l.blk.ctx l.blk.record = some pa →
        t.home.num (pa + o.offset) 4 = (s.home.num (pa + o.offset) 4 + k) % 2 ^ 32))

/-! ## The bank units (R288 to R295) -/

namespace Sys2Proof.Claims

open Sys2Proof.Machine

/-- The `w` planes from `p` on. -/
def planesAt (p : BitVec 7) (w off : Nat) : List Nat := (List.range w).map (fun i => p.toNat + i + off)

/-- Planes `p` to `p + w - 1` of `f` replaced, plane `p + i` by `g i`. -/
def planesPut (f : Nat → BitVec 2048) (p w : Nat) (g : Nat → BitVec 2048) (q : Nat) : BitVec 2048 :=
  if p ≤ q ∧ q < p + w then g (q - p) else f q

/-- The plane that holds bit `i` of a value in every lane. -/
def bitPlane (v : Nat → Int) (i : Nat) : BitVec 2048 := planeOf (fun k => decide (v k / 2 ^ i % 2 = 1))

/-- What an instruction of a bank unit names, with the offset of the active loops: planes read and written, latches,
accumulators; whether it is arithmetic or ARD, its duration, and the bank cycles to the next issue. -/
structure BankUse where
  reads : List Nat := []
  writes : List Nat := []
  latches : List Nat := []
  accs : List Nat := []
  arith : Bool := false
  dur : Nat := 1
  next : Nat

/-- An issue that breaks no rule of R289 and R292. -/
def bankOk (s : State) (u : BankUnit) (e : BankUse) : Prop :=
  (∀ p ∈ e.reads ++ e.writes, p < 128) ∧ (∀ p ∈ e.reads, s.home.anyPois (u.row + 256 * p) 256 = false) ∧
    ∀ x ∈ u.busy, u.cycle < x.ends → x.arith = true ∧ e.arith = false ∧ (∀ p ∈ e.reads ++ e.writes, p ∉ x.planes) ∧
      (∀ l ∈ e.latches, l ∉ x.latches) ∧ ∀ a ∈ e.accs, a ∉ x.accs

/-- The outcome `o` is the issue of an instruction by the bank unit `u` that has the turn: its planes, latches and accumulators
then are `pl`, `la` and `ac`, `rest` holds of the unit, no other byte of memory and no core has changed, and the instruction is in
progress for its duration. -/
def bankRuns (s : State) (u : BankUnit) (e : BankUse) (pl la : Nat → BitVec 2048) (ac : Bool → Nat → BitVec 2048)
    (rest : BankUnit → Prop) (o : Host.Outcome State Fault Refusal) : Prop :=
  ∃ t v, o = .next t ∧ t.unitOf s.bankNo.1 s.bankNo.2 = some v ∧ v.row = u.row ∧ v.cmd = u.cmd ∧ v.cycle = u.cycle + e.next ∧
    rest v ∧ (∀ p < 128, t.plane u.row p = pl p) ∧ (∀ i < 8, v.l i = la i) ∧ (∀ k, ∀ i < 32, v.acc k i = ac k i) ∧
    v.busy = u.busy.filter (fun x => decide (u.cycle < x.ends)) ++ [{
      ends := u.cycle + e.dur, arith := e.arith, planes := e.reads ++ e.writes, latches := e.latches, accs := e.accs }] ∧
    t.cores = s.cores ∧ t.loft = s.loft ∧ t.cmem = s.cmem ∧
    ∀ a, ¬(u.row ≤ a ∧ a < u.row + 32768) → t.home.byte a = s.home.byte a

/-- An access to a worked page has been performed in its beat at its home (R281, R286): a load has its bytes, in order; a store has
changed the bits of its mask in each byte that it names, and no other byte. -/
def worked (s t : State) (d : Nat) (a : WAccess) : Prop :=
  (t.dieAt d).accesses = (s.dieAt d).accesses.filter (fun x => !(x.core == a.core && x.seq == a.seq && x.load == a.load)) ∧
  (a.load = true → t.home = s.home ∧ ∃ v : BitVec 1024, ∃ q : PendLoad → BitVec 32,
    (a.addrs.length ≤ 128 → ∀ i < a.addrs.length, el v 8 i = s.home.byte (a.addrs.getD i 0)) ∧
    (t.coreAt a.core).loads = (s.coreAt a.core).loads.map (fun l =>
      if l.seq == a.seq then { l with arrived := some (v, q l), away := false } else l)) ∧
  (a.load = false → (∀ e ∈ a.bytes, (a.bytes.map (·.1)).Nodup →
      t.home.byte e.1 = (s.home.byte e.1 &&& ~~~e.2.2) ||| (e.2.1 &&& e.2.2)) ∧
    ∀ y, (∀ e ∈ a.bytes, e.1 ≠ y) → t.home.byte y = s.home.byte y)

end Sys2Proof.Claims

/-- Every instruction of a bank unit (R289 to R292), issued by a running unit with no rule broken: the arithmetic of the 2,048 lanes,
plane logic, row accesses, loops, WAIT, HALT, ARD and ACLR. The lanes of ADD and SUB are stated where a result plane is not read
after it is written, since they write each plane as they go, while MIN, MAX and CMP read both operands before they write (log 48). -/
def Obligations.BankUnitInstructions : Prop :=
  ∀ (ar : BkAr) (ml : BkMul) (cp : BkCmp) (ng : BkNeg) (p3 : BkP3) (p2 : BkP2) (fl : BkFill) (rw : BkRow) (rm : BkRowM) (rs : BkRowS)
    (lp : BkLoop) (c1 : BkC) (wt : BkWait) (ht : BkNone) (rd : BkArd) (s : State) (u : BankUnit),
    s.unitOf s.bankNo.1 s.bankNo.2 = some u → u.halted = false →
    let off := u.offset
    let p (q : Nat) : BitVec 2048 := s.plane u.row q
    let plain (v : BankUnit) : Prop := v.index = u.index + 1 ∧ v.loop0 = u.loop0 ∧ v.loop1 = u.loop1 ∧ v.halted = false
    let loops (c : Bool) (x : BankLoop) (i : Nat) (v : BankUnit) : Prop :=
      v.index = i ∧ v.loop0 = (if c then u.loop0 else x) ∧ v.loop1 = (if c then x else u.loop1) ∧ v.halted = false
    let latch (l : BitVec 3) (x : BitVec 2048) (i : Nat) : BitVec 2048 := if i = l.toNat then x else u.l i
    let runs (e : BankUse) (pl la : Nat → BitVec 2048) (ac : Bool → Nat → BitVec 2048) (rest : BankUnit → Prop)
        (o : Host.Outcome State Fault Refusal) : Prop := bankOk s u e → bankRuns s u e pl la ac rest o
    (let w := ar.w1.toNat + 1
     let a (k : Nat) : Int := s.laneVal u.row (ar.pa.toNat + off) w ar.s k
     let b (k : Nat) : Int := s.laneVal u.row (ar.pb.toNat + off) w ar.s k
     let e (d : Nat) (l : List Nat) : BankUse := {
       reads := planesAt ar.pa w off ++ planesAt ar.pb w off, writes := planesAt ar.pa w off, latches := l, arith := true, dur := d
       next := ar.t.toNat + 1 }
     let put (v : Nat → Int) := planesPut p (ar.pa.toNat + off) w (bitPlane v)
     let seven (v : Nat → Int) := latch 7#3 (planeOf (fun k =>
       if ar.s then decide (v k < -2 ^ (w - 1) ∨ 2 ^ (w - 1) ≤ v k) else decide (v k < 0 ∨ 2 ^ w ≤ v k)))
     (¬(ar.pb.toNat < ar.pa.toNat ∧ ar.pa.toNat < ar.pb.toNat + w) →
       runs (e (w + 1) [7]) (put (fun k => a k + b k)) (seven (fun k => a k + b k)) u.acc plain (exec (.bkAdd ar) s) ∧
       runs (e (w + 1) [7]) (put (fun k => a k - b k)) (seven (fun k => a k - b k)) u.acc plain (exec (.bkSub ar) s)) ∧
     runs (e (w + 1) []) (put (fun k => if a k < b k then a k else b k)) u.l u.acc plain (exec (.bkMin ar) s) ∧
     runs (e (w + 1) []) (put (fun k => if a k < b k then b k else a k)) u.l u.acc plain (exec (.bkMax ar) s)) ∧
    (let wa := ml.wa1.toNat + 1
     let wb := ml.wb1.toNat + 1
     let x (k : Nat) : Int := s.laneVal u.row (ml.pa.toNat + off) wa ml.s k * s.laneVal u.row (ml.pb.toNat + off) wb ml.s k
     let old (k : Nat) : Int := (List.range 32).foldl (fun (n : Int) i => if (u.acc ml.k i).getLsbD k then n + 2 ^ i else n) 0
     let e : BankUse := {
       reads := planesAt ml.pa wa off ++ planesAt ml.pb wb off, accs := [if ml.k then 1 else 0], arith := true, dur := wa * wb
       next := ml.t.toNat + 1 }
     let acc (v : Nat → Int) (k : Bool) (i : Nat) : BitVec 2048 := if k = ml.k then bitPlane v i else u.acc k i
     runs e p u.l (acc x) plain (exec (.bkMul ml) s) ∧ runs e p u.l (acc (fun k => old k + x k)) plain (exec (.bkMac ml) s)) ∧
    (let w := cp.w1.toNat + 1
     runs { reads := planesAt cp.pa w off ++ planesAt cp.pb w off, latches := [cp.l.toNat], arith := true, dur := w
            next := cp.t.toNat + 1 } p (latch cp.l (planeOf (fun k => decide
        (s.laneVal u.row (cp.pa.toNat + off) w cp.s k < s.laneVal u.row (cp.pb.toNat + off) w cp.s k)))) u.acc plain
       (exec (.bkCmp cp) s)) ∧
    (let w := ng.w1.toNat + 1
     runs { reads := planesAt ng.pa w off, writes := planesAt ng.pa w off, arith := true, dur := w + 1, next := ng.t.toNat + 1 }
       (planesPut p (ng.pa.toNat + off) w (bitPlane (fun k => -s.laneVal u.row (ng.pa.toNat + off) w false k))) u.l u.acc plain
       (exec (.bkNeg ng) s)) ∧
    (let e : BankUse := { latches := [p3.ld.toNat, p3.la.toNat, p3.lb.toNat], next := p3.t.toNat + 1 }
     runs e p (latch p3.ld (u.l p3.la.toNat &&& u.l p3.lb.toNat)) u.acc plain (exec (.bkPand p3) s) ∧
     runs e p (latch p3.ld (u.l p3.la.toNat ||| u.l p3.lb.toNat)) u.acc plain (exec (.bkPor p3) s) ∧
     runs e p (latch p3.ld (u.l p3.la.toNat ^^^ u.l p3.lb.toNat)) u.acc plain (exec (.bkPxor p3) s)) ∧
    (let e : BankUse := { latches := [p2.ld.toNat, p2.la.toNat], next := p2.t.toNat + 1 }
     runs e p (latch p2.ld (~~~ u.l p2.la.toNat)) u.acc plain (exec (.bkPnot p2) s) ∧
     runs e p (latch p2.ld (u.l p2.la.toNat)) u.acc plain (exec (.bkPmov p2) s)) ∧
    runs { latches := [fl.ld.toNat], next := fl.t.toNat + 1 } p (latch fl.ld (if fl.v then BitVec.allOnes 2048 else 0)) u.acc plain
      (exec (.bkPfill fl) s) ∧
    runs { reads := [rw.p.toNat + off], latches := [rw.l.toNat], dur := 2, next := rw.t.toNat + 1 } p
      (latch rw.l (p (rw.p.toNat + off))) u.acc plain (exec (.bkRrd rw) s) ∧
    runs { writes := [rw.p.toNat + off], latches := [rw.l.toNat], dur := 2, next := rw.t.toNat + 1 }
      (planesPut p (rw.p.toNat + off) 1 (fun _ => u.l rw.l.toNat)) u.l u.acc plain (exec (.bkRwr rw) s) ∧
    runs { writes := [rm.p.toNat + off], latches := [rm.l.toNat, rm.m.toNat], dur := 2, next := rm.t.toNat + 1 }
      (planesPut p (rm.p.toNat + off) 1 (fun _ => planeOf (fun k =>
        if (u.l rm.m.toNat).getLsbD k then (u.l rm.l.toNat).getLsbD k else (p (rm.p.toNat + off)).getLsbD k))) u.l u.acc plain
      (exec (.bkRwrm rm) s) ∧
    runs { reads := [rs.p.toNat + off], latches := [rs.l.toNat], dur := 2, next := rs.t.toNat + 1 } p
      (latch rs.l (planeOf (fun k => (p (rs.p.toNat + off)).getLsbD ((k + rs.n.toNat) % 2048)))) u.acc plain
      (exec (.bkRrds rs) s) ∧
    ((u.loop lp.c).active = false → runs { next := lp.t.toNat + 1 } p u.l u.acc
      (loops lp.c { active := true, left := lp.n1.toNat + 1, start := u.index + 1, step := lp.sp.toNat, offset := 0 } (u.index + 1))
      (exec (.bkLoop lp) s)) ∧
    (let x := u.loop c1.c
     x.active = true → (u.stopping = false ∨ u.noSpill = true) →
       (1 < x.left → runs { next := c1.t.toNat + 1 } p u.l u.acc
         (loops c1.c { x with left := x.left - 1, offset := x.offset + x.step } x.start) (exec (.bkEndl c1) s)) ∧
       (x.left ≤ 1 → runs { next := c1.t.toNat + 1 } p u.l u.acc
         (loops c1.c { active := false, left := 0, start := 0, step := 0, offset := 0 } (u.index + 1)) (exec (.bkEndl c1) s))) ∧
    runs { next := wt.t.toNat + 1 + wt.n.toNat } p u.l u.acc plain (exec (.bkWait wt) s) ∧
    runs { next := ht.t.toNat + 1 } p u.l u.acc (fun v => v.halted = true) (exec (.bkHalt ht) s) ∧
    (let w := rd.w1.toNat + 1
     rd.sh.toNat + w ≤ 32 → runs {
       writes := planesAt rd.p w off, accs := [if rd.k then 1 else 0], arith := true, dur := w, next := rd.t.toNat + 1 }
       (planesPut p (rd.p.toNat + off) w (fun i => u.acc rd.k (rd.sh.toNat + i))) u.l u.acc plain (exec (.bkArd rd) s)) ∧
    runs { accs := [if c1.c then 1 else 0], next := c1.t.toNat + 1 } p u.l
      (fun k i => if k = c1.c then 0 else u.acc k i) plain (exec (.bkAclr c1) s)

/-- The beats of a die and what goes wrong in them. A bank unit that breaks a rule of R292 faults in its bank alone (R293): the row
is poisoned, the unit halts, and a record of type 8 with the bank, the instruction index and the cause goes to the issuing core's
ring. A unit past the stretch limit spills at its ENDL into the cellar, and a halted unit issues nothing (R294). An access or a
command that arrives is performed, held, accepted or refused by its tag (R281, R287), one of the running handler's own with a
supervisor fault (R361); access and compute beats open and end in turn,
and a refresh gap only resets the count of pairs (R273 to R275, R283). The order of a unit's checks, its spill at ENDL and T as submitted
are log 49; what passes in compute beats, refreshes and suspension is log 50. -/
def Obligations.BeatsAndBankFaults : Prop :=
  (∀ (c : BkC) (lp : BkLoop) (rd : BkArd) (rw : BkRow) (s : State) (u : BankUnit),
    s.unitOf s.bankNo.1 s.bankNo.2 = some u →
    (u.halted = true → exec (.bkEndl c) s = .next s ∧ exec (.bkRrd rw) s = .next s) ∧
    (u.halted = false →
      let faults (cause : Nat) (o : Host.Outcome State Fault Refusal) : Prop :=
        ∀ k, (s.dieAt s.bankNo.1).cmd u.cmd = some k → ∃ (t : State) (r : ErrRec) (v : BankUnit), o = .next (t.record k.core r) ∧
          t.unitOf s.bankNo.1 s.bankNo.2 = some v ∧ v.halted = true ∧ (∀ w < 8192, t.home.pois (u.row / 4 + w) = true) ∧
          t.cores = s.cores ∧ r.kind = 8 ∧ r.core = k.core ∧ r.die = s.bankNo.1 ∧
          r.detail = [(0, 2, s.bankNo.2 % 256), (2, 2, u.row % 2 ^ 34 / 2 ^ 23), (4, 2, u.index), (6, 1, cause), (8, 8, k.tag)]
      ((u.loop c.c).active = false → faults 3 (exec (.bkEndl c) s)) ∧
      ((u.loop lp.c).active = true → faults 3 (exec (.bkLoop lp) s)) ∧
      (32 < rd.sh.toNat + rd.w1.toNat + 1 → faults 5 (exec (.bkArd rd) s)) ∧
      (127 < rw.p.toNat + u.offset → faults 4 (exec (.bkRrd rw) s) ∧ faults 4 (exec (.bkRwr rw) s)) ∧
      (rw.p.toNat + u.offset < 128 → (∀ x ∈ u.busy, x.ends ≤ u.cycle) →
        s.home.anyPois (u.row + 256 * (rw.p.toNat + u.offset)) 256 = true → faults 7 (exec (.bkRrd rw) s)) ∧
      ((u.loop c.c).active = true → (∀ x ∈ u.busy, x.ends ≤ u.cycle) → u.stopping = true → u.noSpill = false →
        ∃ t v, exec (.bkEndl c) s = .next t ∧ t.unitOf s.bankNo.1 s.bankNo.2 = none ∧
          SMap.get (t.dieAt s.bankNo.1).cellar s.bankNo.2 u = v ∧ v.suspensions = u.suspensions + 1 ∧ v.latch = u.latch ∧
          v.acc0 = u.acc0 ∧ v.acc1 = u.acc1 ∧ v.program = u.program ∧ v.index = (if 1 < (u.loop c.c).left then (u.loop c.c).start else u.index + 1) ∧
          t.home = s.home ∧ t.cores = s.cores))) ∧
  (∀ s : State, let d := s.dieNo
    let x := s.dieAt d
    (∀ a, x.accesses = [a] → a.held = false → s.beatAsks d = [] → (s.coreAt a.core).acquiring a.seq = false →
      (s.coreAt a.core).fencing a.seq = false →
      (∀ e ∈ (s.coreAt a.core).sb, a.seq ≤ e.seq ∨ e.beat = none ∨ meets e.addrs a.span = false) →
      let mine : Prop := (s.coreAt a.core).sup = true ∧ (s.coreAt a.core).supFrom ≤ a.seq
      let refused (code : Nat) (t : State) : Prop := (t.dieAt d).accesses = [] ∧ (∃ r more, t.records = s.records ++ r :: more ∧
          more = [] ∧ r.kind = 7 ∧ r.core = a.core ∧ r.pc = a.pc ∧ r.detail = [(0, 8, a.tag), (8, 8, x.beat), (16, 8, a.pa)]) ∧
        (a.load = true → (t.coreAt a.core).loads = (s.coreAt a.core).loads.map (fun l => if l.seq == a.seq then { l with
          kind := .fail (refusalTrap (code == 8) a.virt a.pc a.slot a.tag x.beat 0), away := false } else l)) ∧
        (a.load = false → ¬mine → s.unitStands a.core a.ctx a.seq = true → (s.coreAt a.core).async.all (fun e => e.code != code) = true →
          ∃ e, (t.coreAt a.core).async = (s.coreAt a.core).async ++ [e] ∧ e.code = code ∧ e.pc = a.pc ∧ e.addr = a.virt) ∧
        (a.load = false → mine → s.unitStands a.core a.ctx a.seq = true → (s.coreAt a.core).supAsync.all (fun e => e.code != code) = true →
          ∃ e, (t.coreAt a.core).supAsync = (s.coreAt a.core).supAsync ++ [e] ∧ e.code = code ∧ e.pc = a.pc ∧ e.addr = a.virt)
      ∃ t : State, exec .workedAccessArrival s = .next t.settle ∧
        (x.beat = a.tag → x.opened = true → x.suspendedRow a.pa = false → worked s t d a) ∧
        (a.tag < x.beat ∨ (x.beat = a.tag ∧ x.opened = false) → refused 8 t) ∧
        (x.beat + 4096 < a.tag → refused 7 t) ∧
        (x.beat < a.tag → a.tag ≤ x.beat + 4096 → t.home = s.home ∧ t.cores = s.cores ∧
          (t.dieAt d).accesses = [{ a with held := true }])) ∧
    (∀ c, x.cmds.filter (fun y => !y.arrived) = [c] → s.determOn d = false →
      let clash : Prop := ∃ y ∈ x.cmds, y.arrived = true ∧ y.due = c.tag ∧ ∃ r ∈ y.rows, ∃ q ∈ c.rows, bankOfRow r = bankOfRow q
      (x.beat < c.tag → c.tag ≤ x.beat + 4096 → ¬clash → exec .bankCommandArrival s = .next (s.putDie d { x with
        cmds := x.cmds.map (fun y => if y.id == c.id then { y with arrived := true } else y) })) ∧
      (c.tag ≤ x.beat ∨ x.beat + 4096 < c.tag ∨ clash → ∃ t r more, exec .bankCommandArrival s = .next t ∧
        t.records = s.records ++ r :: more ∧ more = [] ∧ r.kind = 7 ∧ r.core = c.core ∧ (t.dieAt d).cmds = x.cmds.filter (fun y => y.id != c.id))) ∧
    (x.gapDue = true → exec .refreshGap s = .next (s.putDie d { x with pairs := 0 })) ∧
    (x.layers.getLsbD 0 = true → x.beat % 2 = 1 → x.opened = false → x.gapDue = false →
      let opened := { x with
        beat := x.beat + 1
        opened := true }
      (x.accesses.filter (fun a => a.held && a.tag == x.beat + 1) = [] →
        exec .accessBeatOpen s = .next (s.putDie d opened).settle) ∧
      (∀ a, x.accesses.filter (fun a => a.held && a.tag == x.beat + 1) = [a] → x.suspendedRow a.pa = false →
        ∃ t : State, exec .accessBeatOpen s = .next t.settle ∧ worked (s.putDie d opened) t d a ∧
          (t.dieAt d).beat = x.beat + 1 ∧ (t.dieAt d).opened = true)) ∧
    (x.layers.getLsbD 0 = true → x.beat % 2 = 0 → x.opened = true →
      (x.cmds.filter (fun c => c.arrived && c.due == x.beat + 1) = [] → exec .computeBeatOpen s = .next (s.putDie d { x with
        beat := x.beat + 1
        opened := false
        pairs := x.pairs + 1 })) ∧
      (∀ c, x.cmds.filter (fun c => c.arrived && c.due == x.beat + 1) = [c] → c.count = 1 → c.suspended = false → x.cellar = [] →
        (∀ w ∈ c.program, (decodeBk w).isSome = true) → ∃ t v, exec .computeBeatOpen s = .next t ∧
          (t.dieAt d).beat = x.beat + 1 ∧ (t.dieAt d).opened = true ∧ t.unitOf d (bankOfRow c.region) = some v ∧
          v.row = c.region ∧ v.program = c.program ∧ v.index = 0 ∧ v.cycle = 0 ∧ v.halted = false ∧ v.loop0.active = false ∧
          v.loop1.active = false ∧ (∀ i, v.l i = 0) ∧ ∀ k i, v.acc k i = 0)) ∧
    (x.beat % 2 = 1 → x.opened = true → (∀ e ∈ x.units, e.2.halted = true) → exec .computeBeatEnd s = .next (s.putDie d { x with
      opened := false
      pairs := x.pairs + 1
      units := []
      cmds := x.cmds.filter (fun c => !c.arrived || c.due != x.beat) })) ∧
    (∀ b u, x.units = [(b, u)] → u.halted = false →
      let limit := fieldGet x.plan 16 16 + fieldGet x.plan 48 16
      (u.limited = false → limit ≤ u.cycle → (u.suspensions < 64 ∨ u.noSpill = true →
          exec .stretchLimit s = .next (s.putUnit d b { u with
            limited := true
            stopping := true })) ∧
        (64 ≤ u.suspensions → u.noSpill = false → exec .stretchLimit s = .next (s.bankFault d b 9))) ∧
      (u.stopping = true → limit + 65536 < u.cycle → exec .noLoopBoundaryReached s = .next (s.bankFault d b 8))))

/-! ## What a core does between bundles (R25, R165, R176, R325, R326, R336, R352 to R364, R368, R378) -/

namespace Sys2Proof.Claims

open Sys2Proof.Machine

/-- Handler entry waits for nothing and completes nothing first: the debugger does not hold the core, and there is no on-chip
access on its way, no comparison, no pop, and no pending bit of s0 to s15 (R355, R359, R368). -/
def still (c : Core) : Prop :=
  c.debugStop = false ∧ c.timed = [] ∧ (∀ f ∈ c.flights, f.twin = none) ∧ c.pops = [] ∧ ∀ n < 16, (c.sreg n).pend = false

/-- The core `t` has entered its handler for the trap `x`, taken on the core `c` (R355, R356, R359, R362): the trap words; SUP and
HELD set; the next bundle at TRAP_VEC; the supervisor bank of s0 to s15, p1 to p15, ROT, LC, DEPTH, REPC and the latches at zero;
and the trapped context held, its results in flight with it. Every other register stays. -/
def entered (c t : Core) (x : Trap) (atIssue : Bool) : Prop :=
  t.pc = c.sw.trapVec &&& 0xFFFFFFFFFFC0#64 ∧ t.sup = true ∧ t.isHeld = true ∧ t.issue = none ∧
  t.sw.trapCause = BitVec.ofNat 64 (x.code % 2 ^ 16 + (if x.async then 2 ^ 31 else 0) + 2 ^ 32 * (x.slot % 16) + 2 ^ 40 * (x.sub % 256)) ∧
  t.sw.trapPc = x.pc &&& 0xFFFFFFFFFFFF#64 ∧ t.sw.faultAddr = x.addr ∧
  t.sw.faultInfo = BitVec.ofNat 64 (x.size % 256 + 2 ^ 8 * (x.level % 256) + 2 ^ 16 * (x.kind % 256) + 2 ^ 24 * (x.space % 256) +
    2 ^ 32 * (x.data % 2 ^ 32)) ∧
  t.sw.rot = 0 ∧ t.sw.lc = 0 ∧ t.sw.depth = 0 ∧ t.sw.repc = 0 ∧ t.latch = [] ∧ t.flights = [] ∧ t.xfer = none ∧ t.time = 0 ∧
  t.phase.running = false ∧
  (∀ n, t.sreg n = if n < 16 then SReg.zero else c.sreg n) ∧
  (∀ n, 0 < n → t.preg n = if n < 16 then PReg.zero else c.preg n) ∧
  t.m = c.m ∧ t.v = c.v ∧ t.t = c.t ∧ t.ring = c.ring ∧ t.b = c.b ∧ t.k = c.k ∧ t.arr = c.arr ∧ t.seg = c.seg ∧
  t.sw.mcfg = c.sw.mcfg ∧ t.sw.ctxId = c.sw.ctxId ∧ t.sw.segState = c.sw.segState ∧
  ∃ h, t.held = some h ∧ h.pc = c.pc ∧ h.time = c.time ∧ h.next = c.next ∧ h.flights = c.flights ∧ h.xfer = c.xfer ∧
    h.slip = c.slip ∧ h.rot = c.sw.rot ∧ h.lc = c.sw.lc ∧ h.depth = c.sw.depth ∧ h.repc = c.sw.repc ∧
    h.beatNow = c.sw.beatNow ∧ h.latches = c.latch ∧ h.atIssue = atIssue ∧ h.skip = c.skipNext ∧
    h.cap = c.cap ∧ h.capTree = c.capTree ∧
    ∀ n < 16, SMap.get h.s n SReg.zero = c.sreg n ∧ (0 < n → SMap.get h.p n PReg.zero = c.preg n)

end Sys2Proof.Claims

/-- The turns of a core between the operations of its bundles. A core that takes cycles tries its next bundle: it waits, stalls for
a cycle of issue time, traps, or issues, and then the operations of the bundle stand to act with the header's scope, repeat and
latches (R25, R34 to R37). A hold that is served lets its bundle issue (R165); a member that may pass a rendezvous passes it (R326); a
fetched line is the 64 bytes at its translation, or a fault kept for the bundle that reaches it (R336), where no compute beat works on its row and no suspended command holds it (R274, R295); the slip's operation issues
with its captured operands under the names of its bundle (R77, R176); a D-pair comparison clears its result or marks it and records the mismatch (R378); events due at a
boundary that no hold keeps (R363) enter the handler, lowest code first, those of the handler's own operations are supervisor faults
(R361), a debug stop only stops the core (R354, R359, R363, R364, R368); a saved unit restarts in its handler
with the record's address in s0 (R359). That a hold of a handler has the core's accesses made is log 11, that a slip's trap names
its own bundle log 42, what a debug stop waits for log 45. Bundles with SE or PH are in `SegmentsAndPhases`, the contents of the
latches, repetitions and the decode trap in `LatchesRepetitionsAndDecodeTraps`. -/
def Obligations.CoreEventsTakeEffect : Prop :=
  (∀ s : State, let c := s.me
    let next := s.settleCore.onMe (fun c => c.charge.count)
    let alone : Prop := fieldGet c.sw.gangPos 20 4 = 0
    (c.ticks = false → exec .headerIssue s = .next s) ∧
    (c.ticks = true → alone →
      (next.look = .early ∨ next.look = .stall → exec .headerIssue s = .next (next.onMe (fun c => { c with time := c.time + 1 }))) ∧
      (next.look = .missing → exec .headerIssue s = .next next) ∧
      (∀ t b, next.look = .trap t b → exec .headerIssue s = .next (next.issueTrap t b)) ∧
      (next.look = .hold → exec .headerIssue s = .next next.drainHold) ∧
      (∀ b, next.look = .wait b → next.me.hold = .none →
        (next.me.sup = false → exec .headerIssue s = .next (next.onMe (fun c => { c with hold := .waiting }))) ∧
        (next.me.sup = true → exec .headerIssue s = .next (State.onMe
          (next.drainMemory next.coreNo next.me.seq (4 * next.me.timed.length + 4))
          (fun c => if c.hold = .none then { c with hold := .waiting } else c)))) ∧
      (∀ b, next.look = .go b → next.me.segOpen = false → b.hd.getLsbD 31 = false → b.hd.getLsbD 30 = false →
        (∀ x, next.me.xfer = some x → x.link = none) → (next.begun b).heldItem b = none → ∃ t i, exec .headerIssue s = .next t ∧ sameMem next t ∧ t.me.issue = some i ∧
          i.pc = next.me.pc ∧ i.scope = fieldGet b.hd 32 3 ∧ i.ops = b.inTurn.map (fun o => (o.slot, o.word)) ∧ i.tree = b.tree ∧
          i.after = b.after ∧ i.repsLeft = (if b.rep then next.me.sw.repc.toNat - 1 else fieldGet b.hd 35 8) ∧
          t.me.sw.repc = BitVec.ofNat 64 i.repsLeft ∧ t.me.pc = next.me.pc ∧ t.me.time = next.me.time ∧ t.me.s = next.me.s ∧
          t.me.p = next.me.p ∧ t.me.m = next.me.m ∧ t.me.v = next.me.v ∧ t.me.t = next.me.t ∧ t.me.b = next.me.b ∧
          t.me.k = next.me.k ∧ t.me.flights = next.me.flights ∧ t.me.latch = (next.me.latches b).latch ∧
          t.me.xfer = (if b.branch then some (pending t.me .go none false) else next.me.xfer))) ∧
    (∀ b, c.ticks = true → c.hold = .waiting → c.fetched = .whole → c.decode = .ok b → (s.begun b).holdWaits b = false →
      s.mates = [] → c.det = false → exec .holdEnd s = .next (s.onMe (fun c => { c with hold := .served }))) ∧
    (∀ r l k p m, c.waiting = some r → s.crewOf s.coreNo = some (l, k, p) → s.mayPass s.coreNo = true → k.members[p]? = some m →
      c.entering = none → c.hasEvent = false →
      m.core = some s.coreNo → ∃ t l', exec .rendezvousPass s = .next t ∧ t.me.waiting = none ∧ t.me.rvDone = true ∧
        t.me.s = c.s ∧ t.me.pc = c.pc ∧ t.home = s.home ∧ t.launch l.id = some l' ∧
        ∀ k' ∈ l'.crews, k'.index = k.index → ∀ m', k'.members[p]? = some m' → m'.count r = m.count r + 1) ∧
    (∀ l, c.nextLine = some l → 64 * l < 2 ^ 48 → s.lineBusy s.coreNo = false →
      let kept := c.fetch.filter (fun f => c.wantLines.contains f.addr)
      let a := access s c c.ctx (64 * l) (s.free + s.coreNo) { rd := false, wr := false, ex := true, user := !c.sup }
      (∀ pa attr old, a = .ok pa attr old → isWorked attr = false → s.home.anyPois pa 64 = false → s.rowRefused [pa] = false →
        ∃ t, exec .fetchLine s = .next t ∧ t.home = s.home ∧ t.me.pc = c.pc ∧ t.me.s = c.s ∧
          t.me.fetch = kept ++ [{ addr := l, data := BitVec.ofNat 512 (s.home.num pa 64), faulted := false }]) ∧
      (∀ code sub level, a = .fail code sub level → code ≠ 0x0A ∨ sub ≠ 3 → ∃ t, exec .fetchLine s = .next t ∧ t.home = s.home ∧
        t.me.pc = c.pc ∧ t.me.s = c.s ∧ t.me.fetch = kept ++ [{ addr := l, data := 0, faulted := true }])) ∧
    (∀ x m, c.slip = some x → s.slipReady = true → semOfWord x.slot x.word = some m →
      let u := s.onMe (fun c => { c with
        cap := [x.cap]
        k := x.k
        sw := { c.sw with rot := x.rot }
        issue := some { pc := x.pc, scope := x.scope, leaf := 0, ops := [], tree := none, after := c.pc, repsLeft := 0,
                        branch := false, pops := [], free := s.free, repc := c.sw.repc, segState := c.sw.segState,
                        phaseCnt := c.sw.phaseCnt } })
      (m.check u = none → c.sw.checkctl.getLsbD 1 = false → c.sw.checkctl.getLsbD 2 = false →
        exec .slipIssue s = .next (({ m.eff u with free := (m.eff u).free + 8 } : State).onMe (fun d => { d with
          slip := none
          cap := c.cap
          k := c.k
          issue := none
          sw := { d.sw with rot := c.sw.rot } }))) ∧
      (∀ t, m.check u = some t → exec .slipIssue s = .next (s.takeTrapAt s.coreNo { t with pc := x.pc } false))) ∧
    (∀ f v tag p, c.flights = [f] → f.twin = some (v, tag, p) → f.land ≤ c.time →
      let same : Prop := f.val.setWidth 1024 = v ∧ f.tag = tag ∧ f.poison.setWidth 32 = p
      ∃ t, exec .dpairCompare s = .next t ∧ t.me.s = c.s ∧ t.me.v = c.v ∧
        (same → t.me.flights = [{ f with twin := none }] ∧ t.records = s.records ∧
          t.me.sb = c.sb.map (fun e => if e.gd == some f.issued then { e with gd := none } else e)) ∧
        (¬same → (∃ r, t.records = s.records ++ [r] ∧ r.kind = 5 ∧ r.pc = f.pc) ∧
          t.me.sb = c.sb.filter (fun e => e.gd != some f.issued) ∧
          ∃ g, t.me.flights = [g] ∧ g.dest = f.dest ∧ g.val = f.val ∧ g.mismatch = true ∧ g.twin = none ∧
            (∀ l < 32, (∀ n, f.dest ≠ .mask n) → g.poison.getLsbD l = true))) ∧
    (∀ x i, c.entering = some (x, i) → still c → ∃ t, exec .handlerEntry s = .next t ∧ entered c t.me x i) ∧
    (∀ k x, c.dueEvent = some k → c.entering = none → c.segOpen = false → s.mayBreak s.coreNo = true → c.sup = true →
      c.supAsync.find? (fun t => t.code == k) = some x → k ≠ 0x21 → k ≠ 0x20 → k ≠ 0x0E → k ≠ 0x11 → c.sw.priv.getLsbD 2 = false →
      ∃ t, exec .handlerEntry s = .next t ∧ t.me.pc = (c.sw.trapVec &&& 0xFFFFFFFFFFC0#64) + 64 ∧ t.me.sw.priv.getLsbD 2 = true ∧
        fieldGet t.me.sw.priv 16 16 = x.code % 2 ^ 16 ∧ t.me.async = c.async ∧ t.me.held = c.held ∧ t.me.s = c.s ∧ t.me.v = c.v ∧
        (∀ y ∈ t.me.supAsync, y ∈ c.supAsync) ∧ t.me.supAsync.length + 1 = c.supAsync.length) ∧
    (∀ k, c.dueEvent = some k → c.entering = none → still c → c.segOpen = false → s.mayBreak s.coreNo = true → s.gangLets s.coreNo = true → c.sup = false →
      (k = 0x21 → exec .handlerEntry s = .next (s.onMe (fun c => { c with
        async := c.async.filter (fun t => t.code != 0x21)
        debugStop := true
        debugStep := false }))) ∧
      (∀ x, c.async.find? (fun t => t.code == k) = some x →
        (k < 0x20 → k ≠ 0x0E → k ≠ 0x11 → ∃ t, exec .handlerEntry s = .next t ∧ entered c t.me { x with async := true } false) ∧
        (k = 0x20 → ∃ t, exec .preemptionEntry s = .next t ∧ entered c t.me { x with async := true, pc := c.nextPc } false)) ∧
      (k = 0x0E → ∃ t, exec .phaseOverrun s = .next t ∧ t.me.phase.stopped = true ∧
        entered c t.me { Trap.bare 0x0E c.nextPc with async := true, data := c.phase.index } false))) ∧
  (∀ (s : State) (n : Nat), s.victims s.clusterNo = [n] → fieldGet (s.coreAt n).sw.gangPos 20 4 = 0 → (s.coreAt n).id = n →
    ∃ x, x.code = 0x20 ∧ exec .preemptionRequest s = .next (s.putCore n { s.coreAt n with async := (s.coreAt n).async ++ [x] })) ∧
  (∀ (s : State) (l : Launch) (p : Preempted) (n : Nat) (ci : CtxInfo), s.launches = [l] →
    s.resumable l s.clusterNo (s.turn.pick / 64) = [(p, n)] → s.ctxInfo l.blk.ctx = some ci → (s.coreAt n).timed = [] →
    ∃ t, exec .resumeEntry s = .next t ∧ (t.coreAt n).sup = true ∧ (t.coreAt n).isHeld = false ∧ (t.coreAt n).running = true ∧
      (t.coreAt n).pc = ci.handler &&& 0xFFFFFFFFFFC0#64 ∧ ((t.coreAt n).sreg 0).val = p.record ∧
      (t.coreAt n).sw.trapCause = 0xF00000023#64 ∧ (t.coreAt n).sw.faultAddr = p.record ∧
      (t.coreAt n).unit.map (·.launch) = some p.unit.launch) ∧
  (∀ (s : State) (n : Nat), s.inbox = [.debugStep n] → s.hub.stage ≠ 0 → (s.coreAt n).debugStop = true → exec .debugStep s =
    .next ({ s with inbox := [] }.putCore n { s.coreAt n with debugStep := true }))

/-! ## The instruction stream: latches, repetition, decode traps (R34 to R37, R43) -/

/-- A bundle as it is decoded, issued and repeated. A present slot takes its syllable as written, a sticky one, and in a repetition every
slot but B, the stepped operation of its latch (R34, R36); an empty latch, and each illegal header, raises the decode trap (R35, R43).
The auto-step of an operation is shown for a load of each slot, a tile load, a drain, and one that has none (R34, R166, R174, R245). An
issue leaves in each latch what has issued from its slot, and every other latch as it was; at the end of an issue the program counter
stays while repetitions are left (R36). A decode trap is taken before any slot has effect: no register, latch, REPC, transfer, store or
load of the trapped code changes (R43). -/
def Obligations.LatchesRepetitionsAndDecodeTraps : Prop :=
  (∀ (c : Core) (b : Bundle), c.decode = .ok b →
    b.hd = c.syllable c.pc.toNat ∧ b.after = BitVec.ofNat 64 (c.pc.toNat + bundleBytes b.hd) ∧
    (∀ sl, (∃ i ∈ b.items, i.slot = sl) ↔ tmpl b.hd sl ≠ 0) ∧
    ∀ i ∈ b.items, let l := c.latchOf (slotCode i.slot)
      let fresh : Prop := tmpl b.hd i.slot = 2 ∧ (c.sw.repc = 0 ∨ i.slot = .B)
      semOfWord i.slot i.word = some i.sem ∧
      (fresh → i.word = (c.syllable (c.pc.toNat + 8 * (1 + (presentSlots b.hd).idxOf i.slot))).setWidth 63 ∧ i.disp = i.sem.off) ∧
      (¬fresh → l.full = true ∧ i.word = (c.stepLatch i.slot l).word ∧ i.disp = (c.stepLatch i.slot l).disp)) ∧
  (∀ (c : Core) (l : Latch) (h : Hdr),
    let add (w : Word) : Latch := { l with disp := l.disp + w.setWidth 32 }
    (∀ f, decodeSyl .S l.word = some (.sLld h f) → c.stepLatch .S l = add c.sw.stepS) ∧
    (∀ f, decodeSyl .V0 l.word = some (.v0Sld h f) → c.stepLatch .V0 l = add c.sw.stepV0) ∧
    (∀ f, decodeSyl .V1 l.word = some (.v1Ld h f) → c.stepLatch .V1 l = add c.sw.stepV1) ∧
    (∀ f, decodeSyl .C0 l.word = some (.cVld h f) → c.stepLatch .C0 l = add c.sw.stepC0) ∧
    (∀ f, decodeSyl .C1 l.word = some (.cVld h f) → c.stepLatch .C1 l = add c.sw.stepC1) ∧
    (∀ f, decodeSyl .C1 l.word = some (.cTld h f) → ∃ w, c.stepLatch .C1 l = { add c.sw.stepC1 with word := w } ∧
      decodeSyl .C1 w = some (.cTld h { f with td := f.td + c.sw.stepC1.extractLsb' 35 5 })) ∧
    (∀ f, decodeSyl .M l.word = some (.mDrainTile h f) → ∃ w, c.stepLatch .M l = { l with word := w } ∧
      decodeSyl .M w = some (.mDrainTile h { f with row := f.row + 1, line := f.line + BitVec.ofNat 8 (c.rowBytes / 64) })) ∧
    (∀ f, decodeSyl .V0 l.word = some (.vAddI32 h f) → c.stepLatch .V0 l = l)) ∧
  (∀ (s : State) (b : Bundle), let next := s.settleCore.onMe (fun c => c.charge.count)
    s.me.ticks = true → fieldGet s.me.sw.gangPos 20 4 = 0 → next.look = .go b → next.me.segOpen = false → b.hd.getLsbD 31 = false →
      (∀ x, next.me.xfer = some x → x.link = none) →
      ∃ t, exec .headerIssue s = .next t ∧
        (∀ i ∈ b.items, i.slot ≠ .B → t.me.latchOf (slotCode i.slot) = { word := i.word, disp := i.disp, full := true }) ∧
        ∀ k, (∀ i ∈ b.items, i.slot ≠ .B → slotCode i.slot ≠ k) → t.me.latchOf k = next.me.latchOf k) ∧
  (∀ (s : State) (n : Nat) (i : Issue), (s.coreAt n).issue = some i →
    let c := (s.finishIssue n).coreAt n
    c.issue = none ∧ c.pc = (if i.repsLeft = 0 then i.after else (s.coreAt n).pc) ∧ c.latch = (s.coreAt n).latch ∧ c.sw = (s.coreAt n).sw ∧
      c.next = max (s.coreAt n).next ((s.coreAt n).time + 1)) ∧
  (∀ c : Core, let hd := c.syllable c.pc.toNat
    let trap (k : Nat) : Trap := { Trap.bare 1 c.pc with slot := k, addr := c.pc }
    ((∃ sl, tmpl hd sl = 3) ∨ tmpl hd .B = 1 ∨ fieldGet hd 0 23 ≠ 0 ∨ 4 < fieldGet hd 32 3 ∨
      hd.getLsbD 29 = false ∧ fieldGet hd 23 6 ≠ 0 → c.decode = .error (trap 0xF)) ∧
    (∀ sl, tmpl hd sl = 1 → (c.latchOf (slotCode sl)).full = false → ∃ k, c.decode = .error (trap k)) ∧
    ∀ t, c.decode = .error t → ∃ k, t = trap k) ∧
  (∀ (s : State) (t : Trap), let next := s.settleCore.onMe (fun c => c.charge.count)
    s.me.ticks = true → fieldGet s.me.sw.gangPos 20 4 = 0 → next.onChipHold next.coreNo = false → next.paddedHold next.coreNo = false →
    next.me.next ≤ next.me.time → next.me.transferDue = false → next.me.fetched = .whole → next.me.decode = .error t →
    next.me.skipNext = false → next.me.sup = false → still next.me →
      ∃ u, exec .headerIssue s = .next u ∧ entered next.me u.me t true ∧ sameOthers next u ∧ sameMem next u ∧ u.me.sb = next.me.sb ∧
        u.me.loads = next.me.loads ∧ u.me.fences = next.me.fences ∧ u.me.seq = next.me.seq ∧
        ∃ h, u.me.held = some h ∧ h.latches = next.me.latch ∧ h.repc = next.me.sw.repc ∧ h.xfer = next.me.xfer ∧ h.rvDone = next.me.rvDone)

/-! ## What the engines, rings, flumes and the L2 do beside the program (R174 to R186, R200, R232, R283) -/

namespace Sys2Proof.Claims

open Sys2Proof.Machine

/-- The agent of the turn takes `x` of those that are ready. -/
def takes {α : Type} (s : State) (ok : List α) (x : α) : Prop := ok[s.turn.pick % ok.length]? = some x

/-- The bytes `bs` have been written to main memory, and no other byte of it has changed. -/
def wrote (s t : State) (bs : List (Nat × Byte)) : Prop :=
  ((bs.map (·.1)).Nodup → ∀ e ∈ bs, t.home.byte e.1 = e.2) ∧ ∀ a, (∀ e ∈ bs, e.1 ≠ a) → t.home.byte a = s.home.byte a

/-- Core `n` has performed a write from place `q` of its program order, as a release at scope `rel`: the bytes that its own die homes, and
every byte of a release at package or system scope, stand at their home; the others wait in the outbound queue of its die. -/
def coreWrote (s t : State) (n q rel : Nat) (bs : List (Nat × Byte)) : Prop :=
  let near (b : Nat × Byte) : Bool := decide (3 ≤ rel) || homeDie b.1 == dieOf n
  let unseen (l : List (Nat × OutEntry)) : List (Nat × OutEntry) := l.map (fun x => (x.1, { x.2 with seen := false }))
  wrote s t (bs.filter near) ∧
    (if bs.all near then unseen t.outq = unseen s.outq
     else ∃ x : OutEntry, unseen t.outq = unseen s.outq ++ [(dieOf n, x)] ∧ x.core = n ∧ x.seq = q ∧ x.ctx = (s.coreAt n).ctx ∧
       x.bytes = bs.filter (fun b => !near b))

end Sys2Proof.Claims

/-- One piece of what an engine has still to do, for rows that no suspended command holds. A piece of a tile load or gather puts bytes
of memory, as the core's own earlier stores leave them, at their places in the tile, and the last sets the ready tag if no other
engine fills the tile; a piece of a tile store or scatter writes bytes of the tile to their addresses (R81, R174, R177), which those of
another die reach through the outbound queue (R188). In a
deterministic launch a load keeps its bytes until all of them land at once, and a store writes those that it took at its chunks' times
(R395). A fill appends the next element of its walk to its ring with its tag; a spill pops the head and then writes what it popped
(R179, R180, R232); an element of a read flume joins its buffer, and one of a write flume is written (R182, R183). Where the
translation fails, the fill or the read flume keeps the fault, and the spill or the write flume ends with a trap of the next boundary,
or with an event of the handler's own where the running handler issued it (R180, R182, R184, R250, R361). A line that leaves its L2 has no owner left,
and no byte of memory changes (R200). That the entry of a spill has left its ring when its write faults, and that an address is judged as
its element is reached, is log 66. -/
def Obligations.EngineRowsMoveTheirBytes : Prop :=
  ∀ s : State, let c := s.me
    let n := s.coreNo
    let keeps (t : State) : Prop := t.me.s = c.s ∧ t.me.p = c.p ∧ t.me.m = c.m ∧ t.me.v = c.v ∧ t.me.b = c.b ∧ t.me.k = c.k ∧
      t.me.sw = c.sw ∧ t.me.pc = c.pc
    let engines (t : State) (e x : Engine) (last : Bool) : Prop := t.me.engines =
      if last then c.engines.filter (fun y => y.seq != e.seq) else c.engines.map (fun y => if y.seq = e.seq then x else y)
    let reported (t : State) (q : Nat) (x : Trap) : Prop :=
      let added (l m : List Trap) : Prop := l.all (fun y => y.code != x.code) = true → ∃ y, m = l ++ [y] ∧ y.code = x.code ∧ y.addr = x.addr
      (c.sup = false ∨ q < c.supFrom → added c.async t.me.async ∧ t.me.supAsync = c.supAsync) ∧
        (c.sup = true → c.supFrom ≤ q → added c.supAsync t.me.supAsync ∧ t.me.async = c.async)
    let others (e : Engine) (t : Nat) : Bool := c.engines.any (fun y => y.seq != e.seq && y.fills t)
    (∀ e t, takes s (s.enginesReady n) e →
      (e.kind = .tileLoad t ∨ e.kind = .gather t → e.work = [] → e.virtAt.toNat + e.buf.length ≤ 16384 →
        let p := e.virtAt.toNat
        ∃ u : State, exec .tileTransferLand s = .next u.settle ∧ keeps u ∧ u.home = s.home ∧ engines u e e true ∧
          (∀ i < e.buf.length, (u.me.treg t).byte (p + i) = (e.buf.getD i (0, false)).1) ∧ (u.me.treg t).tag = e.tag ∧
          (∀ i < 16384, ¬(p ≤ i ∧ i < p + e.buf.length) →
            (u.me.treg t).byte i = if e.rest ≤ i then 0 else (c.treg t).byte i) ∧
          (u.me.treg t).ready = ((c.treg t).ready || !others e t) ∧ ∀ k, k ≠ t → u.me.treg k = c.treg k) ∧
      ∀ p as rest, e.work = (p, as) :: rest → s.rowRefused as = false →
        let x : Engine := { e with
          work := rest
          done := e.done + 1 }
        (e.kind = .tileLoad t ∨ e.kind = .gather t → e.due ≠ 0 → ∃ u : State, exec .tileTransferLand s = .next u.settle ∧
          keeps u ∧ u.home = s.home ∧ u.me.t = c.t ∧ engines u e { x with
            buf := e.buf ++ as.map (fun a => (s.ownByte n e.seq a e.acq, s.ownPois n e.seq (a / 4) e.acq)) } false) ∧
        (e.kind = .tileLoad t ∨ e.kind = .gather t → e.due = 0 → p + as.length ≤ 16384 →
          ∃ u : State, exec .tileTransferLand s = .next u.settle ∧ keeps u ∧ u.home = s.home ∧ engines u e x rest.isEmpty ∧
            (∀ i < as.length, (u.me.treg t).byte (p + i) = s.ownByte n e.seq (as.getD i 0) e.acq) ∧
            (∀ i < 16384, ¬(p ≤ i ∧ i < p + as.length) →
              (u.me.treg t).byte i = if e.done = 0 ∧ e.rest ≤ i then 0 else (c.treg t).byte i) ∧
            (e.done = 0 → (u.me.treg t).tag = e.tag) ∧
            (u.me.treg t).ready = ((c.treg t).ready || rest.isEmpty && !others e t) ∧ ∀ k, k ≠ t → u.me.treg k = c.treg k) ∧
        (e.kind = .tileStore t ∨ e.kind = .scatter t → e.padEnd = 0 → ∃ u : State, exec .tileTransferLand s = .next u.settle ∧
          keeps u ∧ u.me.t = c.t ∧ engines u e x rest.isEmpty ∧
          coreWrote s u n e.seq e.rel ((List.range as.length).map (fun i => (as.getD i 0, (c.treg t).byte (p + i))))) ∧
        (e.kind = .tileStore t ∨ e.kind = .scatter t → e.padEnd ≠ 0 → as.length ≤ e.buf.length →
          ∃ u : State, exec .tileTransferLand s = .next u.settle ∧ keeps u ∧ u.me.t = c.t ∧
            engines u e { x with buf := e.buf.drop as.length } false ∧
            coreWrote s u n e.seq e.rel ((List.range as.length).map (fun i => (as.getD i 0, (e.buf.getD i (0, false)).1))))) ∧
    (∀ e g l rest, takes s (c.engines.filter (s.fillReady n)) e → e.kind = .fill g → e.virt = l :: rest →
      let r := c.ringReg g
      let i := (r.head + r.count) % max 1 r.entries
      (∀ as, s.elemPhys n l true e.sup (Nat.log2 e.ew) e.pc = .ok as → s.rowRefused as = false →
        ∃ t, exec .ringFillAppend s = .next t ∧ keeps t ∧ t.home = s.home ∧
        t.me.t = c.t ∧ (t.me.ringReg g).count = r.count + 1 ∧ (t.me.ringReg g).head = r.head ∧
        SMap.get (t.me.ringReg g).tags i 0 = e.tag ∧
        (∀ k < as.length, t.me.scratch.byte (r.base + i * r.entryBytes + k) = s.ownByte n e.seq (as.getD k 0)) ∧
        (∀ a, ¬(r.base + i * r.entryBytes ≤ a ∧ a < r.base + i * r.entryBytes + as.length) →
          t.me.scratch.byte a = c.scratch.byte a) ∧
        engines t e { e with
          virt := rest
          done := e.done + 1
          fault := none } rest.isEmpty) ∧
      (∀ x, s.elemPhys n l true e.sup (Nat.log2 e.ew) e.pc = .error x → ∃ t, exec .ringFillAppend s = .next t ∧ keeps t ∧
        t.home = s.home ∧ t.me.ring = c.ring ∧ engines t e { e with fault := some x } false)) ∧
    (∀ e g, takes s (c.engines.filter (s.spillReady n)) e → e.kind = .spill g →
      let r := c.ringReg g
      (s.spillWrites n e = false → ∃ t b, exec .ringSpillWrite s = .next t ∧ keeps t ∧ t.home = s.home ∧
        t.me.scratch = c.scratch ∧ (t.me.ringReg g).count = r.count - 1 ∧ (t.me.ringReg g).head = (r.head + 1) % max 1 r.entries ∧
        b.length = r.entryBytes ∧
        (∀ k < r.entryBytes, (b.getD k (0, false)).1 = c.scratch.byte (r.base + r.head * r.entryBytes + k)) ∧
        engines t e { e with
          buf := e.buf ++ b
          done := e.done + 1
          padEnd := if c.det then c.padded else 0 } false) ∧
      (∀ l rest, e.virt = l :: rest → s.spillWrites n e = true →
        (∀ as, s.elemPhys n l false e.sup (Nat.log2 e.ew) e.pc = .ok as → s.rowRefused as = false → as.length ≤ e.buf.length →
          ∃ t : State, exec .ringSpillWrite s = .next t.settle ∧ keeps t ∧ t.me.scratch = c.scratch ∧ t.me.ring = c.ring ∧
          coreWrote s t n e.seq 0 ((List.range as.length).map (fun k => (as.getD k 0, (e.buf.getD k (0, false)).1))) ∧
          engines t e { e with
            virt := rest
            buf := e.buf.drop as.length } (rest.isEmpty && decide (e.padEnd = 0))) ∧
        (∀ x, s.elemPhys n l false e.sup (Nat.log2 e.ew) e.pc = .error x →
          x.code ≠ 0x0A ∨ x.sub ≠ 3 →
            ∃ t, exec .ringSpillWrite s = .next t ∧ keeps t ∧ t.home = s.home ∧ t.me.ring = c.ring ∧ engines t e e true ∧
              reported t e.seq x))) ∧
    (∀ f, takes s (c.flumes.filter (s.flumeReadReady n)) f →
      (∀ as, s.flumePhys n f f.moved = .ok as → (f.main = true → s.rowRefused as = false) →
        ∃ t v p, exec .flumeElementRead s = .next t ∧ keeps t ∧ t.home = s.home ∧
        (as.length = 128 → ∀ i < 128, el v 8 i = (if f.main then s.ownByte n f.seq (as.getD i 0)
          else s.spaceByte n .cluster (as.getD i 0))) ∧
        t.me.flumes = c.flumes.map (fun x => if x.reg = f.reg then { f with
          buf := f.buf ++ [(v, p, f.seq)]
          moved := f.moved + 1 } else x)) ∧
      (∀ x, s.flumePhys n f f.moved = .error x → ∃ t, exec .flumeElementRead s = .next t ∧ keeps t ∧ t.home = s.home ∧
        t.me.flumes = c.flumes.map (fun y => if y.reg = f.reg then { f with fault := some x } else y))) ∧
    (∀ f v p q rest, takes s (c.flumes.filter (s.flumeWriteReady n)) f → f.buf = (v, p, q) :: rest →
      (∀ as, s.flumePhys n f f.moved = .ok as → f.main = true → s.rowRefused as = false →
        ∃ t : State, exec .flumeElementWrite s = .next t.settle ∧ keeps t ∧
        t.me.flumes = c.flumes.map (fun x => if x.reg = f.reg then { f with
          buf := rest
          moved := f.moved + 1 } else x) ∧
        coreWrote s t n q 0 ((List.range as.length).map (fun i => (as.getD i 0, v.extractLsb' (8 * i) 8)))) ∧
      (∀ x, s.flumePhys n f f.moved = .error x → x.code ≠ 0x0A ∨ x.sub ≠ 3 → ∃ t,
        exec .flumeElementWrite s = .next t ∧ keeps t ∧ t.home = s.home ∧ reported t f.seq x ∧
        t.me.flumes = c.flumes.map (fun z => if z.reg = f.reg then { f with
          buf := []
          fault := some x } else z))) ∧
    (∀ l, takes s (s.l2Lines s.dieNo) l → ∃ t, exec .l2LineLeave s = .next t ∧ t.home = s.home ∧ t.loft = s.loft ∧ t.cmem = s.cmem ∧
      (∀ i < 16, SMap.get t.owner (16 * l + i) 0 = 0) ∧ (∀ e ∈ t.dirty, e.1 ≠ l) ∧
      ∀ k, (t.coreAt k).s = (s.coreAt k).s ∧ (t.coreAt k).v = (s.coreAt k).v ∧ (t.coreAt k).sw = (s.coreAt k).sw)

/-! ## Segments and phases (R27, R364, R379 to R384) -/

namespace Sys2Proof.Claims

open Sys2Proof.Machine

/-- The byte at `a` of a space that a list of stores leaves, the last of those that name it standing; `old` where none does. -/
def lastByte (l : List SbEntry) (sp : Space) (a : Nat) (old : Byte) : Byte :=
  match ((l.filter (fun e => e.space == sp)).flatMap (·.bytes)).reverse.find? (fun b => b.1 == a) with
  | some b => b.2
  | none => old

/-- The core has no segment open and SEG_STATE says so: OPEN, RETRY and both counts are 0, and the journal and the lines are empty
(R380, R383). -/
def closed (c : Core) : Prop :=
  c.segOpen = false ∧ fieldGet c.sw.segState 45 15 = 0 ∧ fieldGet c.sw.segState 60 4 = 0 ∧ c.seg.journal = [] ∧ c.seg.lines = []

/-- Nothing of the open segment keeps its commit waiting or fails it: its comparisons are complete and agree, no on-chip access is on
its way, and its stores to main memory fit in the store buffer. -/
def settles (c : Core) : Prop :=
  (∀ f ∈ c.flights, f.seg = true → f.twin = none ∧ f.mismatch = false) ∧ c.timed = [] ∧
    c.sb.length + (c.seg.held.filter (fun e => e.space == .main)).length ≤ 32

end Sys2Proof.Claims

/-- Segments and phases of a core outside a gang, not those of its handler (log 39). An SE bundle stalls while a result is in flight and
then opens a segment: SEG_STATE names it, with RETRY and both counts 0, and the journal begins with its latches and REPC (R379, R381,
R383). Held stores fill lines of 64 bytes, a later byte over an earlier one, which the core's own accesses find (R190, R382). A commit
performs the on-chip ones in program order, gives the others to the store buffer, and leaves the segment closed (R380); the issue of a
sealing bundle leaves it closed too (R379), and where the buffers would overflow the segment commits and the segment-overflow trap is
entered (R384). A PH bundle loads the entry of its own address from the phase table, or none; COUNT rises by one with every cycle of the
unit and not in its handler; the phase overruns past expected × (16 + MARGIN) / 16 + 256; B.END ends it (R27, R364). -/
def Obligations.SegmentsAndPhases : Prop :=
  (∀ (s : State) (b : Bundle), s.me.skipNext = false → b.hd.getLsbD 29 = false → b.hd.getLsbD 31 = true → b.rep = false →
    s.me.rewound = false → s.me.noOpen = false → s.me.sup = false → s.unitCancelling = false → s.me.flights ≠ [] →
      s.lookAt b = .stall) ∧
  (∀ (s : State) (b : Bundle), let next := s.settleCore.onMe (fun c => c.charge.count)
    s.me.ticks = true → fieldGet s.me.sw.gangPos 20 4 = 0 → (∀ u, next.me.unit = some u → u.gang ≤ 1) → next.look = .go b →
    next.me.sup = false → (∀ x, next.me.xfer = some x → x.link = none) →
    (next.me.segOpen = false → b.hd.getLsbD 31 = true → b.rep = false → next.me.rewound = false → next.me.noOpen = false →
      next.me.seg.journal = [] → (next.begun b).sealedBy b = false → next.tooFull b = false →
      ∃ t, exec .headerIssue s = .next t ∧ sameMem next t ∧ t.me.segOpen = true ∧ t.me.s = next.me.s ∧ t.me.v = next.me.v ∧
        fieldGet t.me.sw.segState 0 45 = fieldGet next.me.pc 3 45 ∧ fieldGet t.me.sw.segState 61 2 = 0 ∧
        fieldGet t.me.sw.segState 52 9 = t.me.seg.journal.length % 512 ∧ t.me.seg.held = next.me.seg.held ∧
        JEntry.status 0x00B next.me.sw.repc ∈ t.me.seg.journal ∧
        ∀ i ∈ b.items, i.slot ≠ .B → JEntry.latch (slotCode i.slot) (next.me.latchOf (slotCode i.slot)) ∈ t.me.seg.journal) ∧
    (next.me.segOpen = true → settles next.me → b.hd.getLsbD 31 = false → (next.begun b).sealedBy b = true →
      ∃ t, exec .headerIssue s = .next t ∧ closed t.me) ∧
    (next.me.segOpen = true → settles next.me → next.me.opens b = false → (next.begun b).sealedBy b = false → next.tooFull b = true →
      still next.me → ∃ t, exec .headerIssue s = .next t ∧ closed t.me ∧ t.me.sup = true ∧ t.me.isHeld = true ∧
        fieldGet t.me.sw.trapCause 0 16 = 0x11 ∧ t.me.pc = next.me.sw.trapVec &&& 0xFFFFFFFFFFC0#64) ∧
    (next.me.segOpen = false → b.hd.getLsbD 31 = false → b.rep = false → next.me.rewound = false →
      (b.hd.getLsbD 30 = true → (∀ i ∈ b.items, i.sem.ends = false) →
        (∀ k j, next.hub.kernels.find? (fun k => k.table == next.me.phase.table && k.ctx == next.me.ctx) = some k →
          k.phases.findIdx? (fun p => p.1 == next.me.pc) = some j →
          ∃ t, exec .headerIssue s = .next t ∧ t.me.phase.expected = (k.phases.getD j (0, 0, 0)).2.1 ∧ t.me.phase.index = j ∧
            t.me.phase.stopped = false ∧ t.me.phase.running = decide ((k.phases.getD j (0, 0, 0)).2.1 ≠ 0) ∧
            fieldGet t.me.sw.phaseCnt 0 48 = 0 ∧ fieldGet t.me.sw.phaseCnt 60 4 = (k.phases.getD j (0, 0, 0)).2.2 % 16) ∧
        ((∀ k, next.hub.kernels.find? (fun k => k.table == next.me.phase.table && k.ctx == next.me.ctx) = some k →
            ∀ p ∈ k.phases, p.1 ≠ next.me.pc) →
          ∃ t, exec .headerIssue s = .next t ∧ t.me.phase.running = false ∧ t.me.phase.expected = 0)) ∧
      ((∃ i ∈ b.items, i.active (next.begun b).me = true ∧ i.sem.ends = true ∧ i.sem.slip (next.begun b) = false) →
        b.hd.getLsbD 30 = false → ∃ t, exec .headerIssue s = .next t ∧ t.me.phase.running = false ∧ t.me.phase.expected = 0))) ∧
  (∀ (l : List SegLine) (sp : Space) (bs : List (Nat × Byte)) (ws : List (Nat × Bool × Bool)) (a : Nat),
    heldByte (mergeStore l sp bs ws) sp a =
      (match bs.reverse.find? (fun b => b.1 == a) with | some b => some b.2 | none => heldByte l sp a) ∧
    (∀ sp', sp' ≠ sp → heldByte (mergeStore l sp bs ws) sp' a = heldByte l sp' a) ∧
    ∀ sp' k, (mergeStore l sp bs ws).any (fun x => x.space == sp' && x.addr == k) =
      (l.any (fun x => x.space == sp' && x.addr == k) ||
        (sp' == sp && (bs.any (fun b => b.1 / 64 == k) || ws.any (fun w => w.1 / 16 == k))))) ∧
  (∀ (s : State) (n seq a : Nat), let c := s.coreAt n
    s.outq = [] → c.sb = [] → c.seg.held.Pairwise (fun x y => x.seq ≤ y.seq) →
      s.ownByte n seq a = lastByte (c.seg.held.filter (fun e => decide (e.seq < seq))) .main a (s.home.byte a)) ∧
  (∀ s : State, let c := s.me
    let t := (s.tryCommit s.coreNo).1
    let far := c.seg.held.filter (fun e => e.space == .main)
    c.segOpen = true → settles c → (s.tryCommit s.coreNo).2 = true ∧ closed t.me ∧ t.home = s.home ∧ t.me.seg.held = [] ∧
      t.me.sb = c.sb ++ far.map (fun e => { e with seg := false }) ∧
      (∀ sp ∈ [Space.scratch, Space.slices, Space.loft, Space.cluster], ∀ a,
        (t.spaceMem t.me sp).byte a = lastByte c.seg.held sp a ((s.spaceMem c sp).byte a)) ∧
      t.me.s = c.s ∧ t.me.p = c.p ∧ t.me.m = c.m ∧ t.me.v = c.v ∧ t.me.t = c.t ∧ t.me.b = c.b ∧ t.me.latch = c.latch ∧ t.me.pc = c.pc ∧
      ∀ k, k ≠ s.coreNo → t.coreAt k = s.coreAt k) ∧
  (∀ c : Core,
    (c.phase.running = true → c.sup = false →
      fieldGet c.count.sw.phaseCnt 0 48 = (fieldGet c.sw.phaseCnt 0 48 + 1) % 2 ^ 48 ∧
      fieldGet c.count.sw.phaseCnt 60 4 = fieldGet c.sw.phaseCnt 60 4) ∧
    (c.phase.running = false ∨ c.sup = true → c.count = c) ∧
    (c.overrun = true ↔ c.phase.running = true ∧ c.sup = false ∧
      c.phase.expected * (16 + fieldGet c.sw.phaseCnt 60 4) + 16 * 256 < 16 * fieldGet c.sw.phaseCnt 0 48))

/-! ## Traps, the return from them, and reset (R85, R352 to R361, R383 to R386) -/

namespace Sys2Proof.Claims

open Sys2Proof.Machine

/-- What the journal of the open segment holds of a scalar register: its value at the opening (R384). -/
def savedS (c : Core) (n : Nat) : Option SReg :=
  c.seg.journal.reverse.findSome? (fun e => match e with | .scalar k r => if k = n then some r else none | _ => none)

/-- The same of a predicate. -/
def savedP (c : Core) (n : Nat) : Option PReg :=
  c.seg.journal.reverse.findSome? (fun e => match e with | .pred k r => if k = n then some r else none | _ => none)

/-- The same of a lane mask. -/
def savedM (c : Core) (n : Nat) : Option MReg :=
  c.seg.journal.reverse.findSome? (fun e => match e with | .mask k r => if k = n then some r else none | _ => none)

/-- The same of a vector register. -/
def savedV (c : Core) (n : Nat) : Option VReg :=
  c.seg.journal.reverse.findSome? (fun e => match e with | .vec k r => if k = n then some r else none | _ => none)

/-- The same of a sticky latch. -/
def savedL (c : Core) (n : Nat) : Option Latch :=
  c.seg.journal.reverse.findSome? (fun e => match e with | .latch k r => if k = n then some r else none | _ => none)

/-- The same of a status word, or, from 0x060 on, of a base register. -/
def savedW (c : Core) (i : Nat) : Option Word :=
  c.seg.journal.reverse.findSome? (fun e => match e with | .status k w => if k = i then some w else none | _ => none)

/-- The status words of a context but for SEG_STATE (R88). -/
def segWords : List Nat :=
  [0x001, 0x002, 0x003, 0x008, 0x009, 0x00A, 0x00B, 0x010, 0x011, 0x012, 0x013, 0x014, 0x020, 0x021, 0x022, 0x023, 0x028, 0x029,
    0x030, 0x031, 0x038, 0x040, 0x041, 0x042, 0x043, 0x046, 0x049]

end Sys2Proof.Claims

/-- Taking a trap and returning from one. In user mode outside a segment a trap freezes the core and enters its handler, or waits for
the pending bits of s0 to s15 (R355, R359); B.TRAP does so at its transfer cycle with its code (R130); in supervisor mode it is a
supervisor fault: SFLT, SCODE and the handler's second entry at TRAP_VEC + 64, and a second one stops the core with a record of type 2
(R361). In a segment, the handler's own too, a poison-consumed trap rewinds it while RETRY is below 2: the journal is restored, the held stores and the
segment's results are dropped, RETRY counts, and the core goes back to the SE bundle (R385); the journal gives each register, status word and latch that it names its value at the opening, whatever it holds. A poisoned page-table
entry writes its record of type 12 as the trap is taken (R369). B.RFT with HELD = 1, once nothing that the
handler issued is still to land, gives back the held state and clears SUP and HELD; with HELD = 0 it is a supervisor fault (R360). A trap and its return leave every register as it was
(R356, R357). That a handler's own segment rewinds is log 39; that B.TRAP's trap is of slot 6, synchronous and of the branch's own PC is
log 46. A segment overflow (0x11) is in `SegmentsAndPhases`. -/
def Obligations.TakingATrapAndReturning : Prop :=
  (∀ (s : State) (x : Trap), let c := s.me
    let t := takeTrap x s
    let plain : Prop := x.async = true ∨ ((x.code ≠ 0x0A ∨ x.sub ≠ 3) ∧ (x.code ≠ 7 ∨ s.tableWorked c.ctx x.addr.toNat = none))
    (c.sup = false → c.segOpen = false → plain → x.code ≠ 0x11 → still c → entered c t.me x true ∧ sameOthers s t ∧
      t.home = s.home ∧ t.loft = s.loft ∧ t.cmem = s.cmem) ∧
    (∀ n < 16, (c.sreg n).pend = true → c.sup = false → c.segOpen = false → plain → x.code ≠ 0x11 →
      c.timed = [] → (∀ f ∈ c.flights, f.twin = none) → sameMem s t ∧ sameOthers s t ∧
      t.me = { c with
        entering := some (x, true)
        issue := none
        hold := .none
        debugStep := false }) ∧
    (c.sup = true → c.segOpen = false → plain → x.code ≠ 0x11 →
      (c.sw.priv.getLsbD 2 = false → t.me.pc = (c.sw.trapVec &&& 0xFFFFFFFFFFC0#64) + 64 ∧ t.me.sup = true ∧
        t.me.sw.priv.getLsbD 2 = true ∧ fieldGet t.me.sw.priv 16 16 = x.code % 2 ^ 16 ∧ t.me.sw.trapCause = c.sw.trapCause ∧
        t.me.held = c.held ∧ t.me.sw.repc = 0 ∧ t.me.s = c.s ∧ t.me.p = c.p ∧ t.me.v = c.v ∧ t.me.xfer = none ∧ t.home = s.home) ∧
      (c.sw.priv.getLsbD 2 = true → ∀ h, c.held = some h → t.me.running = false ∧ t.me.failed = some h.first.code ∧
        ∃ r, t.records = s.records ++ [r] ∧ r.kind = 2 ∧ r.pc = x.pc)) ∧
    (x.async = false → x.code = 0x0A → x.sub = 3 → c.sup = false → c.segOpen = false → still c → ∀ a,
      pteOf s c.ctx x.addr.toNat x.level = some a → t.me.sup = true ∧ t.me.pc = c.sw.trapVec &&& 0xFFFFFFFFFFC0#64 ∧
        t.me.held.isSome = true ∧ fieldGet t.me.sw.trapCause 0 16 = 0x0A ∧ t.me.sw.faultAddr = x.addr ∧
        ∃ r, t.records = s.records ++ [r] ∧ r.kind = 12 ∧ r.addr = a ∧ r.pc = x.pc ∧ r.slot = x.slot) ∧
    (c.segOpen = true → x.code = 5 ∨ x.code = 6 ∧ x.async = false → fieldGet c.sw.segState 61 2 < 2 → fieldGet c.sw.gangPos 20 4 = 0 → c.id = s.coreNo →
      (∀ n, t.me.sreg n = (savedS c n).getD { c.sreg n with
        pend := (c.sreg n).pend && !c.loads.any (fun l => l.seg && decide (l.dest = .scalar n)) }) ∧
      (∀ n, 0 < n → t.me.preg n = (savedP c n).getD (c.preg n)) ∧ (∀ n, t.me.mreg n = (savedM c n).getD (c.mreg n)) ∧
      (∀ n, t.me.vreg n = (savedV c n).getD { c.vreg n with
        pend := (c.vreg n).pend && !c.loads.any (fun l => l.seg && (match l.dest with | .vec k _ => k == n | .scalar _ => false)) }) ∧
      (∀ n, t.me.latchOf n = (savedL c n).getD (c.latchOf n)) ∧
      (∀ i ∈ segWords, t.me.sw.get i = (savedW c i).getD (c.sw.get i)) ∧
      (∀ n, t.me.breg n = ((savedW c (0x060 + n)).map (·.setWidth 20)).getD (c.breg n)) ∧ t.me.t = c.t ∧ t.me.ring = c.ring ∧
        t.me.pc = BitVec.ofNat 64 (8 * fieldGet c.sw.segState 0 45) ∧ t.me.seg.journal = [] ∧ t.me.seg.held = [] ∧ t.me.seg.lines = [] ∧
        fieldGet t.me.sw.segState 61 2 = fieldGet c.sw.segState 61 2 + 1 ∧ t.me.sb = c.sb ∧ t.me.xfer = none ∧
        t.me.flights = c.flights.filter (fun f => !f.seg) ∧ t.loft = s.loft ∧ t.cmem = s.cmem ∧
        ∃ r, t.records = s.records ++ [r] ∧ r.kind = 6 ∧ r.outcome = 4 ∧ r.pc = x.pc)) ∧
  (∀ (s : State) (x : Xfer), let c := s.me
    c.ticks = true → c.xfer = some x → x.left = 0 → x.atTime ≤ c.time → x.guarded = false → x.failed = false →
    (∀ code, x.kind = .trap code → c.sup = false → c.segOpen = false → still c → ∃ t, exec .branchTransfer s = .next t ∧
      entered { c with xfer := none } t.me { Trap.bare 0x12 x.pc with slot := 6, data := code } false) ∧
    (x.kind = .rft → c.flights = [] → c.timed = [] → (∀ n < 16, (c.sreg n).pend = false) → c.handlerLeft = false → c.supAsync = [] →
      (∀ h, c.held = some h → c.isHeld = true → (∀ e ∈ h.s, e.1 < 16) → (∀ e ∈ h.p, e.1 < 16) →
        ∃ t, exec .branchTransfer s = .next t ∧ sameMem s t ∧ sameOthers s t ∧ t.me.pc = h.pc ∧ t.me.sup = false ∧
          t.me.isHeld = false ∧ t.me.held = none ∧ t.me.time = h.time ∧ t.me.next = h.next ∧ t.me.flights = h.flights ∧
          t.me.xfer = h.xfer ∧ t.me.slip = h.slip ∧ t.me.latch = h.latches ∧ t.me.sw.rot = h.rot ∧ t.me.sw.lc = h.lc ∧
          t.me.sw.depth = h.depth ∧ t.me.sw.repc = h.repc ∧ t.me.sw.beatNow = h.beatNow ∧
          t.me.cap = (if h.skip then [] else h.cap) ∧ (∀ n < 16, t.me.sreg n = SMap.get h.s n SReg.zero) ∧
          (∀ n, 16 ≤ n → t.me.sreg n = c.sreg n ∧ t.me.preg n = c.preg n) ∧ t.me.m = c.m ∧ t.me.v = c.v ∧ t.me.t = c.t ∧
          t.me.b = c.b ∧ t.me.k = c.k ∧ t.me.ring = c.ring ∧ t.me.arr = c.arr) ∧
      (c.isHeld = false → c.sup = true → c.sw.priv.getLsbD 2 = false → ∃ t, exec .branchTransfer s = .next t ∧
        t.me.pc = (c.sw.trapVec &&& 0xFFFFFFFFFFC0#64) + 64 ∧ t.me.sw.priv.getLsbD 2 = true ∧ fieldGet t.me.sw.priv 16 16 = 9))) ∧
  (∀ (c : Core) (x : Trap) (atIssue : Bool) (h : Held), c.sup = false → c.isHeld = false → (c.enter x atIssue).held = some h →
    let r := (c.enter x atIssue).resume h
    r.pc = c.pc ∧ r.time = c.time ∧ r.next = c.next ∧ r.flights = c.flights ∧ r.xfer = c.xfer ∧ r.slip = c.slip ∧ r.latch = c.latch ∧
      (∀ n, r.sreg n = c.sreg n ∧ r.preg n = c.preg n) ∧ r.m = c.m ∧ r.v = c.v ∧ r.t = c.t ∧ r.b = c.b ∧ r.k = c.k ∧
      r.ring = c.ring ∧ r.arr = c.arr ∧ r.sw.rot = c.sw.rot ∧ r.sw.lc = c.sw.lc ∧ r.sw.depth = c.sw.depth ∧
      r.sw.repc = c.sw.repc ∧ r.sw.beatNow = c.sw.beatNow ∧ r.sup = false ∧ r.isHeld = false) ∧
  (∀ (h : Hdr) (f : OpBRG) (z : OpNone) (s : State), s.me.issue = none → s.me.active h true = true → (s.me.guardOf h).2 = false →
    let a := s.me.rs h.slot f.sa
    (a.2 = true → exec (.bBri h f) s = .next (takeTrap { s.me.trap h.slot 0x06 with data := f.sa.toNat } s)) ∧
    (a.2 = false → a.1.toNat % 8 ≠ 0 →
      exec (.bBri h f) s = .next (takeTrap { s.me.trap h.slot 0x09 with sub := 1, addr := a.1 } s)) ∧
    (s.me.sup = false → exec (.bRft h z) s = .next (takeTrap { s.me.trap h.slot 0x09 with sub := 5 } s)))

/-- The machine right after reset, and a core at the start of a unit (R85, R273, R413): no power, nothing placed, no memory listed and
every memory in canonical form; every scalar, lane mask and base 0, p0 1 and every other predicate 0, every vector 0 with tag BITS,
every tile 0 and ready, no ring, shape slot, flume or segment; MCFG with FENCED 1 only, every row of the drain stage drained, user
mode. What the spec gives no reset value is the model's choice (log 2, log 5, log 6). -/
def Obligations.StateAfterReset : Prop :=
  let s := State.reset
  s.sharedWf = true ∧ s.coresWf = true ∧ s.pcsAligned ∧ s.hub.stage = 0 ∧ s.launches = [] ∧ s.contexts = [] ∧ (∀ d, (s.dieAt d).beat = 0 ∧
    (s.dieAt d).opened = false ∧ (s.dieAt d).layers = 0) ∧
  (∀ sp a, (s.spaceMem s.me sp).byte a = 0 ∧ (s.spaceMem s.me sp).pois a = false) ∧
  ∀ k, let c := s.coreAt k
    c.id = k ∧ c.running = false ∧ c.unit = none ∧ c.sup = false ∧ c.isHeld = false ∧ c.flights = [] ∧ c.flumes = [] ∧ c.segOpen = false ∧
    (∀ n, c.sreg n = { val := 0, poison := false, pend := false } ∧ c.preg n = { val := n == 0, poison := false } ∧
      c.mreg n = { val := 0, poison := false } ∧ c.vreg n = { val := 0, tag := 0, poison := 0, pend := false } ∧
      c.treg n = { val := 0, tag := 0, ready := true, poison := 0 } ∧ (c.ringReg n).valid = false ∧ c.shape n = none ∧
      c.breg n = 0 ∧ (c.latchOf n).full = false) ∧
    c.sw.mcfg = 1 ∧ c.sw.kcount0 = 0 ∧ c.sw.kcount1 = 0 ∧ c.sw.rot = 0 ∧ c.sw.lc = 0 ∧ c.sw.depth = 0 ∧ c.sw.repc = 0 ∧
    c.sw.respol = 0 ∧ c.sw.beatBase = 0 ∧ c.sw.segState = 0 ∧ c.sw.priv = 0 ∧ c.sw.vcfg0 = 0xD9000000#64 ∧
    c.sw.vcfg1 = 0xD9000000#64 ∧ c.arr.latchA = [] ∧ c.arr.latchB = [] ∧ c.arr.set0 = ASet.zero ∧ c.arr.set1 = ASet.zero ∧
    c.arr.drain = ASet.zero ∧ c.arr.drained = BitVec.allOnes 128

/-- Every step keeps main memory, the lofts and the cluster memories in canonical form, whichever agent has the turn, and with them the
scratchpad and the slices of every core, so that memories that read alike are one value. -/
def Obligations.EveryStepKeepsTheMemoriesCanonical : Prop :=
  ∀ s t : State, s.sharedWf = true → step s = .next t → t.sharedWf = true ∧ (s.coresWf = true → t.coresWf = true)

/-- Every step keeps every program counter a multiple of 8 (R21), whichever agent has the turn: those of the cores, of the contexts that
handlers hold, and of the bundles that follow those in progress. -/
def Obligations.EveryStepKeepsProgramCountersAligned : Prop :=
  ∀ s t : State, s.pcsAligned → step s = .next t → t.pcsAligned
/-! ## Dispatchers, graph walkers, landing engines and orchards (R212 to R219, R225 to R228, R314 to R332, R401 to R404) -/

namespace Sys2Proof.Claims

open Sys2Proof.Machine

/-- The queue `q` with its packet consumed has taken its place. -/
def advancedIn (q : Queue) (l : List Queue) : List Queue :=
  l.map (fun x => if x.pa = q.pa then { q with read := q.read + 1, packet := none, stalled := false } else x)

/-- The one change `g` has been made to the barrier at `a`; with none, memory is as it was. -/
def changed (s t : State) (a : Option Nat) (g : BarrierOp) : Prop :=
  match a with
  | none => t.home = s.home
  | some b => barrierAt t.home b = g.new (barrierAt s.home b) ∧ (∀ x, x < b ∨ b + 16 ≤ x → t.home.byte x = s.home.byte x) ∧
      (b % 16 = 0 → ∀ w < 4, t.home.pois (b / 4 + w) = (!g.whole.contains w && s.home.pois (b / 4 + w)))

/-- Node `i` of graph `g` has gone to the state `x`, and no other node and no other graph has changed. -/
def nodeAt (s t : State) (g : GraphRun) (i : Nat) (x : NodeState) : Prop :=
  t.graphs = s.graphs.map (fun y => if y.id = g.id then { y with states := y.states.set i x } else y)

/-- A launch of block `raw` has joined the launches, with no tile handed out. -/
def joined (s t : State) (raw : Nat) (addr : Word) (o : Origin) : Prop :=
  ∃ l : Launch, t.launches = s.launches ++ [l] ∧ l.blk = LaunchBlk.parse raw ∧ l.addr = addr ∧ l.origin = o ∧ l.next = 0 ∧
    l.started = 0 ∧ l.completed = 0 ∧ l.cancelled = 0 ∧ l.failed = 0 ∧ l.crews = [] ∧ l.waiting = []

end Sys2Proof.Claims

/-- Each turn of a landing engine: a slot whose byte 63 has the phase of its index becomes the packet of its queue, and a slot that
faults, or lies in a row of a suspended command (log 65), stops the queue with the faulted bit and a record of type 16; a packet that fails is counted and passed (R212 to R216). NOP is
passed; COPY and COPY_REDUCE make ACCEPT at their barrier and start their chunks; LAUNCH joins the launches or fails with the
refusal's code; SIGNAL arrives; GRAPH reaches the walker (R217). A chunk moves its bytes, or its sums where the checks hold, and is
reported to its barrier (R219, R227, R228); one whose checks fail is poisoned, and holds its sums unless one leaves its range; a sum of integers in range passes its check (R226). The orchard accepts a fill and
writes its chunks (R404). A queue that waits is marked stalled and reported, and where it is already marked Strelino writes a NOP
into the slot (R214; when, is free: log 1). -/
def Obligations.LandingEnginesTakePacketsAndChunks : Prop :=
  (∀ s : State, let d := s.dieNo
    let bar (q : Queue) (p : List Byte) : Option Nat := s.barrierPa q.ctx (pktField p 24 8)
    let one (ty : Nat) (q : Queue) (p : List Byte) : Prop := takes s (s.acceptable d ty) (q, p)
    let copied (q : Queue) (p : List Byte) (red : Option Nat) (o : Host.Outcome State Fault Refusal) : Prop :=
      ∃ (u : State) (k : Packet), o = .next (u.advanceQueue q) ∧ u.queues = s.queues ∧ u.packets = s.packets ++ [k] ∧ k.ctx = q.ctx ∧ k.reduce = red ∧
        k.src = pktField p 8 8 ∧ k.dst = pktField p 16 8 ∧ k.len = pktField p 4 4 ∧
        k.peer = (if pktPeer p then some (pktField p 3 1) else none) ∧ k.left = List.range ((pktField p 4 4 + 4095) / 4096) ∧
        k.failed = false ∧ changed s u (bar q p) (.accept (pktField p 4 4))
    (∀ q, takes s ((s.queuesOf d).filter s.slotReady) q →
      (∀ pas, q.packet = none → 0 < q.slots → s.openPas q.ctx (q.base + 64 * (q.read % q.slots)) 64 true false = some pas →
        pktField (pas.map s.home.byte) 63 1 = 1 + q.read / q.slots % 2 →
        ∃ t : State, exec .landingSlotValid s = .next t ∧ t.home = s.home ∧ t.queues =
          s.queues.map (fun x => if x.pa = q.pa then { q with packet := some (pas.map s.home.byte) } else x)) ∧
      (q.packet = none → s.openPas q.ctx (q.base + 64 * (q.read % max 1 q.slots)) 64 true false = none →
        ∃ (t : State) (r : ErrRec), exec .landingSlotValid s = .next t ∧ t.home.num (q.pa + 28) 4 = s.home.num (q.pa + 28) 4 ||| 4 ∧
          t.records = s.records ++ [r] ∧ r.kind = 16 ∧ r.ctx = q.ctx ∧
          t.queues = s.queues.map (fun x => if x.pa = q.pa then { q with faulted := true } else x)) ∧
      (∀ p, q.packet = some p → ∃ (u : State) (r : ErrRec), exec .landingSlotValid s = .next (u.advanceQueue q) ∧ u.queues = s.queues ∧
        u.packets = s.packets ∧ u.records = s.records ++ [r] ∧ r.kind = 9 ∧ r.addr = q.va ∧
        (pktField p 24 8 = 0 → u.home.num (q.pa + 32) 4 = min (2 ^ 32 - 1) (s.home.num (q.pa + 32) 4 + 1)))) ∧
    (∀ q p, one 0 q p → exec .pktNop s = .next (s.advanceQueue q)) ∧
    (∀ q p, one 1 q p → copied q p none (exec .pktCopy s)) ∧
    (∀ q p, one 2 q p → copied q p (some (pktField p 2 1)) (exec .pktCopyReduce s)) ∧
    (∀ q p, one 3 q p → let raw := s.engineNum q.ctx (pktField p 8 8) 128
      (∀ x, s.launchCheck raw false (0, 0) = .ok x → ∃ u : State, exec .pktLaunch s = .next (u.advanceQueue q) ∧ u.queues = s.queues ∧
        joined s u raw (BitVec.ofNat 64 (pktField p 8 8))
          (match bar q p with | some a => .barrier q.ctx a | none => .none)) ∧
      (∀ c, s.launchCheck raw false (0, 0) = .error c → c ≠ 0 → ∃ (u : State) (r : ErrRec), exec .pktLaunch s = .next (u.advanceQueue q) ∧
        u.launches = s.launches ∧ u.records = s.records ++ [r] ∧ r.kind = 9 ∧ (9, 1, c) ∈ r.detail)) ∧
    (∀ q p, one 4 q p → ∃ u : State, exec .pktSignal s = .next (u.advanceQueue q) ∧ u.queues = s.queues ∧
      changed s u (bar q p) (.arrive (pktField p 4 2))) ∧
    (∀ q p r nodes, one 5 q p → s.readGraph q.ctx (pktField p 8 8) = some (r, nodes) →
      (s.graphs.filter (fun g => g.cluster == pktField p 16 1)).length < 8 →
      ∃ (u : State) (g : GraphRun), exec .pktGraph s = .next (u.advanceQueue q) ∧ u.queues = s.queues ∧ u.home = s.home ∧ u.graphs = s.graphs ++ [g] ∧
        g.cluster = pktField p 16 1 ∧ g.ctx = q.ctx ∧ g.record = r ∧ g.nodes = nodes ∧
        g.states = nodes.map (fun n => .waiting n.preds)) ∧
    (∀ i k p a b, takes s (s.chunksReady d false) (i, k) → s.packets[i]? = some p →
      s.openPas p.ctx (p.src + 4096 * k) (p.chunkLen k) true false = some a →
      let after (u : State) (f : Bool) : Prop := u.packets = s.packets.set i { p with
        left := p.left.filter (· != k)
        failed := f }
      (p.peer = none → s.openPas p.ctx (p.dst + 4096 * k) (p.chunkLen k) false true = some b →
        ∃ u : State, exec .copyChunk s = .next (u.chunkDone p k true).endPackets ∧ wrote s u (b.zip (a.map s.home.byte)) ∧ after u p.failed) ∧
      (p.peer = none → s.openPas p.ctx (p.dst + 4096 * k) (p.chunkLen k) false true = none →
        ∃ (u : State) (r : ErrRec), exec .copyChunk s = .next (u.chunkDone p k false).endPackets ∧ u.home = s.home ∧ after u true ∧
          u.records = s.records ++ [r] ∧ r.kind = 10 ∧ r.addr = p.dst + 4096 * k) ∧
      (∀ x, p.peer = some x → (∀ y ∈ a, s.home.pois (y / 4) = false) →
        let e := SMap.get s.hub.peers (256 * p.ctx + x) { fabric := 0, job := 0, ctx := 0 }
        ∃ (u : State) (port : Nat), exec .copyChunk s = .next u.endPackets ∧ u.home = s.home ∧ u.hub.sent = s.hub.sent ++ [{
            port := port, peer := some e.fabric, job := e.job
            bytes := msgHeader 1 0 e.ctx a.length (p.dst + 4096 * k) 0 s.hub.tag ++ a.map s.home.byte }] ∧
          u.packets = s.packets.set i { p with
            left := p.left.filter (· != k)
            sent := p.sent ++ [(s.hub.tag, k)] })) ∧
    (∀ i k p a b f, takes s (s.chunksReady d true) (i, k) → s.packets[i]? = some p → p.reduce = some f → p.peer = none →
      s.openPas p.ctx (p.src + 4096 * k) (p.chunkLen k) true false = some a →
      s.openPas p.ctx (p.dst + 4096 * k) (p.chunkLen k) true true = some b →
      (3 ≤ f → ∃ u : State, exec .reduceChunk s = .next (u.chunkDone p k true).endPackets ∧
        wrote s u (b.zip (sumFloat f (b.map s.home.byte) (a.map s.home.byte)))) ∧
      (∀ w, f < 3 → checkedSum f (s.homeBytes b) (s.homeBytes a) = .ok w →
        ∃ u : State, exec .reduceChunk s = .next (u.chunkDone p k true).endPackets ∧
          wrote s u (b.zip (w.flatMap (fun v => (bytesOf v 0 8).map (·.2))))) ∧
      (∀ why, f < 3 → checkedSum f (s.homeBytes b) (s.homeBytes a) = .error why →
        ∃ (u : State) (r : ErrRec), exec .reduceChunk s = .next (u.chunkDone p k false).endPackets ∧
          (match newWords f (b.map s.home.byte) (a.map s.home.byte) with
           | some w => wrote s u (b.zip (w.flatMap (fun v => (bytesOf v 0 8).map (·.2))))
           | none => ∀ x, u.home.byte x = s.home.byte x) ∧
          (a.length = 4096 → b.length = 4096 → ∀ x ∈ b, u.home.pois (x / 4) = true) ∧
          u.records = s.records ++ [r] ∧ r.kind = 10 ∧ (12, 1, why) ∈ r.detail)) ∧
    (∀ (i : Nat) (f : Fill), s.fills[i]? = some f →
      (∀ k pas, takes s (s.orchardReady d) (i, k) →
        s.openPas f.ctx (f.buffer + 4096 * k) (min 4096 (f.length - 4096 * k)) false true = some pas →
        ∃ (u : State) (t : State), exec .orchardChunk s = .next t ∧ wrote s u (pas.zip (f.chunk k)) ∧
          changed u t f.bar (.chunk (min 4096 (f.length - 4096 * k)) true) ∧
          t.fills = (if (f.left.filter (· != k)).isEmpty then s.fills.eraseIdx i
            else s.fills.set i { f with left := f.left.filter (· != k) }))) ∧
    (∀ q, takes s (s.stallable d) q →
      (q.stalled = false → ∃ t : State, exec .slotStallTimeout s = .next t ∧ t.hub.reports = s.hub.reports ++ [q.va] ∧
        t.home.num (q.pa + 28) 4 = s.home.num (q.pa + 28) 4 ||| 2 ∧
        t.queues = s.queues.map (fun x => if x.pa = q.pa then { q with stalled := true } else x)) ∧
      (∀ pas, q.stalled = true → s.enginePas q.ctx q.slotVa 64 true false = some pas → ∃ t : State, exec .slotStallTimeout s = .next t ∧
        wrote s t (pas.zip (List.replicate 63 0 ++ [BitVec.ofNat 8 (1 + q.read / max 1 q.slots % 2)]))))) ∧
  (∀ (u : State) (q : Queue), wrote u (u.advanceQueue q) (bytesOf (q.read + 1) (q.pa + 8) 8) ∧
    (u.advanceQueue q).queues = advancedIn q u.queues) ∧
  (∀ (u : State) (p : Packet) (k : Nat) (ok : Bool), changed u (u.chunkDone p k ok) (if p.barrier.1 = 0 then none else some p.barrier.2)
    (.chunk (p.chunkLen k) ok)) ∧
  (∀ u : State, u.launches = [] → u.endPackets.packets = u.packets.filter (fun p => !(p.left.isEmpty && p.sent.isEmpty))) ∧
  (∀ (b : Barrier) (n : Nat) (ok : Bool), n ≤ b.pending → b.pending < 2 ^ 32 → let c := b.chunk n ok
    (c.pending = b.pending - n ∧ (ok = true → c.failed = b.failed ∧ c.flags = b.flags) ∧
      (ok = false → c.failed = min (2 ^ 32 - 1) (b.failed + 1) ∧ c.flags = b.flags ||| 1) ∧
      (b.pending = n → b.remaining = 0 → c.phase = (b.phase + 1) % 2 ^ 16 ∧ c.remaining = b.expected) ∧
      (b.pending ≠ n ∨ b.remaining ≠ 0 → c.phase = b.phase ∧ c.remaining = b.remaining))) ∧
  (∀ (f : Nat) (d x : List (Byte × Bool)), f < 2 → (∀ e ∈ d, e.2 = false) → (∀ e ∈ x, e.2 = false) →
    let w (l : List (Byte × Bool)) (i : Nat) : Nat := chunkWord (l.map (·.1)) i
    (∀ i < 512, (sumWord f (w d i) (w x i)).isSome = true) →
      ∃ n, checkedSum f d x = .ok n ∧ ∀ i < 512, n[i]? = sumWord f (w d i) (w x i))

/-- The turns of the dispatchers and walkers. UNIT_START reports a failed unit, places a launch's crew, or gives a quiet core its
launch's next tile: the unit starts at the launch's code with the tile's coordinates in s127, the arguments' address in s126 and the
block's in s125, and empty latches (R35, R320, R322); with no tile left the core leaves the launch. A launch that its record or an ancestor cancels has the tiles never handed out counted
cancelled, once (R332). GRAPH_NODE_START starts the lowest node whose count is 0:
a launch node submits its block, a copy node starts its chunks, a condition node the graph its word chooses, a while node its body
while its word is not 0, and a join ends at once (R329, R330); in a cancelled graph a node that waits counts cancelled, and its record
reads cancelled (R331, R332).
GRAPH_NODE_COMPLETE counts the node's outcome and lowers the counts of its successors (R330). That a while node reads its word before it
compares its limit, so that a word 0 at the limit counts completed, and the outcomes of nodes, are log 37. -/
def Obligations.DispatchersAndGraphWalkersWork : Prop :=
  ∀ s : State, let cl := s.clusterNo
    let k := s.turn.pick / 64
    let act (a : UAct) : Prop := takes s (s.unitActs cl k) a
    (∀ n cause, act (.report n) → (s.coreAt n).failed = some cause → exec .unitStart s = .next (s.failUnit n cause)) ∧
    (∀ id l p, act (.place id) → s.launch id = some l → s.placeable l cl k = [(cl, p)] → p.Nodup →
      ∃ (t : State) (l' : Launch) (cr : Crew), exec .unitStart s = .next t ∧ t.launch id = some l' ∧ l'.crews = l.crews ++ [cr] ∧ cr.index = l.crews.length ∧
        cr.cluster = cl ∧ cr.members.map (·.core) = p.map some ∧ cl ∈ l'.granted ∧
        ∀ (i n : Nat), p[i]? = some n → (t.coreAt n).job = some (id, l.crews.length, i) ∧ (t.coreAt n).s = (s.coreAt n).s) ∧
    (∀ n id crew pos l, act (.next n) → (s.coreAt n).job = some (id, crew, pos) → s.launch id = some l → l.blk.gang ≤ 1 →
      s.launchCancelling l = false → l.blk.determ = false →
      (∀ ci, l.next < l.blk.tiles → s.ctxInfo l.blk.ctx = some ci → (s.coreAt n).timed = [] →
        ∃ (t : State) (l' : Launch) (u : UnitInfo), exec .unitStart s = .next t ∧ t.launch id = some l' ∧ l'.next = l.next + 1 ∧ l'.started = l.started + 1 ∧
          (t.coreAt n).running = true ∧ (t.coreAt n).unit = some u ∧ u.launch = id ∧ u.crew = crew ∧ u.pos = pos ∧
          u.tiles = [l.next] ∧ (t.coreAt n).pc = BitVec.ofNat 64 (l.blk.code % 2 ^ 64 / 8 * 8) ∧
          ((t.coreAt n).sreg 127).val = BitVec.ofNat 64 (l.blk.tile l.next) ∧
          ((t.coreAt n).sreg 126).val = BitVec.ofNat 64 l.blk.args ∧ ((t.coreAt n).sreg 125).val = l.addr ∧
          (∀ r < 125, (t.coreAt n).sreg r = SReg.zero) ∧ (∀ r, 0 < r → (t.coreAt n).preg r = PReg.zero) ∧
          (t.coreAt n).sup = false ∧ (t.coreAt n).isHeld = false ∧ (t.coreAt n).v = [] ∧ (t.coreAt n).t = [] ∧
          (t.coreAt n).flights = [] ∧ (∀ k, ((t.coreAt n).latchOf k).full = false) ∧ (t.coreAt n).sw.ctxId = BitVec.ofNat 64 (l.blk.ctx + 65536 * l.blk.prio) ∧
          (t.coreAt n).sw.trapVec = ci.handler &&& 0xFFFFFFFFFFC0#64) ∧
      (l.blk.tiles ≤ l.next → ∃ t : State, exec .unitStart s = .next t.settle ∧ (t.coreAt n).job = none ∧ (t.coreAt n).unit = none ∧
        t.home = s.home)) ∧
    (∀ id l, act (.sweep id) → s.launch id = some l → l.swept = false → ∃ (t : State) (l' : Launch), exec .unitStart s = .next t.settle ∧
      t.launch id = some l' ∧ l'.swept = true ∧ l'.cancelled = l.cancelled + (l.blk.tiles - l.started) ∧ l'.next = l.next ∧
      l'.crews = l.crews) ∧
    (∀ g i n, takes s (s.startables cl) (g, i) → g.nodes[i]? = some n → s.graphCancelling g.id 5 = false →
      let goes (x : NodeState) : Prop := ∃ t : State, exec .graphNodeStart s = .next t ∧ t.home = s.home ∧ nodeAt s t g i x
      let nested (va : Nat) : Prop := ∃ (t u : State) (h : GraphRun), exec .graphNodeStart s = .next t ∧ nodeAt u t g i (.running 1) ∧
        u.graphs = s.graphs ++ [h] ∧ h.origin = .node g.id i ∧ h.depth = g.depth + 1 ∧ h.cluster = g.cluster ∧ h.ctx = g.ctx ∧
        s.readGraph g.ctx va = some (h.record, h.nodes)
      let fits (va : Nat) : Prop := g.depth < 4 ∧ (s.graphs.filter (fun y => y.cluster == g.cluster)).length < 8 ∧
        (s.readGraph g.ctx va).isSome = true
      let word (v : Nat) : Prop := n.a % 8 = 0 ∧ s.reach g.ctx n.a 8 false = true ∧ v = s.engineNum g.ctx n.a 8
      (n.kind = 0 → n.a % 128 = 0 → s.reach g.ctx n.a 128 false = true →
        let raw := s.engineNum g.ctx n.a 128
        (∀ x, s.launchCheck raw false (0, 0) = .ok x → ∃ t : State, exec .graphNodeStart s = .next t ∧ nodeAt s t g i (.running 1) ∧
          joined s t raw (BitVec.ofNat 64 n.a) (.node g.id i)) ∧
        (∀ c, s.launchCheck raw false (0, 0) = .error c → c ≠ 0 → goes (.ended true false 0))) ∧
      (n.kind = 1 → s.reach g.ctx n.a 64 false = true →
        let p := (List.range 64).map (fun j => (s.engineByte g.ctx (n.a + j)).1)
        let b := s.barrierPa g.ctx (pktField p 24 8)
        pktType p = 1 ∨ pktType p = 2 → s.pktFails p g.ctx (dieOfCluster g.cluster) = false → s.barrierRoom b (pktField p 4 4) = true →
        ∃ t x, exec .graphNodeStart s = .next t ∧ nodeAt s t g i (.running 1) ∧ t.packets = s.packets ++ [x] ∧
          x.node = .node g.id i ∧ x.src = pktField p 8 8 ∧ x.dst = pktField p 16 8 ∧ x.len = pktField p 4 4 ∧ x.queue = none ∧
          changed s t b (.accept (pktField p 4 4))) ∧
      (n.kind = 2 → ∀ v, word v → let va := if v ≠ 0 then n.b else n.c
        (v = 0 → n.c = 0 → goes (.ended false false 0)) ∧ (v ≠ 0 ∨ n.c ≠ 0 → fits va → nested va)) ∧
      (n.kind = 3 → ∀ v, word v → (v = 0 → goes (.ended false false 0)) ∧ (v ≠ 0 → fits n.b → nested n.b)) ∧
      (n.kind = 4 → goes (.ended false false 0))) ∧
    (∀ g i, takes s (s.startables cl) (g, i) → s.graphCancelling g.id 5 = true → (∃ j, j ≠ i ∧ ∃ x, g.states[j]? = some x ∧ x ≠ .done) →
      (∀ y ∈ s.graphs, y.id = g.id → y = g) →
      ∃ t : State, exec .graphNodeStart s = .next t ∧ t.home = ((s.cancelRecord g.ctx g.record).countNode g .cancelled 1).home ∧ nodeAt s t g i .done) ∧
    (∀ g i f c r n, takes s (s.completables cl) (g, i, f, c, r) → g.nodes[i]? = some n → n.kind ≠ 3 ∨ r = 0 ∨ f = true →
      (∃ j, j ≠ i ∧ ∃ x, g.states[j]? = some x ∧ x ≠ .done) → (∀ y ∈ s.graphs, y.id = g.id → y = g) →
      ∃ (t : State) (h : GraphRun), exec .graphNodeComplete s = .next t ∧ t.graph g.id = some h ∧ h.nodes = g.nodes ∧ h.states[i]? = some .done ∧
        t.home = (s.countNode g (if f then .failed else if c then .cancelled else .completed) 1).home ∧
        ∀ j, j ≠ i → (n.succs.count j = 0 → h.states[j]? = g.states[j]?) ∧
          ∀ m, g.states[j]? = some (.waiting m) → h.states[j]? = some (.waiting (m - n.succs.count j))) ∧
    (∀ g i n r v, takes s (s.completables cl) (g, i, false, false, r) → g.nodes[i]? = some n → n.kind = 3 → r ≠ 0 →
      s.graphCancelling g.id 5 = false → n.a % 8 = 0 → s.reach g.ctx n.a 8 false = true → v = s.engineNum g.ctx n.a 8 →
      (v = 0 → ∃ t : State, exec .graphNodeComplete s = .next t ∧ t.home = s.home ∧ nodeAt s t g i (.ended false false 0)) ∧
      (v ≠ 0 → n.c ≠ 0 → n.c ≤ r → ∃ t : State, exec .graphNodeComplete s = .next t ∧ t.home = s.home ∧ nodeAt s t g i (.ended true false 0))) ∧
    (∀ ctx pa off m, off ≠ 16 → wrote s (s.bump ctx pa off m) (bytesOf (s.home.num (pa + off) 4 + m) (pa + off) 4))
/-! ## Strelino and the hub (R368, R373, R389, R405 to R421) -/

namespace Sys2Proof.Claims

open Sys2Proof.Machine

/-- The hub takes the input `x` at its turn, row `r` takes it, and `s0` is the state without it. -/
def given (s : State) (x : Input) (r : HubRow) (s0 : State) : Prop :=
  ∃ i, s.nextInput s.turn.pick = some (i, x) ∧ s.inputRow x = r ∧ s0 = { s with inbox := s.inbox.eraseIdx i }

/-- The bytes `b` as they leave for the sender of `m`: a frame of the management port carries its length first (R412). -/
def framed (m : Msg) (b : List Byte) : List Byte := if m.port = 16 then (bytesOf b.length 0 4).map (·.2) ++ b else b

/-- The reply to `m` with a status and a payload has been sent, and nothing else (R407); before full service its operand is the
service word (R413). -/
def replied (s t : State) (m : Msg) (status : Nat) (payload : List Byte) : Prop :=
  t.hub.sent = s.hub.sent ++ [{
    port := m.port, peer := none, job := m.job
    bytes := framed m (msgHeader 5 status m.head.ctx payload.length 0 (if s.hub.stage < 7 then s.serviceWord else 0) m.head.tag ++ payload) }]

/-- Memory, registrations, queues and fills are as they were. -/
def unmoved (s t : State) : Prop :=
  t.home = s.home ∧ t.loft = s.loft ∧ t.cmem = s.cmem ∧ t.cores = s.cores ∧ t.contexts = s.contexts ∧ t.queues = s.queues ∧
    t.fills = s.fills ∧ t.launches = s.launches ∧ t.packets = s.packets ∧ t.hub.jobs = s.hub.jobs ∧ t.hub.peers = s.hub.peers ∧
    t.hub.counter = s.hub.counter ∧ t.hub.stage = s.hub.stage

/-- A service request `code` of message `m` is served: its job is bound or it comes over the management port, its code is allowed
there, and the service is up (R406, R410, R412, R413). -/
def served (s : State) (m : Msg) (code : Nat) (mgmt : Bool) (s0 : State) : Prop :=
  given s (.message m) (.svc code) s0 ∧ s0.bound m m.head = true ∧ (mgmt = true → m.port = 16) ∧ 5 ≤ s.hub.stage

end Sys2Proof.Claims

/-- Device messages and service requests. A malformed message is answered with status 4 and has no other effect (R407); a
memory request under a job that is not bound is answered with status 4 (R406), and before reduced service with 5. WRITE stores its
payload, READ answers with bytes or, at a poisoned word, with status 3 and a record; ATOMIC_ADD adds once and answers a
retransmission with the recorded reply (R408); REDUCE sums a chunk or answers 6 (R409); a failed request is answered with its status
and recorded. A peer's reply ends its chunk (R409). The ten service requests answer as R410 to R413 and R416 to R419 say; the 5,236
bytes of a signature are free (log 9). Connections are served up to 16, and a bad frame closes its connection (R412). The status 5, the order of the checks, status 3
for an add at a poisoned word, the fill that fails at acceptance and is answered 0, and the counter before its advance are log 54. -/
def Obligations.MessagesAndRequestsAreAnswered : Prop :=
  ∀ (s s0 : State) (m : Msg), let h := m.head
    (given s (.message m) .malformed s0 →
      (s.hub.halted = false → ∃ t, exec .malformedMessage s = .next t ∧ replied s0 t m 4 [] ∧ unmoved s t) ∧
      (s.hub.halted = true → m.port ≠ 16 → exec .malformedMessage s = .next s0)) ∧
    (∀ x, x ∈ [(1, Instr.msgWrite), (2, .msgRead), (3, .msgAtomicAdd), (6, .msgReduce)] → given s (.message m) (.msg x.1) s0 →
      (s0.bound m h = false → ∃ t, exec x.2 s = .next t ∧ replied s0 t m 4 [] ∧ unmoved s t) ∧
      (s0.bound m h = true → s.hub.stage < 5 → ∃ t, exec x.2 s = .next t ∧ replied s0 t m 5 [] ∧ unmoved s t)) ∧
    (∀ k, given s (.message m) (.msg k) s0 → 5 ≤ s.hub.stage → s0.bound m h = true →
      let fails (o : Host.Outcome State Fault Refusal) (n : Nat) : Prop := ∃ (t : State) (r : ErrRec), o = .next t ∧ replied s0 t m n [] ∧
        unmoved s t ∧ t.records = s.records ++ [r] ∧ r.kind = 17 ∧ r.ctx = h.ctx ∧ r.addr = h.addr
      (k = 1 →
        (∀ pas, s0.msgPas h.ctx h.addr h.len false true = .ok pas → ∃ t : State, exec .msgWrite s = .next t.settle ∧
          replied s0 t m 0 [] ∧ wrote s t (pas.zip h.payload)) ∧
        (∀ e, s0.msgPas h.ctx h.addr h.len false true = .error e → fails (exec .msgWrite s) e)) ∧
      (k = 2 →
        (∀ pas, s0.msgPas h.ctx h.addr h.len true false = .ok pas → (∀ a ∈ pas, s.home.pois (a / 4) = false) →
          ∃ t, exec .msgRead s = .next t ∧ replied s0 t m 0 (pas.map s.home.byte) ∧ unmoved s t) ∧
        (∀ pas a, s0.msgPas h.ctx h.addr h.len true false = .ok pas → a ∈ pas → s.home.pois (a / 4) = true →
          ∃ (t : State) (r : ErrRec), exec .msgRead s = .next t ∧ replied s0 t m 3 [] ∧ unmoved s t ∧ t.records = s.records ++ [r] ∧
            r.kind = 14) ∧
        (∀ e, s0.msgPas h.ctx h.addr h.len true false = .error e → fails (exec .msgRead s) e)) ∧
      (k = 3 →
        (∀ b, (s.hub.recorded.find? (fun e => e.1 == (m.job, m.uet))).map (·.2) = some b → ∃ t, exec .msgAtomicAdd s = .next t ∧
          unmoved s t ∧ t.hub.sent = s.hub.sent ++ [{ port := m.port, peer := none, job := m.job, bytes := b }]) ∧
        (s.hub.recorded.find? (fun e => e.1 == (m.job, m.uet)) = none →
          (∀ a rest, h.addr % 8 = 0 → s0.msgPas h.ctx h.addr 8 true true = .ok (a :: rest) → s.home.anyPois a 8 = false →
            ∃ (t : State) (b : List Byte), exec .msgAtomicAdd s = .next t ∧ t.home.num a 8 = (s.home.num a 8 + h.operand) % 2 ^ 64 ∧
              (∀ x, x < a ∨ a + 8 ≤ x → t.home.byte x = s.home.byte x) ∧
              replied s0 t m 0 ((bytesOf (s.home.num a 8) 0 8).map (·.2)) ∧
              t.hub.sent = s.hub.sent ++ [{ port := m.port, peer := none, job := m.job, bytes := b }] ∧ t.hub.recorded = s.hub.recorded ++ [((m.job, m.uet), b)]) ∧
          let refused (n : Nat) : Prop := fails (exec .msgAtomicAdd s) n ∧
            ∃ (t : State) (b : List Byte), exec .msgAtomicAdd s = .next t ∧ t.hub.recorded = s.hub.recorded ++ [((m.job, m.uet), b)] ∧
              t.hub.sent = s.hub.sent ++ [{ port := m.port, peer := none, job := m.job, bytes := b }]
          (h.addr % 8 ≠ 0 → refused 2) ∧
          (∀ a rest, h.addr % 8 = 0 → s0.msgPas h.ctx h.addr 8 true true = .ok (a :: rest) → s.home.anyPois a 8 = true → refused 3) ∧
          (∀ e, h.addr % 8 = 0 → s0.msgPas h.ctx h.addr 8 true true = .error e → refused e))) ∧
      (k = 6 → ∀ pas, s0.msgPas h.ctx h.addr 4096 true true = .ok pas →
        let src := h.payload.map (fun b => (b, false))
        (∀ w, h.operand < 3 → checkedSum h.operand (s.homeBytes pas) src = .ok w → ∃ t, exec .msgReduce s = .next t ∧
          replied s0 t m 0 [] ∧ wrote s t (pas.zip (w.flatMap (fun v => (bytesOf v 0 8).map (·.2))))) ∧
        (3 ≤ h.operand → h.payload.length = 4096 → ∃ t, exec .msgReduce s = .next t ∧ replied s0 t m 0 [] ∧
          wrote s t (pas.zip (sumFloat h.operand (pas.map s.home.byte) h.payload))) ∧
        (∀ why, h.operand < 3 → checkedSum h.operand (s.homeBytes pas) src = .error why → ∃ (t : State) (r : ErrRec),
          exec .msgReduce s = .next t ∧ replied s0 t m 6 [] ∧
          (match newWords h.operand (pas.map s.home.byte) h.payload with
           | some w => wrote s t (pas.zip (w.flatMap (fun v => (bytesOf v 0 8).map (·.2))))
           | none => ∀ x, t.home.byte x = s.home.byte x) ∧
          t.records = s.records ++ [r] ∧ r.kind = 10))) ∧
    (∀ p j, given s (.message m) .peerReply s0 → s.packets = [p] → p.sent = [(h.tag, j)] →
      (h.status = 0 → ∃ u : State, exec .peerChunkReply s = .next (u.chunkDone p j true).endPackets ∧ u.home = s.home ∧
        u.packets = [{ p with sent := [] }] ∧ u.records = s.records) ∧
      (h.status ≠ 0 → ∃ (u : State) (r : ErrRec), exec .peerChunkReply s = .next (u.chunkDone p j false).endPackets ∧ u.home = s.home ∧
        u.packets = [{ p with
          sent := []
          failed := true }] ∧ u.records = s.records ++ [r] ∧ r.kind = 10)) ∧
    (∀ x, x ∈ [(1, Instr.svcEnableQueue), (2, .svcDisableQueue), (3, .svcOrchardFill), (4, .svcAttestationReport),
        (5, .svcReadScaleTickets), (6, .svcRetireContext), (7, .svcRegisterContext), (8, .svcBindJob), (10, .svcSetPeer)] →
      given s (.message m) (.svc x.1) s0 →
      ((s0.bound m h = false ∨ 5 ≤ x.1 ∧ m.port ≠ 16) → ∃ t, exec x.2 s = .next t ∧ replied s0 t m 4 [] ∧ unmoved s t) ∧
      (s0.bound m h = true → m.port = 16 ∨ x.1 < 5 → s.hub.stage < 5 → ∃ t, exec x.2 s = .next t ∧ replied s0 t m 5 [] ∧
        unmoved s t)) ∧
    (∀ pa, served s m 1 false s0 → s0.descriptorPa h.ctx (pktField h.payload 0 8) true = some pa →
      let ctx := s.home.num (pa + 26) 2
      let room := ((s.queues.filter (fun q => q.pa != pa)).filter (fun q => homeDie q.pa == homeDie pa)).length < 256
      let open_ := s0.layersOk ctx (s.home.num (pa + 16) 8) (64 * 2 ^ s.home.num (pa + 24) 1)
      (s0.registered ctx = true → s0.badQueue pa = false → open_ = true → room → ∃ (t : State) (q : Queue), exec .svcEnableQueue s = .next t ∧
        replied s0 t m 0 [] ∧ wrote s t (bytesOf 1 (pa + 28) 4) ∧ t.queues = s.queues.filter (fun q => q.pa != pa) ++ [q] ∧ q.pa = pa ∧
        q.ctx = ctx ∧ q.base = s.home.num (pa + 16) 8 ∧ q.slots = 2 ^ s.home.num (pa + 24) 1 ∧ q.read = s.home.num (pa + 8) 8 ∧
        q.packet = none ∧ q.stalled = false ∧ q.faulted = false) ∧
      ((s0.registered ctx = false ∨ s0.badQueue pa = true ∨ open_ = false) → ∃ t, exec .svcEnableQueue s = .next t ∧ replied s0 t m 4 [] ∧
        unmoved s t)) ∧
    (∀ pa q, served s m 2 false s0 → s0.descriptorPa h.ctx (pktField h.payload 0 8) true = some pa →
      s.queues.find? (fun q => q.pa == pa) = some q → ∃ t, exec .svcDisableQueue s = .next t ∧ replied s0 t m 0 [] ∧
        t.queues = s.queues.filter (fun x => x.pa != pa) ∧ wrote s t (bytesOf (s.home.num (pa + 28) 4 / 2 * 2) (pa + 28) 4)) ∧
    (∀ pa, served s m 3 false s0 → s0.descriptorPa h.ctx (pktField h.payload 0 8) false = some pa →
      let d := (List.range 64).map (fun i => s.home.byte (pa + i))
      (s0.registered (pktField d 30 2) = false → ∃ t, exec .svcOrchardFill s = .next t ∧ replied s0 t m 4 [] ∧ unmoved s t) ∧
      (s0.registered (pktField d 30 2) = true → s0.fillFails d = false → s.fills.length < 64 →
        ∃ (t : State) (f : Fill), exec .svcOrchardFill s = .next t ∧
        replied s0 t m 0 [] ∧ changed s t (if pktField d 40 8 = 0 then none else some f.barrier.2) (.accept (pktField d 24 4)) ∧
        f.barrier = (pktField d 40 8, (s0.barrierPa (pktField d 30 2) (pktField d 40 8)).getD 0) ∧ t.fills = s.fills ++ [f] ∧ f.key = BitVec.ofNat 64 (pktField d 0 8) ∧
        f.counter = BitVec.ofNat 64 (pktField d 8 8) ∧ f.buffer = pktField d 16 8 ∧ f.length = pktField d 24 4 ∧
        f.format = pktField d 28 1 ∧ f.ctx = pktField d 30 2 ∧ f.threshold = pktField d 32 4 ∧
        f.left = List.range ((pktField d 24 4 + 4095) / 4096)) ∧
      (s0.registered (pktField d 30 2) = true → s0.fillFails d = true → pktField d 40 8 = 0 → ∃ (t : State) (r : ErrRec), exec .svcOrchardFill s = .next t ∧
        replied s0 t m 0 [] ∧ unmoved s t ∧ t.records = s.records ++ [r] ∧ r.kind = 9)) ∧
    (served s m 4 false s0 →
      (s.hub.counter < 2 ^ 25 → ∃ (t : State) (sig : List Byte), exec .svcAttestationReport s = .next t ∧ sig.length = 5236 ∧
        t.hub.counter = s.hub.counter + 1 ∧ t.home = s.home ∧ replied s0 t m 0 (h.payload ++ s.hub.measures.flatMap digestBytes ++
          (bytesOf s.serviceWord 0 8).map (·.2) ++ (bytesOf s.hub.counter 0 8).map (·.2) ++ sig)) ∧
      (2 ^ 25 ≤ s.hub.counter → ∃ t, exec .svcAttestationReport s = .next t ∧ replied s0 t m 4 [] ∧ unmoved s t)) ∧
    (served s m 5 true s0 → ∃ t, exec .svcReadScaleTickets s = .next t ∧ unmoved s t ∧
      (s0.registered (pktField h.payload 0 2) = true →
        replied s0 t m 0 (ticketBytes (s.tickets (pktField h.payload 0 2)).shown s.hub.time)) ∧
      (s0.registered (pktField h.payload 0 2) = false → replied s0 t m 4 [])) ∧
    (let ctx := pktField h.payload 0 2
     (served s m 6 true s0 → s0.registered ctx = true → s.queues = [] → s.fills = [] → ∃ t, exec .svcRetireContext s = .next t ∧
       replied s0 t m 0 (ticketBytes (s.tickets ctx).live s.hub.time) ∧ t.home = s.home ∧ t.registered ctx = false ∧
       (∀ c, c ≠ ctx → t.registered c = s.registered c) ∧ (∀ e ∈ t.hub.jobs, e.2 ≠ ctx) ∧ (∀ e ∈ t.hub.peers, e.1 / 256 ≠ ctx)) ∧
     (∀ l r, served s m 7 true s0 → ctx ≠ 0 → s0.registered ctx = false → pktField h.payload 2 6 = 0 → pktField h.payload 56 40 = 0 →
       pktField h.payload 8 8 % 2 ^ 21 = 0 → populated (pktField h.payload 8 8) = true →
       populated (pktField h.payload 8 8 + 2 ^ 21 - 1) = true → s0.layerOk (pktField h.payload 8 8) = true →
       pktField h.payload 16 8 % 64 = 0 → pktField h.payload 16 8 < 2 ^ 48 → pktField h.payload 48 8 % 65536 = 0 →
       pktField h.payload 48 8 + 6 * 2 ^ 20 ≤ 2 ^ 48 → s0.grantLoft h.payload = some l → s0.freeRing = some r →
       ∃ (t : State) (ci : CtxInfo), exec .svcRegisterContext s = .next t ∧ replied s0 t m 0 [] ∧ t.home = s.home ∧
         t.ctxInfo ctx = some ci ∧ ci.root = pktField h.payload 8 8 ∧ ci.handler = BitVec.ofNat 64 (pktField h.payload 16 8) ∧
         ci.loft = l ∧ ci.rings = some r ∧ ci.errRing = BitVec.ofNat 64 (pktField h.payload 48 8) ∧ ∀ c, c ≠ ctx → t.ctxInfo c = s.ctxInfo c) ∧
     (served s m 7 true s0 → ctx = 0 ∨ s0.registered ctx = true → ∃ t, exec .svcRegisterContext s = .next t ∧
       replied s0 t m 4 [] ∧ unmoved s t) ∧
     (let job := pktField h.payload 0 4
      let dest := pktField h.payload 4 2
      served s m 8 true s0 → s0.registered dest = true → s.hub.jobs.any (fun e => e.1 == job) = false →
      ∃ t, exec .svcBindJob s = .next t ∧ replied s0 t m 0 [] ∧ t.home = s.home ∧ SMap.get t.hub.jobs job (dest + 1) = dest ∧
        ∀ j, j ≠ job → SMap.get t.hub.jobs j 0 = SMap.get s.hub.jobs j 0) ∧
     (given s (.message m) (.svc 9) s0 → s0.bound m h = true → ∃ t, exec .svcReadServiceWord s = .next t ∧ unmoved s t ∧
       replied s0 t m 0 ((bytesOf s.serviceWord 0 8).map (·.2))) ∧
     (served s m 10 true s0 → s0.registered ctx = true → ∃ t, exec .svcSetPeer s = .next t ∧ replied s0 t m 0 [] ∧ t.home = s.home ∧
       ∀ x, SMap.get t.hub.peers (256 * ctx + pktField h.payload 2 1) x =
         { fabric := pktField h.payload 16 16, job := pktField h.payload 4 4, ctx := pktField h.payload 8 2 })) ∧
    (∀ id ok, given s (.connect id ok) .mgmt s0 → exec .mgmtConnection s = .next { s0 with hub := { s0.hub with conns :=
      if ok = true ∧ 0 < s.hub.stage ∧ s.hub.conns.length < 16 ∧ id ∉ s.hub.conns then s.hub.conns ++ [id] else s.hub.conns } }) ∧
    (given s (.message m) .mgmt s0 → exec .mgmtConnection s = .next { s0 with hub := { s0.hub with
      conns := s.hub.conns.filter (· != m.job) } })

/-- Power, bring-up, cooling, reconciliation and errors. POWER_GOOD sets the fused slot-to-engine and lane maps (R261, R347) and extends M0 and M1, and an
image whose signature fails halts the hub (R413, R415); a trained layer opens, layer 0 starting its die's beat count, and the stage follows
the layers (R413, R414); power loss leaves the reset state with the fuses and the attestation counter (R421); a trip fails every
unit and powers down (R420); reconciliation adds each context's energy and makes the counters readable (R418, R419). An
uncorrectable error poisons its words or registers and is recorded (R373); a dirty line lost is poisoned and its page quarantined:
QT is set in every leaf that maps it and no TLB keeps it (R389). That the fuses come with power good is log 5 (presumed), structures 8 to
10 and the number in their record are log 56, and that a throttle drops every idle cluster is log 57. -/
def Obligations.PowerCoolingAndErrorsReachThePackage : Prop :=
  ∀ s s0 : State,
    (∀ p, given s (.powerGood p) .powerGood s0 →
      (s.hub.stage = 0 → (p.fuses.map (·.1)).Nodup →
        let key := if s.hub.fused then s.hub.keyHash else p.keyHash
        let ok := digestOf (sha256 p.key) == key && lmsVerify p.key p.image p.signature
        ∃ t, exec .powerGood s = .next t ∧ t.home = s.home ∧
        t.hub.stage = (if ok then 3 else 2) ∧ t.hub.halted = !ok ∧ t.hub.fused = true ∧ t.hub.keyHash = key ∧
        (s.hub.measures.length = 8 → t.hub.measures[0]? = some (extendWord (s.hub.measures.getD 0 0) p.rom) ∧
          t.hub.measures[1]? = some (extendWord (s.hub.measures.getD 1 0) (digestOf (sha256 p.image))) ∧
          ∀ j, 2 ≤ j → t.hub.measures[j]? = s.hub.measures[j]?) ∧
        (s.hub.fused = false → ∀ e ∈ p.fuses, (t.coreAt e.1).engmap = e.2.1 ∧ (t.coreAt e.1).lanefuse = e.2.2) ∧
        (∀ n, (t.coreAt n).sw.lanemap = (t.coreAt n).lanefuse.setWidth 64 ∨ t.coreAt n = Core.reset n) ∧
        (∀ n, s.hub.fused = true ∨ (∀ e ∈ p.fuses, e.1 ≠ n) → (t.coreAt n).engmap = (s.coreAt n).engmap ∧ (t.coreAt n).lanefuse = (s.coreAt n).lanefuse ∧
          (t.coreAt n).s = (s.coreAt n).s ∧ (t.coreAt n).unit = (s.coreAt n).unit)) ∧
      (s.hub.stage ≠ 0 → exec .powerGood s = .next s0)) ∧
    (∀ d l, given s (.layer d l) .layer s0 → d < 6 → l < 4 → (s.dieAt d).layers.getLsbD l = false →
      (l = 0 → s.hub.stage = 3 ∨ s.hub.stage = 4) → (l ≠ 0 → 5 ≤ s.hub.stage ∧ (s.dieAt d).layers.getLsbD (l - 1) = true) →
      ∃ t, exec .dramLayerReady s = .next t ∧ t.home = s.home ∧ (t.dieAt d).layers = (s.dieAt d).layers ||| BitVec.ofNat 4 (2 ^ l) ∧
        (l = 0 → (t.dieAt d).beat = 0 ∧ (t.dieAt d).opened = true) ∧ (l ≠ 0 → (t.dieAt d).beat = (s.dieAt d).beat) ∧
        (∀ k, k ≠ d → t.dieAt k = s.dieAt k) ∧
        ((∀ k < 6, (t.dieAt k).layers = 0xF#4) → t.hub.stage = 7) ∧
        ((∃ k < 6, (t.dieAt k).layers ≠ 0xF#4) → (∀ k < 6, (t.dieAt k).layers.getLsbD 0 = true) → t.hub.stage = 5) ∧
        ((∃ k < 6, (t.dieAt k).layers.getLsbD 0 = false) → t.hub.stage = 4)) ∧
    (given s .powerLoss .powerLoss s0 → exec .powerLoss s = .next s0.powerDown) ∧
    (∀ d b, given s (.band d b) .band s0 →
      (3 ≤ b → exec .temperatureBandChange s = .next s0.failAll.powerDown) ∧
      (b < 3 → ∃ t, exec .temperatureBandChange s = .next t ∧ t.home = s.home ∧ t.cores = s.cores ∧ (t.dieAt d).band = b ∧
        (∀ k, k ≠ d → t.dieAt k = s.dieAt k) ∧
        (2 ≤ b → ∀ cl < 24, (∀ n ∈ coresOf cl, (s.coreAt n).unit = none) → cl ∉ t.fast))) ∧
    (let t := s.powerDown
     t.home = Mem.empty ∧ t.loft = Mem.empty ∧ t.cmem = Mem.empty ∧ t.hub.stage = 0 ∧ t.hub.counter = s.hub.counter ∧
     t.hub.fused = s.hub.fused ∧ t.hub.keyHash = s.hub.keyHash ∧ t.contexts = [] ∧ t.launches = [] ∧ t.queues = [] ∧ t.packets = [] ∧ t.fills = [] ∧
     ((s.cores.map (·.1)).Nodup → ∀ n, (t.coreAt n).engmap = (s.coreAt n).engmap ∧ (t.coreAt n).lanefuse = (s.coreAt n).lanefuse ∧
       (t.coreAt n).unit = none ∧ (t.coreAt n).s = [])) ∧
    (∀ time rails idle, given s (.reconcile time rails idle) .reconcile s0 →
      let total := (s.hub.tickets.map (fun e => e.2.estimate)).foldl (· + ·) idle
      ∃ t, exec .energyReconcile s = .next t ∧ t.home = s.home ∧ t.hub.time = time ∧
        ∀ c, SMap.get (t.tickets c).live 14 0 = SMap.get (s.tickets c).live 14 0 + rails * (s.tickets c).estimate / total ∧
          (∀ i, i ≠ 14 → SMap.get (t.tickets c).live i 0 = SMap.get (s.tickets c).live i 0) ∧ (t.tickets c).shown = (t.tickets c).live) ∧
    (∀ k w a, given s (.ecc k w a) .ecc s0 →
      (k = 1 → s.dirty.any (fun e => e.1 == a / 64) = false → ∃ t, exec .eccUncorrectable s = .next t ∧ t.home = s.home ∧
        t.records = s.records) ∧
      (k ≤ 3 → (k = 1 → s.dirty.any (fun e => e.1 == a / 64) = true) →
        ∃ (t : State) (r : ErrRec), exec .eccUncorrectable s = .next t ∧ t.records = s.records ++ [r] ∧ r.kind = 1 ∧
        r.addr = a ∧ (0, 1, k) ∈ r.detail ∧ (∀ x, t.home.byte x = s.home.byte x) ∧
        (k ≤ 1 → ∀ x, t.home.pois x = (s.home.pois x || x / 2 == a / 8)) ∧
        (∀ c ci, k = 2 → s.contexts = [(c, ci)] → (ci.loft.getD w (0, 0)).1 ≤ a →
          a < (ci.loft.getD w (0, 0)).1 + (ci.loft.getD w (0, 0)).2 → r.ctx = c) ∧
        (k = 2 → ∀ x, t.loft.pois x = (s.loft.pois x || x / 2 == (2 ^ 26 * w + a) / 8)) ∧
        (k = 3 → ∀ x, t.cmem.pois x = (s.cmem.pois x || x / 2 == (2 ^ 23 * w + a) / 8))) ∧
      (3 < k → ∃ (t : State) (r : ErrRec), exec .eccUncorrectable s = .next t ∧ t.records = s.records ++ [r] ∧ r.kind = 1 ∧
        (k = 4 → ∀ x, (t.coreAt w).scratch.pois x = ((s.coreAt w).scratch.pois x || x / 2 == a / 8)) ∧
        (k = 5 → ∀ x, (t.coreAt w).slices.pois x = ((s.coreAt w).slices.pois x || x / 2 == a / 8)) ∧
        (k = 9 → ∀ (i n : Nat) (r : SReg), (s.coreAt w).seg.journal[i]? = some (.scalar n r) → a / 4096 = i →
          (t.coreAt w).seg.journal[i]? = some (.scalar n { r with poison := true })) ∧
        (∀ n, k = 7 ∨ 10 < k → a = n * 2 ^ 12 → n < 2 ^ 12 → ((t.coreAt w).sreg n).poison = true ∧
          ((t.coreAt w).sreg n).val = ((s.coreAt w).sreg n).val))) ∧
    (∀ a, given s (.dirtyLine a) .dirty s0 →
      (s.dirty.find? (fun e => e.1 == a / 64) = none → exec .dirtyLineEviction s = .next (s0.dropLine (a / 64))) ∧
      (∀ l c, s.dirty.find? (fun e => e.1 == a / 64) = some (l, c, none) → ∃ (t : State) (r : ErrRec),
        exec .dirtyLineEviction s = .next t ∧ (∀ x, t.home.byte x = s.home.byte x) ∧
        (∀ x, t.home.pois x = (s.home.pois x || x / 16 == a / 64)) ∧ t.hub.bad = s.hub.bad ++ [a / 65536] ∧
        t.records = s.records ++ [r] ∧ r.kind = 13 ∧ r.addr = a / 64 * 64)) ∧
    (∀ p rest, s.hub.bad = p :: rest → ∃ t, exec .pageQuarantine s = .next t ∧ t.hub.bad = rest ∧
      (s.contexts = [] → t.home = s.home) ∧
      (∀ n, ∀ e ∈ (t.coreAt n).tlb, 65536 * p < e.base ∨ e.base + 2 ^ e.log2 ≤ 65536 * p) ∧
      (∀ c ci v attr pte, s.contexts = [(c, ci)] → ci.root % 8 = 0 → pteAt s (ci.root + 8 * v) = (pte, attr) → v < 2 ^ 18 →
        pteBit pte 0 = true → pteMalformed pte 0 = false → pteBit pte 1 = true → pteAddr pte ≤ 65536 * p →
        65536 * p < pteAddr pte + 2 ^ 30 → (t.home.byte (ci.root + 8 * v)).getLsbD 7 = true))
end

