-- ==== Sys2Proof/Laws/Elements.lean ====
section
/-! SUPPORT. Elements of registers: a register built from a list of elements gives each of them back. -/

namespace Sys2Proof.Machine

set_option Elab.async false

/-- A number built from elements fits in their joint width. -/
theorem ofElems_lt (w : Nat) (l : List Nat) : ofElems w l < 2 ^ (w * l.length) := by
  induction l with
  | nil => simp [ofElems]
  | cons x r ih =>
    have hx : x % 2 ^ w < 2 ^ w := Nat.mod_lt _ (by positivity)
    show x % 2 ^ w + 2 ^ w * ofElems w r < _
    rw [List.length_cons, Nat.mul_succ, Nat.pow_add]
    calc x % 2 ^ w + 2 ^ w * ofElems w r < 2 ^ w + 2 ^ w * ofElems w r := by omega
      _ = 2 ^ w * (ofElems w r + 1) := by ring
      _ ≤ 2 ^ w * 2 ^ (w * r.length) := Nat.mul_le_mul_left _ ih
      _ = 2 ^ (w * r.length) * 2 ^ w := by ring

/-- Element `j` of a number built from elements. -/
theorem ofElems_elem (w : Nat) (l : List Nat) (j : Nat) :
    ofElems w l / 2 ^ (w * j) % 2 ^ w = l.getD j 0 % 2 ^ w := by
  induction l generalizing j with
  | nil => simp [ofElems]
  | cons x r ih =>
    have hp : 0 < 2 ^ w := by positivity
    show (x % 2 ^ w + 2 ^ w * ofElems w r) / 2 ^ (w * j) % 2 ^ w = _
    cases j with
    | zero => simp [Nat.add_mul_mod_self_left]
    | succ j =>
      have e : (x % 2 ^ w + 2 ^ w * ofElems w r) / 2 ^ (w * (j + 1)) = ofElems w r / 2 ^ (w * j) := by
        rw [Nat.mul_succ, Nat.add_comm (w * j) w, Nat.pow_add, ← Nat.div_div_eq_div_mul, Nat.add_mul_div_left _ _ hp,
          Nat.div_eq_of_lt (Nat.mod_lt _ hp), Nat.zero_add]
      rw [e, ih]
      rfl

/-- Element `j` of a register built from a list of elements that fit in it. -/
theorem elem_vecOf (w : Nat) (l : List Nat) (j : Nat) (h : w * l.length ≤ 1024) :
    elem (vecOf w l) w j = l.getD j 0 % 2 ^ w := by
  have b : ofElems w l < 2 ^ 1024 := lt_of_lt_of_le (ofElems_lt w l) (Nat.pow_le_pow_right (by norm_num) h)
  show (BitVec.ofNat 1024 (ofElems w l)).toNat / _ % _ = _
  rw [BitVec.toNat_ofNat, Nat.mod_eq_of_lt b, ofElems_elem]

/-- A list of the elements of a register, by index. -/
theorem getD_elems (v : Vec) (w j : Nat) (h : j < 1024 / w) : (elems v w).getD j 0 = elem v w j := by
  simp [elems, h]

/-- The elements of an elementwise combination. -/
theorem getD_zipWith (g : Nat → Nat → Nat) (a b : Vec) (w j : Nat) (h : j < 1024 / w) :
    (List.zipWith g (elems a w) (elems b w)).getD j 0 = g (elem a w j) (elem b w j) := by
  simp [elems, h]

/-- Bit `j` of a lane set built from a test. -/
theorem lanesOf_bit (p : Nat → Bool) (j : Nat) (h : j < 32) : (lanesOf p).getLsbD j = p j := by
  have e := ofElems_elem 1 ((List.range 32).map (fun j => if p j then 1 else 0)) j
  have b : ofElems 1 ((List.range 32).map (fun j => if p j then 1 else 0)) < 2 ^ 32 := by
    simpa using ofElems_lt 1 ((List.range 32).map (fun j => if p j then 1 else 0))
  have t : (lanesOf p).getLsbD j =
      (ofElems 1 ((List.range 32).map (fun j => if p j then 1 else 0))).testBit j := by
    simp only [lanesOf, BitVec.getLsbD_ofNat]
    simp [h]
  rw [t, Nat.testBit_eq_decide_div_mod_eq]
  simp only [one_mul, pow_one] at e
  rw [e]
  cases hp : p j <;> simp [h, hp]

end Sys2Proof.Machine
end

