-- ==== Sys2Proof/Laws/Maps.lean ====
section
/-! SUPPORT. Laws of finite maps and byte stores: a read after a write, and the canonical form kept by every operation. -/

namespace Sys2Proof.Machine

set_option Elab.async false

/-! ## Finite maps -/

theorem SMap.get_put_same {α : Type} (m : SMap α) (k : Nat) (v d : α) : SMap.get (SMap.put m k v) k d = v := by
  induction m with
  | nil => simp [SMap.put, SMap.get]
  | cons e r ih =>
    obtain ⟨k', v'⟩ := e
    simp only [SMap.put]
    split
    · simp only [SMap.get]
      split
      · omega
      · exact ih
    · split <;> simp [SMap.get]

theorem SMap.get_put_other {α : Type} (m : SMap α) (k j : Nat) (v d : α) (h : j ≠ k) :
    SMap.get (SMap.put m k v) j d = SMap.get m j d := by
  induction m with
  | nil => simp [SMap.put, SMap.get, Ne.symm h]
  | cons e r ih =>
    obtain ⟨k', v'⟩ := e
    simp only [SMap.put]
    split
    · simp only [SMap.get, ih]
    · split
      · subst_vars; simp [SMap.get, Ne.symm h]
      · simp [SMap.get, Ne.symm h]

theorem SMap.get_put {α : Type} (m : SMap α) (k j : Nat) (v d : α) :
    SMap.get (SMap.put m k v) j d = if j = k then v else SMap.get m j d := by
  split
  · subst_vars; exact SMap.get_put_same ..
  · exact SMap.get_put_other _ _ _ _ _ ‹_›

theorem SMap.get_del {α : Type} (m : SMap α) (k j : Nat) (d : α) :
    SMap.get (SMap.del m k) j d = if j = k then d else SMap.get m j d := by
  induction m with
  | nil => simp [SMap.del, SMap.get]
  | cons e r ih =>
    obtain ⟨k', v'⟩ := e
    unfold SMap.del at *
    by_cases h : k' = k
    · subst h
      simp only [List.filter_cons, bne_self_eq_false, Bool.false_eq_true, if_false, ih, SMap.get]
      split
      · rfl
      · rename_i h1; simp [Ne.symm h1]
    · simp only [List.filter_cons, bne_iff_ne, ne_eq, h, not_false_eq_true, if_true, SMap.get, ih]
      by_cases h1 : k' = j
      · subst h1; simp [h]
      · simp [h1]

theorem SMap.get_set {α : Type} [DecidableEq α] (m : SMap α) (k j : Nat) (v d : α) :
    SMap.get (SMap.set m k v d) j d = if j = k then v else SMap.get m j d := by
  unfold SMap.set
  split
  · subst_vars; exact SMap.get_del ..
  · exact SMap.get_put ..

/-- The keys of `put` are those of the map and the new one. -/
theorem SMap.mem_put {α : Type} {m : SMap α} {k : Nat} {v : α} {e : Nat × α} (h : e ∈ SMap.put m k v) :
    e = (k, v) ∨ e ∈ m := by
  induction m with
  | nil => simp [SMap.put] at h; exact .inl h
  | cons x r ih =>
    obtain ⟨k', v'⟩ := x
    simp only [SMap.put] at h
    split at h
    · rcases List.mem_cons.1 h with h | h
      · exact .inr (h ▸ List.mem_cons_self)
      · rcases ih h with h | h
        · exact .inl h
        · exact .inr (List.mem_cons_of_mem _ h)
    · split at h
      · rcases List.mem_cons.1 h with h | h
        · exact .inl h
        · exact .inr (List.mem_cons_of_mem _ h)
      · rcases List.mem_cons.1 h with h | h
        · exact .inl h
        · exact .inr h

theorem SMap.put_sorted {α : Type} (m : SMap α) (k : Nat) (v : α) (h : m.Pairwise (fun a b => a.1 < b.1)) :
    (SMap.put m k v).Pairwise (fun a b => a.1 < b.1) := by
  induction m with
  | nil => simp [SMap.put]
  | cons x r ih =>
    obtain ⟨k', v'⟩ := x
    obtain ⟨h1, h2⟩ := List.pairwise_cons.1 h
    simp only [SMap.put]
    split
    · refine List.pairwise_cons.2 ⟨fun e he => ?_, ih h2⟩
      rcases SMap.mem_put he with he | he
      · subst he; assumption
      · exact h1 e he
    · split
      · subst_vars; exact List.pairwise_cons.2 ⟨h1, h2⟩
      · refine List.pairwise_cons.2 ⟨fun e he => ?_, h⟩
        rcases List.mem_cons.1 he with he | he
        · subst he; simp only; omega
        · have := h1 e he; simp only at *; omega

theorem SMap.wf_iff {α : Type} [DecidableEq α] (m : SMap α) (d : α) :
    SMap.wf m d = true ↔ m.Pairwise (fun a b => a.1 < b.1) ∧ ∀ e ∈ m, e.2 ≠ d := by
  simp [SMap.wf]

/-- A sublist of a canonical map is canonical. -/
theorem SMap.wf_sublist {α : Type} [DecidableEq α] {m n : SMap α} {d : α} (h : n.Sublist m) (w : SMap.wf m d = true) :
    SMap.wf n d = true := by
  obtain ⟨w1, w2⟩ := (SMap.wf_iff m d).1 w
  exact (SMap.wf_iff n d).2 ⟨w1.sublist h, fun e he => w2 e (h.subset he)⟩

theorem SMap.wf_del {α : Type} [DecidableEq α] (m : SMap α) (k : Nat) (d : α) (w : SMap.wf m d = true) :
    SMap.wf (SMap.del m k) d = true :=
  SMap.wf_sublist List.filter_sublist w

theorem SMap.wf_put {α : Type} [DecidableEq α] (m : SMap α) (k : Nat) (v d : α) (hv : v ≠ d) (w : SMap.wf m d = true) :
    SMap.wf (SMap.put m k v) d = true := by
  obtain ⟨w1, w2⟩ := (SMap.wf_iff m d).1 w
  refine (SMap.wf_iff _ d).2 ⟨SMap.put_sorted m k v w1, fun e he => ?_⟩
  rcases SMap.mem_put he with he | he
  · subst he; exact hv
  · exact w2 e he

theorem SMap.wf_set {α : Type} [DecidableEq α] (m : SMap α) (k : Nat) (v d : α) (w : SMap.wf m d = true) :
    SMap.wf (SMap.set m k v d) d = true := by
  unfold SMap.set
  split
  · exact SMap.wf_del m k d w
  · exact SMap.wf_put m k v d ‹_› w

/-! ## Byte stores -/

theorem Mem.byte_setByte (m : Mem) (a x : Nat) (b : Byte) : (m.setByte a b).byte x = if x = a then b else m.byte x := by
  simp [Mem.byte, Mem.setByte, SMap.get_set]

@[simp] theorem Mem.pois_setByte (m : Mem) (a w : Nat) (b : Byte) : (m.setByte a b).pois w = m.pois w := rfl

@[simp] theorem Mem.byte_setPois (m : Mem) (w x : Nat) (p : Bool) : (m.setPois w p).byte x = m.byte x := rfl

theorem Mem.pois_setPois (m : Mem) (w x : Nat) (p : Bool) : (m.setPois w p).pois x = if x = w then p else m.pois x := by
  simp [Mem.pois, Mem.setPois, SMap.get_set]

theorem Mem.wf_setByte (m : Mem) (a : Nat) (b : Byte) (w : m.wf = true) : (m.setByte a b).wf = true := by
  simp only [Mem.wf, Mem.setByte, Bool.and_eq_true] at *
  exact ⟨SMap.wf_set _ _ _ _ w.1, w.2⟩

theorem Mem.wf_setPois (m : Mem) (k : Nat) (p : Bool) (w : m.wf = true) : (m.setPois k p).wf = true := by
  simp only [Mem.wf, Mem.setPois, Bool.and_eq_true] at *
  exact ⟨w.1, SMap.wf_set _ _ _ _ w.2⟩

theorem Mem.wf_setBytes (m : Mem) (bs : List (Nat × Byte)) (w : m.wf = true) : (m.setBytes bs).wf = true := by
  unfold Mem.setBytes
  induction bs generalizing m with
  | nil => exact w
  | cons e r ih => exact ih _ (Mem.wf_setByte m _ _ w)

theorem Mem.wf_setWords (m : Mem) (ws : List (Nat × Bool × Bool)) (w : m.wf = true) : (m.setWords ws).wf = true := by
  unfold Mem.setWords
  induction ws generalizing m with
  | nil => exact w
  | cons e r ih => exact ih _ (Mem.wf_setPois m _ _ w)

theorem Mem.wf_store (m : Mem) (bs : List (Nat × Byte)) (ws : List (Nat × Bool × Bool)) (w : m.wf = true) :
    (m.store bs ws).wf = true :=
  Mem.wf_setWords _ _ (Mem.wf_setBytes _ _ w)

@[simp] theorem Mem.byte_setWords (m : Mem) (ws : List (Nat × Bool × Bool)) (x : Nat) : (m.setWords ws).byte x = m.byte x := by
  unfold Mem.setWords
  induction ws generalizing m with
  | nil => rfl
  | cons e r ih => rw [List.foldl_cons, ih]; simp

@[simp] theorem Mem.pois_setBytes (m : Mem) (bs : List (Nat × Byte)) (w : Nat) : (m.setBytes bs).pois w = m.pois w := by
  unfold Mem.setBytes
  induction bs generalizing m with
  | nil => rfl
  | cons e r ih => rw [List.foldl_cons, ih]; simp

/-- A write leaves every byte outside it alone. -/
theorem Mem.byte_setBytes_other (m : Mem) (bs : List (Nat × Byte)) (x : Nat) (h : ∀ e ∈ bs, e.1 ≠ x) :
    (m.setBytes bs).byte x = m.byte x := by
  unfold Mem.setBytes
  induction bs generalizing m with
  | nil => rfl
  | cons e r ih =>
    rw [List.foldl_cons, ih _ (fun y hy => h y (List.mem_cons_of_mem _ hy)), Mem.byte_setByte,
      if_neg (Ne.symm (h e List.mem_cons_self))]

/-- A read after a write gives the byte written, where the addresses written are different. -/
theorem Mem.byte_setBytes_same (m : Mem) (bs : List (Nat × Byte)) (x : Nat) (b : Byte) (h : (x, b) ∈ bs)
    (d : (bs.map (·.1)).Nodup) : (m.setBytes bs).byte x = b := by
  unfold Mem.setBytes
  induction bs generalizing m with
  | nil => simp at h
  | cons e r ih =>
    rw [List.map_cons, List.nodup_cons] at d
    rcases List.mem_cons.1 h with h | h
    · subst h
      have := Mem.byte_setBytes_other (m.setByte x b) r x
        (fun y hy c => d.1 (List.mem_map.2 ⟨y, hy, c⟩))
      rw [List.foldl_cons]
      exact this.trans (by simp [Mem.byte_setByte])
    · rw [List.foldl_cons]; exact ih _ h d.2

/-- A store leaves every byte outside it alone, whatever poison it leaves. -/
theorem Mem.byte_store_other (m : Mem) (bs : List (Nat × Byte)) (ws : List (Nat × Bool × Bool)) (x : Nat)
    (h : ∀ e ∈ bs, e.1 ≠ x) : (m.store bs ws).byte x = m.byte x := by
  simp [Mem.store, Mem.byte_setBytes_other m bs x h]

/-- A read after a store gives the byte stored. -/
theorem Mem.byte_store_same (m : Mem) (bs : List (Nat × Byte)) (ws : List (Nat × Bool × Bool)) (x : Nat) (b : Byte)
    (h : (x, b) ∈ bs) (d : (bs.map (·.1)).Nodup) : (m.store bs ws).byte x = b := by
  simp [Mem.store, Mem.byte_setBytes_same m bs x b h d]

/-- A store leaves the poison of every word outside it alone. -/
theorem Mem.pois_setWords_other (m : Mem) (ws : List (Nat × Bool × Bool)) (w : Nat) (h : ∀ e ∈ ws, e.1 ≠ w) :
    (m.setWords ws).pois w = m.pois w := by
  unfold Mem.setWords
  induction ws generalizing m with
  | nil => rfl
  | cons e r ih =>
    rw [List.foldl_cons, ih _ (fun y hy => h y (List.mem_cons_of_mem _ hy)), Mem.pois_setPois,
      if_neg (Ne.symm (h e List.mem_cons_self))]

/-- What `takeFirst` answers: a member that meets its condition, and the other members in their order. -/
theorem takeFirst_mem {α : Type} {p : α → Bool} {l : List α} {y : α × List α} (h : takeFirst p l = some y) :
    y.1 ∈ l ∧ p y.1 = true ∧ y.2.Sublist l := by
  induction l generalizing y with
  | nil => cases h
  | cons x r ih =>
    unfold takeFirst at h
    split at h
    · cases h; exact ⟨List.mem_cons_self, ‹_›, List.sublist_cons_self ..⟩
    · obtain ⟨z, hz, rfl⟩ := Option.map_eq_some_iff.1 h
      exact ⟨List.mem_cons_of_mem _ (ih hz).1, (ih hz).2.1, (ih hz).2.2.cons_cons _⟩

theorem Mem.wf_empty : Mem.empty.wf = true := by decide

end Sys2Proof.Machine
end

