-- ==== Sys2Proof/Laws/Pieces.lean ====
section
/-! SUPPORT. What the parts of a vector access and the addresses of bundles can be: a piece is some of the bytes that are left and never
none of them, an access of one element is whole, and a bundle address is a multiple of 8. -/

namespace Sys2Proof.Machine

/-- A piece names bytes of its access only. -/
theorem State.mem_of_mem_pieceOf {s : State} {unit a : Nat} {as : List Nat} (h : a ∈ s.pieceOf unit as) : a ∈ as := by
  simp only [State.pieceOf] at h
  split at h
  · exact h
  · exact (List.mem_filter.mp h).1

/-- A piece of an access that has bytes left has some. -/
theorem State.pieceOf_ne_nil {s : State} {unit : Nat} {as : List Nat} (h : as ≠ []) : s.pieceOf unit as ≠ [] := by
  simp only [State.pieceOf]
  split
  · exact h
  · rename_i g
    intro e
    simp_all

/-- An access of one element is performed whole. -/
@[simp] theorem State.pieceOf_zero (s : State) (as : List Nat) : s.pieceOf 0 as = as := by simp [State.pieceOf]

/-- A part of a store keeps what is said of its bytes and words. -/
@[simp] theorem SbEntry.mem_part_bytes {e : SbEntry} {as : List Nat} {b : Nat × Byte} :
    b ∈ (e.part as).bytes ↔ b ∈ e.bytes ∧ b.1 ∈ as := by simp [SbEntry.part]

/-- A part of a store is in the place of the store, at its scope. -/
@[simp] theorem SbEntry.part_seq (e : SbEntry) (as : List Nat) : (e.part as).seq = e.seq := rfl

/-- The same of its scope. -/
@[simp] theorem SbEntry.part_rel (e : SbEntry) (as : List Nat) : (e.part as).rel = e.rel := rfl

/-- The same of its kind. -/
@[simp] theorem SbEntry.part_kind (e : SbEntry) (as : List Nat) : (e.part as).kind = e.kind := rfl

/-- A bundle address is a multiple of 8 (R21). -/
theorem codeAddr_aligned (w : Word) : (codeAddr w).toNat % 8 = 0 := by
  have h : (codeAddr w) &&& 7#64 = 0#64 := by
    unfold codeAddr
    rw [BitVec.and_assoc]
    simp
  have g := congrArg BitVec.toNat h
  simp only [BitVec.toNat_and, BitVec.toNat_ofNat] at g
  have := Nat.and_two_pow_sub_one_eq_mod (codeAddr w).toNat 3
  simp_all

/-- A bundle address that is a multiple of 8 is what the program counter holds. -/
theorem codeAddr_of_aligned {w : Word} (h : w.toNat % 8 = 0) : codeAddr w = w := by
  apply BitVec.eq_of_toNat_eq
  unfold codeAddr
  apply Nat.eq_of_testBit_eq
  intro i
  simp only [BitVec.toNat_and, Nat.testBit_and, BitVec.toNat_ofNat]
  by_cases hi : i < 3
  · have g : w.toNat.testBit i = false := by
      have e := Nat.testBit_mod_two_pow w.toNat 3 i
      simp_all
    simp [g]
  · by_cases hj : i < 64
    · have g : (0xFFFFFFFFFFFFFFF8 % 2 ^ 64).testBit i = true := by
        have : ∀ k : Fin 64, 3 ≤ k.val → (0xFFFFFFFFFFFFFFF8 % 2 ^ 64 : Nat).testBit k.val = true := by decide
        exact this ⟨i, hj⟩ (by simp; omega)
      rw [g, Bool.and_true]
    · have g : w.toNat.testBit i = false := Nat.testBit_lt_two_pow (Nat.lt_of_lt_of_le w.isLt (Nat.pow_le_pow_right (by decide) (by omega)))
      simp [g]

end Sys2Proof.Machine
end

