-- ==== Sys2Proof/Laws/Reading.lean ====
section
/-! SUPPORT. Issue and execution read one syllable alike: the operation that `semOfWord` finds in it is that of the instruction
that `decodeSyl` reads from it, and running the one is running the other. -/

namespace Sys2Proof.Machine

set_option Elab.async false

/-- The operation of an instruction as issue sees it, with its common fields; none for an instruction of no slot. -/
def semOf (i : Instr) : Option (Hdr × Sem) :=
  match i with
  | .tChain _ => none
  | .tBal _ => none
  | .bkAdd _ => none
  | .bkSub _ => none
  | .bkMul _ => none
  | .bkMac _ => none
  | .bkCmp _ => none
  | .bkMin _ => none
  | .bkMax _ => none
  | .bkNeg _ => none
  | .bkPand _ => none
  | .bkPor _ => none
  | .bkPxor _ => none
  | .bkPnot _ => none
  | .bkPmov _ => none
  | .bkPfill _ => none
  | .bkRrd _ => none
  | .bkRwr _ => none
  | .bkRwrm _ => none
  | .bkRrds _ => none
  | .bkLoop _ => none
  | .bkEndl _ => none
  | .bkWait _ => none
  | .bkHalt _ => none
  | .bkArd _ => none
  | .bkAclr _ => none
  | .headerIssue => none
  | .rendezvousPass => none
  | .branchTransfer => none
  | .resultLand => none
  | .registerResultLand => none
  | .tileTransferLand => none
  | .slipIssue => none
  | .fetchLine => none
  | .storePerform => none
  | .outboundPerform => none
  | .l2LineLeave => none
  | .flumeElementRead => none
  | .flumeElementWrite => none
  | .ringFillAppend => none
  | .ringSpillWrite => none
  | .dpairCompare => none
  | .handlerEntry => none
  | .preemptionRequest => none
  | .preemptionEntry => none
  | .resumeEntry => none
  | .phaseOverrun => none
  | .debugStep => none
  | .unitStart => none
  | .graphNodeStart => none
  | .graphNodeComplete => none
  | .landingSlotValid => none
  | .pktNop => none
  | .pktCopy => none
  | .pktCopyReduce => none
  | .pktLaunch => none
  | .pktSignal => none
  | .pktGraph => none
  | .copyChunk => none
  | .reduceChunk => none
  | .slotStallTimeout => none
  | .orchardChunk => none
  | .accessBeatOpen => none
  | .computeBeatOpen => none
  | .computeBeatEnd => none
  | .refreshGap => none
  | .stretchLimit => none
  | .workedAccessArrival => none
  | .bankCommandArrival => none
  | .eccUncorrectable => none
  | .dirtyLineEviction => none
  | .pageQuarantine => none
  | .powerGood => none
  | .dramLayerReady => none
  | .temperatureBandChange => none
  | .powerLoss => none
  | .energyReconcile => none
  | .mgmtConnection => none
  | .msgWrite => none
  | .msgRead => none
  | .msgAtomicAdd => none
  | .msgReduce => none
  | .peerChunkReply => none
  | .svcEnableQueue => none
  | .svcDisableQueue => none
  | .svcOrchardFill => none
  | .svcAttestationReport => none
  | .svcReadScaleTickets => none
  | .svcRetireContext => none
  | .svcRegisterContext => none
  | .svcBindJob => none
  | .svcReadServiceWord => none
  | .svcSetPeer => none
  | .lanemapWrite => none
  | .baseRegisterWrite => none
  | .statusWordWrite => none
  | .sAdd h f => some (h, semSAdd h f)
  | .sSub h f => some (h, semSSub h f)
  | .sMul h f => some (h, semSMul h f)
  | .sMulh h f => some (h, semSMulh h f)
  | .sMulhu h f => some (h, semSMulhu h f)
  | .sAnd h f => some (h, semSAnd h f)
  | .sOr h f => some (h, semSOr h f)
  | .sXor h f => some (h, semSXor h f)
  | .sShl h f => some (h, semSShl h f)
  | .sShr h f => some (h, semSShr h f)
  | .sSra h f => some (h, semSSra h f)
  | .sMin h f => some (h, semSMin h f)
  | .sMax h f => some (h, semSMax h f)
  | .sMinu h f => some (h, semSMinu h f)
  | .sMaxu h f => some (h, semSMaxu h f)
  | .sAdds h f => some (h, semSAdds h f)
  | .sAddi h f => some (h, semSAddi h f)
  | .sAndi h f => some (h, semSAndi h f)
  | .sOri h f => some (h, semSOri h f)
  | .sXori h f => some (h, semSXori h f)
  | .sShli h f => some (h, semSShli h f)
  | .sShri h f => some (h, semSShri h f)
  | .sSrai h f => some (h, semSSrai h f)
  | .sLea h f => some (h, semSLea h f)
  | .sCeq h f => some (h, semSCeq h f)
  | .sCne h f => some (h, semSCne h f)
  | .sClt h f => some (h, semSClt h f)
  | .sCle h f => some (h, semSCle h f)
  | .sCltu h f => some (h, semSCltu h f)
  | .sCleu h f => some (h, semSCleu h f)
  | .sCeqi h f => some (h, semSCeqi h f)
  | .sClti h f => some (h, semSClti h f)
  | .sPand h f => some (h, semSPand h f)
  | .sPor h f => some (h, semSPor h f)
  | .sPxor h f => some (h, semSPxor h f)
  | .sPbit h f => some (h, semSPbit h f)
  | .sMov h f => some (h, semSMov h f)
  | .sRsw h f => some (h, semSRsw h f)
  | .sWsw h f => some (h, semSWsw h f)
  | .sRtag h f => some (h, semSRtag h f)
  | .sWtag h f => some (h, semSWtag h f)
  | .sMfrom h f => some (h, semSMfrom h f)
  | .sMto h f => some (h, semSMto h f)
  | .sPget h f => some (h, semSPget h f)
  | .sLld h f => some (h, semSLld h f)
  | .sLlw h f => some (h, semSLlw h f)
  | .sLst h f => some (h, semSLst h f)
  | .sLstw h f => some (h, semSLstw h f)
  | .sLldAcq h f => some (h, semSLldAcq h f)
  | .sLlwAcq h f => some (h, semSLlwAcq h f)
  | .sLstRel h f => some (h, semSLstRel h f)
  | .sLstwRel h f => some (h, semSLstwRel h f)
  | .sCkt h f => some (h, semSCkt h f)
  | .sNxt h f => some (h, semSNxt h f)
  | .sCtxout h f => some (h, semSCtxout h f)
  | .sCtxin h f => some (h, semSCtxin h f)
  | .sCtxskip h f => some (h, semSCtxskip h f)
  | .sTlbinvAll h f => some (h, semSTlbinvAll h f)
  | .sTlbinvContext h f => some (h, semSTlbinvContext h f)
  | .sTlbinvPage h f => some (h, semSTlbinvPage h f)
  | .sTlbsync h f => some (h, semSTlbsync h f)
  | .sCtxdonePreempted h f => some (h, semSCtxdonePreempted h f)
  | .sCtxdoneFailed h f => some (h, semSCtxdoneFailed h f)
  | .sLil h f => some (h, semSLil h f)
  | .sLih h f => some (h, semSLih h f)
  | .sLis h f => some (h, semSLis h f)
  | .sLpc h f => some (h, semSLpc h f)
  | .vAddI32 h f => some (h, semVAddI32 h f)
  | .vSubI32 h f => some (h, semVSubI32 h f)
  | .vMulI32 h f => some (h, semVMulI32 h f)
  | .vMulhI32 h f => some (h, semVMulhI32 h f)
  | .vAddsI32 h f => some (h, semVAddsI32 h f)
  | .vSubsI32 h f => some (h, semVSubsI32 h f)
  | .vAddI16 h f => some (h, semVAddI16 h f)
  | .vAddsI16 h f => some (h, semVAddsI16 h f)
  | .vAddI8 h f => some (h, semVAddI8 h f)
  | .vAddsI8 h f => some (h, semVAddsI8 h f)
  | .vAddsZ8 h f => some (h, semVAddsZ8 h f)
  | .vMinI32 h f => some (h, semVMinI32 h f)
  | .vMaxI32 h f => some (h, semVMaxI32 h f)
  | .vMinZ32 h f => some (h, semVMinZ32 h f)
  | .vMaxZ32 h f => some (h, semVMaxZ32 h f)
  | .vAbsI32 h f => some (h, semVAbsI32 h f)
  | .vAnd h f => some (h, semVAnd h f)
  | .vOr h f => some (h, semVOr h f)
  | .vXor h f => some (h, semVXor h f)
  | .vAndn h f => some (h, semVAndn h f)
  | .vShlI32 h f => some (h, semVShlI32 h f)
  | .vShrZ32 h f => some (h, semVShrZ32 h f)
  | .vSraI32 h f => some (h, semVSraI32 h f)
  | .vDot4I8 h f => some (h, semVDot4I8 h f)
  | .vAddF32 h f => some (h, semVAddF32 h f)
  | .vSubF32 h f => some (h, semVSubF32 h f)
  | .vMulF32 h f => some (h, semVMulF32 h f)
  | .vFmaF32 h f => some (h, semVFmaF32 h f)
  | .vFmsF32 h f => some (h, semVFmsF32 h f)
  | .vFnmaF32 h f => some (h, semVFnmaF32 h f)
  | .vMinF32 h f => some (h, semVMinF32 h f)
  | .vMaxF32 h f => some (h, semVMaxF32 h f)
  | .vAddF16 h f => some (h, semVAddF16 h f)
  | .vSubF16 h f => some (h, semVSubF16 h f)
  | .vMulF16 h f => some (h, semVMulF16 h f)
  | .vFmaF16 h f => some (h, semVFmaF16 h f)
  | .vMinF16 h f => some (h, semVMinF16 h f)
  | .vMaxF16 h f => some (h, semVMaxF16 h f)
  | .vAddB16 h f => some (h, semVAddB16 h f)
  | .vSubB16 h f => some (h, semVSubB16 h f)
  | .vMulB16 h f => some (h, semVMulB16 h f)
  | .vFmaB16 h f => some (h, semVFmaB16 h f)
  | .vMinB16 h f => some (h, semVMinB16 h f)
  | .vMaxB16 h f => some (h, semVMaxB16 h f)
  | .vRcpF32 h f => some (h, semVRcpF32 h f)
  | .vRsqF32 h f => some (h, semVRsqF32 h f)
  | .vExp2F32 h f => some (h, semVExp2F32 h f)
  | .vLog2F32 h f => some (h, semVLog2F32 h f)
  | .vRcpF16 h f => some (h, semVRcpF16 h f)
  | .vRsqF16 h f => some (h, semVRsqF16 h f)
  | .vExp2F16 h f => some (h, semVExp2F16 h f)
  | .vLog2F16 h f => some (h, semVLog2F16 h f)
  | .vCeqI32 h f => some (h, semVCeqI32 h f)
  | .vCltI32 h f => some (h, semVCltI32 h f)
  | .vCleI32 h f => some (h, semVCleI32 h f)
  | .vCltZ32 h f => some (h, semVCltZ32 h f)
  | .vCeqF32 h f => some (h, semVCeqF32 h f)
  | .vCltF32 h f => some (h, semVCltF32 h f)
  | .vCleF32 h f => some (h, semVCleF32 h f)
  | .vCunF32 h f => some (h, semVCunF32 h f)
  | .vCvtF32 h f => some (h, semVCvtF32 h f)
  | .vCvtF16 h f => some (h, semVCvtF16 h f)
  | .vCvtB16 h f => some (h, semVCvtB16 h f)
  | .vCvtE4 h f => some (h, semVCvtE4 h f)
  | .vCvtE5 h f => some (h, semVCvtE5 h f)
  | .vCvtI32 h f => some (h, semVCvtI32 h f)
  | .vCvtI16 h f => some (h, semVCvtI16 h f)
  | .vCvtI8 h f => some (h, semVCvtI8 h f)
  | .vCvtZ32 h f => some (h, semVCvtZ32 h f)
  | .vCvtZ16 h f => some (h, semVCvtZ16 h f)
  | .vCvtZ8 h f => some (h, semVCvtZ8 h f)
  | .vCvtc h f => some (h, semVCvtc h f)
  | .vRintF32 h f => some (h, semVRintF32 h f)
  | .vScaleF32 h f => some (h, semVScaleF32 h f)
  | .vExpoF32 h f => some (h, semVExpoF32 h f)
  | .vPackI4 h f => some (h, semVPackI4 h f)
  | .vUnpkI4 h f => some (h, semVUnpkI4 h f)
  | .vPackX4 h f => some (h, semVPackX4 h f)
  | .vUnpkX4 h f => some (h, semVUnpkX4 h f)
  | .vRaddF32 h f => some (h, semVRaddF32 h f)
  | .vRaddF16 h f => some (h, semVRaddF16 h f)
  | .vRaddI32 h f => some (h, semVRaddI32 h f)
  | .vRmaxF32 h f => some (h, semVRmaxF32 h f)
  | .vRminF32 h f => some (h, semVRminF32 h f)
  | .vRmaxI32 h f => some (h, semVRmaxI32 h f)
  | .vPerm h f => some (h, semVPerm h f)
  | .vPerm8 h f => some (h, semVPerm8 h f)
  | .vRot h f => some (h, semVRot h f)
  | .vSlide h f => some (h, semVSlide h f)
  | .vBcast h f => some (h, semVBcast h f)
  | .vBcs h f => some (h, semVBcs h f)
  | .vSel h f => some (h, semVSel h f)
  | .vIota h f => some (h, semVIota h f)
  | .v0Sld h f => some (h, semV0Sld h f)
  | .v0Sldx h f => some (h, semV0Sldx h f)
  | .v0Sst h f => some (h, semV0Sst h f)
  | .v0Sstx h f => some (h, semV0Sstx h f)
  | .v0Sstm h f => some (h, semV0Sstm h f)
  | .v0Sstxm h f => some (h, semV0Sstxm h f)
  | .v1Ld h f => some (h, semV1Ld h f)
  | .v1St h f => some (h, semV1St h f)
  | .v1Ldb h f => some (h, semV1Ldb h f)
  | .v1Stm h f => some (h, semV1Stm h f)
  | .v1Gath h f => some (h, semV1Gath h f)
  | .v1Gathm h f => some (h, semV1Gathm h f)
  | .v1Scat h f => some (h, semV1Scat h f)
  | .v1Scatm h f => some (h, semV1Scatm h f)
  | .vRfwd h f => some (h, semVRfwd h f)
  | .vRrev h f => some (h, semVRrev h f)
  | .vRchk h f => some (h, semVRchk h f)
  | .mPush h f => some (h, semMPush h f)
  | .mAcc h f => some (h, semMAcc h f)
  | .mPa h f => some (h, semMPa h f)
  | .mShift h f => some (h, semMShift h f)
  | .mDrainTile h f => some (h, semMDrainTile h f)
  | .mDrainRing h f => some (h, semMDrainRing h f)
  | .mZero h f => some (h, semMZero h f)
  | .mCfgImm h f => some (h, semMCfgImm h f)
  | .mCfgReg h f => some (h, semMCfgReg h f)
  | .mFence h f => some (h, semMFence h f)
  | .cLdd h f => some (h, semCLdd h f)
  | .cLdw h f => some (h, semCLdw h f)
  | .cLdh h f => some (h, semCLdh h f)
  | .cLdb h f => some (h, semCLdb h f)
  | .cStd h f => some (h, semCStd h f)
  | .cStw h f => some (h, semCStw h f)
  | .cSth h f => some (h, semCSth h f)
  | .cStb h f => some (h, semCStb h f)
  | .cVld h f => some (h, semCVld h f)
  | .cVst h f => some (h, semCVst h f)
  | .cVstm h f => some (h, semCVstm h f)
  | .cVldb h f => some (h, semCVldb h f)
  | .cLddAcq h f => some (h, semCLddAcq h f)
  | .cLdwAcq h f => some (h, semCLdwAcq h f)
  | .cStdRel h f => some (h, semCStdRel h f)
  | .cStwRel h f => some (h, semCStwRel h f)
  | .cTld h f => some (h, semCTld h f)
  | .cTst h f => some (h, semCTst h f)
  | .cTldp h f => some (h, semCTldp h f)
  | .cTstp h f => some (h, semCTstp h f)
  | .c1TldAcq h f => some (h, semC1TldAcq h f)
  | .c1TstRel h f => some (h, semC1TstRel h f)
  | .cShld h f => some (h, semCShld h f)
  | .cShev h f => some (h, semCShev h f)
  | .cFarm h f => some (h, semCFarm h f)
  | .cFstop h f => some (h, semCFstop h f)
  | .cFwait h f => some (h, semCFwait h f)
  | .cFstat h f => some (h, semCFstat h f)
  | .c1Rfill h f => some (h, semC1Rfill h f)
  | .c1Rspill h f => some (h, semC1Rspill h f)
  | .c1Gath h f => some (h, semC1Gath h f)
  | .c1Scat h f => some (h, semC1Scat h f)
  | .c1AaddI32 h f => some (h, semC1AaddI32 h f)
  | .c1AaddI64 h f => some (h, semC1AaddI64 h f)
  | .c1AaddI32Nr h f => some (h, semC1AaddI32Nr h f)
  | .c1AaddI64Nr h f => some (h, semC1AaddI64Nr h f)
  | .c1AminI32 h f => some (h, semC1AminI32 h f)
  | .c1AminI64 h f => some (h, semC1AminI64 h f)
  | .c1AminI32Nr h f => some (h, semC1AminI32Nr h f)
  | .c1AminI64Nr h f => some (h, semC1AminI64Nr h f)
  | .c1AmaxI32 h f => some (h, semC1AmaxI32 h f)
  | .c1AmaxI64 h f => some (h, semC1AmaxI64 h f)
  | .c1AmaxI32Nr h f => some (h, semC1AmaxI32Nr h f)
  | .c1AmaxI64Nr h f => some (h, semC1AmaxI64Nr h f)
  | .c1AandI32 h f => some (h, semC1AandI32 h f)
  | .c1AandI64 h f => some (h, semC1AandI64 h f)
  | .c1AandI32Nr h f => some (h, semC1AandI32Nr h f)
  | .c1AandI64Nr h f => some (h, semC1AandI64Nr h f)
  | .c1AorI32 h f => some (h, semC1AorI32 h f)
  | .c1AorI64 h f => some (h, semC1AorI64 h f)
  | .c1AorI32Nr h f => some (h, semC1AorI32Nr h f)
  | .c1AorI64Nr h f => some (h, semC1AorI64Nr h f)
  | .c1AxorI32 h f => some (h, semC1AxorI32 h f)
  | .c1AxorI64 h f => some (h, semC1AxorI64 h f)
  | .c1AxorI32Nr h f => some (h, semC1AxorI32Nr h f)
  | .c1AxorI64Nr h f => some (h, semC1AxorI64Nr h f)
  | .c1AswpI32 h f => some (h, semC1AswpI32 h f)
  | .c1AswpI64 h f => some (h, semC1AswpI64 h f)
  | .c1AswpI32Nr h f => some (h, semC1AswpI32Nr h f)
  | .c1AswpI64Nr h f => some (h, semC1AswpI64Nr h f)
  | .c1AcasI32 h f => some (h, semC1AcasI32 h f)
  | .c1AcasI64 h f => some (h, semC1AcasI64 h f)
  | .c1AcasI32Nr h f => some (h, semC1AcasI32Nr h f)
  | .c1AcasI64Nr h f => some (h, semC1AcasI64Nr h f)
  | .cFenceRel h f => some (h, semCFenceRel h f)
  | .cFenceAcq h f => some (h, semCFenceAcq h f)
  | .cFenceFull h f => some (h, semCFenceFull h f)
  | .cFenceWRel h f => some (h, semCFenceWRel h f)
  | .cFenceWAcq h f => some (h, semCFenceWAcq h f)
  | .cFenceWFull h f => some (h, semCFenceWFull h f)
  | .c1Qapp h f => some (h, semC1Qapp h f)
  | .cBarm h f => some (h, semCBarm h f)
  | .cBarmr h f => some (h, semCBarmr h f)
  | .cBsig h f => some (h, semCBsig h f)
  | .cBsigr h f => some (h, semCBsigr h f)
  | .cBwait h f => some (h, semCBwait h f)
  | .c1Beat h f => some (h, semC1Beat h f)
  | .c1BeatOff h f => some (h, semC1BeatOff h f)
  | .c1Beatr h f => some (h, semC1Beatr h f)
  | .c1Beatrd h f => some (h, semC1Beatrd h f)
  | .c1Beatw h f => some (h, semC1Beatw h f)
  | .c1Pst h f => some (h, semC1Pst h f)
  | .c1Pstm h f => some (h, semC1Pstm h f)
  | .c1Pld h f => some (h, semC1Pld h f)
  | .c1Bkrun h f => some (h, semC1Bkrun h f)
  | .c1KvldF16 h f => some (h, semC1KvldF16 h f)
  | .c1KvldI8 h f => some (h, semC1KvldI8 h f)
  | .c1Kvst h f => some (h, semC1Kvst h f)
  | .c1Kvx h f => some (h, semC1Kvx h f)
  | .c1Kvho h f => some (h, semC1Kvho h f)
  | .c1Kvfree h f => some (h, semC1Kvfree h f)
  | .c1Cancel h f => some (h, semC1Cancel h f)
  | .cLnch h f => some (h, semCLnch h f)
  | .bBr h f => some (h, semBBr h f)
  | .bBri h f => some (h, semBBri h f)
  | .bCall h f => some (h, semBCall h f)
  | .bCalli h f => some (h, semBCalli h f)
  | .bRet h f => some (h, semBRet h f)
  | .bBrx h f => some (h, semBBrx h f)
  | .bDbnz h f => some (h, semBDbnz h f)
  | .bLoop h f => some (h, semBLoop h f)
  | .bPcnt h f => some (h, semBPcnt h f)
  | .bPcntx h f => some (h, semBPcntx h f)
  | .bPwhl h f => some (h, semBPwhl h f)
  | .bPwhlx h f => some (h, semBPwhlx h f)
  | .bEnd h f => some (h, semBEnd h f)
  | .bTrap h f => some (h, semBTrap h f)
  | .bTrapr h f => some (h, semBTrapr h f)
  | .bRft h f => some (h, semBRft h f)
  | .bSetlc h f => some (h, semBSetlc h f)
  | .bSetlci h f => some (h, semBSetlci h f)
  | .bSetdp h f => some (h, semBSetdp h f)
  | .bSetdpi h f => some (h, semBSetdpi h f)
  | .bRot h f => some (h, semBRot h f)
  | .bRotclr h f => some (h, semBRotclr h f)
  | .bStage h f => some (h, semBStage h f)
  | .bLoopset h f => some (h, semBLoopset h f)
  | .noLoopBoundaryReached => none
  | .holdEnd => none
  | .malformedMessage => none

/-- Running the operation of an instruction is the instruction's meaning. -/
theorem exec_semOf {i : Instr} {h : Hdr} {m : Sem} (e : semOf i = some (h, m)) (s : State) : exec i s = m.run h s := by
  cases i <;> cases e <;> rfl

theorem bind_map {α : Type} (x : Option α) (c : α → Instr) (p : α → Bool) (m : α → Sem) (h1 : ∀ f, (c f).wf = p f)
    (h2 : ∀ f, (semOf (c f)).map (·.2) = some (m f)) :
    (x.bind fun f => if p f then some (m f) else none) =
      (x.map c).bind (fun i => if i.wf then (semOf i).map (·.2) else none) := by
  cases x with
  | none => rfl
  | some f => simp [h1, h2]

/-- Class S: both maps have the same operations. -/
theorem semS_eq (op : Nat) (h : Hdr) (w : BitVec 43) :
    semS op h w = (decodeS op h w).bind (fun i => if i.wf then (semOf i).map (·.2) else none) := by
  match op with
  | 0 => exact bind_map (OpRR.dec w) (Instr.sAdd h) _ (semSAdd h) (fun _ => rfl) (fun _ => rfl)
  | 1 => exact bind_map (OpRR.dec w) (Instr.sSub h) _ (semSSub h) (fun _ => rfl) (fun _ => rfl)
  | 2 => exact bind_map (OpRR.dec w) (Instr.sMul h) _ (semSMul h) (fun _ => rfl) (fun _ => rfl)
  | 3 => exact bind_map (OpRR.dec w) (Instr.sMulh h) _ (semSMulh h) (fun _ => rfl) (fun _ => rfl)
  | 4 => exact bind_map (OpRR.dec w) (Instr.sMulhu h) _ (semSMulhu h) (fun _ => rfl) (fun _ => rfl)
  | 5 => exact bind_map (OpRR.dec w) (Instr.sAnd h) _ (semSAnd h) (fun _ => rfl) (fun _ => rfl)
  | 6 => exact bind_map (OpRR.dec w) (Instr.sOr h) _ (semSOr h) (fun _ => rfl) (fun _ => rfl)
  | 7 => exact bind_map (OpRR.dec w) (Instr.sXor h) _ (semSXor h) (fun _ => rfl) (fun _ => rfl)
  | 8 => exact bind_map (OpRR.dec w) (Instr.sShl h) _ (semSShl h) (fun _ => rfl) (fun _ => rfl)
  | 9 => exact bind_map (OpRR.dec w) (Instr.sShr h) _ (semSShr h) (fun _ => rfl) (fun _ => rfl)
  | 10 => exact bind_map (OpRR.dec w) (Instr.sSra h) _ (semSSra h) (fun _ => rfl) (fun _ => rfl)
  | 11 => exact bind_map (OpRR.dec w) (Instr.sMin h) _ (semSMin h) (fun _ => rfl) (fun _ => rfl)
  | 12 => exact bind_map (OpRR.dec w) (Instr.sMax h) _ (semSMax h) (fun _ => rfl) (fun _ => rfl)
  | 13 => exact bind_map (OpRR.dec w) (Instr.sMinu h) _ (semSMinu h) (fun _ => rfl) (fun _ => rfl)
  | 14 => exact bind_map (OpRR.dec w) (Instr.sMaxu h) _ (semSMaxu h) (fun _ => rfl) (fun _ => rfl)
  | 15 => exact bind_map (OpRR.dec w) (Instr.sAdds h) _ (semSAdds h) (fun _ => rfl) (fun _ => rfl)
  | 16 => exact bind_map (OpRI.dec w) (Instr.sAddi h) _ (semSAddi h) (fun _ => rfl) (fun _ => rfl)
  | 17 => exact bind_map (OpRI.dec w) (Instr.sAndi h) _ (semSAndi h) (fun _ => rfl) (fun _ => rfl)
  | 18 => exact bind_map (OpRI.dec w) (Instr.sOri h) _ (semSOri h) (fun _ => rfl) (fun _ => rfl)
  | 19 => exact bind_map (OpRI.dec w) (Instr.sXori h) _ (semSXori h) (fun _ => rfl) (fun _ => rfl)
  | 20 => exact bind_map (OpSH.dec w) (Instr.sShli h) _ (semSShli h) (fun _ => rfl) (fun _ => rfl)
  | 21 => exact bind_map (OpSH.dec w) (Instr.sShri h) _ (semSShri h) (fun _ => rfl) (fun _ => rfl)
  | 22 => exact bind_map (OpSH.dec w) (Instr.sSrai h) _ (semSSrai h) (fun _ => rfl) (fun _ => rfl)
  | 23 => exact bind_map (OpLEA.dec w) (Instr.sLea h) _ (semSLea h) (fun _ => rfl) (fun _ => rfl)
  | 24 => exact bind_map (OpPR.dec w) (Instr.sCeq h) _ (semSCeq h) (fun _ => rfl) (fun _ => rfl)
  | 25 => exact bind_map (OpPR.dec w) (Instr.sCne h) _ (semSCne h) (fun _ => rfl) (fun _ => rfl)
  | 26 => exact bind_map (OpPR.dec w) (Instr.sClt h) _ (semSClt h) (fun _ => rfl) (fun _ => rfl)
  | 27 => exact bind_map (OpPR.dec w) (Instr.sCle h) _ (semSCle h) (fun _ => rfl) (fun _ => rfl)
  | 28 => exact bind_map (OpPR.dec w) (Instr.sCltu h) _ (semSCltu h) (fun _ => rfl) (fun _ => rfl)
  | 29 => exact bind_map (OpPR.dec w) (Instr.sCleu h) _ (semSCleu h) (fun _ => rfl) (fun _ => rfl)
  | 30 => exact bind_map (OpPI.dec w) (Instr.sCeqi h) _ (semSCeqi h) (fun _ => rfl) (fun _ => rfl)
  | 31 => exact bind_map (OpPI.dec w) (Instr.sClti h) _ (semSClti h) (fun _ => rfl) (fun _ => rfl)
  | 32 => exact bind_map (OpPL.dec w) (Instr.sPand h) _ (semSPand h) (fun _ => rfl) (fun _ => rfl)
  | 33 => exact bind_map (OpPL.dec w) (Instr.sPor h) _ (semSPor h) (fun _ => rfl) (fun _ => rfl)
  | 34 => exact bind_map (OpPL.dec w) (Instr.sPxor h) _ (semSPxor h) (fun _ => rfl) (fun _ => rfl)
  | 35 => exact bind_map (OpPB.dec w) (Instr.sPbit h) _ (semSPbit h) (fun _ => rfl) (fun _ => rfl)
  | 36 => exact bind_map (OpMOV.dec w) (Instr.sMov h) _ (semSMov h) (fun _ => rfl) (fun _ => rfl)
  | 37 => exact bind_map (OpRSW.dec w) (Instr.sRsw h) _ (semSRsw h) (fun _ => rfl) (fun _ => rfl)
  | 38 => exact bind_map (OpWSW.dec w) (Instr.sWsw h) _ (semSWsw h) (fun _ => rfl) (fun _ => rfl)
  | 39 => exact bind_map (OpRTAG.dec w) (Instr.sRtag h) _ (semSRtag h) (fun _ => rfl) (fun _ => rfl)
  | 40 => exact bind_map (OpWTAG.dec w) (Instr.sWtag h) _ (semSWtag h) (fun _ => rfl) (fun _ => rfl)
  | 41 => exact bind_map (OpMFROM.dec w) (Instr.sMfrom h) _ (semSMfrom h) (fun _ => rfl) (fun _ => rfl)
  | 42 => exact bind_map (OpMTO.dec w) (Instr.sMto h) _ (semSMto h) (fun _ => rfl) (fun _ => rfl)
  | 43 => exact bind_map (OpPGET.dec w) (Instr.sPget h) _ (semSPget h) (fun _ => rfl) (fun _ => rfl)
  | 44 => exact bind_map (OpLFL.dec w) (Instr.sLld h) _ (semSLld h) (fun _ => rfl) (fun _ => rfl)
  | 45 => exact bind_map (OpLFL.dec w) (Instr.sLlw h) _ (semSLlw h) (fun _ => rfl) (fun _ => rfl)
  | 46 => exact bind_map (OpLFS.dec w) (Instr.sLst h) _ (semSLst h) (fun _ => rfl) (fun _ => rfl)
  | 47 => exact bind_map (OpLFS.dec w) (Instr.sLstw h) _ (semSLstw h) (fun _ => rfl) (fun _ => rfl)
  | 48 => exact bind_map (OpLFL.dec w) (Instr.sLldAcq h) _ (semSLldAcq h) (fun _ => rfl) (fun _ => rfl)
  | 49 => exact bind_map (OpLFL.dec w) (Instr.sLlwAcq h) _ (semSLlwAcq h) (fun _ => rfl) (fun _ => rfl)
  | 50 => exact bind_map (OpLFS.dec w) (Instr.sLstRel h) _ (semSLstRel h) (fun _ => rfl) (fun _ => rfl)
  | 51 => exact bind_map (OpLFS.dec w) (Instr.sLstwRel h) _ (semSLstwRel h) (fun _ => rfl) (fun _ => rfl)
  | 52 => exact bind_map (OpCK.dec w) (Instr.sCkt h) _ (semSCkt h) (fun _ => rfl) (fun _ => rfl)
  | 53 => exact bind_map (OpNone.dec w) (Instr.sNxt h) _ (semSNxt h) (fun _ => rfl) (fun _ => rfl)
  | 54 => exact bind_map (OpSA.dec w) (Instr.sCtxout h) _ (semSCtxout h) (fun _ => rfl) (fun _ => rfl)
  | 55 => exact bind_map (OpSA.dec w) (Instr.sCtxin h) _ (semSCtxin h) (fun _ => rfl) (fun _ => rfl)
  | 56 => exact bind_map (OpNone.dec w) (Instr.sCtxskip h) _ (semSCtxskip h) (fun _ => rfl) (fun _ => rfl)
  | 57 =>
    show (if _ then _ else _) = Option.bind (if _ then _ else _) _
    split
    · exact bind_map (OpTI.dec 0#2 w) (Instr.sTlbinvAll h) _ (semSTlbinvAll h) (fun _ => rfl) (fun _ => rfl)
    split
    · exact bind_map (OpTI.dec 1#2 w) (Instr.sTlbinvContext h) _ (semSTlbinvContext h) (fun _ => rfl) (fun _ => rfl)
    split
    · exact bind_map (OpTI.dec 2#2 w) (Instr.sTlbinvPage h) _ (semSTlbinvPage h) (fun _ => rfl) (fun _ => rfl)
    rfl
  | 58 => exact bind_map (OpNone.dec w) (Instr.sTlbsync h) _ (semSTlbsync h) (fun _ => rfl) (fun _ => rfl)
  | 59 =>
    show (if _ then _ else _) = Option.bind (if _ then _ else _) _
    split
    · exact bind_map (OpCTXD.dec 0#1 w) (Instr.sCtxdonePreempted h) _ (semSCtxdonePreempted h) (fun _ => rfl) (fun _ => rfl)
    split
    · exact bind_map (OpCTXD.dec 1#1 w) (Instr.sCtxdoneFailed h) _ (semSCtxdoneFailed h) (fun _ => rfl) (fun _ => rfl)
    rfl
  | 60 => exact bind_map (OpWI.dec w) (Instr.sLil h) _ (semSLil h) (fun _ => rfl) (fun _ => rfl)
  | 61 => exact bind_map (OpWI.dec w) (Instr.sLih h) _ (semSLih h) (fun _ => rfl) (fun _ => rfl)
  | 62 => exact bind_map (OpWI.dec w) (Instr.sLis h) _ (semSLis h) (fun _ => rfl) (fun _ => rfl)
  | 63 => exact bind_map (OpWI.dec w) (Instr.sLpc h) _ (semSLpc h) (fun _ => rfl) (fun _ => rfl)
  | _ + 64 => rfl

/-- Class V: both maps have the same operations. -/
theorem semV_eq (op : Nat) (h : Hdr) (w : BitVec 43) :
    semV op h w = (decodeV op h w).bind (fun i => if i.wf then (semOf i).map (·.2) else none) := by
  match op with
  | 0 => exact bind_map (OpV3.dec w) (Instr.vAddI32 h) _ (semVAddI32 h) (fun _ => rfl) (fun _ => rfl)
  | 1 => exact bind_map (OpV3.dec w) (Instr.vSubI32 h) _ (semVSubI32 h) (fun _ => rfl) (fun _ => rfl)
  | 2 => exact bind_map (OpV3.dec w) (Instr.vMulI32 h) _ (semVMulI32 h) (fun _ => rfl) (fun _ => rfl)
  | 3 => exact bind_map (OpV3.dec w) (Instr.vMulhI32 h) _ (semVMulhI32 h) (fun _ => rfl) (fun _ => rfl)
  | 4 => exact bind_map (OpV3.dec w) (Instr.vAddsI32 h) _ (semVAddsI32 h) (fun _ => rfl) (fun _ => rfl)
  | 5 => exact bind_map (OpV3.dec w) (Instr.vSubsI32 h) _ (semVSubsI32 h) (fun _ => rfl) (fun _ => rfl)
  | 6 => exact bind_map (OpV3.dec w) (Instr.vAddI16 h) _ (semVAddI16 h) (fun _ => rfl) (fun _ => rfl)
  | 7 => exact bind_map (OpV3.dec w) (Instr.vAddsI16 h) _ (semVAddsI16 h) (fun _ => rfl) (fun _ => rfl)
  | 8 => exact bind_map (OpV3.dec w) (Instr.vAddI8 h) _ (semVAddI8 h) (fun _ => rfl) (fun _ => rfl)
  | 9 => exact bind_map (OpV3.dec w) (Instr.vAddsI8 h) _ (semVAddsI8 h) (fun _ => rfl) (fun _ => rfl)
  | 10 => exact bind_map (OpV3.dec w) (Instr.vAddsZ8 h) _ (semVAddsZ8 h) (fun _ => rfl) (fun _ => rfl)
  | 11 => exact bind_map (OpV3.dec w) (Instr.vMinI32 h) _ (semVMinI32 h) (fun _ => rfl) (fun _ => rfl)
  | 12 => exact bind_map (OpV3.dec w) (Instr.vMaxI32 h) _ (semVMaxI32 h) (fun _ => rfl) (fun _ => rfl)
  | 13 => exact bind_map (OpV3.dec w) (Instr.vMinZ32 h) _ (semVMinZ32 h) (fun _ => rfl) (fun _ => rfl)
  | 14 => exact bind_map (OpV3.dec w) (Instr.vMaxZ32 h) _ (semVMaxZ32 h) (fun _ => rfl) (fun _ => rfl)
  | 15 => exact bind_map (OpV2.dec w) (Instr.vAbsI32 h) _ (semVAbsI32 h) (fun _ => rfl) (fun _ => rfl)
  | 16 => exact bind_map (OpV3.dec w) (Instr.vAnd h) _ (semVAnd h) (fun _ => rfl) (fun _ => rfl)
  | 17 => exact bind_map (OpV3.dec w) (Instr.vOr h) _ (semVOr h) (fun _ => rfl) (fun _ => rfl)
  | 18 => exact bind_map (OpV3.dec w) (Instr.vXor h) _ (semVXor h) (fun _ => rfl) (fun _ => rfl)
  | 19 => exact bind_map (OpV3.dec w) (Instr.vAndn h) _ (semVAndn h) (fun _ => rfl) (fun _ => rfl)
  | 20 => exact bind_map (OpV3.dec w) (Instr.vShlI32 h) _ (semVShlI32 h) (fun _ => rfl) (fun _ => rfl)
  | 21 => exact bind_map (OpV3.dec w) (Instr.vShrZ32 h) _ (semVShrZ32 h) (fun _ => rfl) (fun _ => rfl)
  | 22 => exact bind_map (OpV3.dec w) (Instr.vSraI32 h) _ (semVSraI32 h) (fun _ => rfl) (fun _ => rfl)
  | 23 => exact bind_map (OpV3.dec w) (Instr.vDot4I8 h) _ (semVDot4I8 h) (fun _ => rfl) (fun _ => rfl)
  | 24 => exact bind_map (OpV3R.dec w) (Instr.vAddF32 h) _ (semVAddF32 h) (fun _ => rfl) (fun _ => rfl)
  | 25 => exact bind_map (OpV3R.dec w) (Instr.vSubF32 h) _ (semVSubF32 h) (fun _ => rfl) (fun _ => rfl)
  | 26 => exact bind_map (OpV3R.dec w) (Instr.vMulF32 h) _ (semVMulF32 h) (fun _ => rfl) (fun _ => rfl)
  | 27 => exact bind_map (OpV3R.dec w) (Instr.vFmaF32 h) _ (semVFmaF32 h) (fun _ => rfl) (fun _ => rfl)
  | 28 => exact bind_map (OpV3R.dec w) (Instr.vFmsF32 h) _ (semVFmsF32 h) (fun _ => rfl) (fun _ => rfl)
  | 29 => exact bind_map (OpV3R.dec w) (Instr.vFnmaF32 h) _ (semVFnmaF32 h) (fun _ => rfl) (fun _ => rfl)
  | 30 => exact bind_map (OpV3.dec w) (Instr.vMinF32 h) _ (semVMinF32 h) (fun _ => rfl) (fun _ => rfl)
  | 31 => exact bind_map (OpV3.dec w) (Instr.vMaxF32 h) _ (semVMaxF32 h) (fun _ => rfl) (fun _ => rfl)
  | 32 => exact bind_map (OpV3R.dec w) (Instr.vAddF16 h) _ (semVAddF16 h) (fun _ => rfl) (fun _ => rfl)
  | 33 => exact bind_map (OpV3R.dec w) (Instr.vSubF16 h) _ (semVSubF16 h) (fun _ => rfl) (fun _ => rfl)
  | 34 => exact bind_map (OpV3R.dec w) (Instr.vMulF16 h) _ (semVMulF16 h) (fun _ => rfl) (fun _ => rfl)
  | 35 => exact bind_map (OpV3R.dec w) (Instr.vFmaF16 h) _ (semVFmaF16 h) (fun _ => rfl) (fun _ => rfl)
  | 36 => exact bind_map (OpV3.dec w) (Instr.vMinF16 h) _ (semVMinF16 h) (fun _ => rfl) (fun _ => rfl)
  | 37 => exact bind_map (OpV3.dec w) (Instr.vMaxF16 h) _ (semVMaxF16 h) (fun _ => rfl) (fun _ => rfl)
  | 38 => exact bind_map (OpV3R.dec w) (Instr.vAddB16 h) _ (semVAddB16 h) (fun _ => rfl) (fun _ => rfl)
  | 39 => exact bind_map (OpV3R.dec w) (Instr.vSubB16 h) _ (semVSubB16 h) (fun _ => rfl) (fun _ => rfl)
  | 40 => exact bind_map (OpV3R.dec w) (Instr.vMulB16 h) _ (semVMulB16 h) (fun _ => rfl) (fun _ => rfl)
  | 41 => exact bind_map (OpV3R.dec w) (Instr.vFmaB16 h) _ (semVFmaB16 h) (fun _ => rfl) (fun _ => rfl)
  | 42 => exact bind_map (OpV3.dec w) (Instr.vMinB16 h) _ (semVMinB16 h) (fun _ => rfl) (fun _ => rfl)
  | 43 => exact bind_map (OpV3.dec w) (Instr.vMaxB16 h) _ (semVMaxB16 h) (fun _ => rfl) (fun _ => rfl)
  | 44 => exact bind_map (OpV2.dec w) (Instr.vRcpF32 h) _ (semVRcpF32 h) (fun _ => rfl) (fun _ => rfl)
  | 45 => exact bind_map (OpV2.dec w) (Instr.vRsqF32 h) _ (semVRsqF32 h) (fun _ => rfl) (fun _ => rfl)
  | 46 => exact bind_map (OpV2.dec w) (Instr.vExp2F32 h) _ (semVExp2F32 h) (fun _ => rfl) (fun _ => rfl)
  | 47 => exact bind_map (OpV2.dec w) (Instr.vLog2F32 h) _ (semVLog2F32 h) (fun _ => rfl) (fun _ => rfl)
  | 48 => exact bind_map (OpV2.dec w) (Instr.vRcpF16 h) _ (semVRcpF16 h) (fun _ => rfl) (fun _ => rfl)
  | 49 => exact bind_map (OpV2.dec w) (Instr.vRsqF16 h) _ (semVRsqF16 h) (fun _ => rfl) (fun _ => rfl)
  | 50 => exact bind_map (OpV2.dec w) (Instr.vExp2F16 h) _ (semVExp2F16 h) (fun _ => rfl) (fun _ => rfl)
  | 51 => exact bind_map (OpV2.dec w) (Instr.vLog2F16 h) _ (semVLog2F16 h) (fun _ => rfl) (fun _ => rfl)
  | 52 => exact bind_map (OpVM.dec w) (Instr.vCeqI32 h) _ (semVCeqI32 h) (fun _ => rfl) (fun _ => rfl)
  | 53 => exact bind_map (OpVM.dec w) (Instr.vCltI32 h) _ (semVCltI32 h) (fun _ => rfl) (fun _ => rfl)
  | 54 => exact bind_map (OpVM.dec w) (Instr.vCleI32 h) _ (semVCleI32 h) (fun _ => rfl) (fun _ => rfl)
  | 55 => exact bind_map (OpVM.dec w) (Instr.vCltZ32 h) _ (semVCltZ32 h) (fun _ => rfl) (fun _ => rfl)
  | 56 => exact bind_map (OpVM.dec w) (Instr.vCeqF32 h) _ (semVCeqF32 h) (fun _ => rfl) (fun _ => rfl)
  | 57 => exact bind_map (OpVM.dec w) (Instr.vCltF32 h) _ (semVCltF32 h) (fun _ => rfl) (fun _ => rfl)
  | 58 => exact bind_map (OpVM.dec w) (Instr.vCleF32 h) _ (semVCleF32 h) (fun _ => rfl) (fun _ => rfl)
  | 59 => exact bind_map (OpVM.dec w) (Instr.vCunF32 h) _ (semVCunF32 h) (fun _ => rfl) (fun _ => rfl)
  | 60 => exact bind_map (OpVCR.dec w) (Instr.vCvtF32 h) _ (semVCvtF32 h) (fun _ => rfl) (fun _ => rfl)
  | 61 => exact bind_map (OpVCR.dec w) (Instr.vCvtF16 h) _ (semVCvtF16 h) (fun _ => rfl) (fun _ => rfl)
  | 62 => exact bind_map (OpVCR.dec w) (Instr.vCvtB16 h) _ (semVCvtB16 h) (fun _ => rfl) (fun _ => rfl)
  | 63 => exact bind_map (OpVCR.dec w) (Instr.vCvtE4 h) _ (semVCvtE4 h) (fun _ => rfl) (fun _ => rfl)
  | 64 => exact bind_map (OpVCR.dec w) (Instr.vCvtE5 h) _ (semVCvtE5 h) (fun _ => rfl) (fun _ => rfl)
  | 65 => exact bind_map (OpVCR.dec w) (Instr.vCvtI32 h) _ (semVCvtI32 h) (fun _ => rfl) (fun _ => rfl)
  | 66 => exact bind_map (OpVCR.dec w) (Instr.vCvtI16 h) _ (semVCvtI16 h) (fun _ => rfl) (fun _ => rfl)
  | 67 => exact bind_map (OpVCR.dec w) (Instr.vCvtI8 h) _ (semVCvtI8 h) (fun _ => rfl) (fun _ => rfl)
  | 68 => exact bind_map (OpVCR.dec w) (Instr.vCvtZ32 h) _ (semVCvtZ32 h) (fun _ => rfl) (fun _ => rfl)
  | 69 => exact bind_map (OpVCR.dec w) (Instr.vCvtZ16 h) _ (semVCvtZ16 h) (fun _ => rfl) (fun _ => rfl)
  | 70 => exact bind_map (OpVCR.dec w) (Instr.vCvtZ8 h) _ (semVCvtZ8 h) (fun _ => rfl) (fun _ => rfl)
  | 71 => exact bind_map (OpVC.dec w) (Instr.vCvtc h) _ (semVCvtc h) (fun _ => rfl) (fun _ => rfl)
  | 72 => exact bind_map (OpV2R.dec w) (Instr.vRintF32 h) _ (semVRintF32 h) (fun _ => rfl) (fun _ => rfl)
  | 73 => exact bind_map (OpV3R.dec w) (Instr.vScaleF32 h) _ (semVScaleF32 h) (fun _ => rfl) (fun _ => rfl)
  | 74 => exact bind_map (OpV2.dec w) (Instr.vExpoF32 h) _ (semVExpoF32 h) (fun _ => rfl) (fun _ => rfl)
  | 75 => exact bind_map (OpVC.dec w) (Instr.vPackI4 h) _ (semVPackI4 h) (fun _ => rfl) (fun _ => rfl)
  | 76 => exact bind_map (OpVC.dec w) (Instr.vUnpkI4 h) _ (semVUnpkI4 h) (fun _ => rfl) (fun _ => rfl)
  | 77 => exact bind_map (OpVCR.dec w) (Instr.vPackX4 h) _ (semVPackX4 h) (fun _ => rfl) (fun _ => rfl)
  | 78 => exact bind_map (OpVC.dec w) (Instr.vUnpkX4 h) _ (semVUnpkX4 h) (fun _ => rfl) (fun _ => rfl)
  | 79 => exact bind_map (OpVQR.dec w) (Instr.vRaddF32 h) _ (semVRaddF32 h) (fun _ => rfl) (fun _ => rfl)
  | 80 => exact bind_map (OpVQR.dec w) (Instr.vRaddF16 h) _ (semVRaddF16 h) (fun _ => rfl) (fun _ => rfl)
  | 81 => exact bind_map (OpVQ.dec w) (Instr.vRaddI32 h) _ (semVRaddI32 h) (fun _ => rfl) (fun _ => rfl)
  | 82 => exact bind_map (OpVQ.dec w) (Instr.vRmaxF32 h) _ (semVRmaxF32 h) (fun _ => rfl) (fun _ => rfl)
  | 83 => exact bind_map (OpVQ.dec w) (Instr.vRminF32 h) _ (semVRminF32 h) (fun _ => rfl) (fun _ => rfl)
  | 84 => exact bind_map (OpVQ.dec w) (Instr.vRmaxI32 h) _ (semVRmaxI32 h) (fun _ => rfl) (fun _ => rfl)
  | 85 => exact bind_map (OpV3.dec w) (Instr.vPerm h) _ (semVPerm h) (fun _ => rfl) (fun _ => rfl)
  | 86 => exact bind_map (OpV3.dec w) (Instr.vPerm8 h) _ (semVPerm8 h) (fun _ => rfl) (fun _ => rfl)
  | 87 => exact bind_map (OpVN.dec w) (Instr.vRot h) _ (semVRot h) (fun _ => rfl) (fun _ => rfl)
  | 88 => exact bind_map (OpVSL.dec w) (Instr.vSlide h) _ (semVSlide h) (fun _ => rfl) (fun _ => rfl)
  | 89 => exact bind_map (OpVN.dec w) (Instr.vBcast h) _ (semVBcast h) (fun _ => rfl) (fun _ => rfl)
  | 90 => exact bind_map (OpVS.dec w) (Instr.vBcs h) _ (semVBcs h) (fun _ => rfl) (fun _ => rfl)
  | 91 => exact bind_map (OpVSEL.dec w) (Instr.vSel h) _ (semVSel h) (fun _ => rfl) (fun _ => rfl)
  | 92 => exact bind_map (OpVI.dec w) (Instr.vIota h) _ (semVIota h) (fun _ => rfl) (fun _ => rfl)
  | 93 => exact bind_map (OpVLL.dec w) (Instr.v0Sld h) _ (semV0Sld h) (fun _ => rfl) (fun _ => rfl)
  | 94 => exact bind_map (OpVLLX.dec w) (Instr.v0Sldx h) _ (semV0Sldx h) (fun _ => rfl) (fun _ => rfl)
  | 95 => exact bind_map (OpVLS.dec w) (Instr.v0Sst h) _ (semV0Sst h) (fun _ => rfl) (fun _ => rfl)
  | 96 => exact bind_map (OpVLSX.dec w) (Instr.v0Sstx h) _ (semV0Sstx h) (fun _ => rfl) (fun _ => rfl)
  | 97 => exact bind_map (OpVLSM.dec w) (Instr.v0Sstm h) _ (semV0Sstm h) (fun _ => rfl) (fun _ => rfl)
  | 98 => exact bind_map (OpVLSXM.dec w) (Instr.v0Sstxm h) _ (semV0Sstxm h) (fun _ => rfl) (fun _ => rfl)
  | 99 => exact bind_map (OpVDL.dec w) (Instr.v1Ld h) _ (semV1Ld h) (fun _ => rfl) (fun _ => rfl)
  | 100 => exact bind_map (OpVDS.dec w) (Instr.v1St h) _ (semV1St h) (fun _ => rfl) (fun _ => rfl)
  | 101 => exact bind_map (OpVDL.dec w) (Instr.v1Ldb h) _ (semV1Ldb h) (fun _ => rfl) (fun _ => rfl)
  | 102 => exact bind_map (OpVDSM.dec w) (Instr.v1Stm h) _ (semV1Stm h) (fun _ => rfl) (fun _ => rfl)
  | 103 => exact bind_map (OpVDLX.dec w) (Instr.v1Gath h) _ (semV1Gath h) (fun _ => rfl) (fun _ => rfl)
  | 104 => exact bind_map (OpVG.dec w) (Instr.v1Gathm h) _ (semV1Gathm h) (fun _ => rfl) (fun _ => rfl)
  | 105 => exact bind_map (OpVDSX.dec w) (Instr.v1Scat h) _ (semV1Scat h) (fun _ => rfl) (fun _ => rfl)
  | 106 => exact bind_map (OpVDSXM.dec w) (Instr.v1Scatm h) _ (semV1Scatm h) (fun _ => rfl) (fun _ => rfl)
  | 107 => exact bind_map (OpVEF.dec w) (Instr.vRfwd h) _ (semVRfwd h) (fun _ => rfl) (fun _ => rfl)
  | 108 => exact bind_map (OpVER.dec w) (Instr.vRrev h) _ (semVRrev h) (fun _ => rfl) (fun _ => rfl)
  | 109 => exact bind_map (OpVEC.dec w) (Instr.vRchk h) _ (semVRchk h) (fun _ => rfl) (fun _ => rfl)
  | _ + 110 => rfl

/-- Class M: both maps have the same operations. -/
theorem semM_eq (op : Nat) (h : Hdr) (w : BitVec 43) :
    semM op h w = (decodeM op h w).bind (fun i => if i.wf then (semOf i).map (·.2) else none) := by
  match op with
  | 0 => exact bind_map (OpMP.dec w) (Instr.mPush h) _ (semMPush h) (fun _ => rfl) (fun _ => rfl)
  | 1 => exact bind_map (OpMS.dec w) (Instr.mAcc h) _ (semMAcc h) (fun _ => rfl) (fun _ => rfl)
  | 2 => exact bind_map (OpMPA.dec w) (Instr.mPa h) _ (semMPa h) (fun _ => rfl) (fun _ => rfl)
  | 3 => exact bind_map (OpMS.dec w) (Instr.mShift h) _ (semMShift h) (fun _ => rfl) (fun _ => rfl)
  | 4 => exact bind_map (OpMD.dec w) (Instr.mDrainTile h) _ (semMDrainTile h) (fun _ => rfl) (fun _ => rfl)
  | 5 => exact bind_map (OpMH.dec w) (Instr.mDrainRing h) _ (semMDrainRing h) (fun _ => rfl) (fun _ => rfl)
  | 6 => exact bind_map (OpMZ.dec w) (Instr.mZero h) _ (semMZero h) (fun _ => rfl) (fun _ => rfl)
  | 7 => exact bind_map (OpMI.dec w) (Instr.mCfgImm h) _ (semMCfgImm h) (fun _ => rfl) (fun _ => rfl)
  | 8 => exact bind_map (OpSA.dec w) (Instr.mCfgReg h) _ (semMCfgReg h) (fun _ => rfl) (fun _ => rfl)
  | 9 => exact bind_map (OpNone.dec w) (Instr.mFence h) _ (semMFence h) (fun _ => rfl) (fun _ => rfl)
  | _ + 10 => rfl

/-- Class C: both maps have the same operations. -/
theorem semC_eq (op : Nat) (h : Hdr) (w : BitVec 43) :
    semC op h w = (decodeC op h w).bind (fun i => if i.wf then (semOf i).map (·.2) else none) := by
  match op with
  | 0 => exact bind_map (OpCML.dec w) (Instr.cLdd h) _ (semCLdd h) (fun _ => rfl) (fun _ => rfl)
  | 1 => exact bind_map (OpCML.dec w) (Instr.cLdw h) _ (semCLdw h) (fun _ => rfl) (fun _ => rfl)
  | 2 => exact bind_map (OpCML.dec w) (Instr.cLdh h) _ (semCLdh h) (fun _ => rfl) (fun _ => rfl)
  | 3 => exact bind_map (OpCML.dec w) (Instr.cLdb h) _ (semCLdb h) (fun _ => rfl) (fun _ => rfl)
  | 4 => exact bind_map (OpCMS.dec w) (Instr.cStd h) _ (semCStd h) (fun _ => rfl) (fun _ => rfl)
  | 5 => exact bind_map (OpCMS.dec w) (Instr.cStw h) _ (semCStw h) (fun _ => rfl) (fun _ => rfl)
  | 6 => exact bind_map (OpCMS.dec w) (Instr.cSth h) _ (semCSth h) (fun _ => rfl) (fun _ => rfl)
  | 7 => exact bind_map (OpCMS.dec w) (Instr.cStb h) _ (semCStb h) (fun _ => rfl) (fun _ => rfl)
  | 8 => exact bind_map (OpCMVL.dec w) (Instr.cVld h) _ (semCVld h) (fun _ => rfl) (fun _ => rfl)
  | 9 => exact bind_map (OpCMVS.dec w) (Instr.cVst h) _ (semCVst h) (fun _ => rfl) (fun _ => rfl)
  | 10 => exact bind_map (OpCMVM.dec w) (Instr.cVstm h) _ (semCVstm h) (fun _ => rfl) (fun _ => rfl)
  | 11 => exact bind_map (OpCMVL.dec w) (Instr.cVldb h) _ (semCVldb h) (fun _ => rfl) (fun _ => rfl)
  | 12 => exact bind_map (OpCML.dec w) (Instr.cLddAcq h) _ (semCLddAcq h) (fun _ => rfl) (fun _ => rfl)
  | 13 => exact bind_map (OpCML.dec w) (Instr.cLdwAcq h) _ (semCLdwAcq h) (fun _ => rfl) (fun _ => rfl)
  | 14 => exact bind_map (OpCMS.dec w) (Instr.cStdRel h) _ (semCStdRel h) (fun _ => rfl) (fun _ => rfl)
  | 15 => exact bind_map (OpCMS.dec w) (Instr.cStwRel h) _ (semCStwRel h) (fun _ => rfl) (fun _ => rfl)
  | 16 => exact bind_map (OpTLD.dec w) (Instr.cTld h) _ (semCTld h) (fun _ => rfl) (fun _ => rfl)
  | 17 => exact bind_map (OpTST.dec w) (Instr.cTst h) _ (semCTst h) (fun _ => rfl) (fun _ => rfl)
  | 18 => exact bind_map (OpTLDP.dec w) (Instr.cTldp h) _ (semCTldp h) (fun _ => rfl) (fun _ => rfl)
  | 19 => exact bind_map (OpTSTP.dec w) (Instr.cTstp h) _ (semCTstp h) (fun _ => rfl) (fun _ => rfl)
  | 20 => exact bind_map (OpTLD.dec w) (Instr.c1TldAcq h) _ (semC1TldAcq h) (fun _ => rfl) (fun _ => rfl)
  | 21 => exact bind_map (OpTST.dec w) (Instr.c1TstRel h) _ (semC1TstRel h) (fun _ => rfl) (fun _ => rfl)
  | 22 => exact bind_map (OpSHL.dec w) (Instr.cShld h) _ (semCShld h) (fun _ => rfl) (fun _ => rfl)
  | 23 => exact bind_map (OpSHL.dec w) (Instr.cShev h) _ (semCShev h) (fun _ => rfl) (fun _ => rfl)
  | 24 => exact bind_map (OpCF.dec w) (Instr.cFarm h) _ (semCFarm h) (fun _ => rfl) (fun _ => rfl)
  | 25 => exact bind_map (OpCFV.dec w) (Instr.cFstop h) _ (semCFstop h) (fun _ => rfl) (fun _ => rfl)
  | 26 => exact bind_map (OpCFV.dec w) (Instr.cFwait h) _ (semCFwait h) (fun _ => rfl) (fun _ => rfl)
  | 27 => exact bind_map (OpCFS.dec w) (Instr.cFstat h) _ (semCFstat h) (fun _ => rfl) (fun _ => rfl)
  | 28 => exact bind_map (OpCR.dec w) (Instr.c1Rfill h) _ (semC1Rfill h) (fun _ => rfl) (fun _ => rfl)
  | 29 => exact bind_map (OpCR.dec w) (Instr.c1Rspill h) _ (semC1Rspill h) (fun _ => rfl) (fun _ => rfl)
  | 30 => exact bind_map (OpCGL.dec w) (Instr.c1Gath h) _ (semC1Gath h) (fun _ => rfl) (fun _ => rfl)
  | 31 => exact bind_map (OpCGS.dec w) (Instr.c1Scat h) _ (semC1Scat h) (fun _ => rfl) (fun _ => rfl)
  | 32 => exact bind_map (OpCAR.dec w) (Instr.c1AaddI32 h) _ (semC1AaddI32 h) (fun _ => rfl) (fun _ => rfl)
  | 33 => exact bind_map (OpCAR.dec w) (Instr.c1AaddI64 h) _ (semC1AaddI64 h) (fun _ => rfl) (fun _ => rfl)
  | 34 => exact bind_map (OpCAN.dec w) (Instr.c1AaddI32Nr h) _ (semC1AaddI32Nr h) (fun _ => rfl) (fun _ => rfl)
  | 35 => exact bind_map (OpCAN.dec w) (Instr.c1AaddI64Nr h) _ (semC1AaddI64Nr h) (fun _ => rfl) (fun _ => rfl)
  | 36 => exact bind_map (OpCAR.dec w) (Instr.c1AminI32 h) _ (semC1AminI32 h) (fun _ => rfl) (fun _ => rfl)
  | 37 => exact bind_map (OpCAR.dec w) (Instr.c1AminI64 h) _ (semC1AminI64 h) (fun _ => rfl) (fun _ => rfl)
  | 38 => exact bind_map (OpCAN.dec w) (Instr.c1AminI32Nr h) _ (semC1AminI32Nr h) (fun _ => rfl) (fun _ => rfl)
  | 39 => exact bind_map (OpCAN.dec w) (Instr.c1AminI64Nr h) _ (semC1AminI64Nr h) (fun _ => rfl) (fun _ => rfl)
  | 40 => exact bind_map (OpCAR.dec w) (Instr.c1AmaxI32 h) _ (semC1AmaxI32 h) (fun _ => rfl) (fun _ => rfl)
  | 41 => exact bind_map (OpCAR.dec w) (Instr.c1AmaxI64 h) _ (semC1AmaxI64 h) (fun _ => rfl) (fun _ => rfl)
  | 42 => exact bind_map (OpCAN.dec w) (Instr.c1AmaxI32Nr h) _ (semC1AmaxI32Nr h) (fun _ => rfl) (fun _ => rfl)
  | 43 => exact bind_map (OpCAN.dec w) (Instr.c1AmaxI64Nr h) _ (semC1AmaxI64Nr h) (fun _ => rfl) (fun _ => rfl)
  | 44 => exact bind_map (OpCAR.dec w) (Instr.c1AandI32 h) _ (semC1AandI32 h) (fun _ => rfl) (fun _ => rfl)
  | 45 => exact bind_map (OpCAR.dec w) (Instr.c1AandI64 h) _ (semC1AandI64 h) (fun _ => rfl) (fun _ => rfl)
  | 46 => exact bind_map (OpCAN.dec w) (Instr.c1AandI32Nr h) _ (semC1AandI32Nr h) (fun _ => rfl) (fun _ => rfl)
  | 47 => exact bind_map (OpCAN.dec w) (Instr.c1AandI64Nr h) _ (semC1AandI64Nr h) (fun _ => rfl) (fun _ => rfl)
  | 48 => exact bind_map (OpCAR.dec w) (Instr.c1AorI32 h) _ (semC1AorI32 h) (fun _ => rfl) (fun _ => rfl)
  | 49 => exact bind_map (OpCAR.dec w) (Instr.c1AorI64 h) _ (semC1AorI64 h) (fun _ => rfl) (fun _ => rfl)
  | 50 => exact bind_map (OpCAN.dec w) (Instr.c1AorI32Nr h) _ (semC1AorI32Nr h) (fun _ => rfl) (fun _ => rfl)
  | 51 => exact bind_map (OpCAN.dec w) (Instr.c1AorI64Nr h) _ (semC1AorI64Nr h) (fun _ => rfl) (fun _ => rfl)
  | 52 => exact bind_map (OpCAR.dec w) (Instr.c1AxorI32 h) _ (semC1AxorI32 h) (fun _ => rfl) (fun _ => rfl)
  | 53 => exact bind_map (OpCAR.dec w) (Instr.c1AxorI64 h) _ (semC1AxorI64 h) (fun _ => rfl) (fun _ => rfl)
  | 54 => exact bind_map (OpCAN.dec w) (Instr.c1AxorI32Nr h) _ (semC1AxorI32Nr h) (fun _ => rfl) (fun _ => rfl)
  | 55 => exact bind_map (OpCAN.dec w) (Instr.c1AxorI64Nr h) _ (semC1AxorI64Nr h) (fun _ => rfl) (fun _ => rfl)
  | 56 => exact bind_map (OpCAR.dec w) (Instr.c1AswpI32 h) _ (semC1AswpI32 h) (fun _ => rfl) (fun _ => rfl)
  | 57 => exact bind_map (OpCAR.dec w) (Instr.c1AswpI64 h) _ (semC1AswpI64 h) (fun _ => rfl) (fun _ => rfl)
  | 58 => exact bind_map (OpCAN.dec w) (Instr.c1AswpI32Nr h) _ (semC1AswpI32Nr h) (fun _ => rfl) (fun _ => rfl)
  | 59 => exact bind_map (OpCAN.dec w) (Instr.c1AswpI64Nr h) _ (semC1AswpI64Nr h) (fun _ => rfl) (fun _ => rfl)
  | 60 => exact bind_map (OpCACR.dec w) (Instr.c1AcasI32 h) _ (semC1AcasI32 h) (fun _ => rfl) (fun _ => rfl)
  | 61 => exact bind_map (OpCACR.dec w) (Instr.c1AcasI64 h) _ (semC1AcasI64 h) (fun _ => rfl) (fun _ => rfl)
  | 62 => exact bind_map (OpCACN.dec w) (Instr.c1AcasI32Nr h) _ (semC1AcasI32Nr h) (fun _ => rfl) (fun _ => rfl)
  | 63 => exact bind_map (OpCACN.dec w) (Instr.c1AcasI64Nr h) _ (semC1AcasI64Nr h) (fun _ => rfl) (fun _ => rfl)
  | 64 =>
    show (if _ then _ else _) = Option.bind (if _ then _ else _) _
    split
    · exact bind_map (OpFN.dec 1#2 w) (Instr.cFenceRel h) _ (semCFenceRel h) (fun _ => rfl) (fun _ => rfl)
    split
    · exact bind_map (OpFN.dec 2#2 w) (Instr.cFenceAcq h) _ (semCFenceAcq h) (fun _ => rfl) (fun _ => rfl)
    split
    · exact bind_map (OpFN.dec 3#2 w) (Instr.cFenceFull h) _ (semCFenceFull h) (fun _ => rfl) (fun _ => rfl)
    rfl
  | 65 =>
    show (if _ then _ else _) = Option.bind (if _ then _ else _) _
    split
    · exact bind_map (OpFN.dec 1#2 w) (Instr.cFenceWRel h) _ (semCFenceWRel h) (fun _ => rfl) (fun _ => rfl)
    split
    · exact bind_map (OpFN.dec 2#2 w) (Instr.cFenceWAcq h) _ (semCFenceWAcq h) (fun _ => rfl) (fun _ => rfl)
    split
    · exact bind_map (OpFN.dec 3#2 w) (Instr.cFenceWFull h) _ (semCFenceWFull h) (fun _ => rfl) (fun _ => rfl)
    rfl
  | 66 => exact bind_map (OpLQ.dec w) (Instr.c1Qapp h) _ (semC1Qapp h) (fun _ => rfl) (fun _ => rfl)
  | 67 => exact bind_map (OpLBI.dec w) (Instr.cBarm h) _ (semCBarm h) (fun _ => rfl) (fun _ => rfl)
  | 68 => exact bind_map (OpLBR.dec w) (Instr.cBarmr h) _ (semCBarmr h) (fun _ => rfl) (fun _ => rfl)
  | 69 => exact bind_map (OpLBI.dec w) (Instr.cBsig h) _ (semCBsig h) (fun _ => rfl) (fun _ => rfl)
  | 70 => exact bind_map (OpLBR.dec w) (Instr.cBsigr h) _ (semCBsigr h) (fun _ => rfl) (fun _ => rfl)
  | 71 => exact bind_map (OpLBW.dec w) (Instr.cBwait h) _ (semCBwait h) (fun _ => rfl) (fun _ => rfl)
  | 72 =>
    show (if _ then _ else _) = Option.bind (if _ then _ else _) _
    split
    · exact bind_map (OpBeat.dec 0#1 w) (Instr.c1Beat h) _ (semC1Beat h) (fun _ => rfl) (fun _ => rfl)
    split
    · exact bind_map (OpBOff.dec 1#1 w) (Instr.c1BeatOff h) _ (semC1BeatOff h) (fun _ => rfl) (fun _ => rfl)
    rfl
  | 73 => exact bind_map (OpSA.dec w) (Instr.c1Beatr h) _ (semC1Beatr h) (fun _ => rfl) (fun _ => rfl)
  | 74 => exact bind_map (OpBQ.dec w) (Instr.c1Beatrd h) _ (semC1Beatrd h) (fun _ => rfl) (fun _ => rfl)
  | 75 => exact bind_map (OpBW.dec w) (Instr.c1Beatw h) _ (semC1Beatw h) (fun _ => rfl) (fun _ => rfl)
  | 76 => exact bind_map (OpPST.dec w) (Instr.c1Pst h) _ (semC1Pst h) (fun _ => rfl) (fun _ => rfl)
  | 77 => exact bind_map (OpPSTM.dec w) (Instr.c1Pstm h) _ (semC1Pstm h) (fun _ => rfl) (fun _ => rfl)
  | 78 => exact bind_map (OpPLD.dec w) (Instr.c1Pld h) _ (semC1Pld h) (fun _ => rfl) (fun _ => rfl)
  | 79 => exact bind_map (OpBK.dec w) (Instr.c1Bkrun h) _ (semC1Bkrun h) (fun _ => rfl) (fun _ => rfl)
  | 80 => exact bind_map (OpKL.dec w) (Instr.c1KvldF16 h) _ (semC1KvldF16 h) (fun _ => rfl) (fun _ => rfl)
  | 81 => exact bind_map (OpKL.dec w) (Instr.c1KvldI8 h) _ (semC1KvldI8 h) (fun _ => rfl) (fun _ => rfl)
  | 82 => exact bind_map (OpKS.dec w) (Instr.c1Kvst h) _ (semC1Kvst h) (fun _ => rfl) (fun _ => rfl)
  | 83 => exact bind_map (OpKX.dec w) (Instr.c1Kvx h) _ (semC1Kvx h) (fun _ => rfl) (fun _ => rfl)
  | 84 => exact bind_map (OpKX.dec w) (Instr.c1Kvho h) _ (semC1Kvho h) (fun _ => rfl) (fun _ => rfl)
  | 85 => exact bind_map (OpKF.dec w) (Instr.c1Kvfree h) _ (semC1Kvfree h) (fun _ => rfl) (fun _ => rfl)
  | 86 => exact bind_map (OpCAN2.dec w) (Instr.c1Cancel h) _ (semC1Cancel h) (fun _ => rfl) (fun _ => rfl)
  | 87 => exact bind_map (OpLN.dec w) (Instr.cLnch h) _ (semCLnch h) (fun _ => rfl) (fun _ => rfl)
  | _ + 88 => rfl

/-- Class B: both maps have the same operations. -/
theorem semB_eq (op : Nat) (h : Hdr) (w : BitVec 43) :
    semB op h w = (decodeB op h w).bind (fun i => if i.wf then (semOf i).map (·.2) else none) := by
  match op with
  | 0 => exact bind_map (OpBD.dec w) (Instr.bBr h) _ (semBBr h) (fun _ => rfl) (fun _ => rfl)
  | 1 => exact bind_map (OpBRG.dec w) (Instr.bBri h) _ (semBBri h) (fun _ => rfl) (fun _ => rfl)
  | 2 => exact bind_map (OpBDL.dec w) (Instr.bCall h) _ (semBCall h) (fun _ => rfl) (fun _ => rfl)
  | 3 => exact bind_map (OpBRL.dec w) (Instr.bCalli h) _ (semBCalli h) (fun _ => rfl) (fun _ => rfl)
  | 4 => exact bind_map (OpBRG.dec w) (Instr.bRet h) _ (semBRet h) (fun _ => rfl) (fun _ => rfl)
  | 5 => exact bind_map (OpBRD.dec w) (Instr.bBrx h) _ (semBBrx h) (fun _ => rfl) (fun _ => rfl)
  | 6 => exact bind_map (OpBRD.dec w) (Instr.bDbnz h) _ (semBDbnz h) (fun _ => rfl) (fun _ => rfl)
  | 7 => exact bind_map (OpBD.dec w) (Instr.bLoop h) _ (semBLoop h) (fun _ => rfl) (fun _ => rfl)
  | 8 => exact bind_map (OpBD.dec w) (Instr.bPcnt h) _ (semBPcnt h) (fun _ => rfl) (fun _ => rfl)
  | 9 => exact bind_map (OpBD.dec w) (Instr.bPcntx h) _ (semBPcntx h) (fun _ => rfl) (fun _ => rfl)
  | 10 => exact bind_map (OpBWC.dec w) (Instr.bPwhl h) _ (semBPwhl h) (fun _ => rfl) (fun _ => rfl)
  | 11 => exact bind_map (OpBWC.dec w) (Instr.bPwhlx h) _ (semBPwhlx h) (fun _ => rfl) (fun _ => rfl)
  | 12 => exact bind_map (OpNone.dec w) (Instr.bEnd h) _ (semBEnd h) (fun _ => rfl) (fun _ => rfl)
  | 13 => exact bind_map (OpBT.dec w) (Instr.bTrap h) _ (semBTrap h) (fun _ => rfl) (fun _ => rfl)
  | 14 => exact bind_map (OpBTR.dec w) (Instr.bTrapr h) _ (semBTrapr h) (fun _ => rfl) (fun _ => rfl)
  | 15 => exact bind_map (OpNone.dec w) (Instr.bRft h) _ (semBRft h) (fun _ => rfl) (fun _ => rfl)
  | 16 => exact bind_map (OpSA.dec w) (Instr.bSetlc h) _ (semBSetlc h) (fun _ => rfl) (fun _ => rfl)
  | 17 => exact bind_map (OpBI.dec w) (Instr.bSetlci h) _ (semBSetlci h) (fun _ => rfl) (fun _ => rfl)
  | 18 => exact bind_map (OpSA.dec w) (Instr.bSetdp h) _ (semBSetdp h) (fun _ => rfl) (fun _ => rfl)
  | 19 => exact bind_map (OpBI8.dec w) (Instr.bSetdpi h) _ (semBSetdpi h) (fun _ => rfl) (fun _ => rfl)
  | 20 => exact bind_map (OpBM.dec w) (Instr.bRot h) _ (semBRot h) (fun _ => rfl) (fun _ => rfl)
  | 21 => exact bind_map (OpBM.dec w) (Instr.bRotclr h) _ (semBRotclr h) (fun _ => rfl) (fun _ => rfl)
  | 22 => exact bind_map (OpBI1.dec w) (Instr.bStage h) _ (semBStage h) (fun _ => rfl) (fun _ => rfl)
  | 23 => exact bind_map (OpBL.dec w) (Instr.bLoopset h) _ (semBLoopset h) (fun _ => rfl) (fun _ => rfl)
  | _ + 24 => rfl

/-- The common fields of a decoded syllable are those of the syllable. -/
theorem semOfWord_eq (sl : Slot) (w : BitVec 63) : semOfWord sl w = (decodeSyl sl w).bind (fun i => (semOf i).map (·.2)) := by
  have e : semOfWord sl w = (decodeFields sl w).bind (fun i => if i.wf then (semOf i).map (·.2) else none) := by
    cases sl <;> first
      | exact semS_eq _ _ _
      | exact semV_eq _ _ _
      | exact semM_eq _ _ _
      | exact semC_eq _ _ _
      | exact semB_eq _ _ _
  rw [e]
  unfold decodeSyl
  cases decodeFields sl w with
  | none => rfl
  | some i => by_cases h : i.wf = true <;> simp [h]

end Sys2Proof.Machine
end

