-- ==== Sys2Proof/Laws/Run.lean ====
section
/-! SUPPORT. What the shared operations of issue can do: running one `Sem`, changing a next state, and reading back the
core that a step has replaced. -/

namespace Sys2Proof.Machine

set_option Elab.async false

/-- Everything that running a slot operation can do: take its trap, have its effect, or change nothing. -/
theorem Sem.run_cases (m : Sem) (h : Hdr) (s : State) :
    (∃ t, s.me.issue.isSome = false ∧ m.trapOf h s = some t ∧ m.run h s = .next (takeTrap t s)) ∨
    ((s.me.issue.isSome = true ∨ m.trapOf h s = none) ∧ s.me.active h m.branch = true ∧ m.run h s = .next (m.eff s)) ∨
    ((s.me.issue.isSome = true ∨ m.trapOf h s = none) ∧ s.me.active h m.branch = false ∧ m.run h s = .next s) := by
  cases hi : s.me.issue.isSome <;> cases ht : m.trapOf h s <;> cases ha : s.me.active h m.branch <;>
    simp [Sem.run, hi, ht, ha]

/-- A slot operation always answers a next state. -/
theorem Sem.run_next (m : Sem) (h : Hdr) (s : State) : ∃ t, m.run h s = .next t := by
  rcases m.run_cases h s with ⟨t, -, -, e⟩ | ⟨-, -, e⟩ | ⟨-, -, e⟩ <;> exact ⟨_, e⟩

/-- An active operation of the bundle in progress has its effect. -/
theorem Sem.run_active {m : Sem} {h : Hdr} {s : State} (hi : s.me.issue.isSome = true)
    (ha : s.me.active h m.branch = true) : m.run h s = .next (m.eff s) := by
  simp [Sem.run, hi, ha]

/-- An inactive operation of the bundle in progress changes nothing (R29). -/
theorem Sem.run_inactive {m : Sem} {h : Hdr} {s : State} (hi : s.me.issue.isSome = true)
    (ha : s.me.active h m.branch = false) : m.run h s = .next s := by
  simp [Sem.run, hi, ha]

/-- Outside an issue, an operation whose check fails takes the trap. -/
theorem Sem.run_trap {m : Sem} {h : Hdr} {s : State} {t : Trap} (hi : s.me.issue.isSome = false)
    (ht : m.trapOf h s = some t) : m.run h s = .next (takeTrap t s) := by
  simp [Sem.run, hi, ht]

/-- A next state changed is a next state. -/
@[simp] theorem andThen_next (s : State) (f : State → State) : andThen (.next s) f = .next (f s) := rfl

/-- `andThen` answers a next state exactly where its first outcome does. -/
theorem andThen_eq_next {o : Host.Outcome State Fault Refusal} {f : State → State} {t : State}
    (e : andThen o f = .next t) : ∃ s, o = .next s ∧ t = f s := by
  cases o with
  | next s => exact ⟨s, rfl, by simpa using e.symm⟩
  | fault r => cases e
  | refused r => cases e

/-- Everything that the choice among timed accesses can answer (R164): none, or one that stands in the list, that `p` admits and that may
be made, with the rest of the list. -/
theorem State.nextTimed_cases (s : State) (n : Nat) (p : Timed → Bool) :
    s.nextTimed n p = none ∨
    ∃ x r, s.nextTimed n p = some (x, r) ∧ x ∈ (s.coreAt n).timed ∧ p x = true ∧ s.timedReady n x = true := by
  cases h : s.nextTimed n p with
  | none => exact .inl rfl
  | some y =>
    refine .inr ⟨y.1, y.2, rfl, ?_⟩
    unfold State.nextTimed at h
    simp only at h
    split at h
    · cases h
    · have hm := takeFirst_mem h
      simp only [Bool.and_eq_true] at hm
      exact ⟨hm.1, hm.2.1.1.1.1, hm.2.1.1.1.2⟩

/-- With no timed access nothing is made at a freeze. -/
theorem State.drainTimed_nil (s : State) (n fuel : Nat) (h : (s.coreAt n).timed = []) : s.drainTimed n fuel = s := by
  have e : s.nextTimed n (fun _ => true) = none := by simp [State.nextTimed, h]
  cases fuel <;> simp [State.drainTimed, e]

end Sys2Proof.Machine
end

