-- ==== Sys2Proof/Laws/State.lean ====
section
/-! SUPPORT. One lemma per field and named update of State and of Core, and what the register operations read back. -/

namespace Sys2Proof.Machine

set_option Elab.async false

/-! ## Updates of the package -/

@[simp] theorem State.putCore_turn (s : State) (n : Nat) (c : Core) : (s.putCore n c).turn = s.turn := rfl
@[simp] theorem State.putCore_tick (s : State) (n : Nat) (c : Core) : (s.putCore n c).tick = s.tick := rfl
@[simp] theorem State.putCore_free (s : State) (n : Nat) (c : Core) : (s.putCore n c).free = s.free := rfl
@[simp] theorem State.putCore_home (s : State) (n : Nat) (c : Core) : (s.putCore n c).home = s.home := rfl
@[simp] theorem State.putCore_owner (s : State) (n : Nat) (c : Core) : (s.putCore n c).owner = s.owner := rfl
@[simp] theorem State.putCore_dirty (s : State) (n : Nat) (c : Core) : (s.putCore n c).dirty = s.dirty := rfl
@[simp] theorem State.putCore_loft (s : State) (n : Nat) (c : Core) : (s.putCore n c).loft = s.loft := rfl
@[simp] theorem State.putCore_cmem (s : State) (n : Nat) (c : Core) : (s.putCore n c).cmem = s.cmem := rfl
@[simp] theorem State.putCore_outq (s : State) (n : Nat) (c : Core) : (s.putCore n c).outq = s.outq := rfl
@[simp] theorem State.putCore_dies (s : State) (n : Nat) (c : Core) : (s.putCore n c).dies = s.dies := rfl
@[simp] theorem State.putCore_contexts (s : State) (n : Nat) (c : Core) : (s.putCore n c).contexts = s.contexts := rfl
@[simp] theorem State.putCore_records (s : State) (n : Nat) (c : Core) : (s.putCore n c).records = s.records := rfl
@[simp] theorem State.putCore_clusterTlb (s : State) (n : Nat) (c : Core) : (s.putCore n c).clusterTlb = s.clusterTlb := rfl
@[simp] theorem State.putCore_inbox (s : State) (n : Nat) (c : Core) : (s.putCore n c).inbox = s.inbox := rfl
@[simp] theorem State.putCore_hub (s : State) (n : Nat) (c : Core) : (s.putCore n c).hub = s.hub := rfl
@[simp] theorem State.putCore_launches (s : State) (n : Nat) (c : Core) : (s.putCore n c).launches = s.launches := rfl
@[simp] theorem State.putCore_graphs (s : State) (n : Nat) (c : Core) : (s.putCore n c).graphs = s.graphs := rfl
@[simp] theorem State.putCore_nextId (s : State) (n : Nat) (c : Core) : (s.putCore n c).nextId = s.nextId := rfl
@[simp] theorem State.putCore_queues (s : State) (n : Nat) (c : Core) : (s.putCore n c).queues = s.queues := rfl
@[simp] theorem State.putCore_packets (s : State) (n : Nat) (c : Core) : (s.putCore n c).packets = s.packets := rfl
@[simp] theorem State.putCore_fills (s : State) (n : Nat) (c : Core) : (s.putCore n c).fills = s.fills := rfl
@[simp] theorem State.putCore_fast (s : State) (n : Nat) (c : Core) : (s.putCore n c).fast = s.fast := rfl
@[simp] theorem State.putCore_served (s : State) (n : Nat) (c : Core) : (s.putCore n c).served = s.served := rfl
@[simp] theorem State.putCore_saved (s : State) (n : Nat) (c : Core) : (s.putCore n c).saved = s.saved := rfl
@[simp] theorem State.putCore_cores (s : State) (n : Nat) (c : Core) : (s.putCore n c).cores = SMap.put s.cores n c := rfl

@[simp] theorem State.onMe_turn (s : State) (f : Core → Core) : (s.onMe f).turn = s.turn := rfl
@[simp] theorem State.onMe_tick (s : State) (f : Core → Core) : (s.onMe f).tick = s.tick := rfl
@[simp] theorem State.onMe_free (s : State) (f : Core → Core) : (s.onMe f).free = s.free := rfl
@[simp] theorem State.onMe_home (s : State) (f : Core → Core) : (s.onMe f).home = s.home := rfl
@[simp] theorem State.onMe_owner (s : State) (f : Core → Core) : (s.onMe f).owner = s.owner := rfl
@[simp] theorem State.onMe_dirty (s : State) (f : Core → Core) : (s.onMe f).dirty = s.dirty := rfl
@[simp] theorem State.onMe_loft (s : State) (f : Core → Core) : (s.onMe f).loft = s.loft := rfl
@[simp] theorem State.onMe_cmem (s : State) (f : Core → Core) : (s.onMe f).cmem = s.cmem := rfl
@[simp] theorem State.onMe_outq (s : State) (f : Core → Core) : (s.onMe f).outq = s.outq := rfl
@[simp] theorem State.onMe_dies (s : State) (f : Core → Core) : (s.onMe f).dies = s.dies := rfl
@[simp] theorem State.onMe_contexts (s : State) (f : Core → Core) : (s.onMe f).contexts = s.contexts := rfl
@[simp] theorem State.onMe_records (s : State) (f : Core → Core) : (s.onMe f).records = s.records := rfl
@[simp] theorem State.onMe_clusterTlb (s : State) (f : Core → Core) : (s.onMe f).clusterTlb = s.clusterTlb := rfl
@[simp] theorem State.onMe_inbox (s : State) (f : Core → Core) : (s.onMe f).inbox = s.inbox := rfl
@[simp] theorem State.onMe_hub (s : State) (f : Core → Core) : (s.onMe f).hub = s.hub := rfl
@[simp] theorem State.onMe_launches (s : State) (f : Core → Core) : (s.onMe f).launches = s.launches := rfl
@[simp] theorem State.onMe_graphs (s : State) (f : Core → Core) : (s.onMe f).graphs = s.graphs := rfl
@[simp] theorem State.onMe_nextId (s : State) (f : Core → Core) : (s.onMe f).nextId = s.nextId := rfl
@[simp] theorem State.onMe_queues (s : State) (f : Core → Core) : (s.onMe f).queues = s.queues := rfl
@[simp] theorem State.onMe_packets (s : State) (f : Core → Core) : (s.onMe f).packets = s.packets := rfl
@[simp] theorem State.onMe_fills (s : State) (f : Core → Core) : (s.onMe f).fills = s.fills := rfl
@[simp] theorem State.onMe_fast (s : State) (f : Core → Core) : (s.onMe f).fast = s.fast := rfl
@[simp] theorem State.onMe_served (s : State) (f : Core → Core) : (s.onMe f).served = s.served := rfl
@[simp] theorem State.onMe_saved (s : State) (f : Core → Core) : (s.onMe f).saved = s.saved := rfl

@[simp] theorem State.putDie_turn (s : State) (d : Nat) (x : Die) : (s.putDie d x).turn = s.turn := rfl
@[simp] theorem State.putDie_tick (s : State) (d : Nat) (x : Die) : (s.putDie d x).tick = s.tick := rfl
@[simp] theorem State.putDie_free (s : State) (d : Nat) (x : Die) : (s.putDie d x).free = s.free := rfl
@[simp] theorem State.putDie_cores (s : State) (d : Nat) (x : Die) : (s.putDie d x).cores = s.cores := rfl
@[simp] theorem State.putDie_home (s : State) (d : Nat) (x : Die) : (s.putDie d x).home = s.home := rfl
@[simp] theorem State.putDie_owner (s : State) (d : Nat) (x : Die) : (s.putDie d x).owner = s.owner := rfl
@[simp] theorem State.putDie_dirty (s : State) (d : Nat) (x : Die) : (s.putDie d x).dirty = s.dirty := rfl
@[simp] theorem State.putDie_loft (s : State) (d : Nat) (x : Die) : (s.putDie d x).loft = s.loft := rfl
@[simp] theorem State.putDie_cmem (s : State) (d : Nat) (x : Die) : (s.putDie d x).cmem = s.cmem := rfl
@[simp] theorem State.putDie_outq (s : State) (d : Nat) (x : Die) : (s.putDie d x).outq = s.outq := rfl
@[simp] theorem State.putDie_contexts (s : State) (d : Nat) (x : Die) : (s.putDie d x).contexts = s.contexts := rfl
@[simp] theorem State.putDie_records (s : State) (d : Nat) (x : Die) : (s.putDie d x).records = s.records := rfl
@[simp] theorem State.putDie_clusterTlb (s : State) (d : Nat) (x : Die) : (s.putDie d x).clusterTlb = s.clusterTlb := rfl
@[simp] theorem State.putDie_inbox (s : State) (d : Nat) (x : Die) : (s.putDie d x).inbox = s.inbox := rfl
@[simp] theorem State.putDie_hub (s : State) (d : Nat) (x : Die) : (s.putDie d x).hub = s.hub := rfl
@[simp] theorem State.putDie_launches (s : State) (d : Nat) (x : Die) : (s.putDie d x).launches = s.launches := rfl
@[simp] theorem State.putDie_graphs (s : State) (d : Nat) (x : Die) : (s.putDie d x).graphs = s.graphs := rfl
@[simp] theorem State.putDie_nextId (s : State) (d : Nat) (x : Die) : (s.putDie d x).nextId = s.nextId := rfl
@[simp] theorem State.putDie_queues (s : State) (d : Nat) (x : Die) : (s.putDie d x).queues = s.queues := rfl
@[simp] theorem State.putDie_packets (s : State) (d : Nat) (x : Die) : (s.putDie d x).packets = s.packets := rfl
@[simp] theorem State.putDie_fills (s : State) (d : Nat) (x : Die) : (s.putDie d x).fills = s.fills := rfl
@[simp] theorem State.putDie_fast (s : State) (d : Nat) (x : Die) : (s.putDie d x).fast = s.fast := rfl
@[simp] theorem State.putDie_served (s : State) (d : Nat) (x : Die) : (s.putDie d x).served = s.served := rfl
@[simp] theorem State.putDie_saved (s : State) (d : Nat) (x : Die) : (s.putDie d x).saved = s.saved := rfl
@[simp] theorem State.putDie_dies (s : State) (d : Nat) (x : Die) : (s.putDie d x).dies = SMap.put s.dies d x := rfl

@[simp] theorem State.withPick_tick (s : State) (p : Nat) : (s.withPick p).tick = s.tick := rfl
@[simp] theorem State.withPick_free (s : State) (p : Nat) : (s.withPick p).free = s.free := rfl
@[simp] theorem State.withPick_cores (s : State) (p : Nat) : (s.withPick p).cores = s.cores := rfl
@[simp] theorem State.withPick_home (s : State) (p : Nat) : (s.withPick p).home = s.home := rfl
@[simp] theorem State.withPick_owner (s : State) (p : Nat) : (s.withPick p).owner = s.owner := rfl
@[simp] theorem State.withPick_dirty (s : State) (p : Nat) : (s.withPick p).dirty = s.dirty := rfl
@[simp] theorem State.withPick_loft (s : State) (p : Nat) : (s.withPick p).loft = s.loft := rfl
@[simp] theorem State.withPick_cmem (s : State) (p : Nat) : (s.withPick p).cmem = s.cmem := rfl
@[simp] theorem State.withPick_outq (s : State) (p : Nat) : (s.withPick p).outq = s.outq := rfl
@[simp] theorem State.withPick_dies (s : State) (p : Nat) : (s.withPick p).dies = s.dies := rfl
@[simp] theorem State.withPick_contexts (s : State) (p : Nat) : (s.withPick p).contexts = s.contexts := rfl
@[simp] theorem State.withPick_records (s : State) (p : Nat) : (s.withPick p).records = s.records := rfl
@[simp] theorem State.withPick_clusterTlb (s : State) (p : Nat) : (s.withPick p).clusterTlb = s.clusterTlb := rfl
@[simp] theorem State.withPick_inbox (s : State) (p : Nat) : (s.withPick p).inbox = s.inbox := rfl
@[simp] theorem State.withPick_hub (s : State) (p : Nat) : (s.withPick p).hub = s.hub := rfl
@[simp] theorem State.withPick_launches (s : State) (p : Nat) : (s.withPick p).launches = s.launches := rfl
@[simp] theorem State.withPick_graphs (s : State) (p : Nat) : (s.withPick p).graphs = s.graphs := rfl
@[simp] theorem State.withPick_nextId (s : State) (p : Nat) : (s.withPick p).nextId = s.nextId := rfl
@[simp] theorem State.withPick_queues (s : State) (p : Nat) : (s.withPick p).queues = s.queues := rfl
@[simp] theorem State.withPick_packets (s : State) (p : Nat) : (s.withPick p).packets = s.packets := rfl
@[simp] theorem State.withPick_fills (s : State) (p : Nat) : (s.withPick p).fills = s.fills := rfl
@[simp] theorem State.withPick_fast (s : State) (p : Nat) : (s.withPick p).fast = s.fast := rfl
@[simp] theorem State.withPick_served (s : State) (p : Nat) : (s.withPick p).served = s.served := rfl
@[simp] theorem State.withPick_saved (s : State) (p : Nat) : (s.withPick p).saved = s.saved := rfl

@[simp] theorem State.coreAt_putCore (s : State) (n m : Nat) (c : Core) :
    (s.putCore n c).coreAt m = if m = n then c else s.coreAt m := by
  unfold State.coreAt State.putCore
  exact SMap.get_put ..

@[simp] theorem State.dieAt_putDie (s : State) (n m : Nat) (x : Die) :
    (s.putDie n x).dieAt m = if m = n then x else s.dieAt m := by
  simp only [State.dieAt, State.putDie, SMap.get_put]

@[simp] theorem State.coreNo_putCore (s : State) (n : Nat) (c : Core) : (s.putCore n c).coreNo = s.coreNo := rfl
@[simp] theorem State.coreNo_onMe (s : State) (f : Core → Core) : (s.onMe f).coreNo = s.coreNo := rfl
@[simp] theorem State.dieAt_putCore (s : State) (n d : Nat) (c : Core) : (s.putCore n c).dieAt d = s.dieAt d := rfl
@[simp] theorem State.dieAt_onMe (s : State) (d : Nat) (f : Core → Core) : (s.onMe f).dieAt d = s.dieAt d := rfl

/-- The core whose turn it is, after a change of it. -/
@[simp] theorem State.me_onMe (s : State) (f : Core → Core) : (s.onMe f).me = f s.me := by
  simp [State.me, State.onMe]

/-- Another core is left as it was. -/
theorem State.coreAt_onMe (s : State) (f : Core → Core) (n : Nat) :
    (s.onMe f).coreAt n = if n = s.coreNo then f s.me else s.coreAt n := by
  simp [State.onMe]

/-! ## Updates of a core -/

@[simp] theorem Core.putS_id (c : Core) (n : Nat) (r : SReg) : (c.putS n r).id = c.id := rfl
@[simp] theorem Core.putS_engmap (c : Core) (n : Nat) (r : SReg) : (c.putS n r).engmap = c.engmap := rfl
@[simp] theorem Core.putS_lanefuse (c : Core) (n : Nat) (r : SReg) : (c.putS n r).lanefuse = c.lanefuse := rfl
@[simp] theorem Core.putS_withdrawn (c : Core) (n : Nat) (r : SReg) : (c.putS n r).withdrawn = c.withdrawn := rfl
@[simp] theorem Core.putS_p (c : Core) (n : Nat) (r : SReg) : (c.putS n r).p = c.p := rfl
@[simp] theorem Core.putS_m (c : Core) (n : Nat) (r : SReg) : (c.putS n r).m = c.m := rfl
@[simp] theorem Core.putS_v (c : Core) (n : Nat) (r : SReg) : (c.putS n r).v = c.v := rfl
@[simp] theorem Core.putS_t (c : Core) (n : Nat) (r : SReg) : (c.putS n r).t = c.t := rfl
@[simp] theorem Core.putS_ring (c : Core) (n : Nat) (r : SReg) : (c.putS n r).ring = c.ring := rfl
@[simp] theorem Core.putS_b (c : Core) (n : Nat) (r : SReg) : (c.putS n r).b = c.b := rfl
@[simp] theorem Core.putS_k (c : Core) (n : Nat) (r : SReg) : (c.putS n r).k = c.k := rfl
@[simp] theorem Core.putS_sw (c : Core) (n : Nat) (r : SReg) : (c.putS n r).sw = c.sw := rfl
@[simp] theorem Core.putS_flumes (c : Core) (n : Nat) (r : SReg) : (c.putS n r).flumes = c.flumes := rfl
@[simp] theorem Core.putS_latch (c : Core) (n : Nat) (r : SReg) : (c.putS n r).latch = c.latch := rfl
@[simp] theorem Core.putS_arr (c : Core) (n : Nat) (r : SReg) : (c.putS n r).arr = c.arr := rfl
@[simp] theorem Core.putS_pops (c : Core) (n : Nat) (r : SReg) : (c.putS n r).pops = c.pops := rfl
@[simp] theorem Core.putS_pc (c : Core) (n : Nat) (r : SReg) : (c.putS n r).pc = c.pc := rfl
@[simp] theorem Core.putS_time (c : Core) (n : Nat) (r : SReg) : (c.putS n r).time = c.time := rfl
@[simp] theorem Core.putS_next (c : Core) (n : Nat) (r : SReg) : (c.putS n r).next = c.next := rfl
@[simp] theorem Core.putS_running (c : Core) (n : Nat) (r : SReg) : (c.putS n r).running = c.running := rfl
@[simp] theorem Core.putS_issue (c : Core) (n : Nat) (r : SReg) : (c.putS n r).issue = c.issue := rfl
@[simp] theorem Core.putS_charged (c : Core) (n : Nat) (r : SReg) : (c.putS n r).charged = c.charged := rfl
@[simp] theorem Core.putS_rvDone (c : Core) (n : Nat) (r : SReg) : (c.putS n r).rvDone = c.rvDone := rfl
@[simp] theorem Core.putS_skipNext (c : Core) (n : Nat) (r : SReg) : (c.putS n r).skipNext = c.skipNext := rfl
@[simp] theorem Core.putS_padDone (c : Core) (n : Nat) (r : SReg) : (c.putS n r).padDone = c.padDone := rfl
@[simp] theorem Core.putS_noOpen (c : Core) (n : Nat) (r : SReg) : (c.putS n r).noOpen = c.noOpen := rfl
@[simp] theorem Core.putS_supSeg (c : Core) (n : Nat) (r : SReg) : (c.putS n r).supSeg = c.supSeg := rfl
@[simp] theorem Core.putS_rewound (c : Core) (n : Nat) (r : SReg) : (c.putS n r).rewound = c.rewound := rfl
@[simp] theorem Core.putS_entering (c : Core) (n : Nat) (r : SReg) : (c.putS n r).entering = c.entering := rfl
@[simp] theorem Core.putS_supFrom (c : Core) (n : Nat) (r : SReg) : (c.putS n r).supFrom = c.supFrom := rfl
@[simp] theorem Core.putS_wants (c : Core) (n : Nat) (r : SReg) : (c.putS n r).wants = c.wants := rfl
@[simp] theorem Core.putS_drains (c : Core) (n : Nat) (r : SReg) : (c.putS n r).drains = c.drains := rfl
@[simp] theorem Core.putS_padStores (c : Core) (n : Nat) (r : SReg) : (c.putS n r).padStores = c.padStores := rfl
@[simp] theorem Core.putS_xfer (c : Core) (n : Nat) (r : SReg) : (c.putS n r).xfer = c.xfer := rfl
@[simp] theorem Core.putS_flights (c : Core) (n : Nat) (r : SReg) : (c.putS n r).flights = c.flights := rfl
@[simp] theorem Core.putS_timed (c : Core) (n : Nat) (r : SReg) : (c.putS n r).timed = c.timed := rfl
@[simp] theorem Core.putS_c0free (c : Core) (n : Nat) (r : SReg) : (c.putS n r).c0free = c.c0free := rfl
@[simp] theorem Core.putS_slip (c : Core) (n : Nat) (r : SReg) : (c.putS n r).slip = c.slip := rfl
@[simp] theorem Core.putS_cap (c : Core) (n : Nat) (r : SReg) : (c.putS n r).cap = c.cap := rfl
@[simp] theorem Core.putS_capTree (c : Core) (n : Nat) (r : SReg) : (c.putS n r).capTree = c.capTree := rfl
@[simp] theorem Core.putS_fetch (c : Core) (n : Nat) (r : SReg) : (c.putS n r).fetch = c.fetch := rfl
@[simp] theorem Core.putS_hold (c : Core) (n : Nat) (r : SReg) : (c.putS n r).hold = c.hold := rfl
@[simp] theorem Core.putS_async (c : Core) (n : Nat) (r : SReg) : (c.putS n r).async = c.async := rfl
@[simp] theorem Core.putS_supAsync (c : Core) (n : Nat) (r : SReg) : (c.putS n r).supAsync = c.supAsync := rfl
@[simp] theorem Core.putS_held (c : Core) (n : Nat) (r : SReg) : (c.putS n r).held = c.held := rfl
@[simp] theorem Core.putS_seg (c : Core) (n : Nat) (r : SReg) : (c.putS n r).seg = c.seg := rfl
@[simp] theorem Core.putS_phase (c : Core) (n : Nat) (r : SReg) : (c.putS n r).phase = c.phase := rfl
@[simp] theorem Core.putS_l1 (c : Core) (n : Nat) (r : SReg) : (c.putS n r).l1 = c.l1 := rfl
@[simp] theorem Core.putS_sb (c : Core) (n : Nat) (r : SReg) : (c.putS n r).sb = c.sb := rfl
@[simp] theorem Core.putS_loads (c : Core) (n : Nat) (r : SReg) : (c.putS n r).loads = c.loads := rfl
@[simp] theorem Core.putS_fences (c : Core) (n : Nat) (r : SReg) : (c.putS n r).fences = c.fences := rfl
@[simp] theorem Core.putS_claim (c : Core) (n : Nat) (r : SReg) : (c.putS n r).claim = c.claim := rfl
@[simp] theorem Core.putS_engines (c : Core) (n : Nat) (r : SReg) : (c.putS n r).engines = c.engines := rfl
@[simp] theorem Core.putS_seq (c : Core) (n : Nat) (r : SReg) : (c.putS n r).seq = c.seq := rfl
@[simp] theorem Core.putS_tlb (c : Core) (n : Nat) (r : SReg) : (c.putS n r).tlb = c.tlb := rfl
@[simp] theorem Core.putS_inval (c : Core) (n : Nat) (r : SReg) : (c.putS n r).inval = c.inval := rfl
@[simp] theorem Core.putS_scratch (c : Core) (n : Nat) (r : SReg) : (c.putS n r).scratch = c.scratch := rfl
@[simp] theorem Core.putS_slices (c : Core) (n : Nat) (r : SReg) : (c.putS n r).slices = c.slices := rfl
@[simp] theorem Core.putS_unit (c : Core) (n : Nat) (r : SReg) : (c.putS n r).unit = c.unit := rfl
@[simp] theorem Core.putS_job (c : Core) (n : Nat) (r : SReg) : (c.putS n r).job = c.job := rfl
@[simp] theorem Core.putS_failed (c : Core) (n : Nat) (r : SReg) : (c.putS n r).failed = c.failed := rfl
@[simp] theorem Core.putS_debugStop (c : Core) (n : Nat) (r : SReg) : (c.putS n r).debugStop = c.debugStop := rfl
@[simp] theorem Core.putS_debugStep (c : Core) (n : Nat) (r : SReg) : (c.putS n r).debugStep = c.debugStep := rfl
@[simp] theorem Core.putS_lastLaunch (c : Core) (n : Nat) (r : SReg) : (c.putS n r).lastLaunch = c.lastLaunch := rfl
@[simp] theorem Core.putS_waiting (c : Core) (n : Nat) (r : SReg) : (c.putS n r).waiting = c.waiting := rfl

@[simp] theorem Core.putM_id (c : Core) (n : Nat) (r : MReg) : (c.putM n r).id = c.id := rfl
@[simp] theorem Core.putM_engmap (c : Core) (n : Nat) (r : MReg) : (c.putM n r).engmap = c.engmap := rfl
@[simp] theorem Core.putM_lanefuse (c : Core) (n : Nat) (r : MReg) : (c.putM n r).lanefuse = c.lanefuse := rfl
@[simp] theorem Core.putM_withdrawn (c : Core) (n : Nat) (r : MReg) : (c.putM n r).withdrawn = c.withdrawn := rfl
@[simp] theorem Core.putM_s (c : Core) (n : Nat) (r : MReg) : (c.putM n r).s = c.s := rfl
@[simp] theorem Core.putM_p (c : Core) (n : Nat) (r : MReg) : (c.putM n r).p = c.p := rfl
@[simp] theorem Core.putM_v (c : Core) (n : Nat) (r : MReg) : (c.putM n r).v = c.v := rfl
@[simp] theorem Core.putM_t (c : Core) (n : Nat) (r : MReg) : (c.putM n r).t = c.t := rfl
@[simp] theorem Core.putM_ring (c : Core) (n : Nat) (r : MReg) : (c.putM n r).ring = c.ring := rfl
@[simp] theorem Core.putM_b (c : Core) (n : Nat) (r : MReg) : (c.putM n r).b = c.b := rfl
@[simp] theorem Core.putM_k (c : Core) (n : Nat) (r : MReg) : (c.putM n r).k = c.k := rfl
@[simp] theorem Core.putM_sw (c : Core) (n : Nat) (r : MReg) : (c.putM n r).sw = c.sw := rfl
@[simp] theorem Core.putM_flumes (c : Core) (n : Nat) (r : MReg) : (c.putM n r).flumes = c.flumes := rfl
@[simp] theorem Core.putM_latch (c : Core) (n : Nat) (r : MReg) : (c.putM n r).latch = c.latch := rfl
@[simp] theorem Core.putM_arr (c : Core) (n : Nat) (r : MReg) : (c.putM n r).arr = c.arr := rfl
@[simp] theorem Core.putM_pops (c : Core) (n : Nat) (r : MReg) : (c.putM n r).pops = c.pops := rfl
@[simp] theorem Core.putM_pc (c : Core) (n : Nat) (r : MReg) : (c.putM n r).pc = c.pc := rfl
@[simp] theorem Core.putM_time (c : Core) (n : Nat) (r : MReg) : (c.putM n r).time = c.time := rfl
@[simp] theorem Core.putM_next (c : Core) (n : Nat) (r : MReg) : (c.putM n r).next = c.next := rfl
@[simp] theorem Core.putM_running (c : Core) (n : Nat) (r : MReg) : (c.putM n r).running = c.running := rfl
@[simp] theorem Core.putM_issue (c : Core) (n : Nat) (r : MReg) : (c.putM n r).issue = c.issue := rfl
@[simp] theorem Core.putM_charged (c : Core) (n : Nat) (r : MReg) : (c.putM n r).charged = c.charged := rfl
@[simp] theorem Core.putM_rvDone (c : Core) (n : Nat) (r : MReg) : (c.putM n r).rvDone = c.rvDone := rfl
@[simp] theorem Core.putM_skipNext (c : Core) (n : Nat) (r : MReg) : (c.putM n r).skipNext = c.skipNext := rfl
@[simp] theorem Core.putM_padDone (c : Core) (n : Nat) (r : MReg) : (c.putM n r).padDone = c.padDone := rfl
@[simp] theorem Core.putM_noOpen (c : Core) (n : Nat) (r : MReg) : (c.putM n r).noOpen = c.noOpen := rfl
@[simp] theorem Core.putM_supSeg (c : Core) (n : Nat) (r : MReg) : (c.putM n r).supSeg = c.supSeg := rfl
@[simp] theorem Core.putM_rewound (c : Core) (n : Nat) (r : MReg) : (c.putM n r).rewound = c.rewound := rfl
@[simp] theorem Core.putM_entering (c : Core) (n : Nat) (r : MReg) : (c.putM n r).entering = c.entering := rfl
@[simp] theorem Core.putM_supFrom (c : Core) (n : Nat) (r : MReg) : (c.putM n r).supFrom = c.supFrom := rfl
@[simp] theorem Core.putM_wants (c : Core) (n : Nat) (r : MReg) : (c.putM n r).wants = c.wants := rfl
@[simp] theorem Core.putM_drains (c : Core) (n : Nat) (r : MReg) : (c.putM n r).drains = c.drains := rfl
@[simp] theorem Core.putM_padStores (c : Core) (n : Nat) (r : MReg) : (c.putM n r).padStores = c.padStores := rfl
@[simp] theorem Core.putM_xfer (c : Core) (n : Nat) (r : MReg) : (c.putM n r).xfer = c.xfer := rfl
@[simp] theorem Core.putM_flights (c : Core) (n : Nat) (r : MReg) : (c.putM n r).flights = c.flights := rfl
@[simp] theorem Core.putM_timed (c : Core) (n : Nat) (r : MReg) : (c.putM n r).timed = c.timed := rfl
@[simp] theorem Core.putM_c0free (c : Core) (n : Nat) (r : MReg) : (c.putM n r).c0free = c.c0free := rfl
@[simp] theorem Core.putM_slip (c : Core) (n : Nat) (r : MReg) : (c.putM n r).slip = c.slip := rfl
@[simp] theorem Core.putM_cap (c : Core) (n : Nat) (r : MReg) : (c.putM n r).cap = c.cap := rfl
@[simp] theorem Core.putM_capTree (c : Core) (n : Nat) (r : MReg) : (c.putM n r).capTree = c.capTree := rfl
@[simp] theorem Core.putM_fetch (c : Core) (n : Nat) (r : MReg) : (c.putM n r).fetch = c.fetch := rfl
@[simp] theorem Core.putM_hold (c : Core) (n : Nat) (r : MReg) : (c.putM n r).hold = c.hold := rfl
@[simp] theorem Core.putM_async (c : Core) (n : Nat) (r : MReg) : (c.putM n r).async = c.async := rfl
@[simp] theorem Core.putM_supAsync (c : Core) (n : Nat) (r : MReg) : (c.putM n r).supAsync = c.supAsync := rfl
@[simp] theorem Core.putM_held (c : Core) (n : Nat) (r : MReg) : (c.putM n r).held = c.held := rfl
@[simp] theorem Core.putM_seg (c : Core) (n : Nat) (r : MReg) : (c.putM n r).seg = c.seg := rfl
@[simp] theorem Core.putM_phase (c : Core) (n : Nat) (r : MReg) : (c.putM n r).phase = c.phase := rfl
@[simp] theorem Core.putM_l1 (c : Core) (n : Nat) (r : MReg) : (c.putM n r).l1 = c.l1 := rfl
@[simp] theorem Core.putM_sb (c : Core) (n : Nat) (r : MReg) : (c.putM n r).sb = c.sb := rfl
@[simp] theorem Core.putM_loads (c : Core) (n : Nat) (r : MReg) : (c.putM n r).loads = c.loads := rfl
@[simp] theorem Core.putM_fences (c : Core) (n : Nat) (r : MReg) : (c.putM n r).fences = c.fences := rfl
@[simp] theorem Core.putM_claim (c : Core) (n : Nat) (r : MReg) : (c.putM n r).claim = c.claim := rfl
@[simp] theorem Core.putM_engines (c : Core) (n : Nat) (r : MReg) : (c.putM n r).engines = c.engines := rfl
@[simp] theorem Core.putM_seq (c : Core) (n : Nat) (r : MReg) : (c.putM n r).seq = c.seq := rfl
@[simp] theorem Core.putM_tlb (c : Core) (n : Nat) (r : MReg) : (c.putM n r).tlb = c.tlb := rfl
@[simp] theorem Core.putM_inval (c : Core) (n : Nat) (r : MReg) : (c.putM n r).inval = c.inval := rfl
@[simp] theorem Core.putM_scratch (c : Core) (n : Nat) (r : MReg) : (c.putM n r).scratch = c.scratch := rfl
@[simp] theorem Core.putM_slices (c : Core) (n : Nat) (r : MReg) : (c.putM n r).slices = c.slices := rfl
@[simp] theorem Core.putM_unit (c : Core) (n : Nat) (r : MReg) : (c.putM n r).unit = c.unit := rfl
@[simp] theorem Core.putM_job (c : Core) (n : Nat) (r : MReg) : (c.putM n r).job = c.job := rfl
@[simp] theorem Core.putM_failed (c : Core) (n : Nat) (r : MReg) : (c.putM n r).failed = c.failed := rfl
@[simp] theorem Core.putM_debugStop (c : Core) (n : Nat) (r : MReg) : (c.putM n r).debugStop = c.debugStop := rfl
@[simp] theorem Core.putM_debugStep (c : Core) (n : Nat) (r : MReg) : (c.putM n r).debugStep = c.debugStep := rfl
@[simp] theorem Core.putM_lastLaunch (c : Core) (n : Nat) (r : MReg) : (c.putM n r).lastLaunch = c.lastLaunch := rfl
@[simp] theorem Core.putM_waiting (c : Core) (n : Nat) (r : MReg) : (c.putM n r).waiting = c.waiting := rfl

@[simp] theorem Core.putV_id (c : Core) (n : Nat) (r : VReg) : (c.putV n r).id = c.id := rfl
@[simp] theorem Core.putV_engmap (c : Core) (n : Nat) (r : VReg) : (c.putV n r).engmap = c.engmap := rfl
@[simp] theorem Core.putV_lanefuse (c : Core) (n : Nat) (r : VReg) : (c.putV n r).lanefuse = c.lanefuse := rfl
@[simp] theorem Core.putV_withdrawn (c : Core) (n : Nat) (r : VReg) : (c.putV n r).withdrawn = c.withdrawn := rfl
@[simp] theorem Core.putV_s (c : Core) (n : Nat) (r : VReg) : (c.putV n r).s = c.s := rfl
@[simp] theorem Core.putV_p (c : Core) (n : Nat) (r : VReg) : (c.putV n r).p = c.p := rfl
@[simp] theorem Core.putV_m (c : Core) (n : Nat) (r : VReg) : (c.putV n r).m = c.m := rfl
@[simp] theorem Core.putV_t (c : Core) (n : Nat) (r : VReg) : (c.putV n r).t = c.t := rfl
@[simp] theorem Core.putV_ring (c : Core) (n : Nat) (r : VReg) : (c.putV n r).ring = c.ring := rfl
@[simp] theorem Core.putV_b (c : Core) (n : Nat) (r : VReg) : (c.putV n r).b = c.b := rfl
@[simp] theorem Core.putV_k (c : Core) (n : Nat) (r : VReg) : (c.putV n r).k = c.k := rfl
@[simp] theorem Core.putV_sw (c : Core) (n : Nat) (r : VReg) : (c.putV n r).sw = c.sw := rfl
@[simp] theorem Core.putV_flumes (c : Core) (n : Nat) (r : VReg) : (c.putV n r).flumes = c.flumes := rfl
@[simp] theorem Core.putV_latch (c : Core) (n : Nat) (r : VReg) : (c.putV n r).latch = c.latch := rfl
@[simp] theorem Core.putV_arr (c : Core) (n : Nat) (r : VReg) : (c.putV n r).arr = c.arr := rfl
@[simp] theorem Core.putV_pops (c : Core) (n : Nat) (r : VReg) : (c.putV n r).pops = c.pops := rfl
@[simp] theorem Core.putV_pc (c : Core) (n : Nat) (r : VReg) : (c.putV n r).pc = c.pc := rfl
@[simp] theorem Core.putV_time (c : Core) (n : Nat) (r : VReg) : (c.putV n r).time = c.time := rfl
@[simp] theorem Core.putV_next (c : Core) (n : Nat) (r : VReg) : (c.putV n r).next = c.next := rfl
@[simp] theorem Core.putV_running (c : Core) (n : Nat) (r : VReg) : (c.putV n r).running = c.running := rfl
@[simp] theorem Core.putV_issue (c : Core) (n : Nat) (r : VReg) : (c.putV n r).issue = c.issue := rfl
@[simp] theorem Core.putV_charged (c : Core) (n : Nat) (r : VReg) : (c.putV n r).charged = c.charged := rfl
@[simp] theorem Core.putV_rvDone (c : Core) (n : Nat) (r : VReg) : (c.putV n r).rvDone = c.rvDone := rfl
@[simp] theorem Core.putV_skipNext (c : Core) (n : Nat) (r : VReg) : (c.putV n r).skipNext = c.skipNext := rfl
@[simp] theorem Core.putV_padDone (c : Core) (n : Nat) (r : VReg) : (c.putV n r).padDone = c.padDone := rfl
@[simp] theorem Core.putV_noOpen (c : Core) (n : Nat) (r : VReg) : (c.putV n r).noOpen = c.noOpen := rfl
@[simp] theorem Core.putV_supSeg (c : Core) (n : Nat) (r : VReg) : (c.putV n r).supSeg = c.supSeg := rfl
@[simp] theorem Core.putV_rewound (c : Core) (n : Nat) (r : VReg) : (c.putV n r).rewound = c.rewound := rfl
@[simp] theorem Core.putV_entering (c : Core) (n : Nat) (r : VReg) : (c.putV n r).entering = c.entering := rfl
@[simp] theorem Core.putV_supFrom (c : Core) (n : Nat) (r : VReg) : (c.putV n r).supFrom = c.supFrom := rfl
@[simp] theorem Core.putV_wants (c : Core) (n : Nat) (r : VReg) : (c.putV n r).wants = c.wants := rfl
@[simp] theorem Core.putV_drains (c : Core) (n : Nat) (r : VReg) : (c.putV n r).drains = c.drains := rfl
@[simp] theorem Core.putV_padStores (c : Core) (n : Nat) (r : VReg) : (c.putV n r).padStores = c.padStores := rfl
@[simp] theorem Core.putV_xfer (c : Core) (n : Nat) (r : VReg) : (c.putV n r).xfer = c.xfer := rfl
@[simp] theorem Core.putV_flights (c : Core) (n : Nat) (r : VReg) : (c.putV n r).flights = c.flights := rfl
@[simp] theorem Core.putV_timed (c : Core) (n : Nat) (r : VReg) : (c.putV n r).timed = c.timed := rfl
@[simp] theorem Core.putV_c0free (c : Core) (n : Nat) (r : VReg) : (c.putV n r).c0free = c.c0free := rfl
@[simp] theorem Core.putV_slip (c : Core) (n : Nat) (r : VReg) : (c.putV n r).slip = c.slip := rfl
@[simp] theorem Core.putV_cap (c : Core) (n : Nat) (r : VReg) : (c.putV n r).cap = c.cap := rfl
@[simp] theorem Core.putV_capTree (c : Core) (n : Nat) (r : VReg) : (c.putV n r).capTree = c.capTree := rfl
@[simp] theorem Core.putV_fetch (c : Core) (n : Nat) (r : VReg) : (c.putV n r).fetch = c.fetch := rfl
@[simp] theorem Core.putV_hold (c : Core) (n : Nat) (r : VReg) : (c.putV n r).hold = c.hold := rfl
@[simp] theorem Core.putV_async (c : Core) (n : Nat) (r : VReg) : (c.putV n r).async = c.async := rfl
@[simp] theorem Core.putV_supAsync (c : Core) (n : Nat) (r : VReg) : (c.putV n r).supAsync = c.supAsync := rfl
@[simp] theorem Core.putV_held (c : Core) (n : Nat) (r : VReg) : (c.putV n r).held = c.held := rfl
@[simp] theorem Core.putV_seg (c : Core) (n : Nat) (r : VReg) : (c.putV n r).seg = c.seg := rfl
@[simp] theorem Core.putV_phase (c : Core) (n : Nat) (r : VReg) : (c.putV n r).phase = c.phase := rfl
@[simp] theorem Core.putV_l1 (c : Core) (n : Nat) (r : VReg) : (c.putV n r).l1 = c.l1 := rfl
@[simp] theorem Core.putV_sb (c : Core) (n : Nat) (r : VReg) : (c.putV n r).sb = c.sb := rfl
@[simp] theorem Core.putV_loads (c : Core) (n : Nat) (r : VReg) : (c.putV n r).loads = c.loads := rfl
@[simp] theorem Core.putV_fences (c : Core) (n : Nat) (r : VReg) : (c.putV n r).fences = c.fences := rfl
@[simp] theorem Core.putV_claim (c : Core) (n : Nat) (r : VReg) : (c.putV n r).claim = c.claim := rfl
@[simp] theorem Core.putV_engines (c : Core) (n : Nat) (r : VReg) : (c.putV n r).engines = c.engines := rfl
@[simp] theorem Core.putV_seq (c : Core) (n : Nat) (r : VReg) : (c.putV n r).seq = c.seq := rfl
@[simp] theorem Core.putV_tlb (c : Core) (n : Nat) (r : VReg) : (c.putV n r).tlb = c.tlb := rfl
@[simp] theorem Core.putV_inval (c : Core) (n : Nat) (r : VReg) : (c.putV n r).inval = c.inval := rfl
@[simp] theorem Core.putV_scratch (c : Core) (n : Nat) (r : VReg) : (c.putV n r).scratch = c.scratch := rfl
@[simp] theorem Core.putV_slices (c : Core) (n : Nat) (r : VReg) : (c.putV n r).slices = c.slices := rfl
@[simp] theorem Core.putV_unit (c : Core) (n : Nat) (r : VReg) : (c.putV n r).unit = c.unit := rfl
@[simp] theorem Core.putV_job (c : Core) (n : Nat) (r : VReg) : (c.putV n r).job = c.job := rfl
@[simp] theorem Core.putV_failed (c : Core) (n : Nat) (r : VReg) : (c.putV n r).failed = c.failed := rfl
@[simp] theorem Core.putV_debugStop (c : Core) (n : Nat) (r : VReg) : (c.putV n r).debugStop = c.debugStop := rfl
@[simp] theorem Core.putV_debugStep (c : Core) (n : Nat) (r : VReg) : (c.putV n r).debugStep = c.debugStep := rfl
@[simp] theorem Core.putV_lastLaunch (c : Core) (n : Nat) (r : VReg) : (c.putV n r).lastLaunch = c.lastLaunch := rfl
@[simp] theorem Core.putV_waiting (c : Core) (n : Nat) (r : VReg) : (c.putV n r).waiting = c.waiting := rfl

@[simp] theorem Core.putT_id (c : Core) (n : Nat) (r : TReg) : (c.putT n r).id = c.id := rfl
@[simp] theorem Core.putT_engmap (c : Core) (n : Nat) (r : TReg) : (c.putT n r).engmap = c.engmap := rfl
@[simp] theorem Core.putT_lanefuse (c : Core) (n : Nat) (r : TReg) : (c.putT n r).lanefuse = c.lanefuse := rfl
@[simp] theorem Core.putT_withdrawn (c : Core) (n : Nat) (r : TReg) : (c.putT n r).withdrawn = c.withdrawn := rfl
@[simp] theorem Core.putT_s (c : Core) (n : Nat) (r : TReg) : (c.putT n r).s = c.s := rfl
@[simp] theorem Core.putT_p (c : Core) (n : Nat) (r : TReg) : (c.putT n r).p = c.p := rfl
@[simp] theorem Core.putT_m (c : Core) (n : Nat) (r : TReg) : (c.putT n r).m = c.m := rfl
@[simp] theorem Core.putT_v (c : Core) (n : Nat) (r : TReg) : (c.putT n r).v = c.v := rfl
@[simp] theorem Core.putT_ring (c : Core) (n : Nat) (r : TReg) : (c.putT n r).ring = c.ring := rfl
@[simp] theorem Core.putT_b (c : Core) (n : Nat) (r : TReg) : (c.putT n r).b = c.b := rfl
@[simp] theorem Core.putT_k (c : Core) (n : Nat) (r : TReg) : (c.putT n r).k = c.k := rfl
@[simp] theorem Core.putT_sw (c : Core) (n : Nat) (r : TReg) : (c.putT n r).sw = c.sw := rfl
@[simp] theorem Core.putT_flumes (c : Core) (n : Nat) (r : TReg) : (c.putT n r).flumes = c.flumes := rfl
@[simp] theorem Core.putT_latch (c : Core) (n : Nat) (r : TReg) : (c.putT n r).latch = c.latch := rfl
@[simp] theorem Core.putT_arr (c : Core) (n : Nat) (r : TReg) : (c.putT n r).arr = c.arr := rfl
@[simp] theorem Core.putT_pops (c : Core) (n : Nat) (r : TReg) : (c.putT n r).pops = c.pops := rfl
@[simp] theorem Core.putT_pc (c : Core) (n : Nat) (r : TReg) : (c.putT n r).pc = c.pc := rfl
@[simp] theorem Core.putT_time (c : Core) (n : Nat) (r : TReg) : (c.putT n r).time = c.time := rfl
@[simp] theorem Core.putT_next (c : Core) (n : Nat) (r : TReg) : (c.putT n r).next = c.next := rfl
@[simp] theorem Core.putT_running (c : Core) (n : Nat) (r : TReg) : (c.putT n r).running = c.running := rfl
@[simp] theorem Core.putT_issue (c : Core) (n : Nat) (r : TReg) : (c.putT n r).issue = c.issue := rfl
@[simp] theorem Core.putT_charged (c : Core) (n : Nat) (r : TReg) : (c.putT n r).charged = c.charged := rfl
@[simp] theorem Core.putT_rvDone (c : Core) (n : Nat) (r : TReg) : (c.putT n r).rvDone = c.rvDone := rfl
@[simp] theorem Core.putT_skipNext (c : Core) (n : Nat) (r : TReg) : (c.putT n r).skipNext = c.skipNext := rfl
@[simp] theorem Core.putT_padDone (c : Core) (n : Nat) (r : TReg) : (c.putT n r).padDone = c.padDone := rfl
@[simp] theorem Core.putT_noOpen (c : Core) (n : Nat) (r : TReg) : (c.putT n r).noOpen = c.noOpen := rfl
@[simp] theorem Core.putT_supSeg (c : Core) (n : Nat) (r : TReg) : (c.putT n r).supSeg = c.supSeg := rfl
@[simp] theorem Core.putT_rewound (c : Core) (n : Nat) (r : TReg) : (c.putT n r).rewound = c.rewound := rfl
@[simp] theorem Core.putT_entering (c : Core) (n : Nat) (r : TReg) : (c.putT n r).entering = c.entering := rfl
@[simp] theorem Core.putT_supFrom (c : Core) (n : Nat) (r : TReg) : (c.putT n r).supFrom = c.supFrom := rfl
@[simp] theorem Core.putT_wants (c : Core) (n : Nat) (r : TReg) : (c.putT n r).wants = c.wants := rfl
@[simp] theorem Core.putT_drains (c : Core) (n : Nat) (r : TReg) : (c.putT n r).drains = c.drains := rfl
@[simp] theorem Core.putT_padStores (c : Core) (n : Nat) (r : TReg) : (c.putT n r).padStores = c.padStores := rfl
@[simp] theorem Core.putT_xfer (c : Core) (n : Nat) (r : TReg) : (c.putT n r).xfer = c.xfer := rfl
@[simp] theorem Core.putT_flights (c : Core) (n : Nat) (r : TReg) : (c.putT n r).flights = c.flights := rfl
@[simp] theorem Core.putT_timed (c : Core) (n : Nat) (r : TReg) : (c.putT n r).timed = c.timed := rfl
@[simp] theorem Core.putT_c0free (c : Core) (n : Nat) (r : TReg) : (c.putT n r).c0free = c.c0free := rfl
@[simp] theorem Core.putT_slip (c : Core) (n : Nat) (r : TReg) : (c.putT n r).slip = c.slip := rfl
@[simp] theorem Core.putT_cap (c : Core) (n : Nat) (r : TReg) : (c.putT n r).cap = c.cap := rfl
@[simp] theorem Core.putT_capTree (c : Core) (n : Nat) (r : TReg) : (c.putT n r).capTree = c.capTree := rfl
@[simp] theorem Core.putT_fetch (c : Core) (n : Nat) (r : TReg) : (c.putT n r).fetch = c.fetch := rfl
@[simp] theorem Core.putT_hold (c : Core) (n : Nat) (r : TReg) : (c.putT n r).hold = c.hold := rfl
@[simp] theorem Core.putT_async (c : Core) (n : Nat) (r : TReg) : (c.putT n r).async = c.async := rfl
@[simp] theorem Core.putT_supAsync (c : Core) (n : Nat) (r : TReg) : (c.putT n r).supAsync = c.supAsync := rfl
@[simp] theorem Core.putT_held (c : Core) (n : Nat) (r : TReg) : (c.putT n r).held = c.held := rfl
@[simp] theorem Core.putT_seg (c : Core) (n : Nat) (r : TReg) : (c.putT n r).seg = c.seg := rfl
@[simp] theorem Core.putT_phase (c : Core) (n : Nat) (r : TReg) : (c.putT n r).phase = c.phase := rfl
@[simp] theorem Core.putT_l1 (c : Core) (n : Nat) (r : TReg) : (c.putT n r).l1 = c.l1 := rfl
@[simp] theorem Core.putT_sb (c : Core) (n : Nat) (r : TReg) : (c.putT n r).sb = c.sb := rfl
@[simp] theorem Core.putT_loads (c : Core) (n : Nat) (r : TReg) : (c.putT n r).loads = c.loads := rfl
@[simp] theorem Core.putT_fences (c : Core) (n : Nat) (r : TReg) : (c.putT n r).fences = c.fences := rfl
@[simp] theorem Core.putT_claim (c : Core) (n : Nat) (r : TReg) : (c.putT n r).claim = c.claim := rfl
@[simp] theorem Core.putT_engines (c : Core) (n : Nat) (r : TReg) : (c.putT n r).engines = c.engines := rfl
@[simp] theorem Core.putT_seq (c : Core) (n : Nat) (r : TReg) : (c.putT n r).seq = c.seq := rfl
@[simp] theorem Core.putT_tlb (c : Core) (n : Nat) (r : TReg) : (c.putT n r).tlb = c.tlb := rfl
@[simp] theorem Core.putT_inval (c : Core) (n : Nat) (r : TReg) : (c.putT n r).inval = c.inval := rfl
@[simp] theorem Core.putT_scratch (c : Core) (n : Nat) (r : TReg) : (c.putT n r).scratch = c.scratch := rfl
@[simp] theorem Core.putT_slices (c : Core) (n : Nat) (r : TReg) : (c.putT n r).slices = c.slices := rfl
@[simp] theorem Core.putT_unit (c : Core) (n : Nat) (r : TReg) : (c.putT n r).unit = c.unit := rfl
@[simp] theorem Core.putT_job (c : Core) (n : Nat) (r : TReg) : (c.putT n r).job = c.job := rfl
@[simp] theorem Core.putT_failed (c : Core) (n : Nat) (r : TReg) : (c.putT n r).failed = c.failed := rfl
@[simp] theorem Core.putT_debugStop (c : Core) (n : Nat) (r : TReg) : (c.putT n r).debugStop = c.debugStop := rfl
@[simp] theorem Core.putT_debugStep (c : Core) (n : Nat) (r : TReg) : (c.putT n r).debugStep = c.debugStep := rfl
@[simp] theorem Core.putT_lastLaunch (c : Core) (n : Nat) (r : TReg) : (c.putT n r).lastLaunch = c.lastLaunch := rfl
@[simp] theorem Core.putT_waiting (c : Core) (n : Nat) (r : TReg) : (c.putT n r).waiting = c.waiting := rfl

@[simp] theorem Core.putRing_id (c : Core) (n : Nat) (r : Ring) : (c.putRing n r).id = c.id := rfl
@[simp] theorem Core.putRing_engmap (c : Core) (n : Nat) (r : Ring) : (c.putRing n r).engmap = c.engmap := rfl
@[simp] theorem Core.putRing_lanefuse (c : Core) (n : Nat) (r : Ring) : (c.putRing n r).lanefuse = c.lanefuse := rfl
@[simp] theorem Core.putRing_withdrawn (c : Core) (n : Nat) (r : Ring) : (c.putRing n r).withdrawn = c.withdrawn := rfl
@[simp] theorem Core.putRing_s (c : Core) (n : Nat) (r : Ring) : (c.putRing n r).s = c.s := rfl
@[simp] theorem Core.putRing_p (c : Core) (n : Nat) (r : Ring) : (c.putRing n r).p = c.p := rfl
@[simp] theorem Core.putRing_m (c : Core) (n : Nat) (r : Ring) : (c.putRing n r).m = c.m := rfl
@[simp] theorem Core.putRing_v (c : Core) (n : Nat) (r : Ring) : (c.putRing n r).v = c.v := rfl
@[simp] theorem Core.putRing_t (c : Core) (n : Nat) (r : Ring) : (c.putRing n r).t = c.t := rfl
@[simp] theorem Core.putRing_b (c : Core) (n : Nat) (r : Ring) : (c.putRing n r).b = c.b := rfl
@[simp] theorem Core.putRing_k (c : Core) (n : Nat) (r : Ring) : (c.putRing n r).k = c.k := rfl
@[simp] theorem Core.putRing_sw (c : Core) (n : Nat) (r : Ring) : (c.putRing n r).sw = c.sw := rfl
@[simp] theorem Core.putRing_flumes (c : Core) (n : Nat) (r : Ring) : (c.putRing n r).flumes = c.flumes := rfl
@[simp] theorem Core.putRing_latch (c : Core) (n : Nat) (r : Ring) : (c.putRing n r).latch = c.latch := rfl
@[simp] theorem Core.putRing_arr (c : Core) (n : Nat) (r : Ring) : (c.putRing n r).arr = c.arr := rfl
@[simp] theorem Core.putRing_pops (c : Core) (n : Nat) (r : Ring) : (c.putRing n r).pops = c.pops := rfl
@[simp] theorem Core.putRing_pc (c : Core) (n : Nat) (r : Ring) : (c.putRing n r).pc = c.pc := rfl
@[simp] theorem Core.putRing_time (c : Core) (n : Nat) (r : Ring) : (c.putRing n r).time = c.time := rfl
@[simp] theorem Core.putRing_next (c : Core) (n : Nat) (r : Ring) : (c.putRing n r).next = c.next := rfl
@[simp] theorem Core.putRing_running (c : Core) (n : Nat) (r : Ring) : (c.putRing n r).running = c.running := rfl
@[simp] theorem Core.putRing_issue (c : Core) (n : Nat) (r : Ring) : (c.putRing n r).issue = c.issue := rfl
@[simp] theorem Core.putRing_charged (c : Core) (n : Nat) (r : Ring) : (c.putRing n r).charged = c.charged := rfl
@[simp] theorem Core.putRing_rvDone (c : Core) (n : Nat) (r : Ring) : (c.putRing n r).rvDone = c.rvDone := rfl
@[simp] theorem Core.putRing_skipNext (c : Core) (n : Nat) (r : Ring) : (c.putRing n r).skipNext = c.skipNext := rfl
@[simp] theorem Core.putRing_padDone (c : Core) (n : Nat) (r : Ring) : (c.putRing n r).padDone = c.padDone := rfl
@[simp] theorem Core.putRing_noOpen (c : Core) (n : Nat) (r : Ring) : (c.putRing n r).noOpen = c.noOpen := rfl
@[simp] theorem Core.putRing_supSeg (c : Core) (n : Nat) (r : Ring) : (c.putRing n r).supSeg = c.supSeg := rfl
@[simp] theorem Core.putRing_rewound (c : Core) (n : Nat) (r : Ring) : (c.putRing n r).rewound = c.rewound := rfl
@[simp] theorem Core.putRing_entering (c : Core) (n : Nat) (r : Ring) : (c.putRing n r).entering = c.entering := rfl
@[simp] theorem Core.putRing_supFrom (c : Core) (n : Nat) (r : Ring) : (c.putRing n r).supFrom = c.supFrom := rfl
@[simp] theorem Core.putRing_wants (c : Core) (n : Nat) (r : Ring) : (c.putRing n r).wants = c.wants := rfl
@[simp] theorem Core.putRing_drains (c : Core) (n : Nat) (r : Ring) : (c.putRing n r).drains = c.drains := rfl
@[simp] theorem Core.putRing_padStores (c : Core) (n : Nat) (r : Ring) : (c.putRing n r).padStores = c.padStores := rfl
@[simp] theorem Core.putRing_xfer (c : Core) (n : Nat) (r : Ring) : (c.putRing n r).xfer = c.xfer := rfl
@[simp] theorem Core.putRing_flights (c : Core) (n : Nat) (r : Ring) : (c.putRing n r).flights = c.flights := rfl
@[simp] theorem Core.putRing_timed (c : Core) (n : Nat) (r : Ring) : (c.putRing n r).timed = c.timed := rfl
@[simp] theorem Core.putRing_c0free (c : Core) (n : Nat) (r : Ring) : (c.putRing n r).c0free = c.c0free := rfl
@[simp] theorem Core.putRing_slip (c : Core) (n : Nat) (r : Ring) : (c.putRing n r).slip = c.slip := rfl
@[simp] theorem Core.putRing_cap (c : Core) (n : Nat) (r : Ring) : (c.putRing n r).cap = c.cap := rfl
@[simp] theorem Core.putRing_capTree (c : Core) (n : Nat) (r : Ring) : (c.putRing n r).capTree = c.capTree := rfl
@[simp] theorem Core.putRing_fetch (c : Core) (n : Nat) (r : Ring) : (c.putRing n r).fetch = c.fetch := rfl
@[simp] theorem Core.putRing_hold (c : Core) (n : Nat) (r : Ring) : (c.putRing n r).hold = c.hold := rfl
@[simp] theorem Core.putRing_async (c : Core) (n : Nat) (r : Ring) : (c.putRing n r).async = c.async := rfl
@[simp] theorem Core.putRing_supAsync (c : Core) (n : Nat) (r : Ring) : (c.putRing n r).supAsync = c.supAsync := rfl
@[simp] theorem Core.putRing_held (c : Core) (n : Nat) (r : Ring) : (c.putRing n r).held = c.held := rfl
@[simp] theorem Core.putRing_seg (c : Core) (n : Nat) (r : Ring) : (c.putRing n r).seg = c.seg := rfl
@[simp] theorem Core.putRing_phase (c : Core) (n : Nat) (r : Ring) : (c.putRing n r).phase = c.phase := rfl
@[simp] theorem Core.putRing_l1 (c : Core) (n : Nat) (r : Ring) : (c.putRing n r).l1 = c.l1 := rfl
@[simp] theorem Core.putRing_sb (c : Core) (n : Nat) (r : Ring) : (c.putRing n r).sb = c.sb := rfl
@[simp] theorem Core.putRing_loads (c : Core) (n : Nat) (r : Ring) : (c.putRing n r).loads = c.loads := rfl
@[simp] theorem Core.putRing_fences (c : Core) (n : Nat) (r : Ring) : (c.putRing n r).fences = c.fences := rfl
@[simp] theorem Core.putRing_claim (c : Core) (n : Nat) (r : Ring) : (c.putRing n r).claim = c.claim := rfl
@[simp] theorem Core.putRing_engines (c : Core) (n : Nat) (r : Ring) : (c.putRing n r).engines = c.engines := rfl
@[simp] theorem Core.putRing_seq (c : Core) (n : Nat) (r : Ring) : (c.putRing n r).seq = c.seq := rfl
@[simp] theorem Core.putRing_tlb (c : Core) (n : Nat) (r : Ring) : (c.putRing n r).tlb = c.tlb := rfl
@[simp] theorem Core.putRing_inval (c : Core) (n : Nat) (r : Ring) : (c.putRing n r).inval = c.inval := rfl
@[simp] theorem Core.putRing_scratch (c : Core) (n : Nat) (r : Ring) : (c.putRing n r).scratch = c.scratch := rfl
@[simp] theorem Core.putRing_slices (c : Core) (n : Nat) (r : Ring) : (c.putRing n r).slices = c.slices := rfl
@[simp] theorem Core.putRing_unit (c : Core) (n : Nat) (r : Ring) : (c.putRing n r).unit = c.unit := rfl
@[simp] theorem Core.putRing_job (c : Core) (n : Nat) (r : Ring) : (c.putRing n r).job = c.job := rfl
@[simp] theorem Core.putRing_failed (c : Core) (n : Nat) (r : Ring) : (c.putRing n r).failed = c.failed := rfl
@[simp] theorem Core.putRing_debugStop (c : Core) (n : Nat) (r : Ring) : (c.putRing n r).debugStop = c.debugStop := rfl
@[simp] theorem Core.putRing_debugStep (c : Core) (n : Nat) (r : Ring) : (c.putRing n r).debugStep = c.debugStep := rfl
@[simp] theorem Core.putRing_lastLaunch (c : Core) (n : Nat) (r : Ring) : (c.putRing n r).lastLaunch = c.lastLaunch := rfl
@[simp] theorem Core.putRing_waiting (c : Core) (n : Nat) (r : Ring) : (c.putRing n r).waiting = c.waiting := rfl

@[simp] theorem Core.putB_id (c : Core) (n : Nat) (r : BitVec 20) : (c.putB n r).id = c.id := rfl
@[simp] theorem Core.putB_engmap (c : Core) (n : Nat) (r : BitVec 20) : (c.putB n r).engmap = c.engmap := rfl
@[simp] theorem Core.putB_lanefuse (c : Core) (n : Nat) (r : BitVec 20) : (c.putB n r).lanefuse = c.lanefuse := rfl
@[simp] theorem Core.putB_withdrawn (c : Core) (n : Nat) (r : BitVec 20) : (c.putB n r).withdrawn = c.withdrawn := rfl
@[simp] theorem Core.putB_s (c : Core) (n : Nat) (r : BitVec 20) : (c.putB n r).s = c.s := rfl
@[simp] theorem Core.putB_p (c : Core) (n : Nat) (r : BitVec 20) : (c.putB n r).p = c.p := rfl
@[simp] theorem Core.putB_m (c : Core) (n : Nat) (r : BitVec 20) : (c.putB n r).m = c.m := rfl
@[simp] theorem Core.putB_v (c : Core) (n : Nat) (r : BitVec 20) : (c.putB n r).v = c.v := rfl
@[simp] theorem Core.putB_t (c : Core) (n : Nat) (r : BitVec 20) : (c.putB n r).t = c.t := rfl
@[simp] theorem Core.putB_ring (c : Core) (n : Nat) (r : BitVec 20) : (c.putB n r).ring = c.ring := rfl
@[simp] theorem Core.putB_k (c : Core) (n : Nat) (r : BitVec 20) : (c.putB n r).k = c.k := rfl
@[simp] theorem Core.putB_sw (c : Core) (n : Nat) (r : BitVec 20) : (c.putB n r).sw = c.sw := rfl
@[simp] theorem Core.putB_flumes (c : Core) (n : Nat) (r : BitVec 20) : (c.putB n r).flumes = c.flumes := rfl
@[simp] theorem Core.putB_latch (c : Core) (n : Nat) (r : BitVec 20) : (c.putB n r).latch = c.latch := rfl
@[simp] theorem Core.putB_arr (c : Core) (n : Nat) (r : BitVec 20) : (c.putB n r).arr = c.arr := rfl
@[simp] theorem Core.putB_pops (c : Core) (n : Nat) (r : BitVec 20) : (c.putB n r).pops = c.pops := rfl
@[simp] theorem Core.putB_pc (c : Core) (n : Nat) (r : BitVec 20) : (c.putB n r).pc = c.pc := rfl
@[simp] theorem Core.putB_time (c : Core) (n : Nat) (r : BitVec 20) : (c.putB n r).time = c.time := rfl
@[simp] theorem Core.putB_next (c : Core) (n : Nat) (r : BitVec 20) : (c.putB n r).next = c.next := rfl
@[simp] theorem Core.putB_running (c : Core) (n : Nat) (r : BitVec 20) : (c.putB n r).running = c.running := rfl
@[simp] theorem Core.putB_issue (c : Core) (n : Nat) (r : BitVec 20) : (c.putB n r).issue = c.issue := rfl
@[simp] theorem Core.putB_charged (c : Core) (n : Nat) (r : BitVec 20) : (c.putB n r).charged = c.charged := rfl
@[simp] theorem Core.putB_rvDone (c : Core) (n : Nat) (r : BitVec 20) : (c.putB n r).rvDone = c.rvDone := rfl
@[simp] theorem Core.putB_skipNext (c : Core) (n : Nat) (r : BitVec 20) : (c.putB n r).skipNext = c.skipNext := rfl
@[simp] theorem Core.putB_padDone (c : Core) (n : Nat) (r : BitVec 20) : (c.putB n r).padDone = c.padDone := rfl
@[simp] theorem Core.putB_noOpen (c : Core) (n : Nat) (r : BitVec 20) : (c.putB n r).noOpen = c.noOpen := rfl
@[simp] theorem Core.putB_supSeg (c : Core) (n : Nat) (r : BitVec 20) : (c.putB n r).supSeg = c.supSeg := rfl
@[simp] theorem Core.putB_rewound (c : Core) (n : Nat) (r : BitVec 20) : (c.putB n r).rewound = c.rewound := rfl
@[simp] theorem Core.putB_entering (c : Core) (n : Nat) (r : BitVec 20) : (c.putB n r).entering = c.entering := rfl
@[simp] theorem Core.putB_supFrom (c : Core) (n : Nat) (r : BitVec 20) : (c.putB n r).supFrom = c.supFrom := rfl
@[simp] theorem Core.putB_wants (c : Core) (n : Nat) (r : BitVec 20) : (c.putB n r).wants = c.wants := rfl
@[simp] theorem Core.putB_drains (c : Core) (n : Nat) (r : BitVec 20) : (c.putB n r).drains = c.drains := rfl
@[simp] theorem Core.putB_padStores (c : Core) (n : Nat) (r : BitVec 20) : (c.putB n r).padStores = c.padStores := rfl
@[simp] theorem Core.putB_xfer (c : Core) (n : Nat) (r : BitVec 20) : (c.putB n r).xfer = c.xfer := rfl
@[simp] theorem Core.putB_flights (c : Core) (n : Nat) (r : BitVec 20) : (c.putB n r).flights = c.flights := rfl
@[simp] theorem Core.putB_timed (c : Core) (n : Nat) (r : BitVec 20) : (c.putB n r).timed = c.timed := rfl
@[simp] theorem Core.putB_c0free (c : Core) (n : Nat) (r : BitVec 20) : (c.putB n r).c0free = c.c0free := rfl
@[simp] theorem Core.putB_slip (c : Core) (n : Nat) (r : BitVec 20) : (c.putB n r).slip = c.slip := rfl
@[simp] theorem Core.putB_cap (c : Core) (n : Nat) (r : BitVec 20) : (c.putB n r).cap = c.cap := rfl
@[simp] theorem Core.putB_capTree (c : Core) (n : Nat) (r : BitVec 20) : (c.putB n r).capTree = c.capTree := rfl
@[simp] theorem Core.putB_fetch (c : Core) (n : Nat) (r : BitVec 20) : (c.putB n r).fetch = c.fetch := rfl
@[simp] theorem Core.putB_hold (c : Core) (n : Nat) (r : BitVec 20) : (c.putB n r).hold = c.hold := rfl
@[simp] theorem Core.putB_async (c : Core) (n : Nat) (r : BitVec 20) : (c.putB n r).async = c.async := rfl
@[simp] theorem Core.putB_supAsync (c : Core) (n : Nat) (r : BitVec 20) : (c.putB n r).supAsync = c.supAsync := rfl
@[simp] theorem Core.putB_held (c : Core) (n : Nat) (r : BitVec 20) : (c.putB n r).held = c.held := rfl
@[simp] theorem Core.putB_seg (c : Core) (n : Nat) (r : BitVec 20) : (c.putB n r).seg = c.seg := rfl
@[simp] theorem Core.putB_phase (c : Core) (n : Nat) (r : BitVec 20) : (c.putB n r).phase = c.phase := rfl
@[simp] theorem Core.putB_l1 (c : Core) (n : Nat) (r : BitVec 20) : (c.putB n r).l1 = c.l1 := rfl
@[simp] theorem Core.putB_sb (c : Core) (n : Nat) (r : BitVec 20) : (c.putB n r).sb = c.sb := rfl
@[simp] theorem Core.putB_loads (c : Core) (n : Nat) (r : BitVec 20) : (c.putB n r).loads = c.loads := rfl
@[simp] theorem Core.putB_fences (c : Core) (n : Nat) (r : BitVec 20) : (c.putB n r).fences = c.fences := rfl
@[simp] theorem Core.putB_claim (c : Core) (n : Nat) (r : BitVec 20) : (c.putB n r).claim = c.claim := rfl
@[simp] theorem Core.putB_engines (c : Core) (n : Nat) (r : BitVec 20) : (c.putB n r).engines = c.engines := rfl
@[simp] theorem Core.putB_seq (c : Core) (n : Nat) (r : BitVec 20) : (c.putB n r).seq = c.seq := rfl
@[simp] theorem Core.putB_tlb (c : Core) (n : Nat) (r : BitVec 20) : (c.putB n r).tlb = c.tlb := rfl
@[simp] theorem Core.putB_inval (c : Core) (n : Nat) (r : BitVec 20) : (c.putB n r).inval = c.inval := rfl
@[simp] theorem Core.putB_scratch (c : Core) (n : Nat) (r : BitVec 20) : (c.putB n r).scratch = c.scratch := rfl
@[simp] theorem Core.putB_slices (c : Core) (n : Nat) (r : BitVec 20) : (c.putB n r).slices = c.slices := rfl
@[simp] theorem Core.putB_unit (c : Core) (n : Nat) (r : BitVec 20) : (c.putB n r).unit = c.unit := rfl
@[simp] theorem Core.putB_job (c : Core) (n : Nat) (r : BitVec 20) : (c.putB n r).job = c.job := rfl
@[simp] theorem Core.putB_failed (c : Core) (n : Nat) (r : BitVec 20) : (c.putB n r).failed = c.failed := rfl
@[simp] theorem Core.putB_debugStop (c : Core) (n : Nat) (r : BitVec 20) : (c.putB n r).debugStop = c.debugStop := rfl
@[simp] theorem Core.putB_debugStep (c : Core) (n : Nat) (r : BitVec 20) : (c.putB n r).debugStep = c.debugStep := rfl
@[simp] theorem Core.putB_lastLaunch (c : Core) (n : Nat) (r : BitVec 20) : (c.putB n r).lastLaunch = c.lastLaunch := rfl
@[simp] theorem Core.putB_waiting (c : Core) (n : Nat) (r : BitVec 20) : (c.putB n r).waiting = c.waiting := rfl

@[simp] theorem Core.putLatch_id (c : Core) (n : Nat) (l : Latch) : (c.putLatch n l).id = c.id := rfl
@[simp] theorem Core.putLatch_engmap (c : Core) (n : Nat) (l : Latch) : (c.putLatch n l).engmap = c.engmap := rfl
@[simp] theorem Core.putLatch_lanefuse (c : Core) (n : Nat) (l : Latch) : (c.putLatch n l).lanefuse = c.lanefuse := rfl
@[simp] theorem Core.putLatch_withdrawn (c : Core) (n : Nat) (l : Latch) : (c.putLatch n l).withdrawn = c.withdrawn := rfl
@[simp] theorem Core.putLatch_s (c : Core) (n : Nat) (l : Latch) : (c.putLatch n l).s = c.s := rfl
@[simp] theorem Core.putLatch_p (c : Core) (n : Nat) (l : Latch) : (c.putLatch n l).p = c.p := rfl
@[simp] theorem Core.putLatch_m (c : Core) (n : Nat) (l : Latch) : (c.putLatch n l).m = c.m := rfl
@[simp] theorem Core.putLatch_v (c : Core) (n : Nat) (l : Latch) : (c.putLatch n l).v = c.v := rfl
@[simp] theorem Core.putLatch_t (c : Core) (n : Nat) (l : Latch) : (c.putLatch n l).t = c.t := rfl
@[simp] theorem Core.putLatch_ring (c : Core) (n : Nat) (l : Latch) : (c.putLatch n l).ring = c.ring := rfl
@[simp] theorem Core.putLatch_b (c : Core) (n : Nat) (l : Latch) : (c.putLatch n l).b = c.b := rfl
@[simp] theorem Core.putLatch_k (c : Core) (n : Nat) (l : Latch) : (c.putLatch n l).k = c.k := rfl
@[simp] theorem Core.putLatch_sw (c : Core) (n : Nat) (l : Latch) : (c.putLatch n l).sw = c.sw := rfl
@[simp] theorem Core.putLatch_flumes (c : Core) (n : Nat) (l : Latch) : (c.putLatch n l).flumes = c.flumes := rfl
@[simp] theorem Core.putLatch_arr (c : Core) (n : Nat) (l : Latch) : (c.putLatch n l).arr = c.arr := rfl
@[simp] theorem Core.putLatch_pops (c : Core) (n : Nat) (l : Latch) : (c.putLatch n l).pops = c.pops := rfl
@[simp] theorem Core.putLatch_pc (c : Core) (n : Nat) (l : Latch) : (c.putLatch n l).pc = c.pc := rfl
@[simp] theorem Core.putLatch_time (c : Core) (n : Nat) (l : Latch) : (c.putLatch n l).time = c.time := rfl
@[simp] theorem Core.putLatch_next (c : Core) (n : Nat) (l : Latch) : (c.putLatch n l).next = c.next := rfl
@[simp] theorem Core.putLatch_running (c : Core) (n : Nat) (l : Latch) : (c.putLatch n l).running = c.running := rfl
@[simp] theorem Core.putLatch_issue (c : Core) (n : Nat) (l : Latch) : (c.putLatch n l).issue = c.issue := rfl
@[simp] theorem Core.putLatch_charged (c : Core) (n : Nat) (l : Latch) : (c.putLatch n l).charged = c.charged := rfl
@[simp] theorem Core.putLatch_rvDone (c : Core) (n : Nat) (l : Latch) : (c.putLatch n l).rvDone = c.rvDone := rfl
@[simp] theorem Core.putLatch_skipNext (c : Core) (n : Nat) (l : Latch) : (c.putLatch n l).skipNext = c.skipNext := rfl
@[simp] theorem Core.putLatch_padDone (c : Core) (n : Nat) (l : Latch) : (c.putLatch n l).padDone = c.padDone := rfl
@[simp] theorem Core.putLatch_noOpen (c : Core) (n : Nat) (l : Latch) : (c.putLatch n l).noOpen = c.noOpen := rfl
@[simp] theorem Core.putLatch_supSeg (c : Core) (n : Nat) (l : Latch) : (c.putLatch n l).supSeg = c.supSeg := rfl
@[simp] theorem Core.putLatch_rewound (c : Core) (n : Nat) (l : Latch) : (c.putLatch n l).rewound = c.rewound := rfl
@[simp] theorem Core.putLatch_entering (c : Core) (n : Nat) (l : Latch) : (c.putLatch n l).entering = c.entering := rfl
@[simp] theorem Core.putLatch_supFrom (c : Core) (n : Nat) (l : Latch) : (c.putLatch n l).supFrom = c.supFrom := rfl
@[simp] theorem Core.putLatch_wants (c : Core) (n : Nat) (l : Latch) : (c.putLatch n l).wants = c.wants := rfl
@[simp] theorem Core.putLatch_drains (c : Core) (n : Nat) (l : Latch) : (c.putLatch n l).drains = c.drains := rfl
@[simp] theorem Core.putLatch_padStores (c : Core) (n : Nat) (l : Latch) : (c.putLatch n l).padStores = c.padStores := rfl
@[simp] theorem Core.putLatch_xfer (c : Core) (n : Nat) (l : Latch) : (c.putLatch n l).xfer = c.xfer := rfl
@[simp] theorem Core.putLatch_flights (c : Core) (n : Nat) (l : Latch) : (c.putLatch n l).flights = c.flights := rfl
@[simp] theorem Core.putLatch_timed (c : Core) (n : Nat) (l : Latch) : (c.putLatch n l).timed = c.timed := rfl
@[simp] theorem Core.putLatch_c0free (c : Core) (n : Nat) (l : Latch) : (c.putLatch n l).c0free = c.c0free := rfl
@[simp] theorem Core.putLatch_slip (c : Core) (n : Nat) (l : Latch) : (c.putLatch n l).slip = c.slip := rfl
@[simp] theorem Core.putLatch_cap (c : Core) (n : Nat) (l : Latch) : (c.putLatch n l).cap = c.cap := rfl
@[simp] theorem Core.putLatch_capTree (c : Core) (n : Nat) (l : Latch) : (c.putLatch n l).capTree = c.capTree := rfl
@[simp] theorem Core.putLatch_fetch (c : Core) (n : Nat) (l : Latch) : (c.putLatch n l).fetch = c.fetch := rfl
@[simp] theorem Core.putLatch_hold (c : Core) (n : Nat) (l : Latch) : (c.putLatch n l).hold = c.hold := rfl
@[simp] theorem Core.putLatch_async (c : Core) (n : Nat) (l : Latch) : (c.putLatch n l).async = c.async := rfl
@[simp] theorem Core.putLatch_supAsync (c : Core) (n : Nat) (l : Latch) : (c.putLatch n l).supAsync = c.supAsync := rfl
@[simp] theorem Core.putLatch_held (c : Core) (n : Nat) (l : Latch) : (c.putLatch n l).held = c.held := rfl
@[simp] theorem Core.putLatch_seg (c : Core) (n : Nat) (l : Latch) : (c.putLatch n l).seg = c.seg := rfl
@[simp] theorem Core.putLatch_phase (c : Core) (n : Nat) (l : Latch) : (c.putLatch n l).phase = c.phase := rfl
@[simp] theorem Core.putLatch_l1 (c : Core) (n : Nat) (l : Latch) : (c.putLatch n l).l1 = c.l1 := rfl
@[simp] theorem Core.putLatch_sb (c : Core) (n : Nat) (l : Latch) : (c.putLatch n l).sb = c.sb := rfl
@[simp] theorem Core.putLatch_loads (c : Core) (n : Nat) (l : Latch) : (c.putLatch n l).loads = c.loads := rfl
@[simp] theorem Core.putLatch_fences (c : Core) (n : Nat) (l : Latch) : (c.putLatch n l).fences = c.fences := rfl
@[simp] theorem Core.putLatch_claim (c : Core) (n : Nat) (l : Latch) : (c.putLatch n l).claim = c.claim := rfl
@[simp] theorem Core.putLatch_engines (c : Core) (n : Nat) (l : Latch) : (c.putLatch n l).engines = c.engines := rfl
@[simp] theorem Core.putLatch_seq (c : Core) (n : Nat) (l : Latch) : (c.putLatch n l).seq = c.seq := rfl
@[simp] theorem Core.putLatch_tlb (c : Core) (n : Nat) (l : Latch) : (c.putLatch n l).tlb = c.tlb := rfl
@[simp] theorem Core.putLatch_inval (c : Core) (n : Nat) (l : Latch) : (c.putLatch n l).inval = c.inval := rfl
@[simp] theorem Core.putLatch_scratch (c : Core) (n : Nat) (l : Latch) : (c.putLatch n l).scratch = c.scratch := rfl
@[simp] theorem Core.putLatch_slices (c : Core) (n : Nat) (l : Latch) : (c.putLatch n l).slices = c.slices := rfl
@[simp] theorem Core.putLatch_unit (c : Core) (n : Nat) (l : Latch) : (c.putLatch n l).unit = c.unit := rfl
@[simp] theorem Core.putLatch_job (c : Core) (n : Nat) (l : Latch) : (c.putLatch n l).job = c.job := rfl
@[simp] theorem Core.putLatch_failed (c : Core) (n : Nat) (l : Latch) : (c.putLatch n l).failed = c.failed := rfl
@[simp] theorem Core.putLatch_debugStop (c : Core) (n : Nat) (l : Latch) : (c.putLatch n l).debugStop = c.debugStop := rfl
@[simp] theorem Core.putLatch_debugStep (c : Core) (n : Nat) (l : Latch) : (c.putLatch n l).debugStep = c.debugStep := rfl
@[simp] theorem Core.putLatch_lastLaunch (c : Core) (n : Nat) (l : Latch) : (c.putLatch n l).lastLaunch = c.lastLaunch := rfl
@[simp] theorem Core.putLatch_waiting (c : Core) (n : Nat) (l : Latch) : (c.putLatch n l).waiting = c.waiting := rfl

@[simp] theorem Core.putW_id (c : Core) (i : Nat) (w : Word) : (c.putW i w).id = c.id := rfl
@[simp] theorem Core.putW_engmap (c : Core) (i : Nat) (w : Word) : (c.putW i w).engmap = c.engmap := rfl
@[simp] theorem Core.putW_lanefuse (c : Core) (i : Nat) (w : Word) : (c.putW i w).lanefuse = c.lanefuse := rfl
@[simp] theorem Core.putW_withdrawn (c : Core) (i : Nat) (w : Word) : (c.putW i w).withdrawn = c.withdrawn := rfl
@[simp] theorem Core.putW_s (c : Core) (i : Nat) (w : Word) : (c.putW i w).s = c.s := rfl
@[simp] theorem Core.putW_p (c : Core) (i : Nat) (w : Word) : (c.putW i w).p = c.p := rfl
@[simp] theorem Core.putW_m (c : Core) (i : Nat) (w : Word) : (c.putW i w).m = c.m := rfl
@[simp] theorem Core.putW_v (c : Core) (i : Nat) (w : Word) : (c.putW i w).v = c.v := rfl
@[simp] theorem Core.putW_t (c : Core) (i : Nat) (w : Word) : (c.putW i w).t = c.t := rfl
@[simp] theorem Core.putW_ring (c : Core) (i : Nat) (w : Word) : (c.putW i w).ring = c.ring := rfl
@[simp] theorem Core.putW_b (c : Core) (i : Nat) (w : Word) : (c.putW i w).b = c.b := rfl
@[simp] theorem Core.putW_k (c : Core) (i : Nat) (w : Word) : (c.putW i w).k = c.k := rfl
@[simp] theorem Core.putW_flumes (c : Core) (i : Nat) (w : Word) : (c.putW i w).flumes = c.flumes := rfl
@[simp] theorem Core.putW_latch (c : Core) (i : Nat) (w : Word) : (c.putW i w).latch = c.latch := rfl
@[simp] theorem Core.putW_arr (c : Core) (i : Nat) (w : Word) : (c.putW i w).arr = c.arr := rfl
@[simp] theorem Core.putW_pops (c : Core) (i : Nat) (w : Word) : (c.putW i w).pops = c.pops := rfl
@[simp] theorem Core.putW_pc (c : Core) (i : Nat) (w : Word) : (c.putW i w).pc = c.pc := rfl
@[simp] theorem Core.putW_time (c : Core) (i : Nat) (w : Word) : (c.putW i w).time = c.time := rfl
@[simp] theorem Core.putW_next (c : Core) (i : Nat) (w : Word) : (c.putW i w).next = c.next := rfl
@[simp] theorem Core.putW_running (c : Core) (i : Nat) (w : Word) : (c.putW i w).running = c.running := rfl
@[simp] theorem Core.putW_issue (c : Core) (i : Nat) (w : Word) : (c.putW i w).issue = c.issue := rfl
@[simp] theorem Core.putW_charged (c : Core) (i : Nat) (w : Word) : (c.putW i w).charged = c.charged := rfl
@[simp] theorem Core.putW_rvDone (c : Core) (i : Nat) (w : Word) : (c.putW i w).rvDone = c.rvDone := rfl
@[simp] theorem Core.putW_skipNext (c : Core) (i : Nat) (w : Word) : (c.putW i w).skipNext = c.skipNext := rfl
@[simp] theorem Core.putW_padDone (c : Core) (i : Nat) (w : Word) : (c.putW i w).padDone = c.padDone := rfl
@[simp] theorem Core.putW_noOpen (c : Core) (i : Nat) (w : Word) : (c.putW i w).noOpen = c.noOpen := rfl
@[simp] theorem Core.putW_supSeg (c : Core) (i : Nat) (w : Word) : (c.putW i w).supSeg = c.supSeg := rfl
@[simp] theorem Core.putW_rewound (c : Core) (i : Nat) (w : Word) : (c.putW i w).rewound = c.rewound := rfl
@[simp] theorem Core.putW_entering (c : Core) (i : Nat) (w : Word) : (c.putW i w).entering = c.entering := rfl
@[simp] theorem Core.putW_supFrom (c : Core) (i : Nat) (w : Word) : (c.putW i w).supFrom = c.supFrom := rfl
@[simp] theorem Core.putW_wants (c : Core) (i : Nat) (w : Word) : (c.putW i w).wants = c.wants := rfl
@[simp] theorem Core.putW_drains (c : Core) (i : Nat) (w : Word) : (c.putW i w).drains = c.drains := rfl
@[simp] theorem Core.putW_padStores (c : Core) (i : Nat) (w : Word) : (c.putW i w).padStores = c.padStores := rfl
@[simp] theorem Core.putW_xfer (c : Core) (i : Nat) (w : Word) : (c.putW i w).xfer = c.xfer := rfl
@[simp] theorem Core.putW_flights (c : Core) (i : Nat) (w : Word) : (c.putW i w).flights = c.flights := rfl
@[simp] theorem Core.putW_timed (c : Core) (i : Nat) (w : Word) : (c.putW i w).timed = c.timed := rfl
@[simp] theorem Core.putW_c0free (c : Core) (i : Nat) (w : Word) : (c.putW i w).c0free = c.c0free := rfl
@[simp] theorem Core.putW_slip (c : Core) (i : Nat) (w : Word) : (c.putW i w).slip = c.slip := rfl
@[simp] theorem Core.putW_cap (c : Core) (i : Nat) (w : Word) : (c.putW i w).cap = c.cap := rfl
@[simp] theorem Core.putW_capTree (c : Core) (i : Nat) (w : Word) : (c.putW i w).capTree = c.capTree := rfl
@[simp] theorem Core.putW_fetch (c : Core) (i : Nat) (w : Word) : (c.putW i w).fetch = c.fetch := rfl
@[simp] theorem Core.putW_hold (c : Core) (i : Nat) (w : Word) : (c.putW i w).hold = c.hold := rfl
@[simp] theorem Core.putW_async (c : Core) (i : Nat) (w : Word) : (c.putW i w).async = c.async := rfl
@[simp] theorem Core.putW_supAsync (c : Core) (i : Nat) (w : Word) : (c.putW i w).supAsync = c.supAsync := rfl
@[simp] theorem Core.putW_held (c : Core) (i : Nat) (w : Word) : (c.putW i w).held = c.held := rfl
@[simp] theorem Core.putW_seg (c : Core) (i : Nat) (w : Word) : (c.putW i w).seg = c.seg := rfl
@[simp] theorem Core.putW_phase (c : Core) (i : Nat) (w : Word) : (c.putW i w).phase = c.phase := rfl
@[simp] theorem Core.putW_l1 (c : Core) (i : Nat) (w : Word) : (c.putW i w).l1 = c.l1 := rfl
@[simp] theorem Core.putW_sb (c : Core) (i : Nat) (w : Word) : (c.putW i w).sb = c.sb := rfl
@[simp] theorem Core.putW_loads (c : Core) (i : Nat) (w : Word) : (c.putW i w).loads = c.loads := rfl
@[simp] theorem Core.putW_fences (c : Core) (i : Nat) (w : Word) : (c.putW i w).fences = c.fences := rfl
@[simp] theorem Core.putW_claim (c : Core) (i : Nat) (w : Word) : (c.putW i w).claim = c.claim := rfl
@[simp] theorem Core.putW_engines (c : Core) (i : Nat) (w : Word) : (c.putW i w).engines = c.engines := rfl
@[simp] theorem Core.putW_seq (c : Core) (i : Nat) (w : Word) : (c.putW i w).seq = c.seq := rfl
@[simp] theorem Core.putW_tlb (c : Core) (i : Nat) (w : Word) : (c.putW i w).tlb = c.tlb := rfl
@[simp] theorem Core.putW_inval (c : Core) (i : Nat) (w : Word) : (c.putW i w).inval = c.inval := rfl
@[simp] theorem Core.putW_scratch (c : Core) (i : Nat) (w : Word) : (c.putW i w).scratch = c.scratch := rfl
@[simp] theorem Core.putW_slices (c : Core) (i : Nat) (w : Word) : (c.putW i w).slices = c.slices := rfl
@[simp] theorem Core.putW_unit (c : Core) (i : Nat) (w : Word) : (c.putW i w).unit = c.unit := rfl
@[simp] theorem Core.putW_job (c : Core) (i : Nat) (w : Word) : (c.putW i w).job = c.job := rfl
@[simp] theorem Core.putW_failed (c : Core) (i : Nat) (w : Word) : (c.putW i w).failed = c.failed := rfl
@[simp] theorem Core.putW_debugStop (c : Core) (i : Nat) (w : Word) : (c.putW i w).debugStop = c.debugStop := rfl
@[simp] theorem Core.putW_debugStep (c : Core) (i : Nat) (w : Word) : (c.putW i w).debugStep = c.debugStep := rfl
@[simp] theorem Core.putW_lastLaunch (c : Core) (i : Nat) (w : Word) : (c.putW i w).lastLaunch = c.lastLaunch := rfl
@[simp] theorem Core.putW_waiting (c : Core) (i : Nat) (w : Word) : (c.putW i w).waiting = c.waiting := rfl

@[simp] theorem Core.emit_id (c : Core) (f : Flight) : (c.emit f).id = c.id := rfl
@[simp] theorem Core.emit_engmap (c : Core) (f : Flight) : (c.emit f).engmap = c.engmap := rfl
@[simp] theorem Core.emit_lanefuse (c : Core) (f : Flight) : (c.emit f).lanefuse = c.lanefuse := rfl
@[simp] theorem Core.emit_withdrawn (c : Core) (f : Flight) : (c.emit f).withdrawn = c.withdrawn := rfl
@[simp] theorem Core.emit_s (c : Core) (f : Flight) : (c.emit f).s = c.s := rfl
@[simp] theorem Core.emit_p (c : Core) (f : Flight) : (c.emit f).p = c.p := rfl
@[simp] theorem Core.emit_m (c : Core) (f : Flight) : (c.emit f).m = c.m := rfl
@[simp] theorem Core.emit_v (c : Core) (f : Flight) : (c.emit f).v = c.v := rfl
@[simp] theorem Core.emit_t (c : Core) (f : Flight) : (c.emit f).t = c.t := rfl
@[simp] theorem Core.emit_ring (c : Core) (f : Flight) : (c.emit f).ring = c.ring := rfl
@[simp] theorem Core.emit_b (c : Core) (f : Flight) : (c.emit f).b = c.b := rfl
@[simp] theorem Core.emit_k (c : Core) (f : Flight) : (c.emit f).k = c.k := rfl
@[simp] theorem Core.emit_sw (c : Core) (f : Flight) : (c.emit f).sw = c.sw := rfl
@[simp] theorem Core.emit_flumes (c : Core) (f : Flight) : (c.emit f).flumes = c.flumes := rfl
@[simp] theorem Core.emit_latch (c : Core) (f : Flight) : (c.emit f).latch = c.latch := rfl
@[simp] theorem Core.emit_arr (c : Core) (f : Flight) : (c.emit f).arr = c.arr := rfl
@[simp] theorem Core.emit_pops (c : Core) (f : Flight) : (c.emit f).pops = c.pops := rfl
@[simp] theorem Core.emit_pc (c : Core) (f : Flight) : (c.emit f).pc = c.pc := rfl
@[simp] theorem Core.emit_time (c : Core) (f : Flight) : (c.emit f).time = c.time := rfl
@[simp] theorem Core.emit_next (c : Core) (f : Flight) : (c.emit f).next = c.next := rfl
@[simp] theorem Core.emit_running (c : Core) (f : Flight) : (c.emit f).running = c.running := rfl
@[simp] theorem Core.emit_issue (c : Core) (f : Flight) : (c.emit f).issue = c.issue := rfl
@[simp] theorem Core.emit_charged (c : Core) (f : Flight) : (c.emit f).charged = c.charged := rfl
@[simp] theorem Core.emit_rvDone (c : Core) (f : Flight) : (c.emit f).rvDone = c.rvDone := rfl
@[simp] theorem Core.emit_skipNext (c : Core) (f : Flight) : (c.emit f).skipNext = c.skipNext := rfl
@[simp] theorem Core.emit_padDone (c : Core) (f : Flight) : (c.emit f).padDone = c.padDone := rfl
@[simp] theorem Core.emit_noOpen (c : Core) (f : Flight) : (c.emit f).noOpen = c.noOpen := rfl
@[simp] theorem Core.emit_supSeg (c : Core) (f : Flight) : (c.emit f).supSeg = c.supSeg := rfl
@[simp] theorem Core.emit_rewound (c : Core) (f : Flight) : (c.emit f).rewound = c.rewound := rfl
@[simp] theorem Core.emit_entering (c : Core) (f : Flight) : (c.emit f).entering = c.entering := rfl
@[simp] theorem Core.emit_supFrom (c : Core) (f : Flight) : (c.emit f).supFrom = c.supFrom := rfl
@[simp] theorem Core.emit_wants (c : Core) (f : Flight) : (c.emit f).wants = c.wants := rfl
@[simp] theorem Core.emit_drains (c : Core) (f : Flight) : (c.emit f).drains = c.drains := rfl
@[simp] theorem Core.emit_padStores (c : Core) (f : Flight) : (c.emit f).padStores = c.padStores := rfl
@[simp] theorem Core.emit_xfer (c : Core) (f : Flight) : (c.emit f).xfer = c.xfer := rfl
@[simp] theorem Core.emit_timed (c : Core) (f : Flight) : (c.emit f).timed = c.timed := rfl
@[simp] theorem Core.emit_c0free (c : Core) (f : Flight) : (c.emit f).c0free = c.c0free := rfl
@[simp] theorem Core.emit_slip (c : Core) (f : Flight) : (c.emit f).slip = c.slip := rfl
@[simp] theorem Core.emit_cap (c : Core) (f : Flight) : (c.emit f).cap = c.cap := rfl
@[simp] theorem Core.emit_capTree (c : Core) (f : Flight) : (c.emit f).capTree = c.capTree := rfl
@[simp] theorem Core.emit_fetch (c : Core) (f : Flight) : (c.emit f).fetch = c.fetch := rfl
@[simp] theorem Core.emit_hold (c : Core) (f : Flight) : (c.emit f).hold = c.hold := rfl
@[simp] theorem Core.emit_async (c : Core) (f : Flight) : (c.emit f).async = c.async := rfl
@[simp] theorem Core.emit_supAsync (c : Core) (f : Flight) : (c.emit f).supAsync = c.supAsync := rfl
@[simp] theorem Core.emit_held (c : Core) (f : Flight) : (c.emit f).held = c.held := rfl
@[simp] theorem Core.emit_seg (c : Core) (f : Flight) : (c.emit f).seg = c.seg := rfl
@[simp] theorem Core.emit_phase (c : Core) (f : Flight) : (c.emit f).phase = c.phase := rfl
@[simp] theorem Core.emit_l1 (c : Core) (f : Flight) : (c.emit f).l1 = c.l1 := rfl
@[simp] theorem Core.emit_sb (c : Core) (f : Flight) : (c.emit f).sb = c.sb := rfl
@[simp] theorem Core.emit_loads (c : Core) (f : Flight) : (c.emit f).loads = c.loads := rfl
@[simp] theorem Core.emit_fences (c : Core) (f : Flight) : (c.emit f).fences = c.fences := rfl
@[simp] theorem Core.emit_claim (c : Core) (f : Flight) : (c.emit f).claim = c.claim := rfl
@[simp] theorem Core.emit_engines (c : Core) (f : Flight) : (c.emit f).engines = c.engines := rfl
@[simp] theorem Core.emit_seq (c : Core) (f : Flight) : (c.emit f).seq = c.seq := rfl
@[simp] theorem Core.emit_tlb (c : Core) (f : Flight) : (c.emit f).tlb = c.tlb := rfl
@[simp] theorem Core.emit_inval (c : Core) (f : Flight) : (c.emit f).inval = c.inval := rfl
@[simp] theorem Core.emit_scratch (c : Core) (f : Flight) : (c.emit f).scratch = c.scratch := rfl
@[simp] theorem Core.emit_slices (c : Core) (f : Flight) : (c.emit f).slices = c.slices := rfl
@[simp] theorem Core.emit_unit (c : Core) (f : Flight) : (c.emit f).unit = c.unit := rfl
@[simp] theorem Core.emit_job (c : Core) (f : Flight) : (c.emit f).job = c.job := rfl
@[simp] theorem Core.emit_failed (c : Core) (f : Flight) : (c.emit f).failed = c.failed := rfl
@[simp] theorem Core.emit_debugStop (c : Core) (f : Flight) : (c.emit f).debugStop = c.debugStop := rfl
@[simp] theorem Core.emit_debugStep (c : Core) (f : Flight) : (c.emit f).debugStep = c.debugStep := rfl
@[simp] theorem Core.emit_lastLaunch (c : Core) (f : Flight) : (c.emit f).lastLaunch = c.lastLaunch := rfl
@[simp] theorem Core.emit_waiting (c : Core) (f : Flight) : (c.emit f).waiting = c.waiting := rfl

@[simp] theorem Core.putP_id (c : Core) (n : Nat) (r : PReg) : (c.putP n r).id = c.id := by unfold Core.putP; split <;> rfl
@[simp] theorem Core.putP_engmap (c : Core) (n : Nat) (r : PReg) : (c.putP n r).engmap = c.engmap := by unfold Core.putP; split <;> rfl
@[simp] theorem Core.putP_lanefuse (c : Core) (n : Nat) (r : PReg) : (c.putP n r).lanefuse = c.lanefuse := by unfold Core.putP; split <;> rfl
@[simp] theorem Core.putP_withdrawn (c : Core) (n : Nat) (r : PReg) : (c.putP n r).withdrawn = c.withdrawn := by unfold Core.putP; split <;> rfl
@[simp] theorem Core.putP_s (c : Core) (n : Nat) (r : PReg) : (c.putP n r).s = c.s := by unfold Core.putP; split <;> rfl
@[simp] theorem Core.putP_m (c : Core) (n : Nat) (r : PReg) : (c.putP n r).m = c.m := by unfold Core.putP; split <;> rfl
@[simp] theorem Core.putP_v (c : Core) (n : Nat) (r : PReg) : (c.putP n r).v = c.v := by unfold Core.putP; split <;> rfl
@[simp] theorem Core.putP_t (c : Core) (n : Nat) (r : PReg) : (c.putP n r).t = c.t := by unfold Core.putP; split <;> rfl
@[simp] theorem Core.putP_ring (c : Core) (n : Nat) (r : PReg) : (c.putP n r).ring = c.ring := by unfold Core.putP; split <;> rfl
@[simp] theorem Core.putP_b (c : Core) (n : Nat) (r : PReg) : (c.putP n r).b = c.b := by unfold Core.putP; split <;> rfl
@[simp] theorem Core.putP_k (c : Core) (n : Nat) (r : PReg) : (c.putP n r).k = c.k := by unfold Core.putP; split <;> rfl
@[simp] theorem Core.putP_sw (c : Core) (n : Nat) (r : PReg) : (c.putP n r).sw = c.sw := by unfold Core.putP; split <;> rfl
@[simp] theorem Core.putP_flumes (c : Core) (n : Nat) (r : PReg) : (c.putP n r).flumes = c.flumes := by unfold Core.putP; split <;> rfl
@[simp] theorem Core.putP_latch (c : Core) (n : Nat) (r : PReg) : (c.putP n r).latch = c.latch := by unfold Core.putP; split <;> rfl
@[simp] theorem Core.putP_arr (c : Core) (n : Nat) (r : PReg) : (c.putP n r).arr = c.arr := by unfold Core.putP; split <;> rfl
@[simp] theorem Core.putP_pops (c : Core) (n : Nat) (r : PReg) : (c.putP n r).pops = c.pops := by unfold Core.putP; split <;> rfl
@[simp] theorem Core.putP_pc (c : Core) (n : Nat) (r : PReg) : (c.putP n r).pc = c.pc := by unfold Core.putP; split <;> rfl
@[simp] theorem Core.putP_time (c : Core) (n : Nat) (r : PReg) : (c.putP n r).time = c.time := by unfold Core.putP; split <;> rfl
@[simp] theorem Core.putP_next (c : Core) (n : Nat) (r : PReg) : (c.putP n r).next = c.next := by unfold Core.putP; split <;> rfl
@[simp] theorem Core.putP_running (c : Core) (n : Nat) (r : PReg) : (c.putP n r).running = c.running := by unfold Core.putP; split <;> rfl
@[simp] theorem Core.putP_issue (c : Core) (n : Nat) (r : PReg) : (c.putP n r).issue = c.issue := by unfold Core.putP; split <;> rfl
@[simp] theorem Core.putP_charged (c : Core) (n : Nat) (r : PReg) : (c.putP n r).charged = c.charged := by unfold Core.putP; split <;> rfl
@[simp] theorem Core.putP_rvDone (c : Core) (n : Nat) (r : PReg) : (c.putP n r).rvDone = c.rvDone := by unfold Core.putP; split <;> rfl
@[simp] theorem Core.putP_skipNext (c : Core) (n : Nat) (r : PReg) : (c.putP n r).skipNext = c.skipNext := by unfold Core.putP; split <;> rfl
@[simp] theorem Core.putP_padDone (c : Core) (n : Nat) (r : PReg) : (c.putP n r).padDone = c.padDone := by unfold Core.putP; split <;> rfl
@[simp] theorem Core.putP_noOpen (c : Core) (n : Nat) (r : PReg) : (c.putP n r).noOpen = c.noOpen := by unfold Core.putP; split <;> rfl
@[simp] theorem Core.putP_supSeg (c : Core) (n : Nat) (r : PReg) : (c.putP n r).supSeg = c.supSeg := by unfold Core.putP; split <;> rfl
@[simp] theorem Core.putP_rewound (c : Core) (n : Nat) (r : PReg) : (c.putP n r).rewound = c.rewound := by unfold Core.putP; split <;> rfl
@[simp] theorem Core.putP_entering (c : Core) (n : Nat) (r : PReg) : (c.putP n r).entering = c.entering := by unfold Core.putP; split <;> rfl
@[simp] theorem Core.putP_supFrom (c : Core) (n : Nat) (r : PReg) : (c.putP n r).supFrom = c.supFrom := by unfold Core.putP; split <;> rfl
@[simp] theorem Core.putP_wants (c : Core) (n : Nat) (r : PReg) : (c.putP n r).wants = c.wants := by unfold Core.putP; split <;> rfl
@[simp] theorem Core.putP_drains (c : Core) (n : Nat) (r : PReg) : (c.putP n r).drains = c.drains := by unfold Core.putP; split <;> rfl
@[simp] theorem Core.putP_padStores (c : Core) (n : Nat) (r : PReg) : (c.putP n r).padStores = c.padStores := by unfold Core.putP; split <;> rfl
@[simp] theorem Core.putP_xfer (c : Core) (n : Nat) (r : PReg) : (c.putP n r).xfer = c.xfer := by unfold Core.putP; split <;> rfl
@[simp] theorem Core.putP_flights (c : Core) (n : Nat) (r : PReg) : (c.putP n r).flights = c.flights := by unfold Core.putP; split <;> rfl
@[simp] theorem Core.putP_timed (c : Core) (n : Nat) (r : PReg) : (c.putP n r).timed = c.timed := by unfold Core.putP; split <;> rfl
@[simp] theorem Core.putP_c0free (c : Core) (n : Nat) (r : PReg) : (c.putP n r).c0free = c.c0free := by unfold Core.putP; split <;> rfl
@[simp] theorem Core.putP_slip (c : Core) (n : Nat) (r : PReg) : (c.putP n r).slip = c.slip := by unfold Core.putP; split <;> rfl
@[simp] theorem Core.putP_cap (c : Core) (n : Nat) (r : PReg) : (c.putP n r).cap = c.cap := by unfold Core.putP; split <;> rfl
@[simp] theorem Core.putP_capTree (c : Core) (n : Nat) (r : PReg) : (c.putP n r).capTree = c.capTree := by unfold Core.putP; split <;> rfl
@[simp] theorem Core.putP_fetch (c : Core) (n : Nat) (r : PReg) : (c.putP n r).fetch = c.fetch := by unfold Core.putP; split <;> rfl
@[simp] theorem Core.putP_hold (c : Core) (n : Nat) (r : PReg) : (c.putP n r).hold = c.hold := by unfold Core.putP; split <;> rfl
@[simp] theorem Core.putP_async (c : Core) (n : Nat) (r : PReg) : (c.putP n r).async = c.async := by unfold Core.putP; split <;> rfl
@[simp] theorem Core.putP_supAsync (c : Core) (n : Nat) (r : PReg) : (c.putP n r).supAsync = c.supAsync := by unfold Core.putP; split <;> rfl
@[simp] theorem Core.putP_held (c : Core) (n : Nat) (r : PReg) : (c.putP n r).held = c.held := by unfold Core.putP; split <;> rfl
@[simp] theorem Core.putP_seg (c : Core) (n : Nat) (r : PReg) : (c.putP n r).seg = c.seg := by unfold Core.putP; split <;> rfl
@[simp] theorem Core.putP_phase (c : Core) (n : Nat) (r : PReg) : (c.putP n r).phase = c.phase := by unfold Core.putP; split <;> rfl
@[simp] theorem Core.putP_l1 (c : Core) (n : Nat) (r : PReg) : (c.putP n r).l1 = c.l1 := by unfold Core.putP; split <;> rfl
@[simp] theorem Core.putP_sb (c : Core) (n : Nat) (r : PReg) : (c.putP n r).sb = c.sb := by unfold Core.putP; split <;> rfl
@[simp] theorem Core.putP_loads (c : Core) (n : Nat) (r : PReg) : (c.putP n r).loads = c.loads := by unfold Core.putP; split <;> rfl
@[simp] theorem Core.putP_fences (c : Core) (n : Nat) (r : PReg) : (c.putP n r).fences = c.fences := by unfold Core.putP; split <;> rfl
@[simp] theorem Core.putP_claim (c : Core) (n : Nat) (r : PReg) : (c.putP n r).claim = c.claim := by unfold Core.putP; split <;> rfl
@[simp] theorem Core.putP_engines (c : Core) (n : Nat) (r : PReg) : (c.putP n r).engines = c.engines := by unfold Core.putP; split <;> rfl
@[simp] theorem Core.putP_seq (c : Core) (n : Nat) (r : PReg) : (c.putP n r).seq = c.seq := by unfold Core.putP; split <;> rfl
@[simp] theorem Core.putP_tlb (c : Core) (n : Nat) (r : PReg) : (c.putP n r).tlb = c.tlb := by unfold Core.putP; split <;> rfl
@[simp] theorem Core.putP_inval (c : Core) (n : Nat) (r : PReg) : (c.putP n r).inval = c.inval := by unfold Core.putP; split <;> rfl
@[simp] theorem Core.putP_scratch (c : Core) (n : Nat) (r : PReg) : (c.putP n r).scratch = c.scratch := by unfold Core.putP; split <;> rfl
@[simp] theorem Core.putP_slices (c : Core) (n : Nat) (r : PReg) : (c.putP n r).slices = c.slices := by unfold Core.putP; split <;> rfl
@[simp] theorem Core.putP_unit (c : Core) (n : Nat) (r : PReg) : (c.putP n r).unit = c.unit := by unfold Core.putP; split <;> rfl
@[simp] theorem Core.putP_job (c : Core) (n : Nat) (r : PReg) : (c.putP n r).job = c.job := by unfold Core.putP; split <;> rfl
@[simp] theorem Core.putP_failed (c : Core) (n : Nat) (r : PReg) : (c.putP n r).failed = c.failed := by unfold Core.putP; split <;> rfl
@[simp] theorem Core.putP_debugStop (c : Core) (n : Nat) (r : PReg) : (c.putP n r).debugStop = c.debugStop := by unfold Core.putP; split <;> rfl
@[simp] theorem Core.putP_debugStep (c : Core) (n : Nat) (r : PReg) : (c.putP n r).debugStep = c.debugStep := by unfold Core.putP; split <;> rfl
@[simp] theorem Core.putP_lastLaunch (c : Core) (n : Nat) (r : PReg) : (c.putP n r).lastLaunch = c.lastLaunch := by unfold Core.putP; split <;> rfl
@[simp] theorem Core.putP_waiting (c : Core) (n : Nat) (r : PReg) : (c.putP n r).waiting = c.waiting := by unfold Core.putP; split <;> rfl

@[simp] theorem Core.putW_sw (c : Core) (i : Nat) (w : Word) : (c.putW i w).sw = c.sw.put i w := rfl
@[simp] theorem Core.emit_flights (c : Core) (f : Flight) : (c.emit f).flights = c.flights ++ [f] := rfl

/-! ## Registers read back -/

theorem Core.sreg_putS (c : Core) (n m : Nat) (r : SReg) : (c.putS n r).sreg m = if m = n then r else c.sreg m := by
  simp [Core.sreg, Core.putS, SMap.get_set]

theorem Core.mreg_putM (c : Core) (n m : Nat) (r : MReg) : (c.putM n r).mreg m = if m = n then r else c.mreg m := by
  simp [Core.mreg, Core.putM, SMap.get_set]

theorem Core.vreg_putV (c : Core) (n m : Nat) (r : VReg) : (c.putV n r).vreg m = if m = n then r else c.vreg m := by
  simp [Core.vreg, Core.putV, SMap.get_set]

theorem Core.treg_putT (c : Core) (n m : Nat) (r : TReg) : (c.putT n r).treg m = if m = n then r else c.treg m := by
  simp [Core.treg, Core.putT, SMap.get_set]

theorem Core.ringReg_putRing (c : Core) (n m : Nat) (r : Ring) :
    (c.putRing n r).ringReg m = if m = n then r else c.ringReg m := by
  simp [Core.ringReg, Core.putRing, SMap.get_set]

theorem Core.breg_putB (c : Core) (n m : Nat) (r : BitVec 20) : (c.putB n r).breg m = if m = n then r else c.breg m := by
  simp [Core.breg, Core.putB, SMap.get_set]

theorem Core.latchOf_putLatch (c : Core) (n m : Nat) (l : Latch) :
    (c.putLatch n l).latchOf m = if m = n then l else c.latchOf m := by
  simp [Core.latchOf, Core.putLatch, SMap.get_set]

/-- p0 reads as 1 with poison clear, whatever has been written (R75). -/
@[simp] theorem Core.preg_zero (c : Core) : c.preg 0 = { val := true, poison := false } := rfl

theorem Core.preg_putP (c : Core) (n m : Nat) (r : PReg) (h : n ≠ 0) :
    (c.putP n r).preg m = if m = 0 then { val := true, poison := false } else if m = n then r else c.preg m := by
  simp only [Core.preg, Core.putP, if_neg h, SMap.get_set]
  split <;> rfl

/-- A write of p0 is discarded (R75). -/
theorem Core.putP_zero (c : Core) (r : PReg) : c.putP 0 r = c := by simp [Core.putP]

end Sys2Proof.Machine
end

