-- ==== Sys2Proof/Laws/Words.lean ====
section
/-! SUPPORT. A word is the encoding of the fields that its layout reads from it: no bit of it is dropped. -/

set_option linter.unusedSimpArgs false

namespace Sys2Proof

set_option Elab.async false

/-- Two neighbouring fields of a word are the field that spans both. -/
theorem bits_append {k n m lo lo' : Nat} {w : BitVec k} {x : BitVec n} {y : BitVec m} (hx : x = bitsAt w lo' n) (hy : y = bitsAt w lo m) (e : lo' = lo + m) : x ++ y = bitsAt w lo (n + m) := by
  subst hx hy e
  apply BitVec.eq_of_getLsbD_eq
  intro i hi
  simp only [bitsAt, BitVec.getLsbD_append, BitVec.getLsbD_extractLsb']
  by_cases h : i < m
  · simp [h, hi]
  · simp [h, hi]
    rw [show lo + m + (i - m) = lo + i by omega]
    simp; intro; omega

/-- A truth value read from a word, as one bit. -/
theorem bitOf_bitAt {k : Nat} (w : BitVec k) (i : Nat) : bitOf (bitAt w i) = bitsAt w i 1 := by
  apply BitVec.eq_of_getLsbD_eq
  intro j hj
  obtain rfl : j = 0 := by omega
  by_cases h : w.getLsbD i <;> simp [bitOf, bitAt, bitsAt, h]

/-- A word is the whole of its own bits. -/
theorem eq_of_bits {k n : Nat} (h : n = k) {w : BitVec k} {x : BitVec n} (hx : x = bitsAt w 0 n) : x.setWidth k = w := by
  subst h; subst hx; simp [bitsAt]

theorem OpNone.enc_dec (w : BitVec 43) (f : OpNone) (e : OpNone.dec w = some f) : OpNone.enc f = w := by
  simp only [OpNone.dec, Option.ite_none_right_eq_some, beq_iff_eq] at e
  simpa [bitsAt, OpNone.enc] using e.1.symm

theorem OpRR.enc_dec (w : BitVec 43) (f : OpRR) (e : OpRR.dec w = some f) : OpRR.enc f = w := by
  simp only [OpRR.dec, Option.ite_none_right_eq_some, Option.some.injEq, Bool.and_eq_true, beq_iff_eq] at e
  obtain ⟨h0, rfl⟩ := e
  exact eq_of_bits rfl (bits_append (lo := 0) (bits_append (lo := 22) (bits_append (lo := 29) rfl rfl rfl) rfl rfl) h0.symm rfl)

theorem OpRI.enc_dec (w : BitVec 43) (f : OpRI) (e : OpRI.dec w = some f) : OpRI.enc f = w := by
  simp only [OpRI.dec, Option.ite_none_right_eq_some, Option.some.injEq, Bool.and_eq_true, beq_iff_eq] at e
  obtain ⟨_, rfl⟩ := e
  exact eq_of_bits rfl (bits_append (lo := 0) (bits_append (lo := 29) rfl rfl rfl) rfl rfl)

theorem OpSH.enc_dec (w : BitVec 43) (f : OpSH) (e : OpSH.dec w = some f) : OpSH.enc f = w := by
  simp only [OpSH.dec, Option.ite_none_right_eq_some, Option.some.injEq, Bool.and_eq_true, beq_iff_eq] at e
  obtain ⟨h0, rfl⟩ := e
  exact eq_of_bits rfl (bits_append (lo := 0) (bits_append (lo := 6) (bits_append (lo := 29) rfl rfl rfl) h0.symm rfl) rfl rfl)

theorem OpLEA.enc_dec (w : BitVec 43) (f : OpLEA) (e : OpLEA.dec w = some f) : OpLEA.enc f = w := by
  simp only [OpLEA.dec, Option.ite_none_right_eq_some, Option.some.injEq, Bool.and_eq_true, beq_iff_eq] at e
  obtain ⟨h0, rfl⟩ := e
  exact eq_of_bits rfl (bits_append (lo := 0) (bits_append (lo := 19) (bits_append (lo := 22) (bits_append (lo := 29) rfl rfl rfl) rfl rfl) rfl rfl) h0.symm rfl)

theorem OpPR.enc_dec (w : BitVec 43) (f : OpPR) (e : OpPR.dec w = some f) : OpPR.enc f = w := by
  simp only [OpPR.dec, Option.ite_none_right_eq_some, Option.some.injEq, Bool.and_eq_true, beq_iff_eq] at e
  obtain ⟨h0, rfl⟩ := e
  exact eq_of_bits rfl (bits_append (lo := 0) (bits_append (lo := 23) (bits_append (lo := 30) rfl rfl rfl) rfl rfl) h0.symm rfl)

theorem OpPI.enc_dec (w : BitVec 43) (f : OpPI) (e : OpPI.dec w = some f) : OpPI.enc f = w := by
  simp only [OpPI.dec, Option.ite_none_right_eq_some, Option.some.injEq, Bool.and_eq_true, beq_iff_eq] at e
  obtain ⟨_, rfl⟩ := e
  exact eq_of_bits rfl (bits_append (lo := 0) (bits_append (lo := 30) rfl rfl rfl) rfl rfl)

theorem OpPL.enc_dec (w : BitVec 43) (f : OpPL) (e : OpPL.dec w = some f) : OpPL.enc f = w := by
  simp only [OpPL.dec, Option.ite_none_right_eq_some, Option.some.injEq, Bool.and_eq_true, beq_iff_eq] at e
  obtain ⟨h0, rfl⟩ := e
  exact eq_of_bits rfl (bits_append (lo := 0) (bits_append (lo := 23) (bits_append (lo := 24) (bits_append (lo := 30) (bits_append (lo := 31) rfl rfl rfl) (bitOf_bitAt w 30) rfl) rfl rfl) (bitOf_bitAt w 23) rfl) h0.symm rfl)

theorem OpPB.enc_dec (w : BitVec 43) (f : OpPB) (e : OpPB.dec w = some f) : OpPB.enc f = w := by
  simp only [OpPB.dec, Option.ite_none_right_eq_some, Option.some.injEq, Bool.and_eq_true, beq_iff_eq] at e
  obtain ⟨h0, rfl⟩ := e
  exact eq_of_bits rfl (bits_append (lo := 0) (bits_append (lo := 24) (bits_append (lo := 30) rfl rfl rfl) rfl rfl) h0.symm rfl)

theorem OpWI.enc_dec (w : BitVec 43) (f : OpWI) (e : OpWI.dec w = some f) : OpWI.enc f = w := by
  simp only [OpWI.dec, Option.ite_none_right_eq_some, Option.some.injEq, Bool.and_eq_true, beq_iff_eq] at e
  obtain ⟨h0, rfl⟩ := e
  exact eq_of_bits rfl (bits_append (lo := 0) (bits_append (lo := 32) rfl h0.symm rfl) rfl rfl)

theorem OpCK.enc_dec (w : BitVec 43) (f : OpCK) (e : OpCK.dec w = some f) : OpCK.enc f = w := by
  simp only [OpCK.dec, Option.ite_none_right_eq_some, Option.some.injEq, Bool.and_eq_true, beq_iff_eq] at e
  obtain ⟨h0, rfl⟩ := e
  exact eq_of_bits rfl (bits_append (lo := 0) (bits_append (lo := 29) rfl rfl rfl) h0.symm rfl)

theorem OpMOV.enc_dec (w : BitVec 43) (f : OpMOV) (e : OpMOV.dec w = some f) : OpMOV.enc f = w := by
  simp only [OpMOV.dec, Option.ite_none_right_eq_some, Option.some.injEq, Bool.and_eq_true, beq_iff_eq] at e
  obtain ⟨h0, rfl⟩ := e
  exact eq_of_bits rfl (bits_append (lo := 0) (bits_append (lo := 29) rfl rfl rfl) h0.symm rfl)

theorem OpRSW.enc_dec (w : BitVec 43) (f : OpRSW) (e : OpRSW.dec w = some f) : OpRSW.enc f = w := by
  simp only [OpRSW.dec, Option.ite_none_right_eq_some, Option.some.injEq, Bool.and_eq_true, beq_iff_eq] at e
  obtain ⟨h0, rfl⟩ := e
  exact eq_of_bits rfl (bits_append (lo := 0) (bits_append (lo := 26) rfl rfl rfl) h0.symm rfl)

theorem OpWSW.enc_dec (w : BitVec 43) (f : OpWSW) (e : OpWSW.dec w = some f) : OpWSW.enc f = w := by
  simp only [OpWSW.dec, Option.ite_none_right_eq_some, Option.some.injEq, Bool.and_eq_true, beq_iff_eq] at e
  obtain ⟨h0, rfl⟩ := e
  exact eq_of_bits rfl (bits_append (lo := 0) (bits_append (lo := 26) rfl rfl rfl) h0.symm rfl)

theorem OpRTAG.enc_dec (w : BitVec 43) (f : OpRTAG) (e : OpRTAG.dec w = some f) : OpRTAG.enc f = w := by
  simp only [OpRTAG.dec, Option.ite_none_right_eq_some, Option.some.injEq, Bool.and_eq_true, beq_iff_eq] at e
  obtain ⟨h0, rfl⟩ := e
  exact eq_of_bits rfl (bits_append (lo := 0) (bits_append (lo := 25) (bits_append (lo := 35) rfl (bitOf_bitAt w 35) rfl) rfl rfl) h0.symm rfl)

theorem OpWTAG.enc_dec (w : BitVec 43) (f : OpWTAG) (e : OpWTAG.dec w = some f) : OpWTAG.enc f = w := by
  simp only [OpWTAG.dec, Option.ite_none_right_eq_some, Option.some.injEq, Bool.and_eq_true, beq_iff_eq] at e
  obtain ⟨h0, rfl⟩ := e
  exact eq_of_bits rfl (bits_append (lo := 0) (bits_append (lo := 28) (bits_append (lo := 32) (bitOf_bitAt w 42) rfl rfl) rfl rfl) h0.symm rfl)

theorem OpMFROM.enc_dec (w : BitVec 43) (f : OpMFROM) (e : OpMFROM.dec w = some f) : OpMFROM.enc f = w := by
  simp only [OpMFROM.dec, Option.ite_none_right_eq_some, Option.some.injEq, Bool.and_eq_true, beq_iff_eq] at e
  obtain ⟨h0, rfl⟩ := e
  exact eq_of_bits rfl (bits_append (lo := 0) (bits_append (lo := 32) rfl rfl rfl) h0.symm rfl)

theorem OpMTO.enc_dec (w : BitVec 43) (f : OpMTO) (e : OpMTO.dec w = some f) : OpMTO.enc f = w := by
  simp only [OpMTO.dec, Option.ite_none_right_eq_some, Option.some.injEq, Bool.and_eq_true, beq_iff_eq] at e
  obtain ⟨h0, rfl⟩ := e
  exact eq_of_bits rfl (bits_append (lo := 0) (bits_append (lo := 32) rfl rfl rfl) h0.symm rfl)

theorem OpPGET.enc_dec (w : BitVec 43) (f : OpPGET) (e : OpPGET.dec w = some f) : OpPGET.enc f = w := by
  simp only [OpPGET.dec, Option.ite_none_right_eq_some, Option.some.injEq, Bool.and_eq_true, beq_iff_eq] at e
  obtain ⟨h0, rfl⟩ := e
  exact eq_of_bits rfl (bits_append (lo := 0) rfl h0.symm rfl)

theorem OpLFL.enc_dec (w : BitVec 43) (f : OpLFL) (e : OpLFL.dec w = some f) : OpLFL.enc f = w := by
  simp only [OpLFL.dec, Option.ite_none_right_eq_some, Option.some.injEq, Bool.and_eq_true, beq_iff_eq] at e
  obtain ⟨_, rfl⟩ := e
  exact eq_of_bits rfl (bits_append (lo := 0) (bits_append (lo := 29) rfl rfl rfl) rfl rfl)

theorem OpLFS.enc_dec (w : BitVec 43) (f : OpLFS) (e : OpLFS.dec w = some f) : OpLFS.enc f = w := by
  simp only [OpLFS.dec, Option.ite_none_right_eq_some, Option.some.injEq, Bool.and_eq_true, beq_iff_eq] at e
  obtain ⟨_, rfl⟩ := e
  exact eq_of_bits rfl (bits_append (lo := 0) (bits_append (lo := 29) rfl rfl rfl) rfl rfl)

theorem OpSA.enc_dec (w : BitVec 43) (f : OpSA) (e : OpSA.dec w = some f) : OpSA.enc f = w := by
  simp only [OpSA.dec, Option.ite_none_right_eq_some, Option.some.injEq, Bool.and_eq_true, beq_iff_eq] at e
  obtain ⟨h0, rfl⟩ := e
  exact eq_of_bits rfl (bits_append (lo := 0) rfl h0.symm rfl)

theorem OpTI.enc_dec (k : BitVec 2) (w : BitVec 43) (f : OpTI) (e : OpTI.dec k w = some f) : OpTI.enc k f = w := by
  simp only [OpTI.dec, Option.ite_none_right_eq_some, Option.some.injEq, Bool.and_eq_true, beq_iff_eq] at e
  obtain ⟨⟨h0, h1⟩, rfl⟩ := e
  exact eq_of_bits rfl (bits_append (lo := 0) (bits_append (lo := 27) (bits_append (lo := 29) rfl rfl rfl) h0.symm rfl) h1.symm rfl)

theorem OpCTXD.enc_dec (k : BitVec 1) (w : BitVec 43) (f : OpCTXD) (e : OpCTXD.dec k w = some f) : OpCTXD.enc k f = w := by
  simp only [OpCTXD.dec, Option.ite_none_right_eq_some, Option.some.injEq, Bool.and_eq_true, beq_iff_eq] at e
  obtain ⟨⟨h0, h1⟩, rfl⟩ := e
  exact eq_of_bits rfl (bits_append (lo := 0) (bits_append (lo := 35) rfl h0.symm rfl) h1.symm rfl)

theorem OpBD.enc_dec (w : BitVec 43) (f : OpBD) (e : OpBD.dec w = some f) : OpBD.enc f = w := by
  simp only [OpBD.dec, Option.ite_none_right_eq_some, Option.some.injEq, Bool.and_eq_true, beq_iff_eq] at e
  obtain ⟨h0, rfl⟩ := e
  exact eq_of_bits rfl (bits_append (lo := 0) (bits_append (lo := 32) (bitOf_bitAt w 42) h0.symm rfl) rfl rfl)

theorem OpBDL.enc_dec (w : BitVec 43) (f : OpBDL) (e : OpBDL.dec w = some f) : OpBDL.enc f = w := by
  simp only [OpBDL.dec, Option.ite_none_right_eq_some, Option.some.injEq, Bool.and_eq_true, beq_iff_eq] at e
  obtain ⟨h0, rfl⟩ := e
  exact eq_of_bits rfl (bits_append (lo := 0) (bits_append (lo := 32) (bits_append (lo := 35) (bitOf_bitAt w 42) rfl rfl) h0.symm rfl) rfl rfl)

theorem OpBRG.enc_dec (w : BitVec 43) (f : OpBRG) (e : OpBRG.dec w = some f) : OpBRG.enc f = w := by
  simp only [OpBRG.dec, Option.ite_none_right_eq_some, Option.some.injEq, Bool.and_eq_true, beq_iff_eq] at e
  obtain ⟨h0, rfl⟩ := e
  exact eq_of_bits rfl (bits_append (lo := 0) (bits_append (lo := 35) (bitOf_bitAt w 42) rfl rfl) h0.symm rfl)

theorem OpBRL.enc_dec (w : BitVec 43) (f : OpBRL) (e : OpBRL.dec w = some f) : OpBRL.enc f = w := by
  simp only [OpBRL.dec, Option.ite_none_right_eq_some, Option.some.injEq, Bool.and_eq_true, beq_iff_eq] at e
  obtain ⟨h0, rfl⟩ := e
  exact eq_of_bits rfl (bits_append (lo := 0) (bits_append (lo := 28) (bits_append (lo := 35) (bitOf_bitAt w 42) rfl rfl) rfl rfl) h0.symm rfl)

theorem OpBRD.enc_dec (w : BitVec 43) (f : OpBRD) (e : OpBRD.dec w = some f) : OpBRD.enc f = w := by
  simp only [OpBRD.dec, Option.ite_none_right_eq_some, Option.some.injEq, Bool.and_eq_true, beq_iff_eq] at e
  obtain ⟨h0, rfl⟩ := e
  exact eq_of_bits rfl (bits_append (lo := 0) (bits_append (lo := 32) (bits_append (lo := 35) (bitOf_bitAt w 42) rfl rfl) h0.symm rfl) rfl rfl)

theorem OpBWC.enc_dec (w : BitVec 43) (f : OpBWC) (e : OpBWC.dec w = some f) : OpBWC.enc f = w := by
  simp only [OpBWC.dec, Option.ite_none_right_eq_some, Option.some.injEq, Bool.and_eq_true, beq_iff_eq] at e
  obtain ⟨h0, rfl⟩ := e
  exact eq_of_bits rfl (bits_append (lo := 0) (bits_append (lo := 32) (bits_append (lo := 35) (bits_append (lo := 36) (bitOf_bitAt w 42) rfl rfl) (bitOf_bitAt w 35) rfl) h0.symm rfl) rfl rfl)

theorem OpBT.enc_dec (w : BitVec 43) (f : OpBT) (e : OpBT.dec w = some f) : OpBT.enc f = w := by
  simp only [OpBT.dec, Option.ite_none_right_eq_some, Option.some.injEq, Bool.and_eq_true, beq_iff_eq] at e
  obtain ⟨h0, rfl⟩ := e
  exact eq_of_bits rfl (bits_append (lo := 0) h0.symm rfl rfl)

theorem OpBTR.enc_dec (w : BitVec 43) (f : OpBTR) (e : OpBTR.dec w = some f) : OpBTR.enc f = w := by
  simp only [OpBTR.dec, Option.ite_none_right_eq_some, Option.some.injEq, Bool.and_eq_true, beq_iff_eq] at e
  obtain ⟨⟨h0, h1⟩, rfl⟩ := e
  exact eq_of_bits rfl (bits_append (lo := 0) (bits_append (lo := 35) h0.symm rfl rfl) h1.symm rfl)

theorem OpBI.enc_dec (w : BitVec 43) (f : OpBI) (e : OpBI.dec w = some f) : OpBI.enc f = w := by
  simp only [OpBI.dec, Option.ite_none_right_eq_some, Option.some.injEq, Bool.and_eq_true, beq_iff_eq] at e
  obtain ⟨h0, rfl⟩ := e
  exact eq_of_bits rfl (bits_append (lo := 0) h0.symm rfl rfl)

theorem OpBI8.enc_dec (w : BitVec 43) (f : OpBI8) (e : OpBI8.dec w = some f) : OpBI8.enc f = w := by
  simp only [OpBI8.dec, Option.ite_none_right_eq_some, Option.some.injEq, Bool.and_eq_true, beq_iff_eq] at e
  obtain ⟨h0, rfl⟩ := e
  exact eq_of_bits rfl (bits_append (lo := 0) h0.symm rfl rfl)

theorem OpBI1.enc_dec (w : BitVec 43) (f : OpBI1) (e : OpBI1.dec w = some f) : OpBI1.enc f = w := by
  simp only [OpBI1.dec, Option.ite_none_right_eq_some, Option.some.injEq, Bool.and_eq_true, beq_iff_eq] at e
  obtain ⟨h0, rfl⟩ := e
  exact eq_of_bits rfl (bits_append (lo := 0) h0.symm (bitOf_bitAt w 0) rfl)

theorem OpBM.enc_dec (w : BitVec 43) (f : OpBM) (e : OpBM.dec w = some f) : OpBM.enc f = w := by
  simp only [OpBM.dec, Option.ite_none_right_eq_some, Option.some.injEq, Bool.and_eq_true, beq_iff_eq] at e
  obtain ⟨h0, rfl⟩ := e
  exact eq_of_bits rfl (bits_append (lo := 0) h0.symm rfl rfl)

theorem OpBL.enc_dec (w : BitVec 43) (f : OpBL) (e : OpBL.dec w = some f) : OpBL.enc f = w := by
  simp only [OpBL.dec, Option.ite_none_right_eq_some, Option.some.injEq, Bool.and_eq_true, beq_iff_eq] at e
  obtain ⟨h0, rfl⟩ := e
  exact eq_of_bits rfl (bits_append (lo := 0) (bits_append (lo := 8) h0.symm rfl rfl) rfl rfl)

theorem OpV3.enc_dec (w : BitVec 43) (f : OpV3) (e : OpV3.dec w = some f) : OpV3.enc f = w := by
  simp only [OpV3.dec, Option.ite_none_right_eq_some, Option.some.injEq, Bool.and_eq_true, beq_iff_eq] at e
  obtain ⟨h0, rfl⟩ := e
  exact eq_of_bits rfl (bits_append (lo := 0) (bits_append (lo := 13) (bits_append (lo := 23) rfl rfl rfl) rfl rfl) h0.symm rfl)

theorem OpV2.enc_dec (w : BitVec 43) (f : OpV2) (e : OpV2.dec w = some f) : OpV2.enc f = w := by
  simp only [OpV2.dec, Option.ite_none_right_eq_some, Option.some.injEq, Bool.and_eq_true, beq_iff_eq] at e
  obtain ⟨h0, rfl⟩ := e
  exact eq_of_bits rfl (bits_append (lo := 0) (bits_append (lo := 23) rfl rfl rfl) h0.symm rfl)

theorem OpV3R.enc_dec (w : BitVec 43) (f : OpV3R) (e : OpV3R.dec w = some f) : OpV3R.enc f = w := by
  simp only [OpV3R.dec, Option.ite_none_right_eq_some, Option.some.injEq, Bool.and_eq_true, beq_iff_eq] at e
  obtain ⟨h0, rfl⟩ := e
  exact eq_of_bits rfl (bits_append (lo := 0) (bits_append (lo := 11) (bits_append (lo := 13) (bits_append (lo := 23) rfl rfl rfl) rfl rfl) rfl rfl) h0.symm rfl)

theorem OpV2R.enc_dec (w : BitVec 43) (f : OpV2R) (e : OpV2R.dec w = some f) : OpV2R.enc f = w := by
  simp only [OpV2R.dec, Option.ite_none_right_eq_some, Option.some.injEq, Bool.and_eq_true, beq_iff_eq] at e
  obtain ⟨⟨h0, h1⟩, rfl⟩ := e
  exact eq_of_bits rfl (bits_append (lo := 0) (bits_append (lo := 11) (bits_append (lo := 13) (bits_append (lo := 23) rfl rfl rfl) h0.symm rfl) rfl rfl) h1.symm rfl)

theorem OpVM.enc_dec (w : BitVec 43) (f : OpVM) (e : OpVM.dec w = some f) : OpVM.enc f = w := by
  simp only [OpVM.dec, Option.ite_none_right_eq_some, Option.some.injEq, Bool.and_eq_true, beq_iff_eq] at e
  obtain ⟨⟨h0, h1⟩, rfl⟩ := e
  exact eq_of_bits rfl (bits_append (lo := 0) (bits_append (lo := 13) (bits_append (lo := 23) (bits_append (lo := 33) rfl h0.symm rfl) rfl rfl) rfl rfl) h1.symm rfl)

theorem OpVCR.enc_dec (w : BitVec 43) (f : OpVCR) (e : OpVCR.dec w = some f) : OpVCR.enc f = w := by
  simp only [OpVCR.dec, Option.ite_none_right_eq_some, Option.some.injEq, Bool.and_eq_true, beq_iff_eq] at e
  obtain ⟨⟨h0, h1⟩, rfl⟩ := e
  exact eq_of_bits rfl (bits_append (lo := 0) (bits_append (lo := 8) (bits_append (lo := 11) (bits_append (lo := 13) (bits_append (lo := 23) rfl rfl rfl) h0.symm rfl) rfl rfl) rfl rfl) h1.symm rfl)

theorem OpVC.enc_dec (w : BitVec 43) (f : OpVC) (e : OpVC.dec w = some f) : OpVC.enc f = w := by
  simp only [OpVC.dec, Option.ite_none_right_eq_some, Option.some.injEq, Bool.and_eq_true, beq_iff_eq] at e
  obtain ⟨⟨h0, h1⟩, rfl⟩ := e
  exact eq_of_bits rfl (bits_append (lo := 0) (bits_append (lo := 8) (bits_append (lo := 11) (bits_append (lo := 23) rfl rfl rfl) h0.symm rfl) rfl rfl) h1.symm rfl)

theorem OpVQR.enc_dec (w : BitVec 43) (f : OpVQR) (e : OpVQR.dec w = some f) : OpVQR.enc f = w := by
  simp only [OpVQR.dec, Option.ite_none_right_eq_some, Option.some.injEq, Bool.and_eq_true, beq_iff_eq] at e
  obtain ⟨⟨h0, h1⟩, rfl⟩ := e
  exact eq_of_bits rfl (bits_append (lo := 0) (bits_append (lo := 6) (bits_append (lo := 7) (bits_append (lo := 11) (bits_append (lo := 13) (bits_append (lo := 23) rfl rfl rfl) h0.symm rfl) rfl rfl) rfl rfl) (bitOf_bitAt w 6) rfl) h1.symm rfl)

theorem OpVQ.enc_dec (w : BitVec 43) (f : OpVQ) (e : OpVQ.dec w = some f) : OpVQ.enc f = w := by
  simp only [OpVQ.dec, Option.ite_none_right_eq_some, Option.some.injEq, Bool.and_eq_true, beq_iff_eq] at e
  obtain ⟨⟨h0, h1⟩, rfl⟩ := e
  exact eq_of_bits rfl (bits_append (lo := 0) (bits_append (lo := 6) (bits_append (lo := 7) (bits_append (lo := 11) (bits_append (lo := 23) rfl rfl rfl) h0.symm rfl) rfl rfl) (bitOf_bitAt w 6) rfl) h1.symm rfl)

theorem OpVN.enc_dec (w : BitVec 43) (f : OpVN) (e : OpVN.dec w = some f) : OpVN.enc f = w := by
  simp only [OpVN.dec, Option.ite_none_right_eq_some, Option.some.injEq, Bool.and_eq_true, beq_iff_eq] at e
  obtain ⟨⟨h0, h1⟩, rfl⟩ := e
  exact eq_of_bits rfl (bits_append (lo := 0) (bits_append (lo := 8) (bits_append (lo := 13) (bits_append (lo := 23) rfl rfl rfl) h0.symm rfl) rfl rfl) h1.symm rfl)

theorem OpVSL.enc_dec (w : BitVec 43) (f : OpVSL) (e : OpVSL.dec w = some f) : OpVSL.enc f = w := by
  simp only [OpVSL.dec, Option.ite_none_right_eq_some, Option.some.injEq, Bool.and_eq_true, beq_iff_eq] at e
  obtain ⟨h0, rfl⟩ := e
  exact eq_of_bits rfl (bits_append (lo := 0) (bits_append (lo := 8) (bits_append (lo := 13) (bits_append (lo := 23) rfl rfl rfl) rfl rfl) rfl rfl) h0.symm rfl)

theorem OpVSEL.enc_dec (w : BitVec 43) (f : OpVSEL) (e : OpVSEL.dec w = some f) : OpVSEL.enc f = w := by
  simp only [OpVSEL.dec, Option.ite_none_right_eq_some, Option.some.injEq, Bool.and_eq_true, beq_iff_eq] at e
  obtain ⟨⟨h0, h1⟩, rfl⟩ := e
  exact eq_of_bits rfl (bits_append (lo := 0) (bits_append (lo := 4) (bits_append (lo := 8) (bits_append (lo := 13) (bits_append (lo := 23) rfl rfl rfl) rfl rfl) h0.symm rfl) rfl rfl) h1.symm rfl)

theorem OpVS.enc_dec (w : BitVec 43) (f : OpVS) (e : OpVS.dec w = some f) : OpVS.enc f = w := by
  simp only [OpVS.dec, Option.ite_none_right_eq_some, Option.some.injEq, Bool.and_eq_true, beq_iff_eq] at e
  obtain ⟨h0, rfl⟩ := e
  exact eq_of_bits rfl (bits_append (lo := 0) (bits_append (lo := 22) (bits_append (lo := 26) rfl rfl rfl) rfl rfl) h0.symm rfl)

theorem OpVI.enc_dec (w : BitVec 43) (f : OpVI) (e : OpVI.dec w = some f) : OpVI.enc f = w := by
  simp only [OpVI.dec, Option.ite_none_right_eq_some, Option.some.injEq, Bool.and_eq_true, beq_iff_eq] at e
  obtain ⟨h0, rfl⟩ := e
  exact eq_of_bits rfl (bits_append (lo := 0) (bits_append (lo := 32) rfl h0.symm rfl) rfl rfl)

theorem OpVLL.enc_dec (w : BitVec 43) (f : OpVLL) (e : OpVLL.dec w = some f) : OpVLL.enc f = w := by
  simp only [OpVLL.dec, Option.ite_none_right_eq_some, Option.some.injEq, Bool.and_eq_true, beq_iff_eq] at e
  obtain ⟨⟨h0, h1⟩, rfl⟩ := e
  exact eq_of_bits rfl (bits_append (lo := 0) (bits_append (lo := 6) (bits_append (lo := 19) (bits_append (lo := 23) rfl h0.symm rfl) rfl rfl) rfl rfl) h1.symm rfl)

theorem OpVLLX.enc_dec (w : BitVec 43) (f : OpVLLX) (e : OpVLLX.dec w = some f) : OpVLLX.enc f = w := by
  simp only [OpVLLX.dec, Option.ite_none_right_eq_some, Option.some.injEq, Bool.and_eq_true, beq_iff_eq] at e
  obtain ⟨h0, rfl⟩ := e
  exact eq_of_bits rfl (bits_append (lo := 0) (bits_append (lo := 6) (bits_append (lo := 19) (bits_append (lo := 23) rfl rfl rfl) rfl rfl) rfl rfl) h0.symm rfl)

theorem OpVLS.enc_dec (w : BitVec 43) (f : OpVLS) (e : OpVLS.dec w = some f) : OpVLS.enc f = w := by
  simp only [OpVLS.dec, Option.ite_none_right_eq_some, Option.some.injEq, Bool.and_eq_true, beq_iff_eq] at e
  obtain ⟨⟨h0, h1⟩, rfl⟩ := e
  exact eq_of_bits rfl (bits_append (lo := 0) (bits_append (lo := 6) (bits_append (lo := 19) rfl h0.symm rfl) rfl rfl) h1.symm rfl)

theorem OpVLSX.enc_dec (w : BitVec 43) (f : OpVLSX) (e : OpVLSX.dec w = some f) : OpVLSX.enc f = w := by
  simp only [OpVLSX.dec, Option.ite_none_right_eq_some, Option.some.injEq, Bool.and_eq_true, beq_iff_eq] at e
  obtain ⟨⟨h0, h1⟩, rfl⟩ := e
  exact eq_of_bits rfl (bits_append (lo := 0) (bits_append (lo := 6) (bits_append (lo := 19) (bits_append (lo := 23) rfl rfl rfl) h0.symm rfl) rfl rfl) h1.symm rfl)

theorem OpVLSM.enc_dec (w : BitVec 43) (f : OpVLSM) (e : OpVLSM.dec w = some f) : OpVLSM.enc f = w := by
  simp only [OpVLSM.dec, Option.ite_none_right_eq_some, Option.some.injEq, Bool.and_eq_true, beq_iff_eq] at e
  obtain ⟨⟨h0, h1⟩, rfl⟩ := e
  exact eq_of_bits rfl (bits_append (lo := 0) (bits_append (lo := 6) (bits_append (lo := 19) (bits_append (lo := 23) rfl h0.symm rfl) rfl rfl) rfl rfl) h1.symm rfl)

theorem OpVLSXM.enc_dec (w : BitVec 43) (f : OpVLSXM) (e : OpVLSXM.dec w = some f) : OpVLSXM.enc f = w := by
  simp only [OpVLSXM.dec, Option.ite_none_right_eq_some, Option.some.injEq, Bool.and_eq_true, beq_iff_eq] at e
  obtain ⟨h0, rfl⟩ := e
  exact eq_of_bits rfl (bits_append (lo := 0) (bits_append (lo := 6) (bits_append (lo := 19) (bits_append (lo := 23) rfl rfl rfl) rfl rfl) rfl rfl) h0.symm rfl)

theorem OpVDL.enc_dec (w : BitVec 43) (f : OpVDL) (e : OpVDL.dec w = some f) : OpVDL.enc f = w := by
  simp only [OpVDL.dec, Option.ite_none_right_eq_some, Option.some.injEq, Bool.and_eq_true, beq_iff_eq] at e
  obtain ⟨h0, rfl⟩ := e
  exact eq_of_bits rfl (bits_append (lo := 0) (bits_append (lo := 15) (bits_append (lo := 19) (bits_append (lo := 23) rfl h0.symm rfl) rfl rfl) rfl rfl) rfl rfl)

theorem OpVDS.enc_dec (w : BitVec 43) (f : OpVDS) (e : OpVDS.dec w = some f) : OpVDS.enc f = w := by
  simp only [OpVDS.dec, Option.ite_none_right_eq_some, Option.some.injEq, Bool.and_eq_true, beq_iff_eq] at e
  obtain ⟨h0, rfl⟩ := e
  exact eq_of_bits rfl (bits_append (lo := 0) (bits_append (lo := 15) (bits_append (lo := 19) rfl h0.symm rfl) rfl rfl) rfl rfl)

theorem OpVDSM.enc_dec (w : BitVec 43) (f : OpVDSM) (e : OpVDSM.dec w = some f) : OpVDSM.enc f = w := by
  simp only [OpVDSM.dec, Option.ite_none_right_eq_some, Option.some.injEq, Bool.and_eq_true, beq_iff_eq] at e
  obtain ⟨h0, rfl⟩ := e
  exact eq_of_bits rfl (bits_append (lo := 0) (bits_append (lo := 15) (bits_append (lo := 19) (bits_append (lo := 23) rfl h0.symm rfl) rfl rfl) rfl rfl) rfl rfl)

theorem OpVDLX.enc_dec (w : BitVec 43) (f : OpVDLX) (e : OpVDLX.dec w = some f) : OpVDLX.enc f = w := by
  simp only [OpVDLX.dec, Option.ite_none_right_eq_some, Option.some.injEq, Bool.and_eq_true, beq_iff_eq] at e
  obtain ⟨_, rfl⟩ := e
  exact eq_of_bits rfl (bits_append (lo := 0) (bits_append (lo := 15) (bits_append (lo := 19) (bits_append (lo := 23) rfl rfl rfl) rfl rfl) rfl rfl) rfl rfl)

theorem OpVDSX.enc_dec (w : BitVec 43) (f : OpVDSX) (e : OpVDSX.dec w = some f) : OpVDSX.enc f = w := by
  simp only [OpVDSX.dec, Option.ite_none_right_eq_some, Option.some.injEq, Bool.and_eq_true, beq_iff_eq] at e
  obtain ⟨h0, rfl⟩ := e
  exact eq_of_bits rfl (bits_append (lo := 0) (bits_append (lo := 15) (bits_append (lo := 19) (bits_append (lo := 23) rfl rfl rfl) h0.symm rfl) rfl rfl) rfl rfl)

theorem OpVDSXM.enc_dec (w : BitVec 43) (f : OpVDSXM) (e : OpVDSXM.dec w = some f) : OpVDSXM.enc f = w := by
  simp only [OpVDSXM.dec, Option.ite_none_right_eq_some, Option.some.injEq, Bool.and_eq_true, beq_iff_eq] at e
  obtain ⟨_, rfl⟩ := e
  exact eq_of_bits rfl (bits_append (lo := 0) (bits_append (lo := 15) (bits_append (lo := 19) (bits_append (lo := 23) rfl rfl rfl) rfl rfl) rfl rfl) rfl rfl)

theorem OpVG.enc_dec (w : BitVec 43) (f : OpVG) (e : OpVG.dec w = some f) : OpVG.enc f = w := by
  simp only [OpVG.dec, Option.ite_none_right_eq_some, Option.some.injEq, Bool.and_eq_true, beq_iff_eq] at e
  obtain ⟨_, rfl⟩ := e
  exact eq_of_bits rfl (bits_append (lo := 0) (bits_append (lo := 11) (bits_append (lo := 15) (bits_append (lo := 19) (bits_append (lo := 23) rfl rfl rfl) rfl rfl) rfl rfl) rfl rfl) rfl rfl)

theorem OpVEF.enc_dec (w : BitVec 43) (f : OpVEF) (e : OpVEF.dec w = some f) : OpVEF.enc f = w := by
  simp only [OpVEF.dec, Option.ite_none_right_eq_some, Option.some.injEq, Bool.and_eq_true, beq_iff_eq] at e
  obtain ⟨⟨h0, h1⟩, rfl⟩ := e
  exact eq_of_bits rfl (bits_append (lo := 0) (bits_append (lo := 7) (bits_append (lo := 9) (bits_append (lo := 11) (bits_append (lo := 23) rfl rfl rfl) h0.symm rfl) rfl rfl) rfl rfl) h1.symm rfl)

theorem OpVER.enc_dec (w : BitVec 43) (f : OpVER) (e : OpVER.dec w = some f) : OpVER.enc f = w := by
  simp only [OpVER.dec, Option.ite_none_right_eq_some, Option.some.injEq, Bool.and_eq_true, beq_iff_eq] at e
  obtain ⟨h0, rfl⟩ := e
  exact eq_of_bits rfl (bits_append (lo := 0) (bits_append (lo := 3) (bits_append (lo := 6) (bits_append (lo := 7) (bits_append (lo := 9) (bits_append (lo := 11) (bits_append (lo := 13) (bits_append (lo := 23) rfl rfl rfl) h0.symm rfl) rfl rfl) rfl rfl) rfl rfl) (bitOf_bitAt w 6) rfl) rfl rfl) rfl rfl)

theorem OpVEC.enc_dec (w : BitVec 43) (f : OpVEC) (e : OpVEC.dec w = some f) : OpVEC.enc f = w := by
  simp only [OpVEC.dec, Option.ite_none_right_eq_some, Option.some.injEq, Bool.and_eq_true, beq_iff_eq] at e
  obtain ⟨⟨h0, h1⟩, rfl⟩ := e
  exact eq_of_bits rfl (bits_append (lo := 0) (bits_append (lo := 3) (bits_append (lo := 6) (bits_append (lo := 7) (bits_append (lo := 9) (bits_append (lo := 19) (bits_append (lo := 23) rfl rfl rfl) rfl rfl) h0.symm rfl) rfl rfl) h1.symm rfl) rfl rfl) rfl rfl)

theorem OpMP.enc_dec (w : BitVec 43) (f : OpMP) (e : OpMP.dec w = some f) : OpMP.enc f = w := by
  simp only [OpMP.dec, Option.ite_none_right_eq_some, Option.some.injEq, Bool.and_eq_true, beq_iff_eq] at e
  obtain ⟨h0, rfl⟩ := e
  exact eq_of_bits rfl (bits_append (lo := 0) (bits_append (lo := 37) rfl rfl rfl) h0.symm rfl)

theorem OpMS.enc_dec (w : BitVec 43) (f : OpMS) (e : OpMS.dec w = some f) : OpMS.enc f = w := by
  simp only [OpMS.dec, Option.ite_none_right_eq_some, Option.some.injEq, Bool.and_eq_true, beq_iff_eq] at e
  obtain ⟨⟨h0, h1⟩, rfl⟩ := e
  exact eq_of_bits rfl (bits_append (lo := 0) (bits_append (lo := 36) h0.symm (bitOf_bitAt w 36) rfl) h1.symm rfl)

theorem OpMPA.enc_dec (w : BitVec 43) (f : OpMPA) (e : OpMPA.dec w = some f) : OpMPA.enc f = w := by
  simp only [OpMPA.dec, Option.ite_none_right_eq_some, Option.some.injEq, Bool.and_eq_true, beq_iff_eq] at e
  obtain ⟨h0, rfl⟩ := e
  exact eq_of_bits rfl (bits_append (lo := 0) (bits_append (lo := 36) (bits_append (lo := 37) rfl rfl rfl) (bitOf_bitAt w 36) rfl) h0.symm rfl)

theorem OpMD.enc_dec (w : BitVec 43) (f : OpMD) (e : OpMD.dec w = some f) : OpMD.enc f = w := by
  simp only [OpMD.dec, Option.ite_none_right_eq_some, Option.some.injEq, Bool.and_eq_true, beq_iff_eq] at e
  obtain ⟨h0, rfl⟩ := e
  exact eq_of_bits rfl (bits_append (lo := 0) (bits_append (lo := 23) (bits_append (lo := 31) rfl rfl rfl) rfl rfl) h0.symm rfl)

theorem OpMH.enc_dec (w : BitVec 43) (f : OpMH) (e : OpMH.dec w = some f) : OpMH.enc f = w := by
  simp only [OpMH.dec, Option.ite_none_right_eq_some, Option.some.injEq, Bool.and_eq_true, beq_iff_eq] at e
  obtain ⟨h0, rfl⟩ := e
  exact eq_of_bits rfl (bits_append (lo := 0) (bits_append (lo := 33) rfl rfl rfl) h0.symm rfl)

theorem OpMZ.enc_dec (w : BitVec 43) (f : OpMZ) (e : OpMZ.dec w = some f) : OpMZ.enc f = w := by
  simp only [OpMZ.dec, Option.ite_none_right_eq_some, Option.some.injEq, Bool.and_eq_true, beq_iff_eq] at e
  obtain ⟨⟨h0, h1⟩, rfl⟩ := e
  exact eq_of_bits rfl (bits_append (lo := 0) (bits_append (lo := 35) (bits_append (lo := 36) h0.symm (bitOf_bitAt w 36) rfl) (bitOf_bitAt w 35) rfl) h1.symm rfl)

theorem OpMI.enc_dec (w : BitVec 43) (f : OpMI) (e : OpMI.dec w = some f) : OpMI.enc f = w := by
  simp only [OpMI.dec, Option.ite_none_right_eq_some, Option.some.injEq, Bool.and_eq_true, beq_iff_eq] at e
  obtain ⟨h0, rfl⟩ := e
  exact eq_of_bits rfl (bits_append (lo := 0) (bits_append (lo := 23) (bits_append (lo := 31) (bits_append (lo := 35) rfl rfl rfl) rfl rfl) rfl rfl) h0.symm rfl)

theorem OpCML.enc_dec (w : BitVec 43) (f : OpCML) (e : OpCML.dec w = some f) : OpCML.enc f = w := by
  simp only [OpCML.dec, Option.ite_none_right_eq_some, Option.some.injEq, Bool.and_eq_true, beq_iff_eq] at e
  obtain ⟨h0, rfl⟩ := e
  exact eq_of_bits rfl (bits_append (lo := 0) (bits_append (lo := 21) (bits_append (lo := 26) rfl rfl rfl) h0.symm rfl) rfl rfl)

theorem OpCMS.enc_dec (w : BitVec 43) (f : OpCMS) (e : OpCMS.dec w = some f) : OpCMS.enc f = w := by
  simp only [OpCMS.dec, Option.ite_none_right_eq_some, Option.some.injEq, Bool.and_eq_true, beq_iff_eq] at e
  obtain ⟨h0, rfl⟩ := e
  exact eq_of_bits rfl (bits_append (lo := 0) (bits_append (lo := 21) (bits_append (lo := 22) (bits_append (lo := 26) rfl rfl rfl) h0.symm rfl) (bitOf_bitAt w 21) rfl) rfl rfl)

theorem OpCMVL.enc_dec (w : BitVec 43) (f : OpCMVL) (e : OpCMVL.dec w = some f) : OpCMVL.enc f = w := by
  simp only [OpCMVL.dec, Option.ite_none_right_eq_some, Option.some.injEq, Bool.and_eq_true, beq_iff_eq] at e
  obtain ⟨h0, rfl⟩ := e
  exact eq_of_bits rfl (bits_append (lo := 0) (bits_append (lo := 21) (bits_append (lo := 22) (bits_append (lo := 26) rfl rfl rfl) rfl rfl) h0.symm rfl) rfl rfl)

theorem OpCMVS.enc_dec (w : BitVec 43) (f : OpCMVS) (e : OpCMVS.dec w = some f) : OpCMVS.enc f = w := by
  simp only [OpCMVS.dec, Option.ite_none_right_eq_some, Option.some.injEq, Bool.and_eq_true, beq_iff_eq] at e
  obtain ⟨h0, rfl⟩ := e
  exact eq_of_bits rfl (bits_append (lo := 0) (bits_append (lo := 21) (bits_append (lo := 22) (bits_append (lo := 26) rfl rfl rfl) h0.symm rfl) (bitOf_bitAt w 21) rfl) rfl rfl)

theorem OpCMVM.enc_dec (w : BitVec 43) (f : OpCMVM) (e : OpCMVM.dec w = some f) : OpCMVM.enc f = w := by
  simp only [OpCMVM.dec, Option.ite_none_right_eq_some, Option.some.injEq, Bool.and_eq_true, beq_iff_eq] at e
  obtain ⟨_, rfl⟩ := e
  exact eq_of_bits rfl (bits_append (lo := 0) (bits_append (lo := 21) (bits_append (lo := 22) (bits_append (lo := 26) rfl rfl rfl) rfl rfl) (bitOf_bitAt w 21) rfl) rfl rfl)

theorem OpSHL.enc_dec (w : BitVec 43) (f : OpSHL) (e : OpSHL.dec w = some f) : OpSHL.enc f = w := by
  simp only [OpSHL.dec, Option.ite_none_right_eq_some, Option.some.injEq, Bool.and_eq_true, beq_iff_eq] at e
  obtain ⟨⟨h0, h1⟩, rfl⟩ := e
  exact eq_of_bits rfl (bits_append (lo := 0) (bits_append (lo := 21) (bits_append (lo := 26) (bits_append (lo := 33) rfl h0.symm rfl) rfl rfl) h1.symm rfl) rfl rfl)

theorem OpTLD.enc_dec (w : BitVec 43) (f : OpTLD) (e : OpTLD.dec w = some f) : OpTLD.enc f = w := by
  simp only [OpTLD.dec, Option.ite_none_right_eq_some, Option.some.injEq, Bool.and_eq_true, beq_iff_eq] at e
  obtain ⟨h0, rfl⟩ := e
  exact eq_of_bits rfl (bits_append (lo := 0) (bits_append (lo := 26) (bits_append (lo := 33) rfl rfl rfl) rfl rfl) h0.symm rfl)

theorem OpTST.enc_dec (w : BitVec 43) (f : OpTST) (e : OpTST.dec w = some f) : OpTST.enc f = w := by
  simp only [OpTST.dec, Option.ite_none_right_eq_some, Option.some.injEq, Bool.and_eq_true, beq_iff_eq] at e
  obtain ⟨h0, rfl⟩ := e
  exact eq_of_bits rfl (bits_append (lo := 0) (bits_append (lo := 25) (bits_append (lo := 26) (bits_append (lo := 33) rfl rfl rfl) rfl rfl) (bitOf_bitAt w 25) rfl) h0.symm rfl)

theorem OpTLDP.enc_dec (w : BitVec 43) (f : OpTLDP) (e : OpTLDP.dec w = some f) : OpTLDP.enc f = w := by
  simp only [OpTLDP.dec, Option.ite_none_right_eq_some, Option.some.injEq, Bool.and_eq_true, beq_iff_eq] at e
  obtain ⟨⟨h0, h1⟩, rfl⟩ := e
  exact eq_of_bits rfl (bits_append (lo := 0) (bits_append (lo := 17) (bits_append (lo := 25) (bits_append (lo := 26) (bits_append (lo := 33) rfl rfl rfl) rfl rfl) h0.symm rfl) rfl rfl) h1.symm rfl)

theorem OpTSTP.enc_dec (w : BitVec 43) (f : OpTSTP) (e : OpTSTP.dec w = some f) : OpTSTP.enc f = w := by
  simp only [OpTSTP.dec, Option.ite_none_right_eq_some, Option.some.injEq, Bool.and_eq_true, beq_iff_eq] at e
  obtain ⟨h0, rfl⟩ := e
  exact eq_of_bits rfl (bits_append (lo := 0) (bits_append (lo := 17) (bits_append (lo := 25) (bits_append (lo := 26) (bits_append (lo := 33) rfl rfl rfl) rfl rfl) (bitOf_bitAt w 25) rfl) rfl rfl) h0.symm rfl)

theorem OpCGL.enc_dec (w : BitVec 43) (f : OpCGL) (e : OpCGL.dec w = some f) : OpCGL.enc f = w := by
  simp only [OpCGL.dec, Option.ite_none_right_eq_some, Option.some.injEq, Bool.and_eq_true, beq_iff_eq] at e
  obtain ⟨h0, rfl⟩ := e
  exact eq_of_bits rfl (bits_append (lo := 0) (bits_append (lo := 9) (bits_append (lo := 13) (bits_append (lo := 25) (bits_append (lo := 26) (bits_append (lo := 33) rfl rfl rfl) rfl rfl) (bitOf_bitAt w 25) rfl) rfl rfl) rfl rfl) h0.symm rfl)

theorem OpCGS.enc_dec (w : BitVec 43) (f : OpCGS) (e : OpCGS.dec w = some f) : OpCGS.enc f = w := by
  simp only [OpCGS.dec, Option.ite_none_right_eq_some, Option.some.injEq, Bool.and_eq_true, beq_iff_eq] at e
  obtain ⟨h0, rfl⟩ := e
  exact eq_of_bits rfl (bits_append (lo := 0) (bits_append (lo := 9) (bits_append (lo := 13) (bits_append (lo := 25) (bits_append (lo := 26) (bits_append (lo := 33) rfl rfl rfl) rfl rfl) (bitOf_bitAt w 25) rfl) rfl rfl) rfl rfl) h0.symm rfl)

theorem OpCR.enc_dec (w : BitVec 43) (f : OpCR) (e : OpCR.dec w = some f) : OpCR.enc f = w := by
  simp only [OpCR.dec, Option.ite_none_right_eq_some, Option.some.injEq, Bool.and_eq_true, beq_iff_eq] at e
  obtain ⟨h0, rfl⟩ := e
  exact eq_of_bits rfl (bits_append (lo := 0) (bits_append (lo := 28) (bits_append (lo := 35) rfl rfl rfl) rfl rfl) h0.symm rfl)

theorem OpCF.enc_dec (w : BitVec 43) (f : OpCF) (e : OpCF.dec w = some f) : OpCF.enc f = w := by
  simp only [OpCF.dec, Option.ite_none_right_eq_some, Option.some.injEq, Bool.and_eq_true, beq_iff_eq] at e
  obtain ⟨h0, rfl⟩ := e
  exact eq_of_bits rfl (bits_append (lo := 0) (bits_append (lo := 21) (bits_append (lo := 28) rfl rfl rfl) rfl rfl) h0.symm rfl)

theorem OpCFV.enc_dec (w : BitVec 43) (f : OpCFV) (e : OpCFV.dec w = some f) : OpCFV.enc f = w := by
  simp only [OpCFV.dec, Option.ite_none_right_eq_some, Option.some.injEq, Bool.and_eq_true, beq_iff_eq] at e
  obtain ⟨h0, rfl⟩ := e
  exact eq_of_bits rfl (bits_append (lo := 0) rfl h0.symm rfl)

theorem OpCFS.enc_dec (w : BitVec 43) (f : OpCFS) (e : OpCFS.dec w = some f) : OpCFS.enc f = w := by
  simp only [OpCFS.dec, Option.ite_none_right_eq_some, Option.some.injEq, Bool.and_eq_true, beq_iff_eq] at e
  obtain ⟨h0, rfl⟩ := e
  exact eq_of_bits rfl (bits_append (lo := 0) (bits_append (lo := 26) rfl rfl rfl) h0.symm rfl)

theorem OpFN.enc_dec (k : BitVec 2) (w : BitVec 43) (f : OpFN) (e : OpFN.dec k w = some f) : OpFN.enc k f = w := by
  simp only [OpFN.dec, Option.ite_none_right_eq_some, Option.some.injEq, Bool.and_eq_true, beq_iff_eq] at e
  obtain ⟨⟨h0, h1⟩, rfl⟩ := e
  exact eq_of_bits rfl (bits_append (lo := 0) (bits_append (lo := 38) rfl h0.symm rfl) h1.symm rfl)

theorem OpCAR.enc_dec (w : BitVec 43) (f : OpCAR) (e : OpCAR.dec w = some f) : OpCAR.enc f = w := by
  simp only [OpCAR.dec, Option.ite_none_right_eq_some, Option.some.injEq, Bool.and_eq_true, beq_iff_eq] at e
  obtain ⟨h0, rfl⟩ := e
  exact eq_of_bits rfl (bits_append (lo := 0) (bits_append (lo := 15) (bits_append (lo := 22) (bits_append (lo := 29) rfl rfl rfl) rfl rfl) h0.symm rfl) rfl rfl)

theorem OpCAN.enc_dec (w : BitVec 43) (f : OpCAN) (e : OpCAN.dec w = some f) : OpCAN.enc f = w := by
  simp only [OpCAN.dec, Option.ite_none_right_eq_some, Option.some.injEq, Bool.and_eq_true, beq_iff_eq] at e
  obtain ⟨⟨h0, h1⟩, rfl⟩ := e
  exact eq_of_bits rfl (bits_append (lo := 0) (bits_append (lo := 15) (bits_append (lo := 22) (bits_append (lo := 29) h0.symm rfl rfl) rfl rfl) h1.symm rfl) rfl rfl)

theorem OpCACR.enc_dec (w : BitVec 43) (f : OpCACR) (e : OpCACR.dec w = some f) : OpCACR.enc f = w := by
  simp only [OpCACR.dec, Option.ite_none_right_eq_some, Option.some.injEq, Bool.and_eq_true, beq_iff_eq] at e
  obtain ⟨_, rfl⟩ := e
  exact eq_of_bits rfl (bits_append (lo := 0) (bits_append (lo := 15) (bits_append (lo := 22) (bits_append (lo := 29) rfl rfl rfl) rfl rfl) rfl rfl) rfl rfl)

theorem OpCACN.enc_dec (w : BitVec 43) (f : OpCACN) (e : OpCACN.dec w = some f) : OpCACN.enc f = w := by
  simp only [OpCACN.dec, Option.ite_none_right_eq_some, Option.some.injEq, Bool.and_eq_true, beq_iff_eq] at e
  obtain ⟨h0, rfl⟩ := e
  exact eq_of_bits rfl (bits_append (lo := 0) (bits_append (lo := 15) (bits_append (lo := 22) (bits_append (lo := 29) h0.symm rfl rfl) rfl rfl) rfl rfl) rfl rfl)

theorem OpLQ.enc_dec (w : BitVec 43) (f : OpLQ) (e : OpLQ.dec w = some f) : OpLQ.enc f = w := by
  simp only [OpLQ.dec, Option.ite_none_right_eq_some, Option.some.injEq, Bool.and_eq_true, beq_iff_eq] at e
  obtain ⟨_, rfl⟩ := e
  exact eq_of_bits rfl (bits_append (lo := 0) (bits_append (lo := 19) (bits_append (lo := 29) rfl rfl rfl) rfl rfl) rfl rfl)

theorem OpLBI.enc_dec (w : BitVec 43) (f : OpLBI) (e : OpLBI.dec w = some f) : OpLBI.enc f = w := by
  simp only [OpLBI.dec, Option.ite_none_right_eq_some, Option.some.injEq, Bool.and_eq_true, beq_iff_eq] at e
  obtain ⟨h0, rfl⟩ := e
  exact eq_of_bits rfl (bits_append (lo := 0) (bits_append (lo := 13) (bits_append (lo := 29) h0.symm rfl rfl) rfl rfl) rfl rfl)

theorem OpLBR.enc_dec (w : BitVec 43) (f : OpLBR) (e : OpLBR.dec w = some f) : OpLBR.enc f = w := by
  simp only [OpLBR.dec, Option.ite_none_right_eq_some, Option.some.injEq, Bool.and_eq_true, beq_iff_eq] at e
  obtain ⟨⟨h0, h1⟩, rfl⟩ := e
  exact eq_of_bits rfl (bits_append (lo := 0) (bits_append (lo := 13) (bits_append (lo := 22) (bits_append (lo := 29) h0.symm rfl rfl) rfl rfl) h1.symm rfl) rfl rfl)

theorem OpLBW.enc_dec (w : BitVec 43) (f : OpLBW) (e : OpLBW.dec w = some f) : OpLBW.enc f = w := by
  simp only [OpLBW.dec, Option.ite_none_right_eq_some, Option.some.injEq, Bool.and_eq_true, beq_iff_eq] at e
  obtain ⟨h0, rfl⟩ := e
  exact eq_of_bits rfl (bits_append (lo := 0) (bits_append (lo := 13) (bits_append (lo := 22) (bits_append (lo := 29) rfl rfl rfl) rfl rfl) h0.symm rfl) rfl rfl)

theorem OpBeat.enc_dec (k : BitVec 1) (w : BitVec 43) (f : OpBeat) (e : OpBeat.dec k w = some f) : OpBeat.enc k f = w := by
  simp only [OpBeat.dec, Option.ite_none_right_eq_some, Option.some.injEq, Bool.and_eq_true, beq_iff_eq] at e
  obtain ⟨⟨h0, h1⟩, rfl⟩ := e
  exact eq_of_bits rfl (bits_append (lo := 0) (bits_append (lo := 12) h0.symm h1.symm rfl) rfl rfl)

theorem OpBOff.enc_dec (k : BitVec 1) (w : BitVec 43) (f : OpBOff) (e : OpBOff.dec k w = some f) : OpBOff.enc k f = w := by
  simp only [OpBOff.dec, Option.ite_none_right_eq_some, Option.some.injEq, Bool.and_eq_true, beq_iff_eq] at e
  obtain ⟨⟨h0, h1⟩, -⟩ := e
  exact eq_of_bits rfl (bits_append (lo := 0) h0.symm h1.symm rfl)

theorem OpBQ.enc_dec (w : BitVec 43) (f : OpBQ) (e : OpBQ.dec w = some f) : OpBQ.enc f = w := by
  simp only [OpBQ.dec, Option.ite_none_right_eq_some, Option.some.injEq, Bool.and_eq_true, beq_iff_eq] at e
  obtain ⟨h0, rfl⟩ := e
  exact eq_of_bits rfl (bits_append (lo := 0) (bits_append (lo := 29) rfl rfl rfl) h0.symm rfl)

theorem OpBW.enc_dec (w : BitVec 43) (f : OpBW) (e : OpBW.dec w = some f) : OpBW.enc f = w := by
  simp only [OpBW.dec, Option.ite_none_right_eq_some, Option.some.injEq, Bool.and_eq_true, beq_iff_eq] at e
  obtain ⟨h0, rfl⟩ := e
  exact eq_of_bits rfl (bits_append (lo := 0) (bits_append (lo := 12) rfl h0.symm rfl) rfl rfl)

theorem OpPST.enc_dec (w : BitVec 43) (f : OpPST) (e : OpPST.dec w = some f) : OpPST.enc f = w := by
  simp only [OpPST.dec, Option.ite_none_right_eq_some, Option.some.injEq, Bool.and_eq_true, beq_iff_eq] at e
  obtain ⟨⟨h0, h1⟩, rfl⟩ := e
  exact eq_of_bits rfl (bits_append (lo := 0) (bits_append (lo := 5) (bits_append (lo := 17) (bits_append (lo := 18) (bits_append (lo := 22) (bits_append (lo := 26) rfl rfl rfl) h0.symm rfl) rfl rfl) (bitOf_bitAt w 17) rfl) rfl rfl) h1.symm rfl)

theorem OpPSTM.enc_dec (w : BitVec 43) (f : OpPSTM) (e : OpPSTM.dec w = some f) : OpPSTM.enc f = w := by
  simp only [OpPSTM.dec, Option.ite_none_right_eq_some, Option.some.injEq, Bool.and_eq_true, beq_iff_eq] at e
  obtain ⟨⟨h0, h1⟩, rfl⟩ := e
  exact eq_of_bits rfl (bits_append (lo := 0) (bits_append (lo := 1) (bits_append (lo := 5) (bits_append (lo := 17) (bits_append (lo := 18) (bits_append (lo := 22) (bits_append (lo := 26) rfl rfl rfl) h0.symm rfl) rfl rfl) (bitOf_bitAt w 17) rfl) rfl rfl) rfl rfl) h1.symm rfl)

theorem OpPLD.enc_dec (w : BitVec 43) (f : OpPLD) (e : OpPLD.dec w = some f) : OpPLD.enc f = w := by
  simp only [OpPLD.dec, Option.ite_none_right_eq_some, Option.some.injEq, Bool.and_eq_true, beq_iff_eq] at e
  obtain ⟨h0, rfl⟩ := e
  exact eq_of_bits rfl (bits_append (lo := 0) (bits_append (lo := 5) (bits_append (lo := 17) (bits_append (lo := 18) (bits_append (lo := 22) (bits_append (lo := 26) rfl rfl rfl) rfl rfl) rfl rfl) (bitOf_bitAt w 17) rfl) rfl rfl) h0.symm rfl)

theorem OpBK.enc_dec (w : BitVec 43) (f : OpBK) (e : OpBK.dec w = some f) : OpBK.enc f = w := by
  simp only [OpBK.dec, Option.ite_none_right_eq_some, Option.some.injEq, Bool.and_eq_true, beq_iff_eq] at e
  obtain ⟨⟨h0, h1⟩, rfl⟩ := e
  exact eq_of_bits rfl (bits_append (lo := 0) (bits_append (lo := 5) (bits_append (lo := 17) (bits_append (lo := 18) (bits_append (lo := 22) (bits_append (lo := 29) rfl rfl rfl) rfl rfl) h0.symm rfl) (bitOf_bitAt w 17) rfl) rfl rfl) h1.symm rfl)

theorem OpKL.enc_dec (w : BitVec 43) (f : OpKL) (e : OpKL.dec w = some f) : OpKL.enc f = w := by
  simp only [OpKL.dec, Option.ite_none_right_eq_some, Option.some.injEq, Bool.and_eq_true, beq_iff_eq] at e
  obtain ⟨h0, rfl⟩ := e
  exact eq_of_bits rfl (bits_append (lo := 0) (bits_append (lo := 24) (bits_append (lo := 31) rfl rfl rfl) rfl rfl) h0.symm rfl)

theorem OpKS.enc_dec (w : BitVec 43) (f : OpKS) (e : OpKS.dec w = some f) : OpKS.enc f = w := by
  simp only [OpKS.dec, Option.ite_none_right_eq_some, Option.some.injEq, Bool.and_eq_true, beq_iff_eq] at e
  obtain ⟨h0, rfl⟩ := e
  exact eq_of_bits rfl (bits_append (lo := 0) (bits_append (lo := 16) (bits_append (lo := 17) (bits_append (lo := 24) (bits_append (lo := 31) rfl rfl rfl) rfl rfl) rfl rfl) (bitOf_bitAt w 16) rfl) h0.symm rfl)

theorem OpKX.enc_dec (w : BitVec 43) (f : OpKX) (e : OpKX.dec w = some f) : OpKX.enc f = w := by
  simp only [OpKX.dec, Option.ite_none_right_eq_some, Option.some.injEq, Bool.and_eq_true, beq_iff_eq] at e
  obtain ⟨h0, rfl⟩ := e
  exact eq_of_bits rfl (bits_append (lo := 0) (bits_append (lo := 15) (bits_append (lo := 22) (bits_append (lo := 29) rfl rfl rfl) rfl rfl) rfl rfl) h0.symm rfl)

theorem OpKF.enc_dec (w : BitVec 43) (f : OpKF) (e : OpKF.dec w = some f) : OpKF.enc f = w := by
  simp only [OpKF.dec, Option.ite_none_right_eq_some, Option.some.injEq, Bool.and_eq_true, beq_iff_eq] at e
  obtain ⟨⟨h0, h1⟩, rfl⟩ := e
  exact eq_of_bits rfl (bits_append (lo := 0) (bits_append (lo := 22) (bits_append (lo := 29) h0.symm rfl rfl) rfl rfl) h1.symm rfl)

theorem OpCAN2.enc_dec (w : BitVec 43) (f : OpCAN2) (e : OpCAN2.dec w = some f) : OpCAN2.enc f = w := by
  simp only [OpCAN2.dec, Option.ite_none_right_eq_some, Option.some.injEq, Bool.and_eq_true, beq_iff_eq] at e
  obtain ⟨h0, rfl⟩ := e
  exact eq_of_bits rfl (bits_append (lo := 0) (bits_append (lo := 29) (bits_append (lo := 36) rfl h0.symm rfl) rfl rfl) rfl rfl)

theorem OpLN.enc_dec (w : BitVec 43) (f : OpLN) (e : OpLN.dec w = some f) : OpLN.enc f = w := by
  simp only [OpLN.dec, Option.ite_none_right_eq_some, Option.some.injEq, Bool.and_eq_true, beq_iff_eq] at e
  obtain ⟨_, rfl⟩ := e
  exact eq_of_bits rfl (bits_append (lo := 0) (bits_append (lo := 29) rfl rfl rfl) rfl rfl)

theorem BkAr.enc_dec (w : BitVec 26) (f : BkAr) (e : BkAr.dec w = some f) : BkAr.enc f = w := by
  simp only [BkAr.dec, Option.ite_none_right_eq_some, Option.some.injEq, Bool.and_eq_true, beq_iff_eq] at e
  obtain ⟨⟨h0, h1⟩, rfl⟩ := e
  exact eq_of_bits rfl (bits_append (lo := 0) (bits_append (lo := 1) (bits_append (lo := 2) (bits_append (lo := 9) (bits_append (lo := 16) (bits_append (lo := 20) rfl rfl rfl) h0.symm rfl) rfl rfl) rfl rfl) (bitOf_bitAt w 1) rfl) h1.symm rfl)

theorem BkMul.enc_dec (w : BitVec 26) (f : BkMul) (e : BkMul.dec w = some f) : BkMul.enc f = w := by
  simp only [BkMul.dec, Option.ite_none_right_eq_some, Option.some.injEq, Bool.and_eq_true, beq_iff_eq] at e
  obtain ⟨_, rfl⟩ := e
  exact eq_of_bits rfl (bits_append (lo := 0) (bits_append (lo := 1) (bits_append (lo := 2) (bits_append (lo := 9) (bits_append (lo := 16) (bits_append (lo := 20) rfl rfl rfl) rfl rfl) rfl rfl) rfl rfl) (bitOf_bitAt w 1) rfl) (bitOf_bitAt w 0) rfl)

theorem BkCmp.enc_dec (w : BitVec 26) (f : BkCmp) (e : BkCmp.dec w = some f) : BkCmp.enc f = w := by
  simp only [BkCmp.dec, Option.ite_none_right_eq_some, Option.some.injEq, Bool.and_eq_true, beq_iff_eq] at e
  obtain ⟨⟨h0, h1⟩, rfl⟩ := e
  exact eq_of_bits rfl (bits_append (lo := 0) (bits_append (lo := 1) (bits_append (lo := 2) (bits_append (lo := 9) (bits_append (lo := 16) (bits_append (lo := 19) (bits_append (lo := 20) rfl rfl rfl) h0.symm rfl) rfl rfl) rfl rfl) rfl rfl) (bitOf_bitAt w 1) rfl) h1.symm rfl)

theorem BkNeg.enc_dec (w : BitVec 26) (f : BkNeg) (e : BkNeg.dec w = some f) : BkNeg.enc f = w := by
  simp only [BkNeg.dec, Option.ite_none_right_eq_some, Option.some.injEq, Bool.and_eq_true, beq_iff_eq] at e
  obtain ⟨⟨⟨h0, h1⟩, h2⟩, rfl⟩ := e
  exact eq_of_bits rfl (bits_append (lo := 0) (bits_append (lo := 1) (bits_append (lo := 2) (bits_append (lo := 9) (bits_append (lo := 16) (bits_append (lo := 20) rfl rfl rfl) h0.symm rfl) rfl rfl) h1.symm rfl) (bitOf_bitAt w 1) rfl) h2.symm rfl)

theorem BkP3.enc_dec (w : BitVec 26) (f : BkP3) (e : BkP3.dec w = some f) : BkP3.enc f = w := by
  simp only [BkP3.dec, Option.ite_none_right_eq_some, Option.some.injEq, Bool.and_eq_true, beq_iff_eq] at e
  obtain ⟨h0, rfl⟩ := e
  exact eq_of_bits rfl (bits_append (lo := 0) (bits_append (lo := 15) (bits_append (lo := 18) (bits_append (lo := 21) rfl rfl rfl) rfl rfl) rfl rfl) h0.symm rfl)

theorem BkP2.enc_dec (w : BitVec 26) (f : BkP2) (e : BkP2.dec w = some f) : BkP2.enc f = w := by
  simp only [BkP2.dec, Option.ite_none_right_eq_some, Option.some.injEq, Bool.and_eq_true, beq_iff_eq] at e
  obtain ⟨h0, rfl⟩ := e
  exact eq_of_bits rfl (bits_append (lo := 0) (bits_append (lo := 18) (bits_append (lo := 21) rfl rfl rfl) rfl rfl) h0.symm rfl)

theorem BkFill.enc_dec (w : BitVec 26) (f : BkFill) (e : BkFill.dec w = some f) : BkFill.enc f = w := by
  simp only [BkFill.dec, Option.ite_none_right_eq_some, Option.some.injEq, Bool.and_eq_true, beq_iff_eq] at e
  obtain ⟨⟨h0, h1⟩, rfl⟩ := e
  exact eq_of_bits rfl (bits_append (lo := 0) (bits_append (lo := 14) (bits_append (lo := 15) (bits_append (lo := 21) rfl rfl rfl) h0.symm rfl) (bitOf_bitAt w 14) rfl) h1.symm rfl)

theorem BkRow.enc_dec (w : BitVec 26) (f : BkRow) (e : BkRow.dec w = some f) : BkRow.enc f = w := by
  simp only [BkRow.dec, Option.ite_none_right_eq_some, Option.some.injEq, Bool.and_eq_true, beq_iff_eq] at e
  obtain ⟨h0, rfl⟩ := e
  exact eq_of_bits rfl (bits_append (lo := 0) (bits_append (lo := 14) (bits_append (lo := 21) rfl rfl rfl) rfl rfl) h0.symm rfl)

theorem BkRowM.enc_dec (w : BitVec 26) (f : BkRowM) (e : BkRowM.dec w = some f) : BkRowM.enc f = w := by
  simp only [BkRowM.dec, Option.ite_none_right_eq_some, Option.some.injEq, Bool.and_eq_true, beq_iff_eq] at e
  obtain ⟨h0, rfl⟩ := e
  exact eq_of_bits rfl (bits_append (lo := 0) (bits_append (lo := 11) (bits_append (lo := 14) (bits_append (lo := 21) rfl rfl rfl) rfl rfl) rfl rfl) h0.symm rfl)

theorem BkRowS.enc_dec (w : BitVec 26) (f : BkRowS) (e : BkRowS.dec w = some f) : BkRowS.enc f = w := by
  simp only [BkRowS.dec, Option.ite_none_right_eq_some, Option.some.injEq, Bool.and_eq_true, beq_iff_eq] at e
  obtain ⟨h0, rfl⟩ := e
  exact eq_of_bits rfl (bits_append (lo := 0) (bits_append (lo := 3) (bits_append (lo := 14) (bits_append (lo := 21) rfl rfl rfl) rfl rfl) rfl rfl) h0.symm rfl)

theorem BkLoop.enc_dec (w : BitVec 26) (f : BkLoop) (e : BkLoop.dec w = some f) : BkLoop.enc f = w := by
  simp only [BkLoop.dec, Option.ite_none_right_eq_some, Option.some.injEq, Bool.and_eq_true, beq_iff_eq] at e
  obtain ⟨_, rfl⟩ := e
  exact eq_of_bits rfl (bits_append (lo := 0) (bits_append (lo := 16) (bits_append (lo := 23) rfl (bitOf_bitAt w 23) rfl) rfl rfl) rfl rfl)

theorem BkC.enc_dec (w : BitVec 26) (f : BkC) (e : BkC.dec w = some f) : BkC.enc f = w := by
  simp only [BkC.dec, Option.ite_none_right_eq_some, Option.some.injEq, Bool.and_eq_true, beq_iff_eq] at e
  obtain ⟨h0, rfl⟩ := e
  exact eq_of_bits rfl (bits_append (lo := 0) (bits_append (lo := 23) rfl (bitOf_bitAt w 23) rfl) h0.symm rfl)

theorem BkWait.enc_dec (w : BitVec 26) (f : BkWait) (e : BkWait.dec w = some f) : BkWait.enc f = w := by
  simp only [BkWait.dec, Option.ite_none_right_eq_some, Option.some.injEq, Bool.and_eq_true, beq_iff_eq] at e
  obtain ⟨h0, rfl⟩ := e
  exact eq_of_bits rfl (bits_append (lo := 0) (bits_append (lo := 16) rfl h0.symm rfl) rfl rfl)

theorem BkNone.enc_dec (w : BitVec 26) (f : BkNone) (e : BkNone.dec w = some f) : BkNone.enc f = w := by
  simp only [BkNone.dec, Option.ite_none_right_eq_some, Option.some.injEq, Bool.and_eq_true, beq_iff_eq] at e
  obtain ⟨h0, rfl⟩ := e
  exact eq_of_bits rfl (bits_append (lo := 0) rfl h0.symm rfl)

theorem BkArd.enc_dec (w : BitVec 26) (f : BkArd) (e : BkArd.dec w = some f) : BkArd.enc f = w := by
  simp only [BkArd.dec, Option.ite_none_right_eq_some, Option.some.injEq, Bool.and_eq_true, beq_iff_eq] at e
  obtain ⟨h0, rfl⟩ := e
  exact eq_of_bits rfl (bits_append (lo := 0) (bits_append (lo := 7) (bits_append (lo := 14) (bits_append (lo := 19) (bits_append (lo := 23) rfl (bitOf_bitAt w 23) rfl) rfl rfl) rfl rfl) rfl rfl) h0.symm rfl)

end Sys2Proof
end

