-- ==== Sys2Proof/Tests/Slice0.lean ====
section
/-! SUPPORT. Tests: ill-formed terms that each check refuses, words written out from the spec's encodings, one step of small
states, and for every statement with hypotheses a state that meets them. -/

namespace Sys2Proof.Tests

set_option Elab.async false

open Sys2Proof Sys2Proof.Machine Sys2Proof.Claims

/-! ## Well-formedness: an ill-formed term for each check -/

/-- R29: a leaf mask of 0. -/
theorem test_wf_mask : (Instr.sAdd { plain .S with mask := 0#5 } { sd := 1#7, sa := 2#7, sb := 3#7 }).wf = false := by decide
/-- R32: D in V0, and D in V1 on an opcode that is not duplicable. -/
theorem test_wf_dup : (Instr.vAddI32 { plain .V0 with dup := true } { vd := 3#10, va := 1#10, vb := 2#10 }).wf = false ∧
    (Instr.v1Ld { plain .V1 with dup := true } { vd := 0#10, bn := 0#4, off := 0#15, tag := 0#4 }).wf = false := by decide
/-- R31: vector register 768, as destination and as source. -/
theorem test_wf_vector : (Instr.vAddI32 (plain .V0) { vd := 768#10, va := 1#10, vb := 2#10 }).wf = false ∧
    (Instr.vAddI32 (plain .V0) { vd := 767#10, va := 1#10, vb := 768#10 }).wf = false ∧
    (Instr.vAddI32 (plain .V0) { vd := 767#10, va := 767#10, vb := 767#10 }).wf = true := by decide
/-- R88: the reserved status index 0x025. -/
theorem test_wf_status : (Instr.sRsw (plain .S) { sd := 1#7, idx := 0x025#10 }).wf = false ∧
    (Instr.sWsw (plain .S) { idx := 0x070#10, sa := 1#7 }).wf = false ∧
    (Instr.sWsw (plain .S) { idx := 0x06F#10, sa := 1#7 }).wf = true := by decide
/-- R90: tile 32. -/
theorem test_wf_tag : (Instr.sWtag (plain .S) { k := true, reg := 32#10, tag := 1#4 }).wf = false ∧
    (Instr.sRtag (plain .S) { sd := 1#7, k := true, reg := 31#10 }).wf = true := by decide
/-- The slot rules: an M operation in B, a C1 operation in C0. -/
theorem test_wf_slot : (Instr.mZero (plain .B) { set := false, n := false }).wf = false ∧
    (Instr.c1Qapp (plain .C0) { sd := 7#7, sb := 3#7, va := 40#10, imm := 0#19 }).wf = false ∧
    (Instr.c1Qapp (plain .C1) { sd := 7#7, sb := 3#7, va := 40#10, imm := 0#19 }).wf = true := by decide
/-- R115: a mask number with no mask. -/
theorem test_wf_reduce : (Instr.vRaddI32 (plain .V0) { vd := 0#10, va := 1#10, m := false, mn := 1#4 }).wf = false := by decide
/-- R269: set 3 for V.RFWD, a part of 2 for a narrow one, an omit value of 6, two omits in a wide V.RCHK. -/
theorem test_wf_residue : (Instr.vRfwd (plain .V0) { vd := 0#10, va := 1#10, set := 3#2, part := 0#2 }).wf = false ∧
    (Instr.vRfwd (plain .V0) { vd := 0#10, va := 1#10, set := 1#2, part := 2#2 }).wf = false ∧
    (Instr.vRchk (plain .V0) { vd := 0#10, va := 1#10, md := 0#4, set := 0#2, oa := 6#3, ob := 7#3 }).wf = false ∧
    (Instr.vRchk (plain .V0) { vd := 0#10, va := 1#10, md := 0#4, set := 2#2, oa := 1#3, ob := 2#3 }).wf = false := by decide
/-- R169: a scalar register number of 128 in a C access. -/
theorem test_wf_access : (Instr.cLdd (plain .C1) { sd := 128#10, sb := 1#7, imm := 0#21 }).wf = false ∧
    (Instr.cStd (plain .C1) { sa := 128#10, sb := 1#7, g := false, imm := 0#21 }).wf = false := by decide
/-- R203: a scope of 5. -/
theorem test_wf_scope : (Instr.cFenceRel (plain .C1) { scope := 5#3 }).wf = false ∧
    (Instr.cFenceRel (plain .C1) { scope := 4#3 }).wf = true := by decide
/-- R284: a tag field beside `now`. -/
theorem test_wf_beat : (Instr.c1Bkrun (plain .C1) { sa := 1#7, sb := 4#7, sc := 3#7, i := true, tag := 1#12 }).wf = false := by
  decide
/-- R39: T.CHAIN with the shape of T.BAL, a reserved shape, and an unused leaf that is not 0. -/
theorem test_wf_tree :
    let t : TSyl := {
      shape := 4#3, pred0 := 7#6, sense0 := false, pred1 := 8#6, sense1 := true, pred2 := 9#6, sense2 := false, pred3 := 0#6,
      sense3 := false, leaf1 := 12#8, leaf2 := 20#8, leaf3 := 250#8, leaf4 := 0#8 }
    (Instr.tChain t).wf = false ∧ (Instr.tBal t).wf = true ∧ (Instr.tBal { t with shape := 6#3 }).wf = false ∧
      (Instr.tBal { t with leaf4 := 1#8 }).wf = false := by decide

/-! ## Decoding: words written out from the spec's encodings -/

/-- The syllables and bank words that the spec writes out, with the five that trap, decode as it says. -/
theorem test_decode_spec_words : Obligations.SyllablesOfTheSpecDecode := by unfold Obligations.SyllablesOfTheSpecDecode; decide +kernel

/-! ## Small states -/

/-- A bundle in progress at 0x1000. -/
def bundle : Issue := {
  pc := 0x1000#64, scope := 0, leaf := 0, ops := [], tree := none, after := 0x1040#64, repsLeft := 0, branch := false, pops := []
  free := 0, repc := 0, segState := 0, phaseCnt := 0 }

/-- Core 0 has the turn, with `bundle` in progress. -/
def on (f : Core → Core) : State := {
  State.reset with
  turn := { agent := .core 0, pick := 0 }
  cores := [(0, f { Core.reset 0 with issue := some bundle })] }

/-- Core 0 has the turn and no bundle in progress. -/
def off (f : Core → Core) : State := on (fun c => f { c with issue := none })

/-- A state in which the agent `a` has the turn. -/
def at_ (a : Agent) : State := { State.reset with turn := { agent := a, pick := 0 } }

/-- A scalar register file with one register. -/
def s1 (n : Nat) (v : Word) (p : Bool) : SMap SReg := [(n, { val := v, poison := p, pend := false })]

/-- A context whose page table stands at 0x200000. -/
def ci : CtxInfo := { root := 0x200000, handler := 0x8000#64, loft := [(0, 0x10000)], errRing := 0x400000#64, rings := none }

/-- `s` with context 0 registered: the first gigabyte is mapped to itself, with every right (R370). -/
def mapped (s : State) : State := {
  s with
  contexts := [(0, ci)]
  home := { bytes := [(0x200000, 0x3F#8)], poison := [] } }

/-- `s` with a number written in main memory. -/
def with_ (s : State) (a n v : Nat) : State := { s with home := s.home.store (bytesOf v a n) [] }

/-- A result in flight to `d`, due at time 0. -/
def due (d : Dest) : Flight := {
  dest := d, val := 7, tag := 1, poison := 0, land := 0, slot := 0, mismatch := false, twin := none, pc := 0, opcode := 0
  seg := false, size := 0, events := [], issued := 0, seq := 0, acq := false }

/-- The unit of launch 0, crew 0, position 0. -/
def unit0 : UnitInfo := {
  launch := 0, crew := 0, pos := 0, gang := 1, tiles := [0], window := (0, 256), decisions := [], reached := 0, issues := 0, entry := 0, nexts := []
  requests := 0
  cancelled := false, first := 0 }

/-- A block of a grid of 2 tiles under context 0, with its code at 0x1000 and no record. -/
def blk0 : LaunchBlk := LaunchBlk.parse (2 + 2 ^ 88 + 2 ^ 140)

/-- Launch 0 of that block. -/
def launch0 : Launch := {
  id := 0, blk := blk0, addr := 0x40#64, origin := .none, ringRegs := [], images := [], next := 0, exec := [], crews := []
  granted := [], dies := [], prepared := [], waiting := [], started := 0, completed := 0, cancelled := 0, failed := 0
  swept := false, pend := [] }

/-! ## A state that meets the hypotheses of each statement -/

/-- An operation of any slot is active in a bundle in progress, branches as well. -/
theorem witness_acts : acts (plain .S) false (on id) ∧ acts (plain .B) true (on id) ∧ acts (plain .C1) false (mapped (on id)) := by
  unfold acts; decide +kernel

/-- An operation that is inactive: its leaf-mask bit is 0, or it is a branch off leaf 0. -/
theorem witness_SyllableRunsAsItsInstructionOrNotAtAll :
    (decodeSyl .S (syl 0x02FC060040C00000#64)).isSome = true ∧ (semOfWord .S (syl 0x02FC060040C00000#64)).isSome = true ∧
    (semOfWord .S (syl 0x02F8060040C00000#64)).isSome = true ∧
    ((on id).me.guardOf (hdrOf .S (syl 0x02FC060040C00000#64))).1 = false ∧
    (syl 0x0284060040C00000#64).getLsbD 51 = false ∧
    (semOfWord .B (syl 0x88F8000000000000#64)).map (·.branch) = some true ∧
    (on (fun c => { c with issue := some { bundle with leaf := 1 } })).me.leaf ≠ 0 := by decide +kernel

/-- A bundle with an operation, one with a tree, and a bank unit with a word. -/
theorem witness_StepRunsTheDecodedInstruction :
    let a := State.reset.withSyllable (syl 0x02FC060040C00000#64)
    let b := State.reset.withBankWord 0x00700000#32
    a.turn.agent = .core 0 ∧ (∃ x, a.me.issue = some x ∧ x.tree = none ∧ x.ops = [(.S, syl 0x02FC060040C00000#64)]) ∧
    (decodeT (syl 0xC1C449000C14FA00#64)).isSome = true ∧ b.turn.agent = .bank 0 0 ∧
    (∃ u, b.unitOf 0 0 = some u ∧ (b.dieAt 0).mayIssue u = true ∧ u.program[u.index]? = some 0x00700000#32) := by
  refine ⟨?_, ⟨_, rfl, ?_⟩, ?_, ?_, _, rfl, ?_⟩ <;> decide +kernel

/-- Outside an issue: user and supervisor mode, a poisoned operand, a value at and below 2^20, a deterministic launch. -/
theorem witness_ScalarChecksTrap :
    let u := off (fun c => { c with s := s1 3 0x100000#64 false })
    u.me.issue = none ∧ u.me.active (plain .S) false = true ∧ (u.me.guardOf (plain .S)).2 = false ∧ u.me.determ = false ∧
    u.me.sup = false ∧ supervisorOnly 0x000 = false ∧ supervisorOnly 0x044 = true ∧ 2 ^ 20 ≤ (u.me.rs .S 3#7).1.toNat ∧
    (u.me.rs .S 3#7).2 = false ∧
    ((off (fun c => { c with s := s1 3 0#64 true })).me.rs .S 3#7).2 = true ∧
    (off (fun c => { c with sw := { c.sw with determ := 1#64 } })).me.determ = true ∧
    (off (fun c => { c with sw := { c.sw with priv := 1#64 } })).me.sup = true := by decide +kernel

/-- No flume, a bound write flume, and a V0 result that awaits its twin. -/
theorem witness_VectorResultForms :
    let k : Shape := { rank := 1, format := 5#4, write := true, base := 0#64, counts := [1, 0, 0, 0, 0], strides := [4, 0, 0, 0, 0] }
    let f : Flume := {
      reg := 3, main := true, seq := 0, shape := k, disp := 0, size := 1, next := 0, moved := 0, buf := [], inflight := 0
      fault := none, armed := 0, pops := [], pc := 0, sup := false }
    (Core.reset 0).flumeOf 3 = none ∧ ({ Core.reset 0 with flumes := [f] } : Core).flumeOf 3 = some f ∧ f.shape.write = true ∧
    (let g := { due (.vec 3) with slot := 1, pc := 0x1000#64, land := 2 }
     let c : Core := { Core.reset 0 with flights := [g], issue := some bundle }
     c.flights[0]? = some g ∧ g.slot = 1 ∧ g.pc = c.bundlePc ∧ c.time < g.land ∧ g.twin = none) := by decide +kernel

/-- A finite encoding of each format, the largest and a subnormal one. -/
theorem witness_FiniteEncodingsRoundToThemselves :
    fval fpE4 0x7E = .fin false 14 5 ∧ fval fpF32 0x80000001 = .fin true 1 (-149) ∧ fval fpE5 0x7B = .fin false 7 13 ∧
    fval fpF16 0x7BFF = .fin false 0x7FF 5 ∧ fval fpB16 1 = .fin false 1 (-133) := by decide +kernel

/-- The least and the largest exponents of the exact results of FP16 and FP32. -/
theorem witness_VectorApproximations :
    fpF16.emin ≤ -14 ∧ fpF16.emin ≤ 14 ∧ (14 : Int) ≤ fpF16.bias ∧ fpF32.emin ≤ -126 ∧ (126 : Int) ≤ fpF32.bias ∧
    fpF32.emin ≤ 2 * 63 ∧ (2 * 63 : Int) ≤ fpF32.bias := by decide +kernel

/-- Source tags and parts of the conversions, with the last part of an INT8 source to FP32. -/
theorem witness_VectorConversions :
    let c := (on (fun c => { c with v := [(1, { val := 0, tag := 3, poison := 0, pend := false })] })).me
    (c.rv .V0 1#10).tag = 3#4 ∧ 3 < max (tagWidth 3) (tagWidth 13) / min (tagWidth 3) (tagWidth 13) ∧
    (let d := (on (fun c => { c with
       sw := { c.sw with vcfg0 := 0x3D000000#64 }
       v := [(1, { val := 0, tag := 3, poison := 0, pend := false })] })).me
     fieldGet d.sw.vcfg0 28 4 = 3 ∧ (d.rv .V0 1#10).tag.toNat = 3 ∧ fieldGet d.sw.vcfg0 24 4 = 13) := by decide +kernel

/-- The last part of V.PACK.I4 and of V.UNPK.X4. -/
theorem witness_VectorRoundScalePack : (1#2).toNat < 2 ∧ (3#2).toNat < 4 := by decide

/-- A list of 32 numbers below 2^32, the largest among them. -/
theorem witness_VectorReductions : (List.replicate 32 (2 ^ 32 - 1)).length = 32 ∧ ∀ x ∈ List.replicate 32 (2 ^ 32 - 1), x < 2 ^ 32 := by
  decide +kernel

/-- Values at the ends of the half-range, narrow and wide, with and without a retired lane. -/
theorem witness_ResidueCodeReadsBack :
    let m (wide : Bool) (p ra rb : Nat) : Nat := ((chLists wide p ra rb).1.map chMod).foldl (· * ·) 1
    (1684281158 : Int) ≤ ((m false 0 7 7 - 1) / 2 : Nat) ∧ -(((m false 0 7 7 - 1) / 2 : Nat) : Int) ≤ -1684281158 ∧
    (922309379 : Int) ≤ ((m false 1 7 7 - 1) / 2 : Nat) ∧ (2 ^ 76 : Int) ≤ ((m true 0 7 7 - 1) / 2 : Nat) ∧
    (1 : Int) ≤ ((m true 1 0 5 - 1) / 2 : Nat) := by decide +kernel

/-- A wrong byte in the first and in the last channel, of a value at the bound. -/
theorem witness_SingleWrongResidueIsCorrected :
    let l (wide : Bool) : List Nat := (chLists wide 0 7 7).1 ++ (chLists wide 0 7 7).2
    0 ∈ l false ∧ 5 ∈ l false ∧ 11 ∈ l true ∧ 255 ≠ residue (2 ^ 29) (chMod 0) ∧ 255 ≠ residue (-2 ^ 76) (chMod 11) := by
  decide +kernel

/-- V.RFWD of a narrow and a wide set, no flume at vd, and words of each class: in order, corrected, wrong in two channels, and
poisoned. -/
theorem witness_ResidueOperations :
    let w := resEnc 0 0 5
    let a (v : Nat) (p : BitVec 32) : VReg := { val := BitVec.ofNat 1024 v, tag := 14, poison := p, pend := false }
    (Core.reset 0).flumeOf 3 = none ∧ (0#2 : BitVec 2) ≠ 3#2 ∧ (2#2 : BitVec 2) ≠ 3#2 ∧
    resClass (resInput (a w 0) false 0) false 7 7 = .ok 5 ∧
    resClass (resInput (a (w ^^^ 1) 0) false 0) false 7 7 = .corrected 0 5 ∧
    resClass (resInput (a (w ^^^ 0x0101) 0) false 0) false 7 7 = .multi ∧
    resPoison (a w 1) false 0 = true ∧ resPoison (a w 0) false 0 = false := by decide +kernel

/-- A plan that answers. -/
def ok {α β : Type} (e : Except α β) : Bool := match e with | .ok _ => true | .error _ => false

/-- What a plan answers. -/
def got {α β : Type} (e : Except α β) : Option β := match e with | .ok x => some x | .error _ => none

/-- A result due: to a scalar, to a status word, to LANEMAP and to a base register. -/
theorem witness_ResultsInFlightAndTheirRows :
    (∀ d ∈ [Dest.scalar 3, .status 0x009, .status 0x024, .base 2],
      let s := on (fun c => { c with flights := [due d] })
      s.me.dueFlight = some (due d, []) ∧ s.dueTimed s.coreNo = none ∧ (due d).seg = false ∧ (due d).events = [] ∧
        (due d).mismatch = false ∧ (due d).dest = d ∧ (due d).tag = 1#4) ∧
    (on id).me.segOpen = false := by decide +kernel

/-- A store of two bytes and a load of the last byte of the scratchpad, both due. -/
theorem witness_OnChipAccessesPerform :
    let x (a : TAct) : Timed := { due := 0, seq := 0, rel := 0, acq := 0, gd := none, act := a }
    let st := x (.store .scratch [(0, 7), (0xFFFFF, 8)] [])
    let ld := x (.load .scratch 0xFFFFF 1 false (due (.scalar 3)))
    let s (t : Timed) : State := on (fun c => { c with timed := [t] })
    (s st).dueTimed 0 = some (st, []) ∧ (s ld).dueTimed 0 = some (ld, []) ∧ (s ld).me.seg.lines = [] := by decide +kernel

/-- Operands that V.ADD.I32, V.FMA.F32, V.CLT.Z32 and V.CVT.F16 refuse, and lanes of a slice and of the scratchpad that are
misaligned, negative or past the end. -/
theorem witness_VectorTagAndAddressTraps :
    let r (v : Nat) (t : BitVec 4) : VReg := { val := BitVec.ofNat 1024 v, tag := t, poison := 0, pend := false }
    let u := off (fun c => { c with v := [(1, r 0 0), (2, r 0 5), (3, r (2 + 2 ^ 32) 0), (4, r 8192 8)] })
    u.me.issue = none ∧ u.me.active (plain .V0) false = true ∧ (u.me.guardOf (plain .V0)).2 = false ∧
    (u.me.rv .V0 1#10).tag ∉ [5#4, 8#4] ∧ (u.me.rv .V0 2#10).tag ∈ [5#4, 8#4] ∧ (u.me.rv .V0 2#10).tag ≠ 13#4 ∧
    (u.me.rv .V0 2#10).tag ≠ 8#4 ∧ (u.me.rv .V0 1#10).tag ∈ [0#4, 14#4, 15#4] ∧
    sliceAddr (plain .V0) u 0#13 (some 3#10) 0 % 4 ≠ 0 ∧ (8192 : Int) < sliceAddr (plain .V0) u 0#13 (some 4#10) 0 + 4 ∧
    (u.me.rv .V0 3#10).poison = 0#32 ∧ scratchAddr (plain .V1) u 0#4 (-4#32) 4 none 0 < 0 ∧
    scratchAddr (plain .V1) u 0#4 (-4#32) 0 (some 4#10) 0 = 8188 ∧ scratchAddr (plain .V1) u 0#4 (1#32) 4 none 0 % 4 ≠ 0 ∧
    (on (fun c => { c with m := [(1, { val := 1#32, poison := false })] })).me.rm .V0 1#4 = (1#32, false) := by decide +kernel

/-- A C0 operation in a bundle in progress, a mask that is 0 and one that is not. -/
theorem witness_ClusterAccessesIssue :
    acts (plain .C0) false (on id) ∧ ((on id).me.rm .C0 1#4).1 = 0#32 ∧
    ((on (fun c => { c with m := [(1, { val := 0x80000001#32, poison := false })] })).me.rm .C0 1#4).1 ≠ 0#32 := by
  unfold acts; decide +kernel

/-- Addresses at the ends of the space; no context, a mapped page, and leaves that lack a right, are quarantined, or map memory
that is not there. -/
theorem witness_MainMemoryAddressChecks :
    let s := mapped (on id)
    let leaf (b : Byte) (_ : Nat) : State := { s with home := { bytes := [(0x200000, b)], poison := [] } }
    s.me.tlb = [] ∧ SMap.get s.clusterTlb (s.me.id / 16) [] = [] ∧ 2 ^ 48 ≤ (0x1000000000000#64).toNat ∧
    (0xFFFFFFFFFFFF#64).toNat % 8 ≠ 0 ∧ 2 ^ 48 < (0xFFFFFFFFFFF8#64).toNat + 16 ∧
    s.tableWorked 0 0x40 = none ∧ (leaf 0x7F#8 0).tableWorked 0 0x40 = some (0x200000, 0) ∧ s.layerOk 0x40 = true ∧
    s.layerOk (2 ^ 34) = false ∧
    walk (on id) 0 0x40 = .fail 0x0A 1 0 ∧ walk s 0 0x40 = .ok 0x40 0x3F#8 30 ∧ s.me.sup = false ∧
    walk (leaf 0x37#8 0) 0 0x40 = .ok 0x40 0x37#8 30 ∧ walk (leaf 0xBF#8 0) 0 0x40 = .ok 0x40 0xBF#8 30 ∧
    populated 0x40 = true ∧ populated 0x2CAC10000 = false ∧
    walk { s with home := { bytes := [(0x200000, 0x3F#8), (0x200003, 0x80#8), (0x200004, 0x02#8)], poison := [] } } 0 0x0CAC10000 =
      .fail 0x0A 1 0 := by decide +kernel

/-- Loads and stores of C1 whose checks pass: a scalar and a vector, the first and the last lane of a masked store. -/
theorem witness_MainMemoryLoadsAndStoresIssue :
    let s := mapped (on id)
    acts (plain .C1) false s ∧ s.me.segOpen = false ∧
    got (s.plainPlan .C1 0x40#64 8 8 0 3 true false) = some ((List.range 8).map (0x40 + ·), none) ∧
    got (s.plainPlan .C1 0x3FFFFF80#64 128 4 0 7 true false) = some ((List.range 128).map (0x3FFFFF80 + ·), none) ∧
    got (s.plainPlan .C1 0x40#64 1 1 1 0 false true) = some ([0x40], none) ∧
    got (s.plainPlan .C1 (0x40#64 + BitVec.ofNat 64 124) 4 4 1 7 false true) = some ((List.range 4).map (0xBC + ·), none) ∧
    (∀ j < 32, (0x80000000#32).getLsbD j = true → 31 ≤ j ∧ j ≤ 31) ∧ (0x80000000#32).getLsbD 31 = true := by
  unfold acts; decide +kernel

/-- A pending load that has its answer, and one that reads eight bytes. -/
theorem witness_PendingResultsLand :
    let l (k : LoadKind) (a : List Nat) : PendLoad := {
      seq := 0, dest := .scalar 3, kind := k, addrs := a, acq := 0, due := 0, slot := 5, pc := 0, virt := 0, seg := false
      away := false, got := [], arrived := none }
    ∀ x ∈ [l (.value 5#64 true) [], l .bytes (List.range 8)],
      let s := mapped (on (fun c => { c with loads := [x] }))
      (s.me.loads.filter (s.loadReady s.coreNo)) = [x] ∧ s.turn.pick = 0 ∧ s.me.l1 = [] ∧ s.me.sb = [] ∧ s.me.seg.held = [] ∧
        s.outq = [] ∧ s.rowRefused x.addrs = false ∧ s.me.determ = false ∧
        (let c := (off (fun c => { c with running := true, sw := { c.sw with determ := 1#64 } })).me
         c.determ = true ∧ c.sup = false ∧ c.drains = false ∧ c.wants = [] ∧ c.entering = none) := by decide +kernel

/-- A pending vector load, whole and spread, one of planes that has arrived, an acquire, one of a segment, and one that has failed. -/
theorem witness_PendingVectorsLand :
    let l (d : LoadDest) (k : LoadKind) (n q : Nat) (x : Option (BitVec 1024 × BitVec 32)) : PendLoad := {
      seq := 0, dest := d, kind := k, addrs := List.range n, acq := q, due := 0, slot := 5, pc := 0, virt := 0, seg := false
      away := false, got := [], arrived := x }
    ∀ x ∈ [l (.vec 3 5) .bytes 128 0 none, l (.vec 3 5) .spread 4 0 none, l (.vec 3 5) (.planes 3 32 true) 0 0 (some (5, 1)),
        l (.scalar 3) .bytes 8 2 none, { l (.scalar 3) .bytes 8 0 none with seg := true }, l (.scalar 3) (.fail (Trap.bare 6 0)) 0 0 none],
      let s := mapped (on (fun c => { c with loads := [x] }))
      (s.me.loads.filter (s.loadReady s.coreNo)) = [x] ∧ s.me.flumeOf 3 = none ∧ s.me.sup = false ∧ s.me.determ = false ∧
        s.me.l1 = [] ∧ s.me.sb = [] ∧ s.me.seg.held = [] ∧ s.outq = [] ∧ s.rowRefused x.addrs = false ∧ s.me.seg.journal = [] := by
  decide +kernel

/-- The addresses of a whole vector differ. -/
theorem witness_vectorBytes : (List.range 128).length = 128 ∧ (List.range 128).Nodup := ⟨List.length_range, List.nodup_range⟩

/-- Stores of an open segment to the loft, the cluster window and main memory, and a load and a store of a worked page. -/
theorem witness_SegmentStoresAndWorkedPages :
    let seg : State := mapped (on (fun c => { c with sw := { c.sw with segState := BitVec.ofNat 64 (2 ^ 63) } }))
    let w : State := let s := mapped (on (fun c => { c with sw := { c.sw with beatNow := 1#64 <<< 63 } }))
      { s with home := { bytes := [(0x200000, 0x7F#8), (0x200003, 0x40#8), (0x200008, 0x3F#8)], poison := [] } }
    acts (plain .S) false seg ∧ acts (plain .C0) false seg ∧ acts (plain .C1) false seg ∧ seg.me.segOpen = true ∧
    got (seg.plainPlan .C1 0x40#64 8 8 1 3 false true) = some ((List.range 8).map (0x40 + ·), none) ∧
    got (w.plainPlan .C1 0x40#64 8 8 0 3 true false) = some ((List.range 8).map (0x40000040 + ·), some 0) ∧
    got (w.plainPlan .C1 0x40#64 8 8 1 3 false true) = some ((List.range 8).map (0x40000040 + ·), some 0) ∧
    w.me.segOpen = false ∧ w.me.pairNow false = none ∧
    ((on (fun c => { c with m := [(1, { val := 1#32, poison := false })] })).me.rm .C0 1#4).1 ≠ 0#32 := by
  unfold acts; decide +kernel

/-- An entry of the store buffer that is ready. -/
def entry (k : SbKind) (a n : Nat) : SbEntry := {
  seq := 0, space := .main, kind := k, addr := a, bytes := bytesOf 0x1122334455667788 a n, words := wordsOf a n false, rel := 0
  dest := none, virt := BitVec.ofNat 64 a, pc := 0, seg := false, beat := none, gd := none, due := 0, unit := 0 }

/-- A store to the own die and to another die, an atomic on a clean and on a poisoned word, a barrier change; and an entry of the
outbound queue. -/
theorem witness_StoresReachTheirHomes :
    (∀ e ∈ [entry .store 0x40 8, entry .store (2 ^ 36 + 0x40) 8, entry (.atomic 0 true 1 0) 0x40 8, entry (.atomic 7 false 1 0) 0x40 4,
        entry (.barm 0xFFFF) 0x40 16, entry (.bsig 1) 0x40 16],
      let s := mapped (on (fun c => { c with sb := [e] }))
      s.me.sb.filter (s.storeReady s.coreNo) = [e] ∧ s.rowRefused e.addrs = false ∧ s.me.sup = false) ∧
    (let s := mapped (on (fun c => { c with sb := [entry (.atomic 7 false 1 0) 0x40 4], sw := { c.sw with priv := 3#64 } }))
     s.me.sup = true ∧ s.me.supFrom ≤ 0 ∧ s.me.sb.filter (s.storeReady s.coreNo) = [entry (.atomic 7 false 1 0) 0x40 4]) ∧
    (let e : SbEntry := { entry .store (2 ^ 36 + 0x40) 8 with unit := 4, rel := 2 }
     let s := mapped (on (fun c => { c with sb := [e] }))
     s.me.sb.filter (s.storeReady s.coreNo) = [e] ∧ s.rowRefused e.addrs = false) ∧
    (let x : OutEntry := { core := 16, seq := 3, ctx := 0, bytes := bytesOf 5 0x40 8, words := wordsOf 0x40 8 false, seen := false, virt := 0x40, pc := 0 }
     let s := { at_ (.outbound 0) with outq := [(0, x)] }
     s.outReady s.dieNo = [(0, x)] ∧ s.rowRefused (x.bytes.map (·.1)) = false) ∧
    (let m : Mem := { bytes := [], poison := [(0x10, true)] }
     m.anyPois 0x40 8 = true ∧ m.anyPois 0x48 8 = false) := by decide +kernel

/-- Atomics, queue appends, barriers and waits whose checks pass. -/
theorem witness_AtomicsQueuesAndBarriers :
    let s := mapped (on id)
    acts (plain .C1) false s ∧ ok (s.homePlan .C1 0x40#64 8 8 3 3 true true) = true ∧
    ok (s.homePlan .C1 0x44#64 4 4 3 2 true true) = true ∧ ok (s.homePlan .C1 0x50#64 16 16 3 4 false true) = true ∧
    ok (s.homePlan .C1 0x50#64 16 16 3 4 true true) = true ∧ ok (s.homePlan .C1 0x80#64 64 64 3 6 true true) = true ∧
    ok (s.homePlan .C1 0x80#64 64 64 3 6 false true) = true ∧ s.home.anyPois 0x80 8 = false ∧
    ({ s with home := s.home.setWords [(0x20, true, true)] } : State).home.anyPois 0x80 8 = true ∧
    (let b : Barrier := { pending := 1, expected := 2, remaining := 1, phase := 0xFFFF, flags := 0, failed := 0 }
     1 ≤ b.remaining ∧ (b.remaining - 1 ≠ 0 ∨ b.pending ≠ 0) ∧ b.remaining < 2) := by
  unfold acts; decide +kernel

/-- A queue that is full and one that has room, and a barrier in the expected phase and in another. -/
theorem witness_QueueAppendAndBarrierWait :
    let q : Instr := .c1Qapp (plain .C1) { sd := 1#7, sb := 0#7, va := 1#10, imm := 0x80#19 }
    let b : Instr := .cBwait (plain .C1) { sd := 1#7, sb := 0#7, sa := 0#7, imm := 0x80#13 }
    let s : State := mapped (on id)
    let full : State := with_ s 0x80 8 1
    (∀ x ∈ [q, b], (encodeSyl x).bind (decodeSyl .C1) = some x ∧
      ((encodeSyl x).bind (semOfWord .C1)).map (fun m => (m.check s).isNone && (m.check full).isNone) = some true) ∧
    got (s.homePlan .C1 0x80#64 64 64 3 6 false true) = some ((List.range 64).map (0x80 + ·)) ∧
    got (s.homePlan .C1 0x80#64 16 16 3 4 false true) = some ((List.range 16).map (0x80 + ·)) ∧
    2 ^ (full.home.byte 0x98).toNat ≤ full.home.num 0x80 8 - full.home.num 0x88 8 ∧
    ¬(2 ^ (s.home.byte 0x98).toNat ≤ s.home.num 0x80 8 - s.home.num 0x88 8) ∧
    s.ownPending s.coreNo ((List.range 64).map (0x80 + ·)) = false ∧ s.recordHeld s.coreNo s.me.seq ((List.range 64).map (0x80 + ·)) = false ∧
    (barrierAt s.home 0x80).phase = 0 := by
  decide +kernel

/-- A hold that lasts: C.BWAIT in its phase. -/
theorem witness_holdLasts :
    let s : State := mapped (off (fun c => { c with
      running := true, pc := 0x1000#64, hold := .waiting
      fetch := [{ addr := 0x40, faulted := false
                  data := BitVec.ofNat 512 (2 ^ 52 + 2 ^ 64 * (2 ^ 63 +
                    ((encodeSyl (.cBwait (plain .C1) { sd := 1#7, sb := 0#7, sa := 0#7, imm := 0x80#13 })).getD 0#63).toNat)) }] }))
    (got s.me.decode).map (fun b => b.items.map (fun i => i.active (s.begun b).me && i.sem.holds (s.begun b) && i.sem.waits (s.begun b))) =
      some [true] := by
  decide +kernel

/-- Beat operations whose checks pass: the die of a register, planes of a worked page of an even beat, and a bank command of an odd
one. -/
theorem witness_BeatOperationsIssue :
    let s := mapped (on (fun c => { c with
      s := [(1, { val := 0x8000#64, poison := false, pend := false }), (2, { val := 0x40000040#64, poison := false, pend := false })]
      v := [(1, { val := 0, tag := 5, poison := 0, pend := false })] }))
    let w : State := { s with home := { bytes := [(0x200000, 0x7F#8), (0x200003, 0x40#8), (0x200008, 0x3F#8)], poison := [] } }
    ok (s.dieOfReg .C1 0#7) = true ∧
    got (PlaneOp.plan { sb := 0#7, w := 16, i := false, tag := 2#12, store := true, mn := none } w .C1 5 1) = some (0x40000000, 2) ∧
    (planeBytes (w.me.rv .C1 1#10) 5 16 (fun _ => true) 0) ≠ [] ∧
    got (PlaneOp.plan { sb := 0#7, w := 1, i := false, tag := 2#12, store := false, mn := none } w .C1 5 1) = some (0x40000000, 2) ∧
    ok (bkPlan w .C1 { sa := 1#7, sb := 2#7, sc := 0#7, i := false, tag := 1#12 }) = true := by decide +kernel

/-- A shape of one element, and of the most that a dimension takes. -/
def shape1 : Shape := {
  rank := 1, format := 5#4, write := false, base := 0#64, counts := [1, 0, 0, 0, 0], strides := [4, 0, 0, 0, 0] }

/-- Tile transfers in C1 and in C0, a gather and a scatter, a fill, and shape slots, whose checks pass; a shape at the ends of its
ranges. -/
theorem witness_TilesGathersAndShapes :
    let s := mapped (on (fun c => { c with
      k := [(1, shape1)], unit := some unit0, s := s1 1 0x80#64 false
      t := [(2, { val := 0, tag := 5, ready := true, poison := 0 })] }))
    let o : TileOp := { t := 0, ks := 1#5, sb := 0#7, line := 255, load := true, whole := false, w := false, ordered := false }
    ok (o.plan s .C1) = true ∧ ok (o.plan s .C0) = true ∧ s.me.shape 1 = some shape1 ∧ s.me.shape 2 = none ∧
    ok (gatherPlan s .C1 1 2 0#7 256 5 false) = true ∧ ok (gatherPlan s .C1 2 2 0#7 1 5 true) = true ∧
    ok (shldPlan (with_ s 0x80 64 (shape1.encode)) .C1 { ks := 0#5, sb := 1#7, imm := 0#21 }) = true ∧
    ok (s.homePlan .C1 0x80#64 64 1 1 6 false true) = true ∧
    (let k := { shape1 with rank := 5, counts := List.replicate 5 (2 ^ 32 - 1), strides := List.replicate 5 (-2 ^ 31) }
     k.encode < 2 ^ 512) := by decide +kernel

/-- A pool of one block, with a valid entry of the prompt class and of the token class. -/
def pool (owner : Nat) : State :=
  let s := mapped (on (fun c => { c with s := s1 2 0x10000#64 false }))
  with_ (with_ s 0x10000 64 (0x20000 + 0x30000 * 2 ^ 64 + 2 ^ 128 + 0x50000 * 2 ^ 192)) 0x30000 16 ((4 + owner) * 2 ^ 64)

/-- Key-value operations, cancels and launches whose checks pass. -/
theorem witness_KeyValueAndLaunchIssue :
    let s := pool 1
    let p : KvPool := { va := 0x10000, base := 0x20000, table := 0x30000, n := 1, logF := 0, flag := 0x50000 }
    acts (plain .C1) false s ∧ got (s.readPool .C1 0x10000#64) = some p ∧ got (kvBlock s.me .C1 p 0#64) = some 0 ∧
    ok (s.kvBlockPlan .C1 0#64 0x10000#64 true) = true ∧ ok (s.kvBlockPlan .C1 0#64 0x10000#64 false) = true ∧
    got (s.kvOwned .C1 p 0 false) = some 0x30008 ∧ got (s.kvOwned .C1 p 0 true) = some 0x30008 ∧
    ok (s.homePlan .C1 (BitVec.ofNat 64 (p.flagAt 0 255)) 8 8 5 3 false true) = true ∧
    ok (s.homePlan .C1 0x80#64 64 64 3 6 true true) = true ∧ ok (s.homePlan .C1 0x80#64 128 128 0 7 true false) = true ∧
    (∀ a ∈ (List.range 128).map (0x80 + ·), s.ownPois 0 s.me.seq (a / 4) = false) ∧
    (s.ownByte 0 s.me.seq 0x80).toNat = (0#8).toNat ∧
    (s.ownByte 0 s.me.seq (0x80 + 48)).toNat + 256 * (s.ownByte 0 s.me.seq (0x80 + 49)).toNat = s.me.ctx ∧
    (let u := on (fun c => { c with unit := some unit0 })
     (0x80#64).toNat % 128 = 0 ∧ (0x80#64).toNat + 128 ≤ u.me.clusterWindow.2 ∧
       u.spaceAnyPois 0 .cluster (2 ^ 23 * clusterOf u.me.id + u.me.clusterWindow.1 + 0x80) 128 = false) := by
  unfold acts; decide +kernel

/-- Core 0 runs at 0x1000 with a bundle of one syllable in its fetch buffer: the template field of its slot stands at bit `k`. -/
def runs1 (k : Nat) (w : Word) (f : Core → Core) : State := off (fun c => f { c with
  running := true, pc := 0x1000#64
  fetch := [{ addr := 0x40, data := BitVec.ofNat 512 (2 ^ (k + 1) + 2 ^ 64 * (2 ^ 63 + w.toNat)), faulted := false }] })

/-- A transfer whose cycle has come. -/
def xfer0 (k : XferKind) : Xfer := {
  kind := k, target := some 0x2000#64, left := 0, atTime := 0, lc := none, depth := none, rot := none, p32 := none, link := none, pc := 0x1000#64
  guarded := false, failed := false, issued := 0 }

/-- A trapped context. -/
def held0 : Held := {
  s := [], p := [], rot := 0, lc := 0, depth := 0, repc := 0, beatNow := 0, latches := [], pc := 0x2000#64, time := 5, next := 0
  flights := [], xfer := none, slip := none, cap := [], capTree := none, atIssue := false, skip := false, phaseIndex := 0, c0free := 0
  charged := false, rvDone := false, first := Trap.bare 0x21 0, drainCount := 0, padDone := false, noOpen := false }

/-- A ring of one entry of 128 bytes. -/
def ring0 : Ring := { valid := true, base := 0, entries := 1, entryBytes := 128, head := 0, count := 1, tags := [(0, 3)] }

/-- A push and an accumulate of INT8 slabs, a pair of MCFG, and a drain of zeros. -/
theorem witness_MatrixOperations :
    let s := on (fun c => { c with
      ring := [(0, ring0), (1, ring0)]
      sw := { c.sw with mcfg := BitVec.ofNat 64 (3 * 2 ^ 8 + 3 * 2 ^ 12 + 5 * 2 ^ 20 + 15 * 2 ^ 48) } })
    acts (plain .M) false s ∧ ok (pushSlabs s 0#3 1#3) = true ∧
    SMap.wf (setOf s.me true).cells (Pos.zero (setOf s.me true).zneg) = true ∧ pairUnder 3 3 5 s.me.sw.lanemap = some (false, 15) ∧
    retA s.me.sw.lanemap = 7 ∧ retB s.me.sw.lanemap = 7 ∧
    (∀ ch ∈ (chLists false 1 7 7).1 ++ (chLists false 1 7 7).2, chanByte s.me 127 127 ch = residue 0 (chMod ch)) ∧
    (fval (fmtOf 11) 0x3C00).mul (fval (fmtOf 12) 0x3F80) = .fin false (2 ^ 17) (-17) := by
  unfold acts; decide +kernel

/-- A tree in a bundle in progress, and a transfer whose cycle has come. -/
theorem witness_BranchesLoopsAndTrees :
    acts (plain .B) true (on id) ∧ (3#3).toNat < 4 ∧ (5#3).toNat = 5 ∧
    (let s := off (fun c => { c with running := true, xfer := some (xfer0 .go) })
     s.me.ticks = true ∧ s.me.xfer = some (xfer0 .go) ∧ (xfer0 .go).left = 0 ∧ (xfer0 .go).atTime ≤ s.me.time) ∧
    (let x : Xfer := { xfer0 .go with left := 1, link := some 9 }
     let c : Core := { Core.reset 0 with xfer := some x }
     c.xfer = some x ∧ x.left = 1 ∧ x.link = some 9 ∧ c.segOpen = false) := by
  unfold acts; decide +kernel

/-- A unit whose launch has a tile left and one whose launch has none, a context record of 40 pages, and user mode outside an
issue. -/
theorem witness_SystemOperationsAndUnitEnd :
    let s : State := { on (fun c => { c with unit := some unit0 }) with launches := [launch0] }
    s.me.unit = some unit0 ∧ ¬(1 < unit0.gang ∧ unit0.pos ≠ 0) ∧ s.launch 0 = some launch0 ∧ s.launchCancelling launch0 = false ∧
    launch0.next < launch0.blk.tiles ∧ launch0.blk.tiles ≤ 2 ∧ (on id).me.unit = none ∧
    (let t := mapped (on (fun c => { c with held := some held0 }))
     ok (t.recordPages .S 0#64 true) = true ∧ ok (t.recordPages .S 0x3FD80000#64 false) = true ∧ t.me.held = some held0 ∧
       (got (t.recordPages .S 0x10000#64 true)).map (fun p => decide (p.Nodup ∧ ∀ a ∈ p, a % 65536 = 0)) = some true) ∧
    fieldGet s.me.sw.gangPos 20 4 = 0 ∧ s.me.id = s.coreNo ∧
    (off id).me.issue = none ∧ (off id).me.active (plain .S) false = true ∧ ((off id).me.guardOf (plain .S)).2 = false ∧
    (off id).me.sup = false ∧ (s.coreAt 0).unit = some unit0 ∧
    (let r : State := mapped s
     r.recordPa 0 0x80 = some 0x80) := by decide +kernel

/-- A unit that runs in bank 0 of die 0. -/
def bank (f : BankUnit → BankUnit) : State :=
  let s := State.reset.withBankWord 0#32
  match s.unitOf 0 0 with
  | some u => s.putUnit 0 0 (f u)
  | none => s

/-- Its unit. -/
def bankUnit (f : BankUnit → BankUnit) : BankUnit := match (bank f).unitOf 0 0 with | some u => u | none => f default0
  where default0 : BankUnit := {
    cmd := 0, row := 0, latch := [], acc0 := [], acc1 := [], loop0 := BankLoop.zero, loop1 := BankLoop.zero, program := [], index := 0
    cycle := 0, busy := [], halted := false, limited := false, stopping := false, noSpill := false, suspensions := 0 }

/-- A command of bank 0. -/
def cmd0 (due : Nat) (arrived : Bool) : BankCmd := {
  id := 0, core := 0, pc := 0, virt := 0, ctx := 0, tag := due, due := due, region := 0, first := 0, count := 1
  program := [0x54000000#32], seq := 0, arrived := arrived, suspended := false }

/-- An access to a worked page. -/
def access0 (tag : Nat) (load held : Bool) : WAccess := {
  core := 0, slot := 5, seq := 0, pc := 0, virt := 0, ctx := 0, tag := tag, bytes := [(0, 5, 0xFF)], words := [(0, false, false)]
  addrs := [0], load := load, held := held }

/-- A loop with `n` iterations left. -/
def loop0 (n : Nat) : BankLoop := { active := true, left := n, start := 0, step := 127, offset := 0 }

/-- A running unit, the last plane and overlapping arithmetic that R289 allows, a loop in its last and in another iteration, and
an active LOOP, none. -/
theorem witness_BankUnitInstructions :
    let busy : BankBusy := { ends := 5, arith := true, planes := [0], latches := [0], accs := [0] }
    let f (u : BankUnit) : BankUnit := { u with loop1 := loop0 2, busy := [busy] }
    let u := bankUnit f
    (bank f).unitOf (bank f).bankNo.1 (bank f).bankNo.2 = some u ∧ u.halted = false ∧ (u.loop false).active = false ∧
    (u.loop true).active = true ∧ 1 < (u.loop true).left ∧ u.stopping = false ∧
    ((bankUnit (fun u => { u with loop1 := loop0 1 })).loop true).left ≤ 1 ∧
    ¬((0#7).toNat < (4#7).toNat ∧ (4#7).toNat < (0#7).toNat + 4) ∧ (16#5).toNat + ((15#4).toNat + 1) ≤ 32 ∧
    bankOk (bank f) u { reads := [127], writes := [1], latches := [1], accs := [1], next := 1 } := by
  iterate 9 refine ⟨by decide +kernel, ?_⟩
  unfold bankOk; decide +kernel

/-- The faults of a unit and its spill, and a stretch limit that is reached. -/
theorem witness_BankFaultsAndStretch :
    let act := bankUnit (fun u => { u with loop0 := loop0 1, stopping := true })
    act.halted = false ∧ (act.loop false).active = true ∧ act.stopping = true ∧ act.noSpill = false ∧ act.busy = [] ∧
    ((bankUnit id).loop false).active = false ∧
    127 < (127#7).toNat + (bankUnit (fun u => { u with loop0 := { loop0 1 with offset := 1 } })).offset ∧
    (let b : State := { bank id with dies := [(0, { Die.reset with cmds := [cmd0 3 true] })] }
     (b.dieAt 0).cmd 0 = some (cmd0 3 true)) ∧
    (let u := bankUnit (fun u => { u with cycle := 2 ^ 20, limited := false })
     let d : Die := { Die.reset with beat := 5, opened := true, units := [(0, u)] }
     d.units = [(0, u)] ∧ u.halted = false ∧ u.limited = false ∧ fieldGet d.plan 16 16 + fieldGet d.plan 48 16 ≤ u.cycle ∧
     u.suspensions < 64 ∧ fieldGet d.plan 16 16 + fieldGet d.plan 48 16 + 65536 < u.cycle) := by decide +kernel

/-- A die after the compute beat 3, changed by `x`. -/
def die3 (x : Die → Die) : State := { at_ (.beat 0) with dies := [(0, x { Die.reset with layers := 1, beat := 3, opened := false })] }

/-- An access ahead of its beat, one in its beat, late ones and ones too far ahead. -/
theorem witness_WorkedAccesses :
    let d := die3 (fun x => { x with accesses := [access0 4 true false] })
    (d.dieAt 0).accesses = [access0 4 true false] ∧ (access0 4 true false).held = false ∧ d.beatAsks 0 = [] ∧
    (d.coreAt 0).acquiring 0 = false ∧ (d.coreAt 0).fencing 0 = false ∧ (d.dieAt 0).beat < 4 ∧ 4 ≤ (d.dieAt 0).beat + 4096 ∧
    (d.dieAt 0).beat + 4096 < 4100 ∧ 2 < (d.dieAt 0).beat ∧ (d.coreAt 0).sb = [] ∧
    (let h : State := { d with cores := [(0, { Core.reset 0 with sw := { (Core.reset 0).sw with priv := 3#64 } })] }
     (h.coreAt 0).sup = true ∧ (h.coreAt 0).supFrom ≤ (access0 2 false false).seq ∧ (h.coreAt 0).sw.priv.getLsbD 2 = false) ∧ (d.dieAt 0).suspendedRow (access0 4 true false).pa = false := by
  decide +kernel

/-- A command that arrives; a gap that is due; access and compute beats that open and end. -/
theorem witness_BeatsAndBankFaults :
    let d (x : Die → Die) : Die := (die3 x).dieAt 0
    (d (fun x => { x with cmds := [cmd0 5 false] })).cmds.filter (fun y => !y.arrived) = [cmd0 5 false] ∧
    (die3 (fun x => { x with cmds := [cmd0 5 false] })).determOn 0 = false ∧
    (d (fun x => { x with pairs := 256 })).gapDue = true ∧ (d id).layers.getLsbD 0 = true ∧ (d id).beat % 2 = 1 ∧
    (d id).opened = false ∧ (d id).gapDue = false ∧
    (d (fun x => { x with accesses := [access0 4 true true] })).accesses.filter (fun a => a.held && a.tag == 4) = [access0 4 true true] ∧
    (let x := d (fun x => { x with beat := 4, opened := true, cmds := [cmd0 5 true] })
     x.beat % 2 = 0 ∧ x.cmds.filter (fun c => c.arrived && c.due == x.beat + 1) = [cmd0 5 true] ∧ x.cellar = [] ∧
     (cmd0 5 true).program.all (fun w => (decodeBk w).isSome) = true) := by decide +kernel

/-- The look of a core that waits, stalls, traps and issues; a hold that ends, a rendezvous of a crew of one, a line to fetch, a
slip that is ready, a comparison, and the events of a boundary. -/
theorem witness_CoreEventsTakeEffect :
    let mul := runs1 61 (0x02F8060040C00000#64) id
    let launch := runs1 51 (0x57F8009080000000#64) id
    let wait := runs1 51 (0x57F8009080000000#64) (fun c => { c with hold := .waiting })
    let st (s : State) : State := s.settleCore.onMe (fun c => c.charge.count)
    (on id).me.ticks = false ∧ mul.me.ticks = true ∧ fieldGet mul.me.sw.gangPos 20 4 = 0 ∧
    (match (st mul).look with
     | .go b => b.hd.getLsbD 31 == false && b.hd.getLsbD 30 == false && (((st mul).begun b).heldItem b).isNone
     | _ => false) = true ∧ (st mul).me.segOpen = false ∧ (st mul).me.xfer = none ∧
    (match (st launch).look with | .wait _ => true | _ => false) = true ∧ (st launch).me.hold = .none ∧
    (match (st (off (fun c => { c with running := true }))).look with | .missing => true | _ => false) = true ∧
    (match (st (runs1 61 (0#64) id)).look with | .trap _ _ => true | _ => false) = true ∧
    (match (st (runs1 61 (0x02F8060040C00000#64) (fun c => { c with next := 9 }))).look with | .early => true | _ => false) = true ∧
    wait.me.hold = .waiting ∧ (match wait.me.fetched with | .whole => true | _ => false) = true ∧
    (match got wait.me.decode with | some b => (wait.begun b).holdWaits b == false | none => false) = true ∧ wait.mates = [] ∧
    wait.me.det = false ∧
    (let k : Crew := { index := 0, cluster := 0, members := [{ core := some 0, left := false, passes := [] }] }
     let s : State := { off (fun c => { c with unit := some unit0, waiting := some 7 }) with launches := [{ launch0 with crews := [k] }] }
     s.me.waiting = some 7 ∧ s.crewOf 0 = some ({ launch0 with crews := [k] }, k, 0) ∧ s.mayPass 0 = true ∧ s.me.entering = none ∧ s.me.hasEvent = false) ∧
    (let s := mapped (off (fun c => { c with running := true, pc := 0x1000#64 }))
     s.me.nextLine = some 0x40 ∧ 64 * 0x40 < 2 ^ 48 ∧ s.lineBusy 0 = false ∧ s.rowRefused [0x1000] = false ∧ s.home.anyPois 0x1000 64 = false ∧
     (match access s s.me s.me.ctx 0x1000 (s.free + s.coreNo) { rd := false, wr := false, ex := true, user := true } with
      | .ok pa attr _ => pa == 0x1000 && !isWorked attr
      | _ => false) = true ∧
     (match access (off id) (off id).me 0 0x1000 0 { rd := false, wr := false, ex := true, user := true } with
      | .fail c s _ => c != 0x0A || s != 3
      | _ => false) = true) ∧
    (let cs : CapSlot := { slot := 5, guard := true, guardPoison := false, disp := 0, base := 0, vals := [] }
     let x : SlipOp := { slot := .M, word := syl 0x84F8008000000000#64, pc := 0x1000#64, scope := 0, cap := cs, issued := 0, rot := 0, k := [] }
     let s := off (fun c => { c with running := true, slip := some x })
     s.me.slip = some x ∧ s.slipReady = true ∧ (semOfWord x.slot x.word).isSome = true) ∧
    (let f := { due (.vec 3) with twin := some (7, 1, 0) }
     f.twin = some (7, 1, 0) ∧ f.land ≤ 0) ∧
    (let x := Trap.bare 0x21 0
     (off (fun c => { c with entering := some (x, true) })).me.entering = some (x, true)) ∧
    (∀ k ∈ [0x21, 0x05, 0x20],
      let s := off (fun c => { c with running := true, async := [Trap.bare k 0] })
      s.me.dueEvent = some k ∧ s.mayBreak s.coreNo = true ∧ s.gangLets s.coreNo = true ∧ s.me.segOpen = false ∧ s.me.async.find? (fun t => t.code == k) = some (Trap.bare k 0)) ∧
    (let s := off (fun c => { c with
       running := true, phase := { running := true, stopped := false, expected := 0, table := 0, index := 3 }
       sw := { c.sw with phaseCnt := 2 ^ 40 } })
     s.me.dueEvent = some 0x0E) := by decide +kernel

/-- An event of the handler's own operations that is due. -/
theorem witness_handlerEvent :
    let s := off (fun c => { c with running := true, sw := { c.sw with priv := 3#64 }, supAsync := [Trap.bare 6 0] })
    s.me.dueEvent = some 6 ∧ s.mayBreak s.coreNo = true ∧ s.me.sup = true ∧ s.me.sw.priv.getLsbD 2 = false ∧ s.me.segOpen = false ∧
      s.me.supAsync.find? (fun t => t.code == 6) = some (Trap.bare 6 0) := by decide +kernel

/-- A core of a quiet state is still. -/
theorem witness_still : still (off id).me := by
  unfold still; decide +kernel

/-- A running unit that a waiting launch may displace, and a saved unit that a free core may resume. -/
theorem witness_PreemptionAndResumption :
    let l : Launch := { launch0 with blk := { blk0 with profile := 2, prio := 7 } }
    let busy (n : Nat) : Nat × Core := (n, { Core.reset n with unit := some unit0, running := n == 3, job := some (0, 0, 0) })
    let s : State := { mapped (at_ (.dispatcher 0)) with
      cores := (List.range 16).map busy
      launches := [{ l with waiting := [{ record := 0x10000#64, unit := unit0, cluster := 0 }] }] }
    let p : Preempted := { record := 0x10000#64, unit := unit0, cluster := 0 }
    let r : State := { mapped (at_ (.dispatcher 0)) with launches := [{ l with waiting := [p] }] }
    s.victims 0 = [3] ∧ fieldGet (s.coreAt 3).sw.gangPos 20 4 = 0 ∧ (s.coreAt 3).id = 3 ∧
    r.resumable { l with waiting := [p] } 0 0 = [(p, 0)] ∧ (r.ctxInfo l.blk.ctx).isSome = true ∧ (r.coreAt 0).timed = [] := by
  decide +kernel

/-- Core 0 runs at 0x1000 with a bundle of the header `hd` and one syllable in its fetch buffer. -/
def runsHd (hd : Nat) (i : Instr) (f : Core → Core) : State := off (fun c => f { c with
  running := true, pc := 0x1000#64
  fetch := [{ addr := 0x40, data := BitVec.ofNat 512 (hd + 2 ^ 64 * (2 ^ 63 + ((encodeSyl i).getD 0#63).toNat)), faulted := false }] })

/-- S.MUL of s1 and s1 into s1. -/
def mul0 : Instr := .sMul (plain .S) { sd := 1#7, sa := 1#7, sb := 1#7 }

/-- As the next bundle is looked at. -/
def settled (s : State) : State := s.settleCore.onMe (fun c => c.charge.count)

/-- The bundle that the core will issue meets `p`. -/
def goes (s : State) (p : Bundle → Bool) : Bool := match s.look with | .go b => p b | _ => false

/-- A fresh, a sticky and a repeated operation, an auto-stepped one of each slot, and headers, sticky slots and syllables that trap. -/
theorem witness_LatchesRepetitionsAndDecodeTraps :
    let full : Core → Core := fun c => { c with latch := [(slotCode .S, { word := (encodeSyl mul0).getD 0#63, disp := 4, full := true })] }
    let rep : Core → Core := fun c => full { c with sw := { c.sw with repc := 2 } }
    let sticky : Nat := 2 ^ 61 + 2 ^ 63
    (∀ s ∈ [runsHd (2 ^ 62) mul0 id, runsHd (2 ^ 62) mul0 rep],
      (got s.me.decode).map (fun b => b.items.map (fun i => decide (i.slot = .S))) = some [true] ∧ tmpl (s.me.syllable 0x1000) .S = 2) ∧
    tmpl ((runsHd sticky mul0 full).me.syllable 0x1000) .S = 1 ∧ (runsHd (2 ^ 62) mul0 rep).me.sw.repc ≠ 0 ∧
    (settled (runsHd (2 ^ 62) mul0 id)).me.segOpen = false ∧
    goes (settled (runsHd (2 ^ 62) mul0 id)) (fun b => !b.hd.getLsbD 31) = true ∧ (settled (runsHd (2 ^ 62) mul0 id)).me.xfer = none ∧
    ((on id).coreAt 0).issue = some bundle ∧
    (∀ hd ∈ [(2 ^ 61 + 2 ^ 62 : Nat), 2 ^ 49, 1, 5 * 2 ^ 32, 2 ^ 23], let c := (runsHd hd mul0 id).me
      let w := c.syllable c.pc.toNat
      tmpl w .S = 3 ∨ tmpl w .B = 1 ∨ fieldGet w 0 23 ≠ 0 ∨ 4 < fieldGet w 32 3 ∨ w.getLsbD 29 = false ∧ fieldGet w 23 6 ≠ 0) ∧
    ((runsHd sticky mul0 id).me.latchOf (slotCode .S)).full = false ∧
    (let n := settled (runsHd 1 mul0 id)
     n.onChipHold n.coreNo = false ∧ n.paddedHold n.coreNo = false ∧ n.me.next ≤ n.me.time ∧ n.me.transferDue = false ∧
     (match n.me.fetched with | .whole => true | _ => false) = true ∧ ok n.me.decode = false ∧ n.me.skipNext = false ∧
     n.me.sup = false ∧ n.me.timed = [] ∧ n.me.flights = [] ∧ n.me.pops = [] ∧ n.me.s = []) := by decide +kernel

/-- The operations whose latch steps. -/
theorem witness_steps :
    ∀ x ∈ [
      (Slot.S, Instr.sLld (plain .S) { sd := 1#7, sb := 2#7, imm := 8#29 }),
      (Slot.V0, Instr.v0Sld (plain .V0) { vd := 1#10, tag := 5#4, off := 4#13 }),
      (Slot.V1, Instr.v1Ld (plain .V1) { vd := 1#10, tag := 5#4, bn := 1#4, off := 4#15 }),
      (Slot.C0, Instr.cVld (plain .C0) { vd := 1#10, sb := 2#7, tag := 5#4, imm := 0#21 }),
      (Slot.C1, Instr.cVld (plain .C1) { vd := 1#10, sb := 2#7, tag := 5#4, imm := 0#21 }),
      (Slot.C1, Instr.cTld (plain .C1) { td := 1#5, ks := 2#5, sb := 3#7 }),
      (Slot.M, Instr.mDrainTile (plain .M) { tn := 1#5, row := 2#7, line := 3#8 }),
      (Slot.V0, Instr.vAddI32 (plain .V0) { vd := 1#10, va := 2#10, vb := 3#10 })],
      ((encodeSyl x.2).bind (decodeSyl x.1)) = some x.2 := by decide +kernel

/-- A scalar register's value at the opening of a segment. -/
def jscal (n : Nat) : JEntry := .scalar n { val := 1, poison := false, pend := false }

/-- A store that an open segment holds. -/
def heldStore (sp : Space) (a : Nat) : SbEntry := {
  seq := 0, space := sp, kind := .store, addr := a, bytes := [(a, 7)], words := [(a / 4, false, false)], rel := 0, dest := none, virt := 0
  pc := 0, seg := true, beat := none, gd := none, due := 0, unit := 0 }

/-- The core with an open segment of `n` journal entries and a held store to main memory and to the loft. -/
def segment (n : Nat) (c : Core) : Core := { c with
  sw := { c.sw with segState := BitVec.ofNat 64 (2 ^ 63 + 0x200 + 2 ^ 52 * n + 2 ^ 45) }
  seg := { c.seg with journal := (List.range n).map jscal, held := [heldStore .main 0x40, heldStore .loft 8] } }

/-- SE bundles that stall and open, a segment that seals and one that overflows, PH bundles of a listed and of an unlisted address, the
end of a unit, a segment that commits, and a phase that runs, stands and overruns. -/
theorem witness_SegmentsAndPhases :
    let se : Nat := 2 ^ 62 + 2 ^ 31
    let fence : Instr := .cFenceFull (plain .C1) { scope := 0#3 }
    let opening := settled (runsHd se mul0 id)
    let stalls := runsHd se mul0 (fun c => { c with flights := [due (.scalar 3)] })
    let sealing := settled (runsHd (2 ^ 52) fence (segment 1))
    let fills := settled (runsHd (2 ^ 62) mul0 (segment 256))
    let ph (t : Word) : State := settled { runsHd (2 ^ 62 + 2 ^ 30) mul0 (fun c => { c with phase := { c.phase with table := t } }) with
      hub := { State.reset.hub with kernels := [{ ctx := 0, code := 0, table := 0x9000, phases := [(0x1000, 5, 2)], rewritten := false }] } }
    let ends := settled (runsHd (2 ^ 50) (.bEnd (plain .B) {}) id)
    stalls.me.flights ≠ [] ∧ stalls.me.skipNext = false ∧ stalls.me.rewound = false ∧ stalls.me.noOpen = false ∧ stalls.unitCancelling = false ∧
    opening.me.unit = none ∧ opening.me.sup = false ∧ opening.me.xfer = none ∧ opening.me.segOpen = false ∧ opening.me.rewound = false ∧
    opening.me.noOpen = false ∧ opening.me.seg.journal = [] ∧
    goes opening (fun b => b.hd.getLsbD 31 && !b.rep && !(opening.begun b).sealedBy b && !opening.tooFull b) = true ∧
    sealing.me.segOpen = true ∧ goes sealing (fun b => !b.hd.getLsbD 31 && (sealing.begun b).sealedBy b) = true ∧
    fills.me.segOpen = true ∧ goes fills (fun b => !fills.me.opens b && !(fills.begun b).sealedBy b && fills.tooFull b) = true ∧
    fills.me.flights = [] ∧ fills.me.timed = [] ∧ fills.me.sb = [] ∧ fills.me.s = [] ∧
    goes (ph 0x9000) (fun b => b.hd.getLsbD 30 && b.items.all (fun i => !i.sem.ends)) = true ∧
    ((ph 0x9000).hub.kernels.find? (fun k => k.table == (ph 0x9000).me.phase.table && k.ctx == (ph 0x9000).me.ctx)).isSome = true ∧
    goes (ph 0x7000) (fun b => b.hd.getLsbD 30) = true ∧
    ((ph 0x7000).hub.kernels.find? (fun k => k.table == (ph 0x7000).me.phase.table && k.ctx == (ph 0x7000).me.ctx)) = none ∧
    goes ends (fun b => !b.hd.getLsbD 30 && b.items.any (fun i =>
      i.active (ends.begun b).me && i.sem.ends && !i.sem.slip (ends.begun b))) = true := by decide +kernel

/-- A segment whose commit waits for nothing, and its held stores in program order. -/
theorem witness_settles : settles (off (segment 1)).me ∧ (off (segment 1)).me.segOpen = true ∧
    (off (segment 1)).me.seg.held.Pairwise (fun x y => x.seq ≤ y.seq) ∧ (off (segment 1)).outq = [] ∧ (off (segment 1)).me.sb = [] := by
  unfold settles; decide +kernel

/-- A phase that runs in user mode, one that stands, and one that has overrun. -/
theorem witness_phase :
    let ph (r : Bool) (n : Nat) : Core := { Core.reset 0 with
      phase := { running := r, stopped := false, expected := 16, table := 0, index := 0 }
      sw := { (Core.reset 0).sw with phaseCnt := BitVec.ofNat 64 n } }
    (ph true 0).phase.running = true ∧ (ph true 0).sup = false ∧ (ph false 0).phase.running = false ∧
    16 * 16 + 16 * 256 < 16 * fieldGet (ph true 273).sw.phaseCnt 0 48 ∧ ¬(16 * 16 + 16 * 256 < 16 * fieldGet (ph true 272).sw.phaseCnt 0 48) := by
  decide +kernel

/-! ## The package -/

/-- An engine operation. -/
def eng (k : EngKind) : Engine := {
  seq := 1, kind := k, tag := 3, work := [(0, [0x3000, 0x3001])], virt := [[0x3000#64]], vas := [0x3000#64], done := 0, rest := 16384, acq := 0, rel := 0
  due := 0, span := [], padEnd := 0, padEnds := [], slot := 5, pc := 0, ew := 1, fault := none, virtAt := 0, par := 0, buf := [], kv := KvWalk.zero
  frozen := false, sup := false }

/-- A flume of one element of 128 bytes of main memory at `a`. -/
def flume (a : Word) (w : Bool) : Flume := {
  reg := 3, main := true, seq := 0, disp := 0, size := 1, next := 0, moved := 0, buf := if w then [(7, 0, 0)] else []
  inflight := 0
  shape := { rank := 1, format := 5#4, write := w, base := a, counts := [1, 0, 0, 0, 0], strides := [4, 0, 0, 0, 0] }
  fault := none, armed := 0, pops := [], pc := 0, sup := false }

/-- Core 0 of a mapped context. -/
def eng0 (f : Core → Core) : State := mapped (off f)

/-- What an engine, a ring, a flume and an L2 have ready; a page not mapped faults. -/
theorem witness_EngineRowsMoveTheirBytes :
    (let e : Engine := { eng (.tileLoad 2) with work := [], buf := [(7, false)] }
     e.work = [] ∧ e.virtAt.toNat + e.buf.length ≤ 16384 ∧ (eng (.tileLoad 2)).due = 0 ∧ (eng (.tileStore 2)).padEnd = 0 ∧
       (eng0 id).rowRefused [0x3000, 0x3001] = false ∧ ({ eng (.tileLoad 2) with due := 5 } : Engine).due ≠ 0 ∧
       ({ eng (.tileStore 2) with padEnd := 5 } : Engine).padEnd ≠ 0) ∧
    (∀ k ∈ [EngKind.tileLoad 2, .gather 2, .tileStore 2, .scatter 2],
      takes (eng0 (fun c => { c with engines := [eng k] })) ((eng0 (fun c => { c with engines := [eng k] })).enginesReady 0) (eng k)) ∧
    (let s := eng0 (fun c => { c with engines := [eng (.fill 1)], ring := [(1, { ring0 with count := 0 })] })
     takes s (s.me.engines.filter (s.fillReady 0)) (eng (.fill 1)) ∧ ok (s.elemPhys 0 [0x3000#64] true false 0 0) = true ∧
       ok (s.elemPhys 0 [0x50000000#64] true false 0 0) = false) ∧
    (let s := eng0 (fun c => { c with engines := [eng (.spill 1)], ring := [(1, ring0)] })
     takes s (s.me.engines.filter (s.spillReady 0)) (eng (.spill 1)) ∧ ok (s.elemPhys 0 [0x3000#64] false false 0 0) = true ∧
       ok (s.elemPhys 0 [0x50000000#64] false false 0 0) = false ∧ s.me.async = [] ∧
       s.spillWrites 0 (eng (.spill 1)) = false ∧ s.rowRefused [0x3000] = false) ∧
    (let e : Engine := { eng (.spill 1) with done := 1, buf := List.replicate 128 (7, false) }
     let s := eng0 (fun c => { c with engines := [e], ring := [(1, { ring0 with count := 0 })] })
     takes s (s.me.engines.filter (s.spillReady 0)) e ∧ s.spillWrites 0 e = true ∧
       (got (s.elemPhys 0 [0x3000#64] false false 0 0)).map (fun l => decide (l.length ≤ 128)) = some true ∧
       (let h := eng0 (fun c => { c with sw := { c.sw with priv := 3#64 } })
        h.me.sup = true ∧ h.me.supFrom ≤ e.seq ∧ h.me.supFrom ≤ (flume 0 true).seq)) ∧
    (let f := flume 0x3000 false
     let s := eng0 (fun c => { c with flumes := [f] })
     takes s (s.me.flumes.filter (s.flumeReadReady 0)) f ∧ (got (s.flumePhys 0 f 0)).map (·.length) = some 128 ∧
       ok (s.flumePhys 0 (flume 0x50000000 false) 0) = false) ∧
    (let f := flume 0x3000 true
     let s := eng0 (fun c => { c with flumes := [f] })
     takes s (s.me.flumes.filter (s.flumeWriteReady 0)) f ∧ ok (s.flumePhys 0 f 0) = true ∧
       ok (s.flumePhys 0 (flume 0x50000000 true) 0) = false) ∧
    (let s : State := { at_ (.l2 0) with owner := [(32, 1)] }
     takes s (s.l2Lines s.dieNo) 2) := by
  unfold takes; decide +kernel

/-- Traps in user mode, in supervisor mode and in a segment; a pending low scalar; B.TRAP and B.RFT at their cycle; the registers
of a held context; a branch register with poison and off a bundle's alignment. -/
theorem witness_TakingATrapAndReturning :
    let u := off (fun c => { c with running := true })
    let v := off (fun c => { c with sw := { c.sw with priv := 1#64 } })
    let f := off (fun c => { c with sw := { c.sw with priv := 5#64 }, held := some held0 })
    let g := off (fun c => { c with
      sw := { c.sw with segState := BitVec.ofNat 64 (2 ^ 63 + 2 ^ 61 + 0x200) }
      seg := { c.seg with journal := [.scalar 3 { val := 1, poison := false, pend := false }, .status 0x009 0#64] } })
    (mapped u).tableWorked 0 0x40 = none ∧ pteOf (mapped u) 0 0x40 0 = some 0x200000 ∧ (mapped u).me.ctx = 0 ∧
    u.me.sup = false ∧ u.me.segOpen = false ∧ still u.me ∧ ((on (fun c => { c with s := [(3, { val := 0, poison := false, pend := true })] })).me.sreg 3).pend = true ∧
    u.me.timed = [] ∧ u.me.flights = [] ∧ v.me.segOpen = false ∧ v.me.handlerLeft = false ∧ v.me.sup = true ∧ v.me.sw.priv.getLsbD 2 = false ∧ f.me.sup = true ∧ f.me.sw.priv.getLsbD 2 = true ∧ f.me.held = some held0 ∧
    g.me.segOpen = true ∧ fieldGet g.me.sw.segState 61 2 = 1 ∧ fieldGet g.me.sw.gangPos 20 4 = 0 ∧ g.me.id = g.coreNo ∧
    (∀ k ∈ [XferKind.trap 7, .rft],
      let s := off (fun c => { c with running := true, xfer := some (xfer0 k) })
      s.me.ticks = true ∧ s.me.xfer = some (xfer0 k) ∧ (xfer0 k).left = 0 ∧ (xfer0 k).atTime ≤ s.me.time) ∧
    (let h := off (fun c => { c with sw := { c.sw with priv := 3#64 }, held := some held0 })
     h.me.isHeld = true ∧ h.me.held = some held0 ∧ h.me.flights = [] ∧ h.me.timed = [] ∧ h.me.handlerLeft = false) ∧
    (v.me.isHeld = false ∧ v.me.sup = true) ∧ (u.me.enter (Trap.bare 0x21 0) true).held.isSome = true ∧
    (let b := off (fun c => { c with s := [(3, { val := 4, poison := false, pend := false }), (4, { val := 0, poison := true, pend := false })] })
     b.me.active (plain .B) true = true ∧ (b.me.guardOf (plain .B)).2 = false ∧ (b.me.rs .B 3#7).2 = false ∧
       (b.me.rs .B 3#7).1.toNat % 8 ≠ 0 ∧ (b.me.rs .B 4#7).2 = true) := by
  unfold still; decide +kernel

/-- The reset state is canonical, its program counters are aligned, and a step from it answers a next state. -/
theorem witness_EveryStepKeepsTheMemoriesCanonical :
    State.reset.sharedWf = true ∧ State.reset.coresWf = true ∧ State.reset.pcsAligned ∧ ∃ t, step State.reset = .next t := by
  refine ⟨by decide +kernel, by decide +kernel, fun k => ?_, _, rfl⟩
  have h : State.reset.coreAt k = Core.reset k := rfl
  simp [h, Core.reset]

/-- A queue of one packet `p` (type, barrier and fields as in R215). -/
def queue (p : Option (List Byte)) : Queue := {
  va := 0x20000, pa := 0x20000, ctx := 0, base := 0x21000, slots := 2, read := 0, stalled := false, faulted := false, packet := p }

/-- The landing engine of die 0 has the turn and a queue. -/
def land (q : Queue) : State := { mapped (at_ (.landing 0)) with queues := [q] }

/-- A packet of type `ty` with its 64 bytes as the number `n`. -/
def pkt (ty n : Nat) : List Byte := (List.range 64).map (fun i => BitVec.ofNat 8 ((n + ty) / 2 ^ (8 * i)))

/-- A copy of 64 bytes. -/
def copy0 (r : Option Nat) (p : Option Nat) : Packet := {
  die := 0, queue := none, node := .none, ctx := 0, reduce := r, src := 0x30000, dst := 0x40000, len := 64, barrier := (0, 0)
  peer := p, left := [0], sent := [], failed := false }

/-- Slots that are valid, that fault and whose packet fails; packets of every type that may be accepted; a launch block that passes
and one that does not; a graph of one join. -/
theorem witness_LandingEnginesTakePackets :
    let valid := with_ (land (queue none)) 0x2103F 1 1
    let fault := land { queue none with base := 0x50000000 }
    let bad := land (queue (some (pkt 4 0)))
    let copy := pkt 1 (64 * 2 ^ 32 + 0x30000 * 2 ^ 64 + 0x40000 * 2 ^ 128)
    let reduce := pkt 2 (4096 * 2 ^ 32 + 0x30000 * 2 ^ 64 + 0x40000 * 2 ^ 128)
    let s3 := with_ (land (queue (some (pkt 3 (0x30000 * 2 ^ 64))))) 0x30000 128 (2 + 2 ^ 89 + 0x1000 * 2 ^ 128)
    let s5 := with_ (with_ (land (queue (some (pkt 5 (0x30000 * 2 ^ 64))))) 0x30000 32 1) 0x30020 32 4
    takes valid ((valid.queuesOf 0).filter valid.slotReady) (queue none) ∧
    ((valid.openPas 0 0x21000 64 true false).map (fun a => pktField (a.map valid.home.byte) 63 1)) = some 1 ∧
    takes fault ((fault.queuesOf 0).filter fault.slotReady) { queue none with base := 0x50000000 } ∧
    fault.openPas 0 0x50000000 64 true false = none ∧
    takes bad ((bad.queuesOf 0).filter bad.slotReady) (queue (some (pkt 4 0))) ∧ pktField (pkt 4 0) 24 8 = 0 ∧
    (∀ x ∈ [(0, pkt 0 0), (1, copy), (2, reduce), (4, pkt 4 (2 ^ 32 + 0x20100 * 2 ^ 192))],
      takes (land (queue (some x.2))) ((land (queue (some x.2))).acceptable 0 x.1) (queue (some x.2), x.2)) ∧
    takes s3 (s3.acceptable 0 3) (queue (some (pkt 3 (0x30000 * 2 ^ 64))), pkt 3 (0x30000 * 2 ^ 64)) ∧
    ok (s3.launchCheck (s3.engineNum 0 0x30000 128) false (0, 0)) = true ∧
    ok (s3.launchCheck 0 false (0, 0)) = false ∧
    takes s5 (s5.acceptable 0 5) (queue (some (pkt 5 (0x30000 * 2 ^ 64))), pkt 5 (0x30000 * 2 ^ 64)) ∧
    s5.readGraph 0 0x30000 = some (0, [{ kind := 4, preds := 0, succs := [], a := 0, b := 0, c := 0 }]) ∧ s5.graphs = [] := by
  unfold takes; decide +kernel

/-- A fill of 64 bytes. -/
def fill0 : Fill := {
  die := 0, key := 0, counter := 0, buffer := 0x40000, length := 64, format := 0, ctx := 0, threshold := 0, barrier := (0, 0)
  left := [0] }

/-- A state in which `a` has the turn, with packets. -/
def chunks (a : Agent) (l : List Packet) : State := { mapped (at_ a) with packets := l }

/-- Chunks of copies and of a reduction, fills to accept and to move, and queues that wait. -/
theorem witness_LandingEnginesMoveChunks :
    let s := chunks (.landing 0) [copy0 none none]
    let p := chunks (.landing 0) [copy0 none (some 1)]
    let r := chunks (.landing 0) [copy0 (some 0) none]
    takes s (s.chunksReady 0 false) (0, 0) ∧ (s.openPas 0 0x30000 ((copy0 none none).chunkLen 0) true false).isSome = true ∧
    (s.openPas 0 0x40000 64 false true).isSome = true ∧ (s.openPas 0 0x50000000 64 false true).isSome = false ∧
    takes p (p.chunksReady 0 false) (0, 0) ∧
    ((p.openPas 0 0x30000 64 true false).map (fun a => a.all (fun y => !p.home.pois (y / 4)))) = some true ∧
    takes r (r.chunksReady 0 true) (0, 0) ∧ (r.openPas 0 0x40000 64 true true).isSome = true ∧
    (let f : State := { mapped (at_ (.orchard 0)) with fills := [fill0] }
     takes f (f.orchardReady 0) (0, 0)) ∧
    (∀ b ∈ [false, true],
      let q : Queue := { queue none with stalled := b }
      takes (land q) ((land q).stallable 0) q ∧ ((land q).enginePas 0 q.slotVa 64 true false).isSome = true) ∧
    (let b : Barrier := { (barrierAt State.reset.home 0) with pending := 64 }
     64 ≤ b.pending ∧ b.pending < 2 ^ 32 ∧ b.pending = 64 ∧ b.remaining = 0) := by
  unfold takes; decide +kernel

/-- The checksum of a chunk of zeros. -/
theorem checksum_zeros : checksum 0 (List.replicate 512 0) = some 0 := by
  have c : chunkPair 0 0 0 = some (0, 0) := by decide
  have z (i : Nat) : (List.replicate 512 0).getD i 0 = 0 := by
    simp only [List.getD_eq_getElem?_getD, List.getElem?_replicate]; split <;> rfl
  have g (l : List Nat) : l.foldl (fun (acc : Option Int) (i : Nat) =>
      match acc, chunkPair 0 ((List.replicate 512 0).getD (2 * i) 0) ((List.replicate 512 0).getD (2 * i + 1) 0) with
      | some n, some (x, y) => some (n + (2 * i + 1) * x + (2 * i + 2) * y)
      | _, _ => none) (some 0) = some 0 := by
    induction l with
    | nil => rfl
    | cons i l ih => simpa only [List.foldl_cons, z, c, Int.mul_zero, Int.add_zero] using ih
  unfold checksum; simp only []; erw [g]; rfl

/-- Words of zeros have a sum, a poisoned word has none. -/
theorem witness_checkedSum : (∃ n, checkedSum 0 [] [] = .ok n) ∧ ok (checkedSum 0 [(0, true)] []) = false := by
  have h : (List.range 512).map (chunkWord (([] : List (Byte × Bool)).map (·.1))) = List.replicate 512 0 := by decide +kernel
  have m : ((List.replicate 512 0).zip (List.replicate 512 0)).map (fun e => sumWord 0 e.1 e.2) = List.replicate 512 (some 0) := by
    decide +kernel
  have p : (List.replicate 512 (some 0)).any (fun x => x.isNone) = false := by decide +kernel
  have q : (List.replicate 512 (some 0)).map (fun x => x.getD 0) = List.replicate 512 0 := by decide +kernel
  refine ⟨⟨List.replicate 512 0, ?_⟩, by decide +kernel⟩
  simp only [checkedSum, h, checksum_zeros, m, p, q]
  rfl

/-- A node of a kind. -/
def node0 (k a b c : Nat) : GNode := { kind := k, preds := 0, succs := [], a := a, b := b, c := c }

/-- A graph of a node in a state and a join that waits. -/
def graph0 (n : GNode) (x : NodeState) : GraphRun := {
  id := 3, cluster := 0, ctx := 0, depth := 1, origin := .none, record := 0, nodes := [n, node0 4 0 0 0], states := [x, .waiting 1] }

/-- The walker of cluster 0 has the turn and holds that graph; main memory holds a graph of one join at 0x30000. -/
def walks (g : GraphRun) : State :=
  with_ (with_ (with_ { mapped (at_ (.walker 0)) with graphs := [g] } 0x30000 32 1) 0x30020 32 4) 0x31000 8 5

/-- A launch of profile 2. -/
def launch2 : Launch := { launch0 with blk := { blk0 with profile := 2 } }

/-- A failed core, a launch to place, a core for the next tile and one after the last. -/
theorem witness_DispatchersWork :
    let base : State := { mapped (at_ (.dispatcher 0)) with launches := [launch2] }
    let fail : State := { base with cores := [(0, { Core.reset 0 with failed := some 9 })] }
    let next (n : Nat) : State := { mapped (at_ (.dispatcher 0)) with
      launches := [{ launch2 with next := n, crews := [{ index := 0, cluster := 0, members := [{ core := some 0, left := false, passes := [] }] }] }]
      cores := [(0, { Core.reset 0 with job := some (0, 0, 0) })] }
    takes fail (fail.unitActs 0 0) (.report 0) ∧ (fail.coreAt 0).failed = some 9 ∧
    takes base (base.unitActs 0 0) (.place 0) ∧ base.placeable launch2 0 0 = [(0, [0])] ∧
    takes (next 0) ((next 0).unitActs 0 0) (.next 0) ∧ takes (next 2) ((next 2).unitActs 0 0) (.next 0) ∧
    (let l : Launch := { launch2 with next := 2, blk := { launch2.blk with record := 0x35000 } }
     let swept : State := with_ { base with launches := [l] } 0x35001 1 2
     takes swept (swept.unitActs 0 0) (.sweep 0) ∧ swept.launch 0 = some l ∧ l.swept = false) ∧
    launch2.blk.gang ≤ 1 ∧ (next 0).launchCancelling launch2 = false ∧ launch2.blk.determ = false ∧ launch2.blk.tiles = 2 ∧
    ((next 0).ctxInfo 0).isSome = true ∧ ((next 0).coreAt 0).timed = [] := by
  unfold takes; decide +kernel

/-- Nodes of each kind to start, and nodes that have ended. -/
theorem witness_GraphWalkersWork :
    (∀ n ∈ [node0 0 0x30000 0 0, node0 1 0x32000 0 0, node0 2 0x31000 0x30000 0, node0 2 0x31000 0 0, node0 3 0x31000 0x30000 0, node0 4 0 0 0],
      let g := graph0 n (.waiting 0)
      let s := walks g
      takes s (s.startables 0) (g, 0) ∧ s.graphCancelling g.id 5 = false ∧ s.reach 0 n.a 8 false = true) ∧
    (let s := walks (graph0 (node0 2 0x31000 0x30000 0) (.waiting 0))
     s.engineNum 0 0x31000 8 = 5 ∧ (s.readGraph 0 0x30000).isSome = true) ∧
    (let p := pkt 1 (64 * 2 ^ 32 + 0x33000 * 2 ^ 64 + 0x34000 * 2 ^ 128)
     let s := State.reset
     pktType p = 1 ∧ (mapped s).pktFails p 0 (dieOfCluster 0) = false ∧ s.barrierRoom (s.barrierPa 0 (pktField p 24 8)) 64 = true) ∧
    (∀ x ∈ [(node0 4 0 0 0, false, 0), (node0 3 0x31000 0x30000 1, false, 1)],
      let g := graph0 x.1 (.ended x.2.1 false x.2.2)
      let s := walks g
      takes s (s.completables 0) (g, 0, x.2.1, false, x.2.2)) ∧
    (let g : GraphRun := { graph0 (node0 4 0 0 0) (.waiting 0) with record := 0x35000 }
     let s := with_ (walks g) 0x35000 64 (2 ^ 64 * 2 ^ 64)
     g.states[1]? = some (.waiting 1) ∧ (s.recordPa 0 0x35000).isSome = true) := by
  unfold takes; decide +kernel

/-- The hub has the turn at stage `k`, with an input, context 0 mapped, and job 5 bound to it. -/
def hub (k : Nat) (x : Input) : State := { mapped (at_ .hub) with
  inbox := [x]
  hub := { State.reset.hub with stage := k, jobs := [(5, 0)] } }

/-- A message of job `j` over port `p`. -/
def msg (p j kind len addr operand : Nat) (payload : List Byte) : Msg :=
  let b := msgHeader kind 0 0 len addr operand 9 ++ payload
  { port := p, job := j, uet := 0, rod := false, bytes := if p = 16 then (bytesOf b.length 0 4).map (·.2) ++ b else b }

/-- The row that takes the one input of `s`, and the rest. -/
def row (s : State) : Option (HubRow × Nat) := (s.nextInput s.turn.pick).map (fun x => (s.inputRow x.2, (s.inbox.eraseIdx x.1).length))

/-- Zeros. -/
def zs (n : Nat) : List Byte := List.replicate n 0

/-- A message that is malformed, messages of each kind before service, unbound and bound, and the words that they reach. -/
theorem witness_MessagesAreAnswered :
    row (hub 7 (.message (msg 0 5 9 0 0 0 []))) = some (.malformed, 0) ∧ (hub 7 (.message (msg 0 5 9 0 0 0 []))).hub.halted = false ∧
    (let s := hub 7 (.message (msg 0 5 9 0 0 0 []))
     row { s with hub := { s.hub with halted := true } } = some (.malformed, 0)) ∧
    row (hub 4 (.message (msg 0 5 1 4 0x3000 0 (zs 4)))) = some (.msg 1, 0) ∧
    (hub 4 (.message (msg 0 5 1 4 0x3000 0 (zs 4)))).bound (msg 0 5 1 4 0x3000 0 (zs 4)) (msg 0 5 1 4 0x3000 0 (zs 4)).head = true ∧
    row (hub 7 (.message (msg 0 6 2 4 0x3000 0 []))) = some (.msg 2, 0) ∧
    (hub 7 (.message (msg 0 6 2 4 0x3000 0 []))).bound (msg 0 6 2 4 0x3000 0 []) (msg 0 6 2 4 0x3000 0 []).head = false ∧
    row (hub 7 (.message (msg 0 5 3 8 0x3000 7 []))) = some (.msg 3, 0) ∧
    (hub 7 (.message (msg 0 5 3 8 0x3000 7 []))).bound (msg 0 5 3 8 0x3000 7 []) (msg 0 5 3 8 0x3000 7 []).head = true ∧
    (msg 0 5 3 8 0x3000 7 []).head.addr % 8 = 0 ∧ (msg 0 5 3 8 0x3004 7 []).head.addr % 8 ≠ 0 ∧
    (let s := hub 7 .powerLoss
     (∀ n ∈ [1, 8], ok (s.msgPas 0 0x3000 n true true) = true) ∧ ok (s.msgPas 0 0x50000000 8 true true) = false ∧
     (s.hub.recorded.find? (fun e => e.1.1 == 5)).isNone = true ∧
     (with_ s 0x3000 4 1).home.pois 0xC00 = false ∧
     ({ s with home := s.home.setWords [(0xC00, true, false)] } : State).home.anyPois 0x3000 8 = true ∧
     ({ s with home := s.home.setWords [(0xC00, true, false)] } : State).home.pois (0x3000 / 4) = true) := by decide +kernel

/-- A chunk to sum, with its page mapped. -/
theorem witness_ReduceMessage :
    row (hub 7 (.message (msg 0 5 6 4096 0x4000 3 (zs 4096)))) = some (.msg 6, 0) ∧
    ok ((hub 7 .powerLoss).msgPas 0 0x4000 4096 true true) = true ∧ (zs 4096).length = 4096 := by decide +kernel

/-- A peer's reply to the one chunk sent. -/
theorem witness_PeerReply :
    row (hub 7 (.message (msg 0 5 5 0 0 0 []))) = some (.peerReply, 0) ∧ (msg 0 5 5 0 0 0 []).head.status = 0 ∧
    ({ copy0 none (some 1) with left := [], sent := [(9, 0)] } : Packet).sent = [((msg 0 5 5 0 0 0 []).head.tag, 0)] := by
  decide +kernel

/-- Every service request with a payload that is well formed, over the network or the management port. -/
theorem witness_RequestsReachTheirRows :
    (∀ x ∈ [(1, 8), (2, 8), (3, 8), (4, 32), (5, 2), (6, 2), (7, 96), (8, 8), (9, 0), (10, 32)],
      let m := msg 16 3 4 x.2 0 x.1 (zs x.2)
      let s := hub 7 (.message m)
      row { s with hub := { s.hub with conns := [3] } } = some (.svc x.1, 0) ∧ s.bound m m.head = true) ∧
    row (hub 4 (.message (msg 0 5 4 2 0 5 (zs 2)))) = some (.svc 5, 0) ∧
    row (hub 4 (.message (msg 0 5 4 8 0 1 (zs 8)))) = some (.svc 1, 0) := by decide +kernel

/-- A queue descriptor that is good, one that is not, and a fill of each kind; a report with its counter at and below its limit. -/
theorem witness_DescriptorsAreRead :
    let s := with_ (hub 7 .powerLoss) 0x3000 64 (0x21000 * 2 ^ 128 + 4 * 2 ^ 192)
    let f := with_ (hub 7 .powerLoss) 0x3000 64 (0x40000 * 2 ^ 128 + 64 * 2 ^ 192)
    s.layersOk 0 (s.home.num 0x3010 8) (64 * 2 ^ s.home.num 0x3018 1) = true ∧
    (with_ (hub 5 .powerLoss) 0x200000 8 (0x3F + 2 ^ 34)).layersOk 0 0x21000 1024 = false ∧
    s.descriptorPa 0 0x3000 true = some 0x3000 ∧ s.descriptorPa 0 0x3000 false = some 0x3000 ∧ s.registered 0 = true ∧ s.badQueue 0x3000 = false ∧ (hub 7 .powerLoss).badQueue 0x3000 = true ∧
    ({ s with queues := [{ queue none with pa := 0x3000 }] } : State).queues.find? (fun q => q.pa == 0x3000) = some { queue none with pa := 0x3000 } ∧
    f.registered 0 = true ∧ f.registered 9 = false ∧ f.fillFails ((List.range 64).map (fun i => f.home.byte (0x3000 + i))) = false ∧ f.fills.length < 64 ∧ s.fillFails (zs 64) = true ∧
    pktField (zs 64) 40 8 = 0 ∧ s.hub.counter < 2 ^ 25 ∧ 2 ^ 25 ≤ ({ s.hub with counter := 2 ^ 25 } : Hub).counter := by decide +kernel

/-- Contexts to register, to retire and to bind, and connections. -/
theorem witness_RegistrationsAreMade :
    let p : List Byte := (bytesOf (1 + 0x400000 * 2 ^ 64 + 0x8000 * 2 ^ 128 + 2 ^ 192 + 0x800000 * 2 ^ 384) 0 96).map (·.2)
    let s := hub 7 .powerLoss
    pktField p 0 2 = 1 ∧ s.registered 1 = false ∧ pktField p 2 6 = 0 ∧ pktField p 56 40 = 0 ∧ pktField p 8 8 % 2 ^ 21 = 0 ∧
    populated (pktField p 8 8) = true ∧ populated (pktField p 8 8 + 2 ^ 21 - 1) = true ∧ s.layerOk (pktField p 8 8) = true ∧
    pktField p 16 8 % 64 = 0 ∧ pktField p 16 8 < 2 ^ 48 ∧ pktField p 48 8 % 65536 = 0 ∧ pktField p 48 8 + 6 * 2 ^ 20 ≤ 2 ^ 48 ∧
    (s.grantLoft p).isSome = true ∧ s.freeRing.isSome = true ∧ s.registered 0 = true ∧ s.queues = [] ∧ s.fills = [] ∧ s.hub.jobs.any (fun e => e.1 == 6) = false ∧
    row (hub 1 (.connect 3 true)) = some (.mgmt, 0) ∧ row (hub 1 (.connect 3 false)) = some (.mgmt, 0) ∧
    (let s := hub 7 (.message { port := 16, job := 3, uet := 0, rod := false, bytes := [] })
     row { s with hub := { s.hub with conns := [3] } } = some (.mgmt, 0)) := by decide +kernel

/-- Power good with an empty image and no fuse blown. -/
def power0 : PowerOn := { rom := 0, image := [], key := [], signature := [], keyHash := 0, fuses := [] }

/-- Each input of the package has its row: power good and its loss, layers of each number, bands up to the trip, a reconciliation, an
error of each structure, and a dirty line that is lost. -/
theorem witness_PowerCoolingAndErrorsReachThePackage :
    row (hub 0 (.powerGood { power0 with fuses := [(0, 0x44, 0x3F)] })) = some (.powerGood, 0) ∧ State.reset.hub.measures.length = 8 ∧
    row (hub 7 (.powerGood power0)) = some (.powerGood, 0) ∧
    row (hub 3 (.layer 5 0)) = some (.layer, 0) ∧ ((hub 3 (.layer 5 0)).dieAt 5).layers.getLsbD 0 = false ∧
    row (hub 5 (.layer 0 3)) = some (.layer, 0) ∧
    (let s : State := { hub 5 (.layer 0 3) with dies := [(0, { Die.reset with layers := 7#4 })] }
     (s.dieAt 0).layers.getLsbD 3 = false ∧ (s.dieAt 0).layers.getLsbD 2 = true) ∧
    row (hub 7 .powerLoss) = some (.powerLoss, 0) ∧ (∀ b ∈ [0, 2, 3], row (hub 7 (.band 1 b)) = some (.band, 0)) ∧
    row (hub 7 (.reconcile 5 7 1)) = some (.reconcile, 0) ∧
    (∀ k ∈ [0, 1, 2, 3, 4, 5, 7, 8, 9, 10], row (hub 7 (.ecc k 0 (3 * 2 ^ 12))) = some (.ecc, 0)) ∧
    row (hub 7 (.dirtyLine 0x3000)) = some (.dirty, 0) ∧ (hub 7 (.dirtyLine 0x3000)).dirty.find? (fun e => e.1 == 0xC0) = none ∧
    ({ hub 7 (.dirtyLine 0x3000) with dirty := [(0xC0, 0, none)] } : State).dirty.find? (fun e => e.1 == 0xC0) = some (0xC0, 0, none) ∧
    (let s := hub 7 .powerLoss
     pteAt s (0x200000 + 8 * 0) = (0x3F, false) ∧ pteBit 0x3F 0 = true ∧ pteMalformed 0x3F 0 = false ∧ pteBit 0x3F 1 = true ∧ pteAddr 0x3F ≤ 65536) := by
  decide +kernel

/-! ## One step on fixed values, from the tables of the spec and hand calculation -/

/-- R107, the worked values: 500 and 70,000 and -0.001 rounded to nearest even (0) and toward zero (1). -/
theorem test_round_worked_values :
    fround fpE4 0 false 500 0 false = 0x7E ∧ fround fpE4 1 false 500 0 false = 0x7E ∧ fround fpE5 0 false 500 0 false = 0x60 ∧
    fround fpE5 1 false 500 0 false = 0x5F ∧ fround fpF16 0 false 500 0 false = 0x5FD0 ∧
    fround fpF16 0 false 70000 0 false = 0x7C00 ∧ fround fpF16 1 false 70000 0 false = 0x7BFF ∧
    fround fpE4 0 true 1048 (-20) false = 0x81 ∧ fround fpE4 1 true 1048 (-20) false = 0x80 := by decide +kernel

/-- The scalar result of an operation in a state with s2 = `a` and s3 = `b`. -/
def scalar (i : OpRR → Instr) (a b : Word) : Option Word :=
  match exec (i { sd := 1#7, sa := 2#7, sb := 3#7 }) (on (fun c => { c with s := s1 2 a false ++ s1 3 b false })) with
  | .next t => (t.me.flights.head?).map (fun f => f.val.setWidth 64)
  | _ => none

/-- S.ADD and S.SUB wrap, S.MUL keeps the low 64 bits, S.SRA copies the sign, and MIN compares signed values (R108 on). -/
theorem test_scalar_results :
    scalar (.sAdd (plain .S)) 0xFFFFFFFFFFFFFFFF#64 2#64 = some 1#64 ∧ scalar (.sSub (plain .S)) 0#64 1#64 = some 0xFFFFFFFFFFFFFFFF#64 ∧
    scalar (.sMul (plain .S)) 0x8000000000000001#64 2#64 = some 2#64 ∧
    scalar (.sSra (plain .S)) 0x8000000000000000#64 63#64 = some 0xFFFFFFFFFFFFFFFF#64 ∧
    scalar (.sMin (plain .S)) 0xFFFFFFFFFFFFFFFF#64 1#64 = some 0xFFFFFFFFFFFFFFFF#64 := by decide +kernel

/-- A loaded word is little-endian (R3), and a store of it gives the same bytes back. -/
theorem test_byte_order :
    (with_ State.reset 0x100 4 0x04030201).home.byte 0x100 = 1 ∧ (with_ State.reset 0x100 4 0x04030201).home.byte 0x103 = 4 ∧
    (with_ State.reset 0x100 4 0x04030201).home.num 0x101 2 = 0x0302 := by decide +kernel

end Sys2Proof.Tests
end

/-! PROOF. A syllable runs as the instruction that it decodes to, or not at all (R28 to R30, R41, R134). -/

namespace Sys2Proof.Machine

/-! ## The common fields of a decoded syllable (R28) -/

/-- Whatever instruction a decoding answers, it is an operation of a slot with the common fields `h`. -/
def Carries (h : Hdr) (x : Option Instr) : Prop := ∀ i, x = some i → (semOf i).map (·.1) = some h

theorem carries_none {h : Hdr} : Carries h none := fun _ e => nomatch e

/-- A row of an opcode map: the operands of one layout, under a constructor that takes `h`. -/
theorem carries_map {α : Type} {h : Hdr} {x : Option α} {c : α → Instr} (hc : ∀ f, (semOf (c f)).map (·.1) = some h) :
    Carries h (x.map c) := by
  intro i e
  obtain ⟨f, -, rfl⟩ := Option.map_eq_some_iff.mp e
  exact hc f

/-- A row of an opcode map that further bits of the word split. -/
theorem carries_ite {p : Prop} [Decidable p] {h : Hdr} {x y : Option Instr} (hx : Carries h x) (hy : Carries h y) :
    Carries h (if p then x else y) := by
  split
  · exact hx
  · exact hy

theorem decodeM_carries (op : Nat) (h : Hdr) (w : BitVec 43) : Carries h (decodeM op h w) := by
  unfold decodeM
  split
  case h_11 => exact carries_none
  all_goals exact carries_map (fun _ => rfl)

theorem decodeB_carries (op : Nat) (h : Hdr) (w : BitVec 43) : Carries h (decodeB op h w) := by
  unfold decodeB
  split
  case h_25 => exact carries_none
  all_goals exact carries_map (fun _ => rfl)

theorem decodeV_carries (op : Nat) (h : Hdr) (w : BitVec 43) : Carries h (decodeV op h w) := by
  unfold decodeV
  split
  case h_111 => exact carries_none
  all_goals exact carries_map (fun _ => rfl)

/-- The S-class map (R45). S.TLBINV and S.CTXDONE have a kind beside their opcode. -/
theorem decodeS_carries (op : Nat) (h : Hdr) (w : BitVec 43) : Carries h (decodeS op h w) := by
  unfold decodeS
  split
  case h_58 => -- S.TLBINV
    exact carries_ite (carries_map fun _ => rfl)
      (carries_ite (carries_map fun _ => rfl) (carries_ite (carries_map fun _ => rfl) carries_none))
  case h_60 => -- S.CTXDONE
    exact carries_ite (carries_map fun _ => rfl) (carries_ite (carries_map fun _ => rfl) carries_none)
  case h_65 => exact carries_none
  all_goals exact carries_map (fun _ => rfl)

/-- The C-class map (R48). The fences and C1.BEAT have a kind beside their opcode. -/
theorem decodeC_carries (op : Nat) (h : Hdr) (w : BitVec 43) : Carries h (decodeC op h w) := by
  unfold decodeC
  split
  case h_65 | h_66 => -- the fences
    exact carries_ite (carries_map fun _ => rfl)
      (carries_ite (carries_map fun _ => rfl) (carries_ite (carries_map fun _ => rfl) carries_none))
  case h_73 => -- C1.BEAT
    exact carries_ite (carries_map fun _ => rfl) (carries_ite (carries_map fun _ => rfl) carries_none)
  case h_89 => exact carries_none
  all_goals exact carries_map (fun _ => rfl)

theorem decodeFields_carries (sl : Slot) (w : BitVec 63) : Carries (hdrOf sl w) (decodeFields sl w) := by
  cases sl with
  | S => exact decodeS_carries _ _ _
  | V0 | V1 => exact decodeV_carries _ _ _
  | M => exact decodeM_carries _ _ _
  | C0 | C1 => exact decodeC_carries _ _ _
  | B => exact decodeB_carries _ _ _

theorem decodeFields_of_decodeSyl {sl : Slot} {w : BitVec 63} {i : Instr} (e : decodeSyl sl w = some i) :
    decodeFields sl w = some i := by
  unfold decodeSyl at e
  cases hd : decodeFields sl w with
  | none => simp [hd] at e
  | some j =>
    obtain ⟨-, rfl⟩ : j.wf = true ∧ j = i := by simpa [hd] using e
    rfl

/-- A decoded syllable is an operation of a slot, with the common fields of the syllable. -/
theorem semOf_of_decodeSyl {sl : Slot} {w : BitVec 63} {i : Instr} (e : decodeSyl sl w = some i) :
    ∃ m, semOf i = some (hdrOf sl w, m) := by
  obtain ⟨⟨h, m⟩, hm, rfl⟩ := Option.map_eq_some_iff.mp (decodeFields_carries sl w i (decodeFields_of_decodeSyl e))
  exact ⟨m, hm⟩

/-! ## Issue and execution read one syllable alike -/

/-- The operation that issue finds in a decoded syllable is that of its instruction. -/
theorem semOfWord_of_decodeSyl {sl : Slot} {w : BitVec 63} {i : Instr} {m : Sem} (e : decodeSyl sl w = some i)
    (hm : semOf i = some (hdrOf sl w, m)) : semOfWord sl w = some m := by
  simp [semOfWord_eq, e, hm]

/-- Running a syllable is `exec` of the instruction that it decodes to. -/
theorem runSyllable_of_decodeSyl {sl : Slot} {w : BitVec 63} {i : Instr} (e : decodeSyl sl w = some i) (s : State) :
    runSyllable sl w s = exec i s := by
  obtain ⟨m, hm⟩ := semOf_of_decodeSyl e
  rw [runSyllable, semOfWord_of_decodeSyl e hm, exec_semOf hm]

/-- Issue finds an operation in a syllable exactly where it decodes. -/
theorem semOfWord_isSome (sl : Slot) (w : BitVec 63) : (semOfWord sl w).isSome = (decodeSyl sl w).isSome := by
  cases e : decodeSyl sl w with
  | none => simp [semOfWord_eq, e]
  | some i =>
    obtain ⟨m, hm⟩ := semOf_of_decodeSyl e
    simp [semOfWord_of_decodeSyl e hm]

/-! ## Inactive operations (R29, R30, R41) -/

/-- Where an operation is inactive (R29, R41): its leaf-mask bit is 0, its guard agrees with its sense, or a branch-class
operation stands in a leaf other than 0. -/
theorem Core.active_eq_false_iff (c : Core) (h : Hdr) (br : Bool) :
    c.active h br = false ↔
      h.mask.getLsbD c.leaf = false ∨ (c.guardOf h).1 = h.sense ∨ br = true ∧ c.leaf ≠ 0 := by
  simp only [Core.active, onLeaf, Bool.and_eq_false_iff, Bool.or_eq_false_iff, Bool.not_eq_false', bne_eq_false_iff_eq,
    beq_eq_false_iff_ne]
  tauto

/-- The leaf mask stands in bits 55:51 of the syllable (R28). -/
theorem hdrOf_mask_eq_false {sl : Slot} {w : BitVec 63} {l : Nat} (h : w.getLsbD (51 + l) = false) :
    (hdrOf sl w).mask.getLsbD l = false := by
  simp [hdrOf, bitsAt, h]

/-- Settles O4: a decoded syllable is the operation of its instruction under its own common fields, and `Sem.run` of an
inactive operation is the state itself. -/
theorem syllableRunsAsItsInstructionOrNotAtAll : Obligations.SyllableRunsAsItsInstructionOrNotAtAll := by
  intro sl w s
  refine ⟨fun i e => runSyllable_of_decodeSyl e s, semOfWord_isSome sl w, fun m hm hi hoff => ?_⟩
  have ha : s.me.active (hdrOf sl w) m.branch = false :=
    (Core.active_eq_false_iff ..).mpr (hoff.imp_left hdrOf_mask_eq_false)
  rw [runSyllable, hm]
  exact Sem.run_inactive hi ha

end Sys2Proof.Machine

/-! PROOF. Predicate results, the reports S.PGET and S.RTAG, and p0 (R75, R90, R93, R120). -/

namespace Sys2Proof.Machine

open Sys2Proof.Claims

/-! ## Predicate results (R120) -/

section
variable {h : Hdr} {s : State} (ha : acts h false s)
include ha

/-- A predicate operation on two scalars puts its one result in flight. -/
theorem run_semPSS (pd : BitVec 6) (sa sb : BitVec 7) (g : Word → Word → Bool) :
    (semPSS h pd sa sb g).run h s = .next (predOut s h.slot pd 1
      (g (s.me.rs h.slot sa).1 (s.me.rs h.slot sb 1).1) ((s.me.rs h.slot sa).2 || (s.me.rs h.slot sb 1).2)) :=
  Sem.run_active ha.1 ha.2

/-- A predicate operation on one scalar. -/
theorem run_semPS (pd : BitVec 6) (sa : BitVec 7) (g : Word → Bool) :
    (semPS h pd sa g).run h s =
      .next (predOut s h.slot pd 1 (g (s.me.rs h.slot sa).1) (s.me.rs h.slot sa).2) :=
  Sem.run_active ha.1 ha.2

/-- The logic of two predicates, each inverted where its n bit is set. -/
theorem run_semPPP (f : OpPL) (g : Bool → Bool → Bool) :
    (semPPP h f g).run h s = .next (predOut s h.slot f.pd 1
      (g ((s.me.rp h.slot f.pa).1 ^^ f.na) ((s.me.rp h.slot f.pb 1).1 ^^ f.nb))
      ((s.me.rp h.slot f.pa).2 || (s.me.rp h.slot f.pb 1).2)) :=
  Sem.run_active ha.1 ha.2

end

/-! The comparisons on the values of words, as comparisons of the words. -/

theorem decide_toInt_le {w : Nat} (a b : BitVec w) : decide (a.toInt ≤ b.toInt) = !b.slt a := by
  simp [BitVec.slt, ← decide_not]

theorem decide_toNat_le {w : Nat} (a b : BitVec w) : decide (a.toNat ≤ b.toNat) = !b.ult a := by
  simp [BitVec.ult, ← decide_not]

theorem decide_toInt_eq_signExtend {v w : Nat} (h : v ≤ w) (a : BitVec w) (b : BitVec v) :
    decide (a.toInt = b.toInt) = (a == b.signExtend w) := by
  simp only [← BitVec.toInt_signExtend_of_le h, BitVec.toInt_inj, beq_eq_decide]

theorem decide_toInt_lt_signExtend {v w : Nat} (h : v ≤ w) (a : BitVec w) (b : BitVec v) :
    decide (a.toInt < b.toInt) = a.slt (b.signExtend w) := by
  rw [← BitVec.toInt_signExtend_of_le h, BitVec.slt]

/-! ## The predicate file (R90) -/

/-- The word that takes a 1 at each place of a list that satisfies `p`. -/
theorem getLsbD_foldl_setBit {w : Nat} (p : Nat → Prop) [DecidablePred p] (l : List Nat) (x : BitVec w) {j : Nat}
    (hj : j < w) :
    (l.foldl (fun x i => if p i then x ||| (1#w <<< i) else x) x).getLsbD j =
      (x.getLsbD j || decide (j ∈ l ∧ p j)) := by
  induction l generalizing x with
  | nil => simp
  | cons i l ih =>
    have hstep : (if p i then x ||| (1#w <<< i) else x).getLsbD j = (x.getLsbD j || decide (j = i ∧ p j)) := by
      rw [← BitVec.twoPow_eq]
      obtain rfl | hji := eq_or_ne j i
      · by_cases hp : p j <;> simp [hp, hj]
      · by_cases hp : p i <;> simp [hp, hji, hji.symm, BitVec.getLsbD_twoPow]
    rw [List.foldl_cons, ih, hstep]
    simp [List.mem_cons, or_and_right, Bool.or_assoc]

/-- Bit `i` of the predicate file is logical p_i where no operand is captured. -/
theorem Core.predFile_getLsbD {c : Core} (hc : c.capVal 0 8 0 = none) {i : Nat} (hi : i < 64) :
    c.predFile.1.getLsbD i = (c.preg (c.physP i)).val := by
  simp only [Core.predFile, hc]
  rw [getLsbD_foldl_setBit (fun i => (c.preg (c.physP i)).val = true) _ _ hi]
  simp [hi]

/-- The predicate file carries poison exactly where one of the 64 predicates does. -/
theorem Core.predFile_poison_iff {c : Core} (hc : c.capVal 0 8 0 = none) :
    c.predFile.2 = true ↔ ∃ i < 64, (c.preg (c.physP i)).poison = true := by
  simp [Core.predFile, hc]

/-! ## The report of S.RTAG (R93) -/

/-- The fields of a report: the tag in bits 3:0 and a flag in each of bits 4 to 7. -/
theorem report_fields (t : BitVec 4) (b4 b5 b6 b7 : Bool) :
    let r := BitVec.ofNat 64 (t.toNat + (if b4 then 16 else 0) + (if b5 then 32 else 0) + (if b6 then 64 else 0) +
      (if b7 then 128 else 0))
    r.extractLsb' 0 4 = t ∧ r.getLsbD 4 = b4 ∧ r.getLsbD 5 = b5 ∧ r.getLsbD 6 = b6 ∧ r.getLsbD 7 = b7 := by
  decide +revert

theorem Core.tagReport_tile (c : Core) (r : BitVec 10) :
    (c.tagReport true r).extractLsb' 0 4 = (c.treg r.toNat).tag ∧
      (c.tagReport true r).getLsbD 4 = (c.treg r.toNat).ready ∧
      (c.tagReport true r).getLsbD 7 = ((c.treg r.toNat).poison != 0#256) := by
  obtain ⟨htag, hready, -, -, hpois⟩ :=
    report_fields (c.treg r.toNat).tag (c.treg r.toNat).ready false false ((c.treg r.toNat).poison != 0#256)
  exact ⟨htag, hready, hpois⟩

theorem Core.tagReport_vector (c : Core) (r : BitVec 10) :
    (c.tagReport false r).extractLsb' 0 4 = (c.vreg (c.physV r.toNat)).tag ∧
      (c.tagReport false r).getLsbD 5 = (c.vreg (c.physV r.toNat)).pend ∧
      (c.tagReport false r).getLsbD 6 = (c.flumeOf (c.physV r.toNat)).isSome ∧
      (c.tagReport false r).getLsbD 7 = ((c.vreg (c.physV r.toNat)).poison != 0#32) := by
  obtain ⟨htag, -, hpend, hflume, hpois⟩ :=
    report_fields (c.vreg (c.physV r.toNat)).tag true (c.vreg (c.physV r.toNat)).pend
      (c.flumeOf (c.physV r.toNat)).isSome ((c.vreg (c.physV r.toNat)).poison != 0#32)
  exact ⟨htag, hpend, hflume, hpois⟩

/-! ## p0 and the other predicates (R75) -/

theorem Core.preg_putP_same (c : Core) {n : Nat} (hn : n ≠ 0) (r : PReg) : (c.putP n r).preg n = r := by
  simp [Core.preg_putP, hn]

theorem Core.preg_putP_other (c : Core) {n m : Nat} (hm : m ≠ n) (r : PReg) : (c.putP n r).preg m = c.preg m := by
  by_cases hn : n = 0
  · rw [hn, Core.putP_zero]
  · rw [Core.preg_putP c n m r hn, if_neg hm]
    split
    · next h0 => rw [h0, Core.preg_zero]
    · rfl

/-- Settles O8, clause by clause: the results by the three shapes of a predicate operation, the reports bit by bit, and the
predicate file by what a write of it reads back. -/
theorem predicateResultsAndReports : Obligations.PredicateResultsAndReports := by
  refine ⟨fun h f fi fl fb s ha => ⟨?_, ?_, ?_, ?_⟩, fun c k r => ⟨?_, ?_, ?_, ?_⟩, fun c n r => ⟨?_, ?_, ?_⟩⟩
  · have run := run_semPSS ha f.pd f.sa f.sb
    simp only [← decide_toInt_le, ← decide_toNat_le]
    exact ⟨run _, run _, run _, run _, run _, run _⟩
  · have run := run_semPS ha fi.pd fi.sa
    simp only [← decide_toInt_eq_signExtend (by decide : 30 ≤ 64), ← decide_toInt_lt_signExtend (by decide : 30 ≤ 64)]
    exact ⟨run _, run _⟩
  · exact ⟨run_semPPP ha fl _, run_semPPP ha fl _, run_semPPP ha fl _⟩
  · exact run_semPS ha fb.pd fb.sa _
  · exact fun hc i hi => Core.predFile_getLsbD hc hi
  · exact Core.predFile_poison_iff
  · rintro rfl
    exact c.tagReport_tile r
  · rintro rfl
    exact c.tagReport_vector r
  · exact Core.preg_zero c
  · exact Core.putP_zero c r
  · exact fun hn => ⟨Core.preg_putP_same c hn r, fun m hm => Core.preg_putP_other c hm r⟩

end Sys2Proof.Machine

/-! PROOF. Integer arithmetic, logic, shifts and compares of the vector slots (R142, R143, R146). -/

namespace Sys2Proof.Machine

open Sys2Proof.Claims

/-! ## Elements as words (R95) -/

theorem toNat_el {k : Nat} (v : BitVec k) (w j : Nat) : (el v w j).toNat = elem v w j := by
  simp [el, elem, Nat.shiftRight_eq_div_pow]

/-- An element of an element is an element of the register. -/
theorem el_el {k : Nat} (v : BitVec k) {w n i : Nat} (j : Nat) (hi : i < n) :
    el (el v (w * n) j) w i = el v w (n * j + i) := by
  have hw : w * i + w ≤ w * n := by simpa [Nat.mul_succ] using Nat.mul_le_mul_left w hi
  ext b hb
  simp only [el, BitVec.getElem_extractLsb', BitVec.getLsbD_extractLsb', show w * i + b < w * n by omega, decide_true,
    Bool.true_and, Nat.mul_add, Nat.mul_assoc, Nat.add_assoc]

/-- An element of a register built from a list. -/
theorem el_vecOf {w : Nat} {l : List Nat} (h : w * l.length ≤ 1024) (j : Nat) :
    el (vecOf w l) w j = BitVec.ofNat w (l.getD j 0) := by
  apply BitVec.eq_of_toNat_eq
  rw [toNat_el, elem_vecOf w l j h, BitVec.toNat_ofNat]

/-- An element of the register whose elements are given by index. -/
theorem el_vecOf_map_range (w : Nat) (g : Nat → Nat) {j : Nat} (hj : j < 1024 / w) :
    el (vecOf w ((List.range (1024 / w)).map g)) w j = BitVec.ofNat w (g j) := by
  rw [el_vecOf (by simpa using Nat.mul_div_le 1024 w)]
  simp [hj]

/-- The elements of a register, combined one by one with those of another. -/
theorem el_vecOf_zipWith (g : Nat → Nat → Nat) (a b : Vec) (w : Nat) {j : Nat} (hj : j < 1024 / w) :
    el (vecOf w (List.zipWith g (elems a w) (elems b w))) w j =
      BitVec.ofNat w (g (el a w j).toNat (el b w j).toNat) := by
  rw [el_vecOf (by simpa [elems] using Nat.mul_div_le 1024 w), getD_zipWith g a b w j hj, toNat_el, toNat_el]

/-! ## The shapes of an elementwise operation (R136, R142, R146) -/

theorem Core.lat_same (c : Core) (n : Nat) : c.lat n n = n := ite_self n

section
variable {h : Hdr} {s : State} (ha : acts h false s)
include ha

/-- A vector operation without warnings puts its one result in flight. -/
theorem run_semVec (vd : BitVec 10) (reads : List (BitVec 10 × List Nat)) (extra : Core → Option Trap) (lat : Nat)
    (g : Core → VOut) (hw : (g s.me).warn = 0) :
    (semVec h vd reads extra lat lat g).run h s = .next (s.onMe fun c =>
      c.outV h vd lat (g s.me).val (BitVec.ofNat 4 (g s.me).tag) (g s.me).poison) := by
  rw [Sem.run_active ha.1 ha.2]
  simp [semVec, State.onMe, Core.lat_same, Core.outWarn, hw]

/-- An elementwise operation on one register. -/
theorem yields_semV1 {vd va : BitVec 10} {acc : List Nat} {lat w tag : Nat} {g : Nat → Nat} {e : Nat → BitVec w}
    (he : ∀ j, BitVec.ofNat w (g (el (s.me.rv h.slot va).val w j).toNat) = e j) :
    yields h vd lat w s (BitVec.ofNat 4 tag) (fun l => (s.me.rv h.slot va).poison.getLsbD l) e
      ((semV1 h vd va acc lat w tag g).run h s) := by
  refine ⟨_, _, fun j hj => ?_, fun l _ => ?_, run_semVec ha _ _ _ _ _ rfl⟩
  · simp only [elems, List.map_map]
    rw [el_vecOf_map_range _ _ hj, ← he, toNat_el, Function.comp_apply]
  · rfl

/-- An elementwise operation on two registers. -/
theorem yields_semVV {vd va vb : BitVec 10} {accA accB : List Nat} {lat w : Nat} {tag : Nat → Nat → Nat} {t : BitVec 4}
    {g : Nat → Nat → Nat} {e : Nat → BitVec w}
    (ht : BitVec.ofNat 4 (tag (s.me.rv h.slot va).tag.toNat (s.me.rv h.slot vb 1).tag.toNat) = t)
    (he : ∀ j, BitVec.ofNat w (g (el (s.me.rv h.slot va).val w j).toNat (el (s.me.rv h.slot vb 1).val w j).toNat) = e j) :
    yields h vd lat w s t
      (fun l => (s.me.rv h.slot va).poison.getLsbD l || (s.me.rv h.slot vb 1).poison.getLsbD l) e
      ((semVV h vd va vb accA accB lat w tag g).run h s) := by
  subst ht
  refine ⟨_, _, fun j hj => ?_, fun l _ => ?_, run_semVec ha _ _ _ _ _ rfl⟩
  · rw [el_vecOf_zipWith _ _ _ _ hj, he]
  · exact BitVec.getLsbD_or

/-- An elementwise operation on two registers that also reads vd. -/
theorem yields_semVVV {vd va vb : BitVec 10} {accD accA accB : List Nat} {lat w tag : Nat} {g : Nat → Nat → Nat → Nat}
    {e : Nat → BitVec w}
    (he : ∀ j, BitVec.ofNat w (g (el (s.me.rv h.slot va 1).val w j).toNat (el (s.me.rv h.slot vb 2).val w j).toNat
      (el (s.me.rv h.slot vd).val w j).toNat) = e j) :
    yields h vd lat w s (BitVec.ofNat 4 tag)
      (fun l => (s.me.rv h.slot va 1).poison.getLsbD l || (s.me.rv h.slot vb 2).poison.getLsbD l ||
        (s.me.rv h.slot vd).poison.getLsbD l) e
      ((semVVV h vd va vb accD accA accB lat w tag g).run h s) := by
  refine ⟨_, _, fun j hj => ?_, fun l _ => ?_, run_semVec ha _ _ _ _ _ rfl⟩
  · simp only [elems, List.zip_map', List.map_map]
    rw [el_vecOf_map_range _ _ hj, ← he]
    simp only [toNat_el, Function.comp_apply]
  · simp only [BitVec.getLsbD_or]

/-- A logic operation keeps a common tag, and gives BITS to two different ones (R143). -/
theorem run_semVLogic (f : OpV3) (g : Vec → Vec → Vec) :
    let a := s.me.rv h.slot f.va
    let b := s.me.rv h.slot f.vb 1
    (semVLogic h f g).run h s = .next (s.onMe fun c =>
      c.outV h f.vd 2 (g a.val b.val) (if a.tag = b.tag then a.tag else 0#4) (a.poison ||| b.poison)) := by
  rw [semVLogic, run_semVec ha _ _ _ _ _ rfl, apply_ite (BitVec.ofNat 4)]
  simp [tBITS]

/-- A compare of two registers by lane. -/
theorem masks_semVCmp {f : OpVM} {acc : List Nat} {g : Nat → Nat → Bool} {k : Nat → Bool}
    (hk : ∀ j, g (el (s.me.rv h.slot f.va).val 32 j).toNat (el (s.me.rv h.slot f.vb 1).val 32 j).toNat = k j) :
    masks h f.md 2 s ((s.me.rv h.slot f.va).poison != 0#32 || (s.me.rv h.slot f.vb 1).poison != 0#32) k
      ((semVCmp h f acc g).run h s) := by
  refine ⟨_, fun j hj => ?_, Sem.run_active ha.1 ha.2⟩
  rw [lanesOf_bit _ j hj, ← toNat_el, ← toNat_el, hk]

end

/-! ## The arithmetic of the model on words (R5, R142) -/

theorem sx_toNat {w : Nat} (x : BitVec w) : sx x.toNat w = x.toInt := by
  cases w with
  | zero => simp [sx, BitVec.of_length_zero]
  | succ n =>
    have hhalf : (2 * x.toNat < 2 ^ (n + 1)) ↔ x.toNat < 2 ^ n := by rw [Nat.pow_succ]; omega
    simp [sx, BitVec.toInt_eq_toNat_cond, Nat.mod_eq_of_lt x.isLt, hhalf]

/-- The signed value of element `i` of a word. -/
theorem sx_toNat_div {k : Nat} (x : BitVec k) (w i : Nat) : sx (x.toNat / 2 ^ (w * i)) w = (el x w i).toInt := by
  rw [← sx_toNat, toNat_el, elem, sx, sx, Nat.mod_mod]

theorem ofNat_wrap (w : Nat) (z : Int) : BitVec.ofNat w (wrap z w) = BitVec.ofInt w z := by
  apply BitVec.eq_of_toNat_eq
  have hp : (0 : Int) < 2 ^ w := by positivity
  have h0 := Int.emod_nonneg z hp.ne'
  have h1 := Int.emod_lt_of_pos z hp
  rw [BitVec.toNat_ofNat, BitVec.toNat_ofInt, wrap, Nat.mod_eq_of_lt (by zify; rwa [Int.toNat_of_nonneg h0])]
  norm_cast

/-- Saturation in the model and in the claims. -/
theorem ofInt_satI (w : Nat) (z : Int) : BitVec.ofInt w (satI z (-2 ^ (w - 1)) (2 ^ (w - 1) - 1)) = satS w z := by
  simp only [satI, satS, Int.sub_one_lt_iff]
  split_ifs <;> rfl

theorem ofInt_sub (w : Nat) (x y : Int) : BitVec.ofInt w (x - y) = BitVec.ofInt w x - BitVec.ofInt w y := by
  rw [Int.sub_eq_add_neg, BitVec.ofInt_add, BitVec.ofInt_neg, BitVec.sub_eq_add_neg]

theorem ofNat_toNat_same {w : Nat} (x : BitVec w) : BitVec.ofNat w x.toNat = x := by simp

section
variable {w : Nat} (x y : BitVec w)

theorem ofNat_toNat_add : BitVec.ofNat w (x.toNat + y.toNat) = x + y := by simp [BitVec.ofNat_add]

theorem ofNat_toNat_mul : BitVec.ofNat w (x.toNat * y.toNat) = x * y := by simp [BitVec.ofNat_mul]

theorem ofNat_wrap_toNat_sub : BitVec.ofNat w (wrap ((x.toNat : Int) - y.toNat) w) = x - y := by
  simp [ofNat_wrap, ofInt_sub]

theorem ofNat_wrap_mulHigh :
    BitVec.ofNat w (wrap (sx x.toNat w * sx y.toNat w / 2 ^ w) w) = BitVec.ofInt w (x.toInt * y.toInt / 2 ^ w) := by
  rw [ofNat_wrap, sx_toNat, sx_toNat]

theorem ofNat_wrap_satI_add :
    BitVec.ofNat w (wrap (satI (sx x.toNat w + sx y.toNat w) (-2 ^ (w - 1)) (2 ^ (w - 1) - 1)) w) =
      satS w (x.toInt + y.toInt) := by
  rw [ofNat_wrap, ofInt_satI, sx_toNat, sx_toNat]

theorem ofNat_wrap_satI_sub :
    BitVec.ofNat w (wrap (satI (sx x.toNat w - sx y.toNat w) (-2 ^ (w - 1)) (2 ^ (w - 1) - 1)) w) =
      satS w (x.toInt - y.toInt) := by
  rw [ofNat_wrap, ofInt_satI, sx_toNat, sx_toNat]

/-- The choice that the minima and maxima make: of equal operands the first. -/
theorem ofNat_ite_le {α : Type} [LinearOrder α] (m n : α) :
    BitVec.ofNat w (if m ≤ n then x.toNat else y.toNat) = if n < m then y else x := by
  simp only [← not_lt, ite_not, apply_ite (BitVec.ofNat w), ofNat_toNat_same]

theorem ofNat_min_sx :
    BitVec.ofNat w (if sx x.toNat w ≤ sx y.toNat w then x.toNat else y.toNat) = if y.slt x then y else x := by
  simp only [ofNat_ite_le, sx_toNat, BitVec.slt_iff_toInt_lt]

theorem ofNat_max_sx :
    BitVec.ofNat w (if sx y.toNat w ≤ sx x.toNat w then x.toNat else y.toNat) = if x.slt y then y else x := by
  simp only [ofNat_ite_le, sx_toNat, BitVec.slt_iff_toInt_lt]

theorem ofNat_min_toNat : BitVec.ofNat w (min x.toNat y.toNat) = if y.ult x then y else x := by
  simp only [min_def, ofNat_ite_le, BitVec.ult_iff_lt, BitVec.lt_def]

theorem ofNat_max_toNat : BitVec.ofNat w (max x.toNat y.toNat) = if x.ult y then y else x := by
  simp only [max_comm x.toNat, max_def, ofNat_ite_le, BitVec.ult_iff_lt, BitVec.lt_def]

theorem ofNat_toNat_shiftLeft (n : Nat) : BitVec.ofNat w (x.toNat * 2 ^ n) = x <<< n := by
  apply BitVec.eq_of_toNat_eq
  simp [Nat.shiftLeft_eq]

theorem ofNat_toNat_ushiftRight (n : Nat) : BitVec.ofNat w (x.toNat / 2 ^ n) = x >>> n := by
  rw [← Nat.shiftRight_eq_div_pow, ← BitVec.toNat_ushiftRight, ofNat_toNat_same]

theorem ofNat_wrap_sshiftRight (n : Nat) : BitVec.ofNat w (wrap (sx x.toNat w / 2 ^ n) w) = x.sshiftRight n := by
  rw [ofNat_wrap, sx_toNat, BitVec.sshiftRight_eq, Int.shiftRight_eq_div_pow]
  norm_cast

end

/-- The sum of two bytes limited to 255. -/
theorem ofNat_min_add_255 (x y : BitVec 8) :
    BitVec.ofNat 8 (min (x.toNat + y.toNat) 255) = if 255 < x.toNat + y.toNat then 255#8 else x + y := by
  simp only [min_def, ← not_lt, ite_not, apply_ite (BitVec.ofNat 8), ofNat_toNat_add]

/-- The absolute value, in which the most negative number gives the largest. -/
theorem ofNat_min_natAbs (x : BitVec 32) :
    BitVec.ofNat 32 (min (sx x.toNat 32).natAbs (2 ^ 31 - 1)) =
      if x = 0x80000000#32 then 0x7FFFFFFF#32 else if x.msb then -x else x := by
  rw [sx_toNat]
  by_cases hmin : x = 0x80000000#32
  · subst hmin
    decide
  rw [if_neg hmin]
  have hne : x.toNat ≠ 0x80000000 := fun e => hmin (BitVec.eq_of_toNat_eq e)
  apply BitVec.eq_of_toNat_eq
  by_cases hneg : x.msb = true
  · have h := BitVec.msb_eq_true_iff_two_mul_ge.mp hneg
    rw [if_pos hneg, BitVec.toNat_neg, BitVec.toNat_ofNat, BitVec.toInt_eq_toNat_cond, if_neg (by omega)]
    omega
  · have h := BitVec.msb_eq_false_iff_two_mul_lt.mp (Bool.eq_false_iff.mpr hneg)
    rw [if_neg hneg, BitVec.toNat_ofNat, BitVec.toInt_eq_toNat_cond, if_pos (by omega)]
    omega

/-- The bytes of a 32-bit lane. -/
theorem el_lane_byte {k : Nat} (v : BitVec k) (j : Nat) {i : Nat} (hi : i < 4) : el (el v 32 j) 8 i = el v 8 (4 * j + i) :=
  el_el (w := 8) v j hi

/-- The four products of the signed bytes of two lanes. -/
theorem dot4_toNat (x y : BitVec 32) :
    dot4 x.toNat y.toNat =
      (el x 8 0).toInt * (el y 8 0).toInt + (el x 8 1).toInt * (el y 8 1).toInt +
        (el x 8 2).toInt * (el y 8 2).toInt + (el x 8 3).toInt * (el y 8 3).toInt := by
  simp only [← sx_toNat_div, Nat.mul_zero, pow_zero, Nat.div_one]
  rfl

/-- The four-way dot product added to a lane, from the bytes of the two registers. -/
theorem ofNat_wrap_dot4 {k : Nat} (a b : BitVec k) (z : BitVec 32) (j : Nat) :
    BitVec.ofNat 32 (wrap ((z.toNat : Int) + dot4 (el a 32 j).toNat (el b 32 j).toNat) 32) =
      z + BitVec.ofInt 32 ((el a 8 (4 * j)).toInt * (el b 8 (4 * j)).toInt +
        (el a 8 (4 * j + 1)).toInt * (el b 8 (4 * j + 1)).toInt +
        (el a 8 (4 * j + 2)).toInt * (el b 8 (4 * j + 2)).toInt +
        (el a 8 (4 * j + 3)).toInt * (el b 8 (4 * j + 3)).toInt) := by
  rw [ofNat_wrap, BitVec.ofInt_add, BitVec.ofInt_natCast, ofNat_toNat_same, dot4_toNat]
  simp only [el_lane_byte, Nat.ofNat_pos, Nat.reduceLT, Nat.add_zero]

/-! ## The tests of the compares on words (R146) -/

theorem decide_toNat_eq {w : Nat} (x y : BitVec w) : decide (x.toNat = y.toNat) = (x == y) := by
  simp only [BitVec.toNat_inj, beq_eq_decide]

theorem decide_sx_lt {w : Nat} (x y : BitVec w) : decide (sx x.toNat w < sx y.toNat w) = x.slt y := by
  rw [sx_toNat, sx_toNat, BitVec.slt]

theorem decide_sx_le {w : Nat} (x y : BitVec w) : decide (sx x.toNat w ≤ sx y.toNat w) = !y.slt x := by
  rw [sx_toNat, sx_toNat, decide_toInt_le]

theorem decide_nan_or_nan (x y : FNum) : decide (x = .nan ∨ y = .nan) = (x == .nan || y == .nan) := by
  simp only [Bool.decide_or, beq_eq_decide]

/-- Settles O12. Each operation is one of the shapes above; what is left is its arithmetic on the words of an element. -/
theorem vectorIntegerLogicAndCompares : Obligations.VectorIntegerLogicAndCompares := by
  refine ⟨fun h f g s ha => ?_, fun h f s ha => ?_, fun h f s ha => ?_⟩
  · have tagA := ofNat_toNat_same (s.me.rv h.slot f.va).tag
    exact
     ⟨-- sums, products and saturation in INT32
      yields_semVV ha tagA fun _ => ofNat_toNat_add _ _,
      yields_semVV ha tagA fun _ => ofNat_wrap_toNat_sub _ _,
      yields_semVV ha tagA fun _ => ofNat_toNat_mul _ _,
      yields_semVV ha rfl fun _ => ofNat_wrap_mulHigh _ _,
      yields_semVV ha rfl fun _ => ofNat_wrap_satI_add _ _,
      yields_semVV ha rfl fun _ => ofNat_wrap_satI_sub _ _,
      -- in the 16-bit formats
      yields_semVV ha tagA fun _ => ofNat_toNat_add _ _,
      yields_semVV ha rfl fun _ => ofNat_wrap_satI_add _ _,
      -- in the 8-bit formats
      yields_semVV ha tagA fun _ => ofNat_toNat_add _ _,
      yields_semVV ha rfl fun _ => ofNat_wrap_satI_add _ _,
      yields_semVV ha rfl fun _ => ofNat_min_add_255 _ _,
      -- minima and maxima, the absolute value, the dot product
      yields_semVV ha rfl fun _ => ofNat_min_sx _ _,
      yields_semVV ha rfl fun _ => ofNat_max_sx _ _,
      yields_semVV ha rfl fun _ => ofNat_min_toNat _ _,
      yields_semVV ha rfl fun _ => ofNat_max_toNat _ _,
      yields_semV1 ha fun _ => ofNat_min_natAbs _,
      yields_semVVV ha fun j => ofNat_wrap_dot4 _ _ _ j⟩
  · have tagA := ofNat_toNat_same (s.me.rv h.slot f.va).tag
    exact
     ⟨-- logic, then the shifts
      run_semVLogic ha f _, run_semVLogic ha f _, run_semVLogic ha f _, run_semVLogic ha f _,
      yields_semVV ha tagA fun _ => ofNat_toNat_shiftLeft _ _,
      yields_semVV ha tagA fun _ => ofNat_toNat_ushiftRight _ _,
      yields_semVV ha rfl fun _ => ofNat_wrap_sshiftRight _ _⟩
  · exact
     ⟨-- of integers
      masks_semVCmp ha fun _ => decide_toNat_eq _ _,
      masks_semVCmp ha fun _ => decide_sx_lt _ _,
      masks_semVCmp ha fun _ => decide_sx_le _ _,
      masks_semVCmp ha fun _ => rfl,
      -- of FP32 values
      masks_semVCmp ha fun _ => rfl,
      masks_semVCmp ha fun _ => rfl,
      masks_semVCmp ha fun _ => rfl,
      masks_semVCmp ha fun _ => decide_nan_or_nan _ _⟩

end Sys2Proof.Machine
